-- ==== Sys2Proof/Word.lean ====
section
/-! DEFINITION. The word types of the device: 32-bit registers (R6), bytes, and nothing else. -/

namespace Sys2Proof

/-- A register word (R6: registers are 32 bits wide). -/
abbrev Word := BitVec 32

/-- A byte of a frame, of a buffer or of a key. -/
abbrev Byte := BitVec 8

end Sys2Proof
end

