-- ==== Sys2Proof/Syntax.lean ====
section
/-! DEFINITION. The commands of the block: one constructor for each row of the table of operations and events, with the
operands its sender gives. Operands that the spec does not number are the facts that the outside world observes at the
moment of the command (a frame's bytes, a measured value, a verdict of the other side of a wire). -/

namespace Sys2Proof

/-- What an E-port MAC receives: the next bytes of a frame on the wire, DA to FCS (1 to 64 of them), whether they begin or end the
frame, and for a beginning WC at the frame's first bit, in units of 2^-16 ns (2.2, R166). Fragments come reassembled. -/
structure RxIn where
  data : List Byte
  sof : Bool
  eof : Bool
  wc : Nat
  deriving DecidableEq, Repr

/-- A gPTP message type of IEEE 802.1AS (7.3). -/
inductive PtpKind where
  | sync | followUp | pdelayReq | pdelayResp | pdelayRespFollowUp | announce | signaling
  deriving DecidableEq, Repr

/-- A frame of an edge bus: format (0 classical, 1 FD, 2 XL, 3 another bus), IDE, the identifier in the key position of
Table 9.3, remote frame, bit-rate switch, error-state indicator, DLC as sent, CAN XL fields (SDT, VCID, AF), FlexRay cycle,
data bytes, the XL SEC bit, whether CANsec verified it, and TD0 time at its start in nanoseconds if TD0 was synchronised. -/
structure BusFrame where
  format : Nat
  ide : Bool := false
  id : Nat := 0
  remote : Bool := false
  brs : Bool := false
  esi : Bool := false
  dlc : Nat := 0
  sdt : Nat := 0
  vcid : Nat := 0
  af : Nat := 0
  cycle : Nat := 0
  data : List Byte := []
  sec : Bool := false
  cansec : Bool := false
  td0 : Option Nat := none
  deriving DecidableEq, Repr

/-- When a CAN controller began to receive a frame, as the time since then in units of 2^-16 ns, and whether it hands what its receive
buffer holds to the owner. -/
structure CanRxIn where
  age : Nat
  pass : Bool
  deriving DecidableEq, Repr

/-- What a bus guard has sampled of a frame: whether the identifier extension is in, and the time since the frame's start in units of
2^-16 ns. -/
structure GuardIn where
  full : Bool
  age : Nat
  deriving DecidableEq, Repr

/-- What CANsec found of a received XL frame with SEC set: its secure-channel identifier, freshness value, and whether the
tag verified under the channel's key (R355). -/
structure CanSecIn where
  scId : Nat
  fv : Nat
  tagOk : Bool
  deriving DecidableEq, Repr

/-- A protocol error as a CAN controller detects it: kind (1 stuff, 2 form, 3 ack, 4 bit 1, 5 bit 0, 6 CRC, 7 delay
compensation), whether the controller was transmitting, and the two cases of ISO 11898-1 that change the step of the error
counter: a receiver that sees a dominant bit right after its error flag, and a transmitter whose counter does not move. -/
structure CanErrIn where
  kind : Nat
  transmitter : Bool
  late : Bool
  exempt : Bool
  deriving DecidableEq, Repr

/-- A SENT message as measured: the sync pulse, the status, data and CRC nibbles, and the pause, in units of 25/16 ns; and WC
nanoseconds at the falling edge that ends the sync pulse (R197). -/
structure SentIn where
  sync : Nat
  status : Nat
  nibbles : List Nat
  crc : Nat
  pause : Nat
  wcNs : Nat
  deriving DecidableEq, Repr

/-- What a FlexRay channel receives in a slot: its data words as bytes, or a null frame. -/
structure FlxRx where
  null : Bool
  data : List Byte
  deriving DecidableEq, Repr

/-- A mailbox request of the triad to an engine: a LIN schedule request, or a diagnostic read of a register (9.2). -/
inductive MgmtReq where
  | linSched (ch table : Nat)
  | read (addr : Nat)
  deriving DecidableEq, Repr

/-- A ring message as received (Table 10.1), its version and check already found good: the RING identifier it carries, its
sender, round, consent, votes and argument. -/
structure RingIn where
  ring : Nat
  sender : Nat
  round : Nat
  consent : Bool
  votes : Nat
  arg : Nat
  deriving DecidableEq, Repr

/-- A wake source that a detector of the Cosy die watches (Table 10.3): a wake pin with its new level, the CAN wake-up pattern of a channel, the
LIN wake pulse of a channel. -/
inductive WakeIn where
  | pin (p : Nat) (level : Bool)
  | wup (ch : Nat)
  | lin (ch : Nat)
  deriving DecidableEq, Repr

/-- What a transaction of the triad does: read or write a register, read or write a 32-bit word of the shared SRAM, take the
oldest slow-path frame or the oldest frame of the gateway punt queue (Table 9.1), or send a frame on P15 with a class. -/
inductive TriadAccess where
  | read (addr : Nat)
  | write (addr : Nat) (value : BitVec 32)
  | sramRead (word : Nat)
  | sramWrite (word : Nat) (value : BitVec 32)
  | takeFrame
  | takePunt
  | sendFrame (tc : Nat) (data : List (BitVec 8))
  deriving DecidableEq, Repr

/-- A transaction as it reaches the voters: the core it comes from where it is not voted, the values of cores A, B and C as
numbers (equal numbers are equal transactions), how many delay-register copies of each core fail parity, whether the main and
the shadow voter differ, and the access of the majority, or of that core. -/
structure TriadTx where
  core : Nat
  votes : List Nat
  delay : List Nat
  votersDiffer : Bool
  access : TriadAccess
  deriving DecidableEq, Repr

/-- Levels at the device's pins when TSIO samples them: the 24 GPIO pins, and the inputs PHY_INT_N and PHY_WAKE of the 12
E-ports, one bit each (R226, R227). -/
structure PinsIn where
  gpio : Nat := 0
  phyInt : Nat := 0xFFF
  phyWake : Nat := 0
  deriving DecidableEq, Repr

/-- What Kettle finds at the release of the Brew die: the straps; whether the entropy source passes its start-up tests; the commit
records of slots A and B as the flash holds them; offsets of retention words that fail parity; repair-ledger entries that fail
their OTP check. -/
structure BrewIn where
  bootMode : Nat := 0
  split : Bool := false
  testEn : Bool := false
  entropyOk : Bool := true
  recA : List Byte := []
  recB : List Byte := []
  badWords : List Nat := []
  badEntries : List Nat := []
  deriving DecidableEq, Repr

/-- What the memory self-test finds (R336): failing cell words by logical slice and index, failing rows by memory and row, engines
whose memory fails, and whether the spare slice passes. -/
structure SelfTestIn where
  cells : List (Nat × Nat) := []
  rows : List (Nat × Nat) := []
  engines : List Nat := []
  spareOk : Bool := true
  deriving DecidableEq, Repr

/-- A segment header, or the manifest's first 256 bytes, with the block-hash table or the part table, as read from flash. -/
structure HeadIn where
  readOk : Bool
  header : List Byte
  table : List Byte
  deriving DecidableEq, Repr

/-- A body block as read, and with the last block of the primary segment the two settings copies. -/
structure BlockIn where
  data : List Byte
  set0 : List Byte := []
  set1 : List Byte := []
  deriving DecidableEq, Repr

/-- One DW of a PCIe memory request: its byte enables and, for a write, its data. -/
structure PcieDw where
  be : Nat
  data : BitVec 32
  deriving DecidableEq, Repr

/-- What a configuration write gives a function beside Bus Master Enable and the MSI-X enable (Table 17.1): the MSI-X function mask,
the codes of the payload and the read request size, D3hot, the ASPM enables (L1, L1.1, L1.2 from bit 0), the AER masks and severities,
and on PF0 the VFs that SR-IOV enables and ARI. The defaults are those of PCI Express Base 4.0 (PRESUMED, log entry 120). -/
structure PcieCfg where
  msixMask : Bool := false
  payload : Nat := 0
  readRequest : Nat := 2
  d3hot : Bool := false
  aspm : Nat := 0
  aerMask : Nat := 0x00400000
  aerSeverity : Nat := 0x00462030
  aerCorMask : Nat := 0x0000E000
  vfEnable : Bool := false
  numVfs : Nat := 0
  ari : Bool := false
  deriving DecidableEq, Repr

/-- The commands. -/
inductive Instr where
  /-- `REGISTER_WRITE` (R431). -/
  | registerWrite (addr : Nat) (value : Word) (master : Nat)
  /-- `READ_CLEAR` (R8). -/
  | readClear (addr master : Nat)
  /-- `LATCHING_READ` (R39). -/
  | latchingRead (addr master : Nat)
  /-- `TICK_BOUNDARY` (R25): the unit it reaches; how many items of the outstanding slices of its tick job its budget lets it finish (none: all); the levels TSIO samples. -/
  | tickBoundary (unit : Nat) (work : Option Nat) (pins : PinsIn)
  /-- `TICK_JOB_BUDGET_SPENT` (R27). -/
  | tickJobBudgetSpent (unit : Nat)
  /-- `UNIT_ENABLE` (R432): the unit by its source ID. -/
  | unitEnable (unit : Nat) (en : Bool) (master : Nat)
  /-- `UNIT_RESET` (R399). -/
  | unitReset (unit master : Nat)
  /-- `FAULT_CLEAR` (R20). -/
  | faultClear (unit : Nat) (bits : Word) (master : Nat)
  /-- `INJECT_ARM` (R334). -/
  | injectArm (unit : Nat) (bits : Word) (master : Nat)
  /-- `COMMIT_DISCARD` (R402). -/
  | commitDiscard (unit master : Nat)
  /-- `CELL_WRITE` (R117): one fabric cycle of an input, on an E-port with the bytes its MAC receives in it. -/
  | cellWrite (port : Nat) (rx : Option RxIn)
  /-- `HEAD_DELIVER` (R63). -/
  | headDeliver (port : Nat)
  /-- `FRAME_END` (R41): what the reassembly of preempted frames found: 0 no fragments, 1 reassembled, 2 an error, 3 an unknown SMD or fragment count. -/
  | frameEnd (port assembly : Nat)
  /-- `PAUSE_FRAME_RECEIVE` (R130): the bytes that end it as they arrive, as CELL_WRITE gives them; none where CELL_WRITE gave all of it. -/
  | pauseFrameReceive (port : Nat) (data : List Byte) (sof eof : Bool) (wc : Nat)
  /-- `PAUSE_TIMER_EXPIRY` (R130): the timer of one priority, or of PAUSE. -/
  | pauseTimerExpiry (port : Nat) (prio : Option Nat)
  /-- `BANK_RELEASE` (R55). -/
  | bankRelease
  /-- `RELEASE_TIMEOUT` (R55). -/
  | releaseTimeout
  /-- `SOURCE_EVENT` (R74). -/
  | sourceEvent (west : Bool)
  /-- `HIT_UPDATE` (R70). -/
  | hitUpdate (west : Bool)
  /-- `LEARN_INSERT` (R76). -/
  | learnInsert (west : Bool)
  /-- `FDB_NOP` (R82): FDB_CMD of one pipeline, written by a master. -/
  | fdbNop (west : Bool) (master : Nat)
  /-- `FDB_INSERT` (R68). -/
  | fdbInsert (west : Bool) (master : Nat)
  /-- `FDB_DELETE` (R82). -/
  | fdbDelete (west : Bool) (master : Nat)
  /-- `FDB_LOOKUP` (R82). -/
  | fdbLookup (west : Bool) (master : Nat)
  /-- `FDB_READ_SLOT` (R82). -/
  | fdbReadSlot (west : Bool) (index master : Nat)
  /-- `FDB_FLUSH` (R437). -/
  | fdbFlush (west : Bool) (master : Nat)
  /-- `FDB_SHADOW_WRITE` (R82). -/
  | fdbShadowWrite (west : Bool) (index master : Nat)
  /-- `FDB_SHADOW_READ` (R82). -/
  | fdbShadowRead (west : Bool) (index master : Nat)
  /-- `FDB_VLAN_WRITE` (R61). -/
  | fdbVlanWrite (west : Bool) (index master : Nat)
  /-- `FDB_VLAN_READ` (R61). -/
  | fdbVlanRead (west : Bool) (index master : Nat)
  /-- `FDB_INSERT_SHADOWED` (R81). -/
  | fdbInsertShadowed (west : Bool) (index master : Nat)
  /-- `FDB_DELETE_SHADOWED` (R81). -/
  | fdbDeleteShadowed (west : Bool) (index master : Nat)
  /-- `FDB_CMD_INVALID` (R82). -/
  | fdbCmdInvalid (west : Bool) (master : Nat)
  /-- `FDB_CMD_COMPLETE` (R82). -/
  | fdbCmdComplete (west : Bool)
  /-- `CAN_KEY_SUBMIT` (R104): the infuser engine whose waiting key is submitted. -/
  | canKeySubmit (engine : Nat)
  /-- `CAN_KEY_JUDGE` (R104). -/
  | canKeyJudge
  /-- `STREAM_GATE_CYCLE_START` (R97). -/
  | streamGateCycleStart (west : Bool) (gate : Nat)
  /-- `STREAM_GATE_ENTRY_EXPIRY` (R97). -/
  | streamGateEntryExpiry (west : Bool) (gate : Nat)
  /-- `TCAM_RESCAN` (R102): the bank is one of the two of that Strainer. -/
  | tcamRescan (west : Bool) (bank : Bool)
  /-- `RULE_NOP` (R100): RULE_CMD of one Strainer, written by a master. -/
  | ruleNop (west : Bool) (master : Nat)
  /-- `WRITE_RULE` (R100). -/
  | writeRule (west : Bool) (row : Nat) (bankSel : Bool) (master : Nat)
  /-- `READ_RULE` (R100). -/
  | readRule (west : Bool) (row : Nat) (bankSel : Bool) (master : Nat)
  /-- `CLEAR_RULE` (R100). -/
  | clearRule (west : Bool) (row : Nat) (bankSel : Bool) (master : Nat)
  /-- `WRITE_ZPAIR` (R100). -/
  | writeZpair (west : Bool) (index : Nat) (bankSel : Bool) (master : Nat)
  /-- `READ_ZPAIR` (R100). -/
  | readZpair (west : Bool) (index : Nat) (bankSel : Bool) (master : Nat)
  /-- `WRITE_ZMAP` (R100). -/
  | writeZmap (west : Bool) (index : Nat) (bankSel : Bool) (master : Nat)
  /-- `READ_ZMAP` (R100). -/
  | readZmap (west : Bool) (index : Nat) (bankSel : Bool) (master : Nat)
  /-- `WRITE_PFX` (R100). -/
  | writePfx (west : Bool) (index : Nat) (bankSel : Bool) (master : Nat)
  /-- `READ_PFX` (R100). -/
  | readPfx (west : Bool) (index : Nat) (bankSel : Bool) (master : Nat)
  /-- `COPY_ACTIVE` (R100). -/
  | copyActive (west : Bool) (master : Nat)
  /-- `RULE_CMD_INVALID` (R100). -/
  | ruleCmdInvalid (west : Bool) (master : Nat)
  /-- `RULE_CMD_COMPLETE` (R100). -/
  | ruleCmdComplete (west : Bool)
  /-- `GUARD_MATCH` (R106): identifier bits, and whether the channel's own controller sends the frame. -/
  | guardMatch (ch id : Nat) (seen : GuardIn) (own : Bool)
  /-- `GUARD_FLAG_END` (R106). -/
  | guardFlagEnd (ch : Nat)
  /-- `GUARD_DRIVE_FAULT` (R108). -/
  | guardDriveFault (ch : Nat)
  /-- `COPY_ENQUEUE` (R126). -/
  | copyEnqueue
  /-- `DISCARD_WALK` (R121). -/
  | discardWalk
  /-- `CELL_READ` (R123). -/
  | cellRead (port : Nat)
  /-- `PFC_REFRESH` (R128). -/
  | pfcRefresh (port tc : Nat)
  /-- `INGRESS_UNDERRUN` (R133). -/
  | ingressUnderrun (port tc : Nat)
  /-- `SPOUT_SELECT` (R141). -/
  | spoutSelect (port : Nat)
  /-- `GATE_CYCLE_START` (R148). -/
  | gateCycleStart (port : Nat)
  /-- `GATE_ENTRY_EXPIRY` (R147). -/
  | gateEntryExpiry (port : Nat)
  /-- `GCL_DATA_WRITE` (R147): GCL_DATA_LO of one Spout. -/
  | gclDataWrite (port : Nat) (value : Word) (master : Nat)
  /-- `GCL_DATA_READ` (R147). -/
  | gclDataRead (port : Nat)
  /-- `FRAME_PREEMPT` (R156): the time since the copy came to wait for which the frame is preempted, in units of 2^-16 ns. -/
  | framePreempt (port age : Nat)
  /-- `PREEMPT_VERIFY` (R155): what the verification of IEEE 802.3br reached: 0 an attempt begins, 1 success, 2 an attempt failed, 3 the last one failed. -/
  | preemptVerify (port outcome : Nat)
  /-- `SYNC_PROCESS` (R174): the Sync at the front of the receive queue from that port with that domainNumber, and the bytes that end its last message, where no CELL_WRITE and FRAME_END gave them. -/
  | syncProcess (port num : Nat) (rx : Option RxIn)
  /-- `SYNC_TRANSMIT` (R171). -/
  | syncTransmit (dom port : Nat)
  /-- `PDELAY_REQ_SEND` (R172). -/
  | pdelayReqSend (port : Nat)
  /-- `PDELAY_EXCHANGE` (R172): the bytes that end each message, where no CELL_WRITE and FRAME_END gave them. -/
  | pdelayExchange (port : Nat) (resp followUp : Option RxIn)
  /-- `PDELAY_RESP_TIMEOUT` (R172). -/
  | pdelayRespTimeout (port : Nat)
  /-- `PDELAY_RESP_SEND` (R168). -/
  | pdelayRespSend (port : Nat)
  /-- `ANNOUNCE_RECEIVE` (R435): as for SYNC_PROCESS. -/
  | announceReceive (port num : Nat) (rx : Option RxIn)
  /-- `SYNC_TIMEOUT` (R174). -/
  | syncTimeout (dom : Nat)
  /-- `HOLD_EXPIRY` (R163). -/
  | holdExpiry (dom : Nat)
  /-- `DOM_ACCEPT` (R175): DOM_CMD of one domain, written by a master. -/
  | domAccept (dom seq master : Nat)
  /-- `DOM_SET` (R175). -/
  | domSet (dom master : Nat)
  /-- `DOM_RESET_GUARD` (R175). -/
  | domResetGuard (dom master : Nat)
  /-- `DOM_CMD_INVALID` (R175). -/
  | domCmdInvalid (dom master : Nat)
  /-- `SNAPSHOT_TAKE` (R180). -/
  | snapshotTake (master : Nat)
  /-- `TSIN_CAPTURE` (R177): the phase of the TIME clock, in half nanoseconds. -/
  | tsinCapture (input : Nat) (rising : Bool) (phase : Nat)
  /-- `TSIN_POP` (R180). -/
  | tsinPop (input : Nat)
  /-- `TSOUT_EDGE` (R179). -/
  | tsoutEdge (output : Nat)
  /-- `XCVR_MODE_WRITE` (R183): the transceiver by its position in Table 8.3: C0 to C7 0 to 7, L0 to L3 8 to 11, S0 to S7 16 to 23. -/
  | xcvrModeWrite (xcvr : Nat) (value : Word) (master : Nat)
  /-- `XCVR_MODE_CHANGE` (R183). -/
  | xcvrModeChange (xcvr : Nat)
  /-- `TXD_DOMINANT_TIMEOUT` (R183). -/
  | txdDominantTimeout (xcvr : Nat)
  /-- `BUS_DOMINANT_TIMEOUT` (R183). -/
  | busDominantTimeout (xcvr : Nat)
  /-- `VBAT_UNDERVOLTAGE` (R183). -/
  | vbatUndervoltage
  /-- `CAN_FRAME_RECEIVE` (R186): the frame received, if one was, and what CANsec found. -/
  | canFrameReceive (ch : Nat) (frame : Option BusFrame) (sec : Option CanSecIn) (rx : CanRxIn)
  /-- `CAN_FRAME_TRANSMIT` (R187): phase 0 start, 1 complete, 2 arbitration lost, 3 error; the loop delay if it has been measured in this frame. -/
  | canFrameTransmit (ch phase : Nat) (tdcv : Option Nat)
  /-- `CAN_ERROR` (R190). -/
  | canError (ch : Nat) (err : CanErrIn)
  /-- `CAN_INTEGRATED` (R190). -/
  | canIntegrated (ch : Nat)
  /-- `CAN_RECOVER` (R190): the master that writes RECOVER, or none for BUSOFF_AUTO. -/
  | canRecover (ch : Nat) (master : Option Nat)
  /-- `CAN_RECOVERY_DONE` (R190). -/
  | canRecoveryDone (ch : Nat)
  /-- `CAN_OPMODE` (R190). -/
  | canOpmode (ch mode master : Nat)
  /-- `CAN_SHAPER_RELEASE` (R225). -/
  | canShaperRelease (ch : Nat)
  /-- `LIN_SLOT_START` (R194). -/
  | linSlotStart (ch : Nat)
  /-- `LIN_HEADER_RECEIVE` (R195): the identifier and the rate measured from the sync field in b/s. -/
  | linHeaderReceive (ch id baud : Nat)
  /-- `LIN_RESPONSE_TIMEOUT` (R195). -/
  | linResponseTimeout (ch : Nat)
  /-- `SENT_MESSAGE` (R197). -/
  | sentMessage (ch : Nat) (msg : SentIn)
  /-- `QSPI_TRANSFER` (R198): the master and the word received. -/
  | qspiTransfer (spi rx : Nat)
  /-- `FLX_CONFIG` (R200). -/
  | flxConfig (master : Nat)
  /-- `FLX_READY` (R200). -/
  | flxReady (master : Nat)
  /-- `FLX_WAKEUP` (R200). -/
  | flxWakeup (master : Nat)
  /-- `FLX_RUN` (R200). -/
  | flxRun (master : Nat)
  /-- `FLX_ALL_SLOTS` (R200). -/
  | flxAllSlots (master : Nat)
  /-- `FLX_HALT` (R200). -/
  | flxHalt (master : Nat)
  /-- `FLX_FREEZE` (R200). -/
  | flxFreeze (master : Nat)
  /-- `FLX_SLOT` (R199). -/
  | flxSlot (slot cycle : Nat) (first passive : Bool) (rxA rxB : Option FlxRx) (age : Nat)
  /-- `T1S_FRAME_RECEIVE` (R202). -/
  | t1sFrameReceive (seg : Nat) (data : List Byte) (fcsBad : Bool)
  /-- `T1S_TX_OPPORTUNITY` (R202). -/
  | t1sTxOpportunity (seg kind node : Nat)
  /-- `INFUSER_RX_ITEM` (R215). -/
  | infuserRxItem (engine : Nat)
  /-- `INFUSER_ETH_ITEM` (R221). -/
  | infuserEthItem (engine : Nat)
  /-- `INFUSER_SB_ITEM` (R226). -/
  | infuserSbItem (engine : Nat)
  /-- `INFUSER_MGMT_ITEM` (R208). -/
  | infuserMgmtItem (engine : Nat) (req : MgmtReq)
  /-- `SIG_STEP` (R224). -/
  | sigStep (engine : Nat)
  /-- `SIGNAL_TIMEOUT` (R224). -/
  | signalTimeout (engine pdu : Nat)
  /-- `PDU_DUE` (R224). -/
  | pduDue (engine pdu : Nat)
  /-- `P13_PDU_HANDOFF` (R211). -/
  | p13PduHandoff (engine : Nat)
  /-- `P13_DISPATCH` (R212). -/
  | p13Dispatch
  /-- `TBL_NOP` (R217): TBL_CMD written through the window of a GW instance. -/
  | tblNop (inst master : Nat)
  /-- `TBL_WRITE` (R217): table 0 route, 1 tunnel, 2 PDU, 3 signal. -/
  | tblWrite (inst table index master : Nat)
  /-- `TBL_READ` (R217). -/
  | tblRead (inst table index master : Nat)
  /-- `TBL_CLEAR` (R217). -/
  | tblClear (inst table index master : Nat)
  /-- `TBL_CMD_INVALID` (R229). -/
  | tblCmdInvalid (inst master : Nat)
  /-- `MEM_DATA_WRITE` (R229). -/
  | memDataWrite (engine : Nat) (value : Word) (master : Nat)
  /-- `MEM_DATA_READ` (R229). -/
  | memDataRead (engine : Nat)
  /-- `ROUND_START` (R233): ring 0 is the backbone, 1 + s sub-ring s. -/
  | roundStart (ring : Nat)
  /-- `TOKEN_TIMEOUT` (R233). -/
  | tokenTimeout (ring : Nat)
  /-- `TOKEN` (R233). -/
  | ringToken (ring : Nat) (msg : RingIn)
  /-- `AGREE` (R235). -/
  | ringAgree (ring : Nat) (msg : RingIn)
  /-- `DRAIN` (R235). -/
  | ringDrain (ring : Nat) (msg : RingIn)
  /-- `COMMIT` (R235). -/
  | ringCommit (ring : Nat) (msg : RingIn)
  /-- `WAKE` (R235). -/
  | ringWake (ring : Nat) (msg : RingIn)
  /-- `BAD_MSG` (R232). -/
  | ringBadMsg (ring : Nat)
  /-- `AGREE_TICKS_EXPIRY` (R235). -/
  | agreeTicksExpiry
  /-- `DRAIN_EXPIRY` (R235). -/
  | drainExpiry
  /-- `BACKBONE_TIMEOUT` (R235). -/
  | backboneTimeout
  /-- `COMMIT_REQUEST` (R237). -/
  | commitRequest
  /-- `COMMIT_DELAY_EXPIRY` (R238). -/
  | commitDelayExpiry
  /-- `WAKE_DETECT` (R239). -/
  | wakeDetect (src : WakeIn)
  /-- `SELECTIVE_WAKE_FRAME` (R241): the frame, or a stuff, form or CRC error. -/
  | selectiveWakeFrame (ch : Nat) (frame : BusFrame) (err : Bool)
  /-- `WAKE_TIMER_EXPIRY` (R240). -/
  | wakeTimerExpiry
  /-- `LOCAL_WAKE` (R243). -/
  | localWake (master : Nat)
  /-- `LOCAL_HOLD` (R234). -/
  | localHold (value : Word) (master : Nat)
  /-- `LIN_GO_TO_SLEEP` (R235). -/
  | linGoToSleep (ch : Nat)
  /-- `COSY_POWER_ON` (R251). -/
  | cosyPowerOn
  /-- `POWER_OFF` (R251). -/
  | powerOff
  /-- `PMIC_PG_HIGH` (R251). -/
  | pmicPgHigh
  /-- `PG_TIMEOUT` (R251). -/
  | pgTimeout
  /-- `INH_RETRY_EXPIRY` (R251). -/
  | inhRetryExpiry
  /-- `PG_LOSS` (R256). -/
  | pgLoss
  /-- `CLOCK_LOSS` (R255). -/
  | clockLoss
  /-- `CLOCK_RESTORED` (R255). -/
  | clockRestored
  /-- `RST_PIN` (R254). -/
  | rstPin
  /-- `FORCE_SLEEP` (R259): PWR_CMD with FORCE_SLEEP set. -/
  | forceSleep (key master : Nat)
  /-- `X32_CHECK` (R261). -/
  | x32Check (ok : Bool)
  /-- `BREW_START` (R280). -/
  | brewStart (x : BrewIn)
  /-- `SELFTEST_DONE` (R336). -/
  | selftestDone (x : SelfTestIn)
  /-- `SEGMENT_HEADER_CHECK` (R270). -/
  | segmentHeaderCheck (x : HeadIn)
  /-- `FLASH_BLOCK_ARRIVE` (R270). -/
  | flashBlockArrive (x : BlockIn)
  /-- `ESSENTIAL_ENABLE` (R274). -/
  | essentialEnable
  /-- `HAND_OVER` (R275). -/
  | handOver
  /-- `BOOT_COMPLETE` (R276). -/
  | bootComplete
  /-- `START_FAIL` (R280): a check or load that fails, by Table 12.11; part 15 where none applies. -/
  | startFail (reason segment detail part : Nat)
  /-- `BOOT_DEADLINE` (R280). -/
  | bootDeadline
  /-- `KEY_REVOKE` (R271). -/
  | keyRevoke (key slot master : Nat)
  /-- `RETRY` (R285). -/
  | retry (key master : Nat)
  /-- `UPD_ARM` (R290). -/
  | updArm (key master : Nat)
  /-- `UPD_CANCEL` (R290). -/
  | updCancel (key master : Nat)
  /-- `ACTIVATION_FIRE` (R292). -/
  | activationFire
  /-- `ACTIVATION_RESTART` (R292). -/
  | activationRestart
  /-- `ACTIVATION_CANCEL` (R291). -/
  | activationCancel
  /-- `TRIAD_TRANSACTION` (R304). -/
  | triadTransaction (tx : TriadTx)
  /-- `TRIAD_EVENT_LATCH` (R307): one exchange: the mask of the cores that latch the event in it. -/
  | triadEventLatch (event cores : Nat)
  /-- `AGREE_OFFER_EXPIRY` (R308). -/
  | agreeOfferExpiry (event : Nat)
  /-- `DIGEST_COMPARE` (R309). -/
  | digestCompare (a b c : Nat)
  /-- `RESYNC_DONE` (R310): the digests of the comparison at its end, and its TRIAD cycles. -/
  | resyncDone (a b c cycles : Nat)
  /-- `DEBUG_HALT` (R314). -/
  | debugHalt
  /-- `MAILBOX_DOORBELL` (R316). -/
  | mailboxDoorbell (mb master : Nat)
  /-- `MAILBOX_RESPONSE` (R316): what the firmware answers. -/
  | mailboxResponse (mb status : Nat) (words : List Nat)
  /-- `MAILBOX_ACK` (R316). -/
  | mailboxAck (mb master : Nat)
  /-- `SAUCER_REPORT` (R320). -/
  | saucerReport
  /-- `SAFE_STATE_ENTRY` (R329). -/
  | safeStateEntry
  /-- `SAUCER_RESTART` (R326). -/
  | saucerRestart
  /-- `EPISODE_END` (R322). -/
  | episodeEnd (key seq master : Nat)
  /-- `COSY_GRACE_TIMEOUT` (R328). -/
  | cosyGraceTimeout
  /-- `TICK_MESSAGE_TIMEOUT` (R328). -/
  | tickMessageTimeout
  /-- `KEY_WRITE` (R343): KEY_CMD, written by a master. -/
  | keyWrite (slot master : Nat)
  /-- `KEY_ERASE` (R343). -/
  | keyErase (slot master : Nat)
  /-- `KEY_ERASE_ALL` (R343). -/
  | keyEraseAll (master : Nat)
  /-- `JOB_SUBMIT` (R349): TAIL of RING_CTRL. -/
  | jobSubmit (ring tail master : Nat)
  /-- `GCM_ENC` (R352). -/
  | gcmEnc
  /-- `GCM_DEC` (R350). -/
  | gcmDec
  /-- `CMAC_GEN` (R350). -/
  | cmacGen
  /-- `CMAC_VER` (R350). -/
  | cmacVer
  /-- `HMAC_GEN` (R350). -/
  | hmacGen
  /-- `HMAC_VER` (R350). -/
  | hmacVer
  /-- `SHA256` (R350). -/
  | sha256
  /-- `ECDSA_VER` (R350). -/
  | ecdsaVer
  /-- `KDF` (R350). -/
  | kdf
  /-- `RANDOM` (R350). -/
  | random
  /-- `GEN_KEY` (R350). -/
  | genKey
  /-- `LOAD_BLOB` (R346). -/
  | loadBlob
  /-- `WRAP_SLOT` (R350). -/
  | wrapSlot
  /-- `IMPORT` (R350). -/
  | importKey
  /-- `KEY_FETCH` (R347). -/
  | keyFetch
  /-- `SA_INSTALL` (R353): SA_CTRL of a transmit association, or of one of a receive channel, with its KEY_SLOT. -/
  | saInstall (port : Nat) (rx : Option Nat) (an slot master : Nat)
  /-- `SA_RETIRE` (R353). -/
  | saRetire (port : Nat) (rx : Option Nat) (an master : Nat)
  /-- `DRBG_RESEED` (R357): what the health tests of the entropy source say. -/
  | drbgReseed (ok : Bool)
  /-- `ALARM` (R359): 0 TAMPER, 1 VGLITCH, 2 CGLITCH, 3 ULIS_AUTH, 4 CIPHER. -/
  | alarm (src : Nat)
  /-- `ALARM_CLEAR` (R360): the sources present at the write. -/
  | alarmClear (key present master : Nat)
  /-- `TAMPER_UNPOWERED` (R361). -/
  | tamperUnpowered
  /-- `ADVANCE` (R363). -/
  | advance (key master : Nat)
  /-- `PROG_SIGN` (R363). -/
  | progSign (key arg master : Nat)
  /-- `PROG_FB` (R363). -/
  | progFb (key master : Nat)
  /-- `PROG_DBG` (R363). -/
  | progDbg (key master : Nat)
  /-- `DBG_AUTH` (R364): the public key and the two numbers of the signature. -/
  | dbgAuth (x y r sig : Nat)
  /-- `PCIE_MEMORY_REQUEST` (R370): the function, its BAR, the byte offset. -/
  | pcieMemoryRequest (fn bar offset : Nat) (write : Bool) (dws : List PcieDw)
  /-- `TX_DESCRIPTOR` (R372): LEN of the descriptor, and the frame in its buffer from DA to the end of the payload. -/
  | txDescriptor (len : Nat) (frame : List Byte)
  /-- `RX_DELIVERY` (R373): buffer address and BUF_LEN of the descriptor at each function's receive ring. -/
  | rxDelivery (bufs : List (Nat × Nat))
  /-- `FUNCTION_LEVEL_RESET` (R374). -/
  | functionLevelReset (fn : Nat)
  /-- `PCIE_PERST` (R394). -/
  | pciePerst
  /-- `INT_EOI` (R406). -/
  | intEoi (master : Nat)
  /-- `MSPI_NOP` (R376). -/
  | mspiNop
  /-- `MSPI_WRITE` (R377). -/
  | mspiWrite (addr : Nat) (value : Word) (crc : Nat)
  /-- `MSPI_READ` (R377). -/
  | mspiRead (addr crc : Nat)
  /-- `MSPI_FRAME_ERROR` (R377): 0 unknown opcode, 1 wrong CRC, 2 early rise of CS_N, 3 an access outstanding. -/
  | mspiFrameError (kind : Nat)
  /-- `MSPI_ABANDON` (R378). -/
  | mspiAbandon (addr : Nat)
  /-- `FENCE_READ` (R382). -/
  | fenceRead (master : Nat)
  /-- `POSTED_WRITE_RESOLUTION` (R381). -/
  | postedWriteResolution
  /-- `ULIS_PACKET_RETRY` (R385): the packet that failed last failed again. -/
  | ulisPacketRetry (again : Bool)
  /-- `ULIS_LINK_DOWN` (R385). -/
  | ulisLinkDown
  /-- `ULIS_LINK_UP` (R385). -/
  | ulisLinkUp
  /-- `ULIS_AUTH_EXCHANGE` (R386). -/
  | ulisAuthExchange (ok : Bool)
  /-- `SAUCER_BOUNDARY` (R325). -/
  | saucerBoundary (work : Option Nat)
  /-- `E_PORT_LINK_CHANGE` (R145): the current rate, 0 for link down. -/
  | ePortLinkChange (port mbps : Nat)
  /-- `PCIE_LINK_CHANGE` (R374). -/
  | pcieLinkChange (up : Bool) (speed width : Nat)
  /-- `PCIE_CONFIG_WRITE` (R374). -/
  | pcieConfigWrite (fn : Nat) (bme msixEn : Bool) (cfg : PcieCfg)
  /-- `RST_N_RELEASE` (R254). -/
  | rstNRelease
  /-- `VBAT_UV_RECOVERY` (R183). -/
  | vbatUvRecovery
  /-- `BUS_RECESSIVE_RETURN` (R183). -/
  | busRecessiveReturn (xcvr : Nat)
  /-- `TXD_RECESSIVE_RETURN` (R183). -/
  | txdRecessiveReturn (xcvr : Nat)
  /-- `LIN_RESPONSE_COMPLETE` (R195). -/
  | linResponseComplete (ch : Nat) (data : List Byte) (checksum : Nat) (bitErr collision : Bool) (age : Nat)
  /-- `ANNOUNCE_TRANSMIT` (R164). -/
  | announceTransmit (dom port : Nat)
  /-- `ANNOUNCE_RECEIPT_TIMEOUT` (R163). -/
  | announceReceiptTimeout (dom port : Nat)
  /-- `SIGNALING_RECEIVE` (R169): as for SYNC_PROCESS. -/
  | signalingReceive (port : Nat) (rx : Option RxIn)
  /-- `VBAT_MEASUREMENT` (R264): units of 50 mV. -/
  | vbatMeasurement (units : Nat)
  deriving DecidableEq, Repr

end Sys2Proof
end

