-- ==== Sys2Proof/Config.lean ====
section
/-! DEFINITION. What the manual leaves free or does not compute for the reader: constants without a body. Nothing in
Lean can evaluate one, so a claim about the model holds whatever its value is. -/

namespace Sys2Proof.Config

/-- A free value: the n-th value the machine draws where the manual fixes none (a random number, an unstated result).
The counter of draws is a plain field of the state. DESIGN CHOICE (log entry 1). -/
opaque freeNat : Nat → Nat

/-- What a field acts as when it holds a value outside the range its table states and no rule says more: some value of
the range, by the value held. DESIGN CHOICE (log entry 2). -/
opaque openNat : Nat → Nat

/-- Whether a quotient that no rule says how to round is rounded up, by its operands. DESIGN CHOICE (log entry 3). -/
opaque roundUp : Int → Int → Bool

/-- The eight bits of the fabric LFSR that a RED comparison uses, by the LFSR's content: which eight is open (R126). DESIGN
CHOICE (log entry 4). -/
opaque lfsrByte : Nat → Nat

/-- The fixed latency from the rewrite stage to the wire, by the port's IF_MODE, in units of 2^-16 ns (R170): the manual
compensates it and gives no figure. DESIGN CHOICE (log entry 58). -/
opaque txLatency : Nat → Nat

/-- The bytes that CANsec puts on the bus for a frame, by the channel's CONF (encrypted, or authenticated only), its key, the
freshness value and the plain data (R355; CiA 613-2). DESIGN CHOICE (log entry 58). -/
opaque cansec : Bool → Nat → Nat → List (BitVec 8) → List (BitVec 8)

/-- The device's own clockIdentity (R435): no register gives it. DESIGN CHOICE (log entry 58). -/
opaque clockIdentity : Nat

/-- The MAC address of an E-port, which its gPTP frames (R165) and its PFC frames (R128) carry: no register gives it. DESIGN CHOICE (log
entries 58 and 107). -/
opaque portAddress : Nat → Nat

/-- The safe level of a GPIO pin, by the build identifier of the image and the pin (Tables 12.4, 15.6): the image holds it, and the manual
gives it no section and no register. DESIGN CHOICE (log entry 114). -/
opaque safeLevel : Nat → Nat → Bool

end Sys2Proof.Config
end

