-- ==== Sys2Proof/Machine/Bits.lean ====
section
/-! DEFINITION. Bit fields, byte orders, signed numbers and sparse tables: the helpers every other file uses.
Bit ranges follow R4 (bit 0 is the least significant bit, `[msb:lsb]` includes both ends). -/

namespace Sys2Proof.Machine

/-- The access kinds of Table 0.3 (R8). -/
inductive Access where
  | ro | rw | rws | rwl | w1c | wo | rc
  deriving DecidableEq, Repr

/-- One field of a register: most and least significant bit, access kind, reset value. -/
structure FieldSpec where
  msb : Nat
  lsb : Nat
  kind : Access
  reset : Nat
  deriving DecidableEq, Repr

/-- Where a row of a unit's register table is present: in every instance, in PIPE_W only, with
meaning on C8 to C15 only (the whole register reads 0 elsewhere), or once for all instances (the shared GW block). -/
inductive Present where
  | all | west | canX | shared
  deriving DecidableEq, Repr

/-- One row of a register table: offset of the first instance, count and stride of the outer and of the inner array
dimension, where it is present, and its fields. -/
structure RegRow where
  off : Nat
  n1 : Nat
  st1 : Nat
  n2 : Nat
  st2 : Nat
  present : Present
  fields : List FieldSpec
  deriving DecidableEq, Repr

/-- A named register field: offset, outer and inner stride, least significant bit, width. -/
structure Fld where
  off : Nat
  st1 : Nat
  st2 : Nat
  lsb : Nat
  width : Nat
  deriving DecidableEq, Repr

/-- Bits `[lsb + width - 1 : lsb]` of a word, as a number (R4). -/
def getBits (w : Word) (lsb width : Nat) : Nat := (w.toNat >>> lsb) % 2 ^ width

/-- A word with bits `[lsb + width - 1 : lsb]` replaced by the low bits of `v` (R4). -/
def setBits (w : Word) (lsb width v : Nat) : Word :=
  BitVec.ofNat 32
    (w.toNat % 2 ^ lsb + (v % 2 ^ width) * 2 ^ lsb + (w.toNat >>> (lsb + width)) * 2 ^ (lsb + width))

/-- Bit `i` of a number. -/
def bitOf (n i : Nat) : Bool := n / 2 ^ i % 2 == 1

/-- 1 for true, 0 for false: a flag as the value of a one-bit field. -/
def b2n (b : Bool) : Nat := if b then 1 else 0

/-- The numbers below `n` whose bit is set in `mask`, in rising order. -/
def bitsOf (n mask : Nat) : List Nat := (List.range n).filter (bitOf mask)

/-- A mask with bit `i` set. -/
def setBit (mask i : Nat) : Nat := if bitOf mask i then mask else mask + 2 ^ i

/-- A mask with bit `i` clear. -/
def clearBit (mask i : Nat) : Nat := if bitOf mask i then mask - 2 ^ i else mask

/-- The mask of a list of bit numbers. -/
def maskOf (l : List Nat) : Nat := l.foldl setBit 0

/-- `v` brought into the range `lo` to `hi` (a value outside the range acts as the nearer limit). -/
def clampNat (lo hi v : Nat) : Nat := if v < lo then lo else if hi < v then hi else v

/-- `v` brought into the range `lo` to `hi`. -/
def clampInt (lo hi v : Int) : Int := if v < lo then lo else if hi < v then hi else v

/-- The two's-complement reading of the low `w` bits of `n`. -/
def toSigned (w n : Nat) : Int :=
  let m := n % 2 ^ w
  if 2 ^ (w - 1) ≤ m then (m : Int) - (2 ^ w : Nat) else (m : Int)

/-- The low `w` bits of the two's-complement code of `z`. -/
def ofSigned (w : Nat) (z : Int) : Nat := (z % ((2 ^ w : Nat) : Int)).toNat

/-- Bytes to a number, most significant byte first. -/
def beNat (l : List Byte) : Nat := l.foldl (fun a b => a * 256 + b.toNat) 0

/-- A number as `n` bytes, most significant byte first. -/
def beBytes : Nat → Nat → List Byte
  | 0, _ => []
  | n + 1, v => BitVec.ofNat 8 (v / 256 ^ n) :: beBytes n (v % 256 ^ n)

/-- Byte `i` of a list of bytes; 0 past its end (used only under a length check). -/
def byteAt (l : List Byte) (i : Nat) : Nat := (l.getD i 0).toNat

/-- Two bytes at `i`, most significant first. -/
def be16 (l : List Byte) (i : Nat) : Nat := byteAt l i * 256 + byteAt l (i + 1)

/-- Four bytes at `i`, most significant first. -/
def be32 (l : List Byte) (i : Nat) : Nat := be16 l i * 65536 + be16 l (i + 2)

/-- Six bytes at `i`, most significant first (a MAC address). -/
def be48 (l : List Byte) (i : Nat) : Nat := be16 l i * 2 ^ 32 + be32 l (i + 2)

/-- `n` bytes from position `i`. -/
def slice (l : List Byte) (i n : Nat) : List Byte := (l.drop i).take n

/-! ### Sparse tables

A table of the device (a register file, a forwarding table, a buffer) is a list of (index, entry) pairs, indices
strictly rising, with no entry equal to what an unlisted index holds. -/

/-- The entry at `k`: the listed one, or what an unlisted index holds. -/
def smGet {α : Type} (dflt : Nat → α) : List (Nat × α) → Nat → α
  | [], k => dflt k
  | e :: t, k => if e.1 = k then e.2 else smGet dflt t k

/-- A table whose unlisted entries are 0. -/
def zero0 (_ : Nat) : Nat := 0

/-- An entry put in its place among rising indices. -/
def smInsert {α : Type} (k : Nat) (v : α) : List (Nat × α) → List (Nat × α)
  | [] => [(k, v)]
  | e :: t => if k < e.1 then (k, v) :: e :: t else e :: smInsert k v t

/-- The table with `v` at `k`; writing what an unlisted index holds removes the entry. -/
def smSet {α : Type} [DecidableEq α] (dflt : Nat → α) (m : List (Nat × α)) (k : Nat) (v : α) :
    List (Nat × α) :=
  let m' := m.filter (fun e => e.1 != k)
  if v = dflt k then m' else smInsert k v m'

/-- Indices strictly rising. -/
def smRising {α : Type} : List (Nat × α) → Bool
  | [] => true
  | [_] => true
  | a :: b :: t => decide (a.1 < b.1) && smRising (b :: t)

/-- The canonical form of a table: rising indices, and no entry that an unlisted index would hold anyway. -/
def smWf {α : Type} [DecidableEq α] (dflt : Nat → α) (m : List (Nat × α)) : Bool :=
  smRising m && m.all (fun e => decide (e.2 ≠ dflt e.1))

/-- The entry at `k` of a table in which unlisted indices hold nothing. -/
def pmGet {α : Type} (m : List (Nat × α)) (k : Nat) : Option α :=
  match m.find? (fun e => e.1 == k) with
  | some e => some e.2
  | none => none

/-- An entry put at `k`. -/
def pmSet {α : Type} (m : List (Nat × α)) (k : Nat) (v : α) : List (Nat × α) :=
  smInsert k v (m.filter (fun e => e.1 != k))

/-- The entry at `k` removed. -/
def pmDel {α : Type} (m : List (Nat × α)) (k : Nat) : List (Nat × α) := m.filter (fun e => e.1 != k)

/-- The first element that meets a test, with its position. -/
def findIdx1 {α : Type} (p : α → Bool) : List α → Nat → Option (Nat × α)
  | [], _ => none
  | a :: t, i => if p a then some (i, a) else findIdx1 p t (i + 1)

/-- A list with element `i` replaced. -/
def setAt {α : Type} (l : List α) (i : Nat) (a : α) : List α := l.set i a

/-- `f` applied `n` times. -/
def iter {α : Type} (f : α → α) : Nat → α → α
  | 0, a => a
  | n + 1, a => iter f n (f a)

end Sys2Proof.Machine
end

