-- ==== Sys2Proof/Machine/Fields.lean ====
section
/-! DEFINITION. The register fields the model names: offset in the unit window, the two array strides, least
significant bit and width, as the register tables of the manual give them (RegTable.lean holds the same tables
as rows; Tests/Slice0.lean checks nothing of this file by itself: each constant is one line of those tables). -/

namespace Sys2Proof.Machine

/-- `CADDY.ALARM_CLEAR.KEY`. -/ def F.caddy_ALARM_CLEAR_KEY : Fld := ⟨0x164, 0, 0, 16, 16⟩
/-- `CADDY.ALARM_STATUS.ACTIVE`. -/ def F.caddy_ALARM_STATUS_ACTIVE : Fld := ⟨0x160, 0, 0, 31, 1⟩
/-- `CADDY.ALARM_STATUS.CLEAR_REFUSED`. -/ def F.caddy_ALARM_STATUS_CLEAR_REFUSED : Fld := ⟨0x160, 0, 0, 30, 1⟩
/-- `CADDY.ALARM_STATUS.PRESENT`. -/ def F.caddy_ALARM_STATUS_PRESENT : Fld := ⟨0x160, 0, 0, 0, 5⟩
/-- `CADDY.ALARM_STATUS.STICKY`. -/ def F.caddy_ALARM_STATUS_STICKY : Fld := ⟨0x160, 0, 0, 16, 6⟩
/-- `CADDY.BLOB_FAIL.COUNT`. -/ def F.caddy_BLOB_FAIL_COUNT : Fld := ⟨0x1a4, 0, 0, 0, 32⟩
/-- `CADDY.ERASURES.COUNT`. -/ def F.caddy_ERASURES_COUNT : Fld := ⟨0x1ac, 0, 0, 0, 32⟩
/-- `CADDY.FETCH_REFUSED.COUNT`. -/ def F.caddy_FETCH_REFUSED_COUNT : Fld := ⟨0x1a8, 0, 0, 0, 32⟩
/-- `CADDY.HASH_DATA.DATA`. -/ def F.caddy_HASH_DATA_DATA : Fld := ⟨0x170, 4, 0, 0, 32⟩
/-- `CADDY.KEY_CMD.BUSY`. -/ def F.caddy_KEY_CMD_BUSY : Fld := ⟨0x100, 0, 0, 31, 1⟩
/-- `CADDY.KEY_CMD.OPCODE`. -/ def F.caddy_KEY_CMD_OPCODE : Fld := ⟨0x100, 0, 0, 16, 2⟩
/-- `CADDY.KEY_CMD.STATUS`. -/ def F.caddy_KEY_CMD_STATUS : Fld := ⟨0x100, 0, 0, 28, 3⟩
/-- `CADDY.KEY_WRITES.COUNT`. -/ def F.caddy_KEY_WRITES_COUNT : Fld := ⟨0x1a0, 0, 0, 0, 32⟩
/-- `CADDY.LC_CMD.BUSY`. -/ def F.caddy_LC_CMD_BUSY : Fld := ⟨0x16c, 0, 0, 31, 1⟩
/-- `CADDY.LC_CMD.OP`. -/ def F.caddy_LC_CMD_OP : Fld := ⟨0x16c, 0, 0, 0, 2⟩
/-- `CADDY.LC_CMD.STATUS`. -/ def F.caddy_LC_CMD_STATUS : Fld := ⟨0x16c, 0, 0, 28, 3⟩
/-- `CADDY.LC_STATUS.AUTH_FAILS`. -/ def F.caddy_LC_STATUS_AUTH_FAILS : Fld := ⟨0x168, 0, 0, 0, 2⟩
/-- `CADDY.LC_STATUS.DBG`. -/ def F.caddy_LC_STATUS_DBG : Fld := ⟨0x168, 0, 0, 26, 2⟩
/-- `CADDY.LC_STATUS.DBG_KEY`. -/ def F.caddy_LC_STATUS_DBG_KEY : Fld := ⟨0x168, 0, 0, 24, 1⟩
/-- `CADDY.LC_STATUS.LC`. -/ def F.caddy_LC_STATUS_LC : Fld := ⟨0x168, 0, 0, 28, 4⟩
/-- `CADDY.LC_STATUS.SECRET`. -/ def F.caddy_LC_STATUS_SECRET : Fld := ⟨0x168, 0, 0, 25, 1⟩
/-- `CADDY.SLOT_SEL.SLOT`. -/ def F.caddy_SLOT_SEL_SLOT : Fld := ⟨0x140, 0, 0, 0, 8⟩
/-- `CAN.ACK_ERR`. -/ def F.can_ACK_ERR : Fld := ⟨0x154, 0, 0, 0, 32⟩
/-- `CAN.BIT_ERR`. -/ def F.can_BIT_ERR : Fld := ⟨0x158, 0, 0, 0, 32⟩
/-- `CAN.BUSOFF`. -/ def F.can_BUSOFF : Fld := ⟨0x15c, 0, 0, 0, 32⟩
/-- `CAN.CANSEC_FAIL`. -/ def F.can_CANSEC_FAIL : Fld := ⟨0x168, 0, 0, 0, 32⟩
/-- `CAN.CAN_CFG.BUSOFF_AUTO`. -/ def F.can_CAN_CFG_BUSOFF_AUTO : Fld := ⟨0x100, 0, 0, 6, 1⟩
/-- `CAN.CAN_CFG.FD_EN`. -/ def F.can_CAN_CFG_FD_EN : Fld := ⟨0x100, 0, 0, 2, 1⟩
/-- `CAN.CAN_CFG.ONE_SHOT`. -/ def F.can_CAN_CFG_ONE_SHOT : Fld := ⟨0x100, 0, 0, 7, 1⟩
/-- `CAN.CAN_CFG.XL_EN`. -/ def F.can_CAN_CFG_XL_EN : Fld := ⟨0x100, 0, 0, 3, 1⟩
/-- `CAN.CAN_CTRL`. -/ def F.can_CAN_CTRL : Fld := ⟨0x104, 0, 0, 0, 32⟩
/-- `CAN.CAN_CTRL.OPMODE`. -/ def F.can_CAN_CTRL_OPMODE : Fld := ⟨0x104, 0, 0, 0, 2⟩
/-- `CAN.CAN_DBT`. -/ def F.can_CAN_DBT : Fld := ⟨0x10c, 0, 0, 0, 32⟩
/-- `CAN.CAN_NBT`. -/ def F.can_CAN_NBT : Fld := ⟨0x108, 0, 0, 0, 32⟩
/-- `CAN.CAN_QUEUE.RXB_SLOTS`. -/ def F.can_CAN_QUEUE_RXB_SLOTS : Fld := ⟨0x120, 0, 0, 8, 8⟩
/-- `CAN.CAN_QUEUE.TXQ_FRAMES`. -/ def F.can_CAN_QUEUE_TXQ_FRAMES : Fld := ⟨0x120, 0, 0, 24, 8⟩
/-- `CAN.CAN_QUEUE.TXQ_SLOTS`. -/ def F.can_CAN_QUEUE_TXQ_SLOTS : Fld := ⟨0x120, 0, 0, 16, 8⟩
/-- `CAN.CAN_STATUS.CFG_ERR`. -/ def F.can_CAN_STATUS_CFG_ERR : Fld := ⟨0x11c, 0, 0, 8, 1⟩
/-- `CAN.CAN_STATUS.LEC`. -/ def F.can_CAN_STATUS_LEC : Fld := ⟨0x11c, 0, 0, 9, 3⟩
/-- `CAN.CAN_STATUS.REC`. -/ def F.can_CAN_STATUS_REC : Fld := ⟨0x11c, 0, 0, 16, 8⟩
/-- `CAN.CAN_STATUS.STATE`. -/ def F.can_CAN_STATUS_STATE : Fld := ⟨0x11c, 0, 0, 0, 3⟩
/-- `CAN.CAN_STATUS.TEC`. -/ def F.can_CAN_STATUS_TEC : Fld := ⟨0x11c, 0, 0, 24, 8⟩
/-- `CAN.CAN_STATUS.TX_ACTIVE`. -/ def F.can_CAN_STATUS_TX_ACTIVE : Fld := ⟨0x11c, 0, 0, 6, 1⟩
/-- `CAN.CAN_STATUS.XCVR_HOLD`. -/ def F.can_CAN_STATUS_XCVR_HOLD : Fld := ⟨0x11c, 0, 0, 7, 1⟩
/-- `CAN.CAN_TDC.TDCO_FD`. -/ def F.can_CAN_TDC_TDCO_FD : Fld := ⟨0x114, 0, 0, 16, 8⟩
/-- `CAN.CAN_TDC.TDCO_XL`. -/ def F.can_CAN_TDC_TDCO_XL : Fld := ⟨0x114, 0, 0, 8, 8⟩
/-- `CAN.CAN_TDC.TDCV`. -/ def F.can_CAN_TDC_TDCV : Fld := ⟨0x114, 0, 0, 0, 8⟩
/-- `CAN.CAN_TDC.TDC_FD`. -/ def F.can_CAN_TDC_TDC_FD : Fld := ⟨0x114, 0, 0, 31, 1⟩
/-- `CAN.CAN_TDC.TDC_XL`. -/ def F.can_CAN_TDC_TDC_XL : Fld := ⟨0x114, 0, 0, 30, 1⟩
/-- `CAN.CAN_XBT`. -/ def F.can_CAN_XBT : Fld := ⟨0x110, 0, 0, 0, 32⟩
/-- `CAN.CRC_ERR`. -/ def F.can_CRC_ERR : Fld := ⟨0x150, 0, 0, 0, 32⟩
/-- `CAN.CS_CFG.CONF`. -/ def F.can_CS_CFG_CONF : Fld := ⟨0xc00, 0, 0, 29, 1⟩
/-- `CAN.CS_CFG.EN`. -/ def F.can_CS_CFG_EN : Fld := ⟨0xc00, 0, 0, 31, 1⟩
/-- `CAN.CS_CFG.LEN256`. -/ def F.can_CS_CFG_LEN256 : Fld := ⟨0xc00, 0, 0, 28, 1⟩
/-- `CAN.CS_CFG.TX_EN`. -/ def F.can_CS_CFG_TX_EN : Fld := ⟨0xc00, 0, 0, 30, 1⟩
/-- `CAN.CS_CFG.TX_KEY_SLOT`. -/ def F.can_CS_CFG_TX_KEY_SLOT : Fld := ⟨0xc00, 0, 0, 0, 8⟩
/-- `CAN.CS_RX_FV`. -/ def F.can_CS_RX_FV : Fld := ⟨0xc14, 8, 0, 0, 32⟩
/-- `CAN.CS_RX.KEY_SLOT`. -/ def F.can_CS_RX_KEY_SLOT : Fld := ⟨0xc10, 8, 0, 0, 8⟩
/-- `CAN.CS_RX.SC_ID`. -/ def F.can_CS_RX_SC_ID : Fld := ⟨0xc10, 8, 0, 8, 8⟩
/-- `CAN.CS_RX.VALID`. -/ def F.can_CS_RX_VALID : Fld := ⟨0xc10, 8, 0, 31, 1⟩
/-- `CAN.CS_TX_FV`. -/ def F.can_CS_TX_FV : Fld := ⟨0xc04, 0, 0, 0, 32⟩
/-- `CAN.FORM_ERR`. -/ def F.can_FORM_ERR : Fld := ⟨0x14c, 0, 0, 0, 32⟩
/-- `CAN.GUARD_CAPPED`. -/ def F.can_GUARD_CAPPED : Fld := ⟨0x60c, 0, 0, 0, 32⟩
/-- `CAN.GUARD_CTRL.EN`. -/ def F.can_GUARD_CTRL_EN : Fld := ⟨0x600, 0, 0, 0, 1⟩
/-- `CAN.GUARD_CTRL.MAX_PER_TICK`. -/ def F.can_GUARD_CTRL_MAX_PER_TICK : Fld := ⟨0x600, 0, 0, 1, 8⟩
/-- `CAN.GUARD_HITS`. -/ def F.can_GUARD_HITS : Fld := ⟨0x608, 0, 0, 0, 32⟩
/-- `CAN.GUARD_LIST`. -/ def F.can_GUARD_LIST : Fld := ⟨0x800, 4, 0, 0, 32⟩
/-- `CAN.GUARD_LIST.VALID`. -/ def F.can_GUARD_LIST_VALID : Fld := ⟨0x800, 4, 0, 31, 1⟩
/-- `CAN.GUARD_MASK.MASK`. -/ def F.can_GUARD_MASK_MASK : Fld := ⟨0x604, 0, 0, 0, 29⟩
/-- `CAN.RX_FRAMES`. -/ def F.can_RX_FRAMES : Fld := ⟨0x140, 0, 0, 0, 32⟩
/-- `CAN.RX_OVF`. -/ def F.can_RX_OVF : Fld := ⟨0x160, 0, 0, 0, 32⟩
/-- `CAN.STUFF_ERR`. -/ def F.can_STUFF_ERR : Fld := ⟨0x148, 0, 0, 0, 32⟩
/-- `CAN.TDC_FAIL`. -/ def F.can_TDC_FAIL : Fld := ⟨0x16c, 0, 0, 0, 32⟩
/-- `CAN.TX_ABORT`. -/ def F.can_TX_ABORT : Fld := ⟨0x164, 0, 0, 0, 32⟩
/-- `CAN.TX_FRAMES`. -/ def F.can_TX_FRAMES : Fld := ⟨0x144, 0, 0, 0, 32⟩
/-- `CAN.TX_PCS_CFG.EN`. -/ def F.can_TX_PCS_CFG_EN : Fld := ⟨0x700, 0, 0, 31, 1⟩
/-- `CAN.TX_PCS_CFG.RATE`. -/ def F.can_TX_PCS_CFG_RATE : Fld := ⟨0x700, 0, 0, 0, 24⟩
/-- `CAN.TX_PCS_CREDIT.CREDIT`. -/ def F.can_TX_PCS_CREDIT_CREDIT : Fld := ⟨0x708, 0, 0, 0, 32⟩
/-- `CAN.TX_PCS_HELD`. -/ def F.can_TX_PCS_HELD : Fld := ⟨0x70c, 0, 0, 0, 32⟩
/-- `CAN.TX_PCS_MAX.CREDIT`. -/ def F.can_TX_PCS_MAX_CREDIT : Fld := ⟨0x704, 0, 0, 0, 24⟩
/-- `COSY.BOOT_DETAIL.DETAIL`. -/ def F.cosy_BOOT_DETAIL_DETAIL : Fld := ⟨0x4010, 0, 0, 0, 16⟩
/-- `COSY.BOOT_DETAIL.SEGMENT`. -/ def F.cosy_BOOT_DETAIL_SEGMENT : Fld := ⟨0x4010, 0, 0, 16, 2⟩
/-- `COSY.BOOT_RET.ATTEMPTS`. -/ def F.cosy_BOOT_RET_ATTEMPTS : Fld := ⟨0x4000, 0, 0, 0, 2⟩
/-- `COSY.BOOT_RET.DEADLINE_RUN`. -/ def F.cosy_BOOT_RET_DEADLINE_RUN : Fld := ⟨0x4000, 0, 0, 15, 1⟩
/-- `COSY.BOOT_RET.FAILED_TOTAL`. -/ def F.cosy_BOOT_RET_FAILED_TOTAL : Fld := ⟨0x4000, 0, 0, 16, 8⟩
/-- `COSY.BOOT_RET.LAST_REASON`. -/ def F.cosy_BOOT_RET_LAST_REASON : Fld := ⟨0x4000, 0, 0, 28, 4⟩
/-- `COSY.CLK_LOSS.COUNT`. -/ def F.cosy_CLK_LOSS_COUNT : Fld := ⟨0x1018, 0, 0, 0, 32⟩
/-- `COSY.PG_DROP.COUNT`. -/ def F.cosy_PG_DROP_COUNT : Fld := ⟨0x1014, 0, 0, 0, 32⟩
/-- `COSY.PG_FAIL.COUNT`. -/ def F.cosy_PG_FAIL_COUNT : Fld := ⟨0x1010, 0, 0, 0, 32⟩
/-- `COSY.PWR_CFG.PG_RETRIES`. -/ def F.cosy_PWR_CFG_PG_RETRIES : Fld := ⟨0x1004, 0, 0, 12, 2⟩
/-- `COSY.PWR_CFG.X32_EN`. -/ def F.cosy_PWR_CFG_X32_EN : Fld := ⟨0x1004, 0, 0, 31, 1⟩
/-- `COSY.PWR_CMD.KEY`. -/ def F.cosy_PWR_CMD_KEY : Fld := ⟨0x100c, 0, 0, 16, 16⟩
/-- `COSY.PWR_STATUS.INH`. -/ def F.cosy_PWR_STATUS_INH : Fld := ⟨0x1000, 0, 0, 28, 1⟩
/-- `COSY.PWR_STATUS.PMIC_PG`. -/ def F.cosy_PWR_STATUS_PMIC_PG : Fld := ⟨0x1000, 0, 0, 27, 1⟩
/-- `COSY.PWR_STATUS.RST_N`. -/ def F.cosy_PWR_STATUS_RST_N : Fld := ⟨0x1000, 0, 0, 26, 1⟩
/-- `COSY.PWR_STATUS.STATE`. -/ def F.cosy_PWR_STATUS_STATE : Fld := ⟨0x1000, 0, 0, 29, 3⟩
/-- `COSY.PWR_STATUS.VBAT`. -/ def F.cosy_PWR_STATUS_VBAT : Fld := ⟨0x1000, 0, 0, 0, 10⟩
/-- `COSY.PWR_STATUS.VBAT_UV`. -/ def F.cosy_PWR_STATUS_VBAT_UV : Fld := ⟨0x1000, 0, 0, 24, 1⟩
/-- `COSY.PWR_STATUS.X32_OK`. -/ def F.cosy_PWR_STATUS_X32_OK : Fld := ⟨0x1000, 0, 0, 25, 1⟩
/-- `COSY.RST_PIN.COUNT`. -/ def F.cosy_RST_PIN_COUNT : Fld := ⟨0x101c, 0, 0, 0, 32⟩
/-- `COSY.SAUCER_RET.BY_COSY`. -/ def F.cosy_SAUCER_RET_BY_COSY : Fld := ⟨0x4008, 0, 0, 8, 1⟩
/-- `COSY.SAUCER_RET.DETECTOR`. -/ def F.cosy_SAUCER_RET_DETECTOR : Fld := ⟨0x4008, 0, 0, 11, 5⟩
/-- `COSY.SAUCER_RET.REPAIR_PENDING`. -/ def F.cosy_SAUCER_RET_REPAIR_PENDING : Fld := ⟨0x4008, 0, 0, 10, 1⟩
/-- `COSY.SAUCER_RET.RESTARTS`. -/ def F.cosy_SAUCER_RET_RESTARTS : Fld := ⟨0x4008, 0, 0, 0, 8⟩
/-- `COSY.SAUCER_RET.SOURCE`. -/ def F.cosy_SAUCER_RET_SOURCE : Fld := ⟨0x4008, 0, 0, 16, 16⟩
/-- `COSY.SAUCER_RET.VALID`. -/ def F.cosy_SAUCER_RET_VALID : Fld := ⟨0x4008, 0, 0, 9, 1⟩
/-- `COSY.SLEEP_CFG.TARGET`. -/ def F.cosy_SLEEP_CFG_TARGET : Fld := ⟨0x3010, 0, 0, 31, 1⟩
/-- `COSY.SLOT_RET.ACTIVE`. -/ def F.cosy_SLOT_RET_ACTIVE : Fld := ⟨0x4004, 0, 0, 31, 1⟩
/-- `COSY.SLOT_RET.CAUSE`. -/ def F.cosy_SLOT_RET_CAUSE : Fld := ⟨0x4004, 0, 0, 16, 4⟩
/-- `COSY.SLOT_RET.PART`. -/ def F.cosy_SLOT_RET_PART : Fld := ⟨0x4004, 0, 0, 12, 4⟩
/-- `COSY.SLOT_RET.REASON`. -/ def F.cosy_SLOT_RET_REASON : Fld := ⟨0x4004, 0, 0, 20, 4⟩
/-- `COSY.SLOT_RET.RESULT`. -/ def F.cosy_SLOT_RET_RESULT : Fld := ⟨0x4004, 0, 0, 24, 4⟩
/-- `COSY.SLOT_RET.TRIAL`. -/ def F.cosy_SLOT_RET_TRIAL : Fld := ⟨0x4004, 0, 0, 30, 1⟩
/-- `COSY.START_CAUSE.CAUSE`. -/ def F.cosy_START_CAUSE_CAUSE : Fld := ⟨0x1008, 0, 0, 28, 4⟩
/-- `COSY.START_CAUSE.PREV_CAUSE`. -/ def F.cosy_START_CAUSE_PREV_CAUSE : Fld := ⟨0x1008, 0, 0, 24, 4⟩
/-- `COSY.START_CAUSE.STARTS`. -/ def F.cosy_START_CAUSE_STARTS : Fld := ⟨0x1008, 0, 0, 0, 16⟩
/-- `COSY.SWF_CTRL.DATA_EN`. -/ def F.cosy_SWF_CTRL_DATA_EN : Fld := ⟨0x3110, 0x80, 0x18, 29, 1⟩
/-- `COSY.SWF_CTRL.DLC`. -/ def F.cosy_SWF_CTRL_DLC : Fld := ⟨0x3110, 0x80, 0x18, 0, 4⟩
/-- `COSY.SWF_CTRL.EN`. -/ def F.cosy_SWF_CTRL_EN : Fld := ⟨0x3110, 0x80, 0x18, 31, 1⟩
/-- `COSY.SWF_CTRL.IDE`. -/ def F.cosy_SWF_CTRL_IDE : Fld := ⟨0x3110, 0x80, 0x18, 30, 1⟩
/-- `COSY.SWF_DMASK_HI.MASK`. -/ def F.cosy_SWF_DMASK_HI_MASK : Fld := ⟨0x311c, 0x80, 0x18, 0, 32⟩
/-- `COSY.SWF_DMASK_LO.MASK`. -/ def F.cosy_SWF_DMASK_LO_MASK : Fld := ⟨0x3120, 0x80, 0x18, 0, 32⟩
/-- `COSY.SWF_IDMASK.MASK`. -/ def F.cosy_SWF_IDMASK_MASK : Fld := ⟨0x3118, 0x80, 0x18, 0, 29⟩
/-- `COSY.SWF_ID.ID`. -/ def F.cosy_SWF_ID_ID : Fld := ⟨0x3114, 0x80, 0x18, 0, 29⟩
/-- `COSY.SW_CFG.EN`. -/ def F.cosy_SW_CFG_EN : Fld := ⟨0x3100, 0x80, 0, 31, 1⟩
/-- `COSY.SW_CFG.ERR_CNT`. -/ def F.cosy_SW_CFG_ERR_CNT : Fld := ⟨0x3100, 0x80, 0, 8, 6⟩
/-- `COSY.TAMPER_RET.COUNT`. -/ def F.cosy_TAMPER_RET_COUNT : Fld := ⟨0x400c, 0, 0, 0, 8⟩
/-- `COSY.TAMPER_RET.SEEN`. -/ def F.cosy_TAMPER_RET_SEEN : Fld := ⟨0x400c, 0, 0, 31, 1⟩
/-- `COSY.VBAT_MIN.MIN`. -/ def F.cosy_VBAT_MIN_MIN : Fld := ⟨0x1020, 0, 0, 0, 10⟩
/-- `COSY.WAKES.COUNT`. -/ def F.cosy_WAKES_COUNT : Fld := ⟨0x300c, 0, 0, 0, 32⟩
/-- `COSY.WAKE_CFG.LWAKE_EN`. -/ def F.cosy_WAKE_CFG_LWAKE_EN : Fld := ⟨0x3000, 0, 0, 4, 4⟩
/-- `COSY.WAKE_CFG.PIN_EN`. -/ def F.cosy_WAKE_CFG_PIN_EN : Fld := ⟨0x3000, 0, 0, 0, 4⟩
/-- `COSY.WAKE_CFG.PIN_LEVEL`. -/ def F.cosy_WAKE_CFG_PIN_LEVEL : Fld := ⟨0x3000, 0, 0, 16, 4⟩
/-- `COSY.WAKE_CFG.TIMER_EN`. -/ def F.cosy_WAKE_CFG_TIMER_EN : Fld := ⟨0x3000, 0, 0, 31, 1⟩
/-- `COSY.WAKE_CFG.WUP_EN`. -/ def F.cosy_WAKE_CFG_WUP_EN : Fld := ⟨0x3000, 0, 0, 8, 8⟩
/-- `COSY.WAKE_REASON.REASON`. -/ def F.cosy_WAKE_REASON_REASON : Fld := ⟨0x3008, 0, 0, 28, 4⟩
/-- `COSY.WAKE_REASON.SOURCE`. -/ def F.cosy_WAKE_REASON_SOURCE : Fld := ⟨0x3008, 0, 0, 16, 8⟩
/-- `COSY.XCVR`. -/ def F.cosy_XCVR : Fld := ⟨0x2000, 4, 0, 0, 32⟩
/-- `COSY.XCVR.BUS_DOM`. -/ def F.cosy_XCVR_BUS_DOM : Fld := ⟨0x2000, 4, 0, 10, 1⟩
/-- `COSY.XCVR.MODE`. -/ def F.cosy_XCVR_MODE : Fld := ⟨0x2000, 4, 0, 0, 2⟩
/-- `COSY.XCVR.STATE`. -/ def F.cosy_XCVR_STATE : Fld := ⟨0x2000, 4, 0, 4, 2⟩
/-- `COSY.XCVR.TXD_DOM`. -/ def F.cosy_XCVR_TXD_DOM : Fld := ⟨0x2000, 4, 0, 11, 1⟩
/-- `COSY.XCVR.VBAT_UV`. -/ def F.cosy_XCVR_VBAT_UV : Fld := ⟨0x2000, 4, 0, 9, 1⟩
/-- `CRYPT.AUTH_FAIL.COUNT`. -/ def F.crypt_AUTH_FAIL_COUNT : Fld := ⟨0x180, 0, 0, 0, 32⟩
/-- `CRYPT.COMPARE_FAIL`. -/ def F.crypt_COMPARE_FAIL : Fld := ⟨0x184, 0, 0, 0, 32⟩
/-- `CRYPT.DATA.DATA`. -/ def F.crypt_DATA_DATA : Fld := ⟨0x10000, 4, 0, 0, 32⟩
/-- `CRYPT.DESC_W0.W`. -/ def F.crypt_DESC_W0_W : Fld := ⟨0x1000, 0x200, 0x20, 0, 32⟩
/-- `CRYPT.DESC_W1.W`. -/ def F.crypt_DESC_W1_W : Fld := ⟨0x1004, 0x200, 0x20, 0, 32⟩
/-- `CRYPT.DESC_W2.W`. -/ def F.crypt_DESC_W2_W : Fld := ⟨0x1008, 0x200, 0x20, 0, 32⟩
/-- `CRYPT.DESC_W3.W`. -/ def F.crypt_DESC_W3_W : Fld := ⟨0x100c, 0x200, 0x20, 0, 32⟩
/-- `CRYPT.DESC_W4.W`. -/ def F.crypt_DESC_W4_W : Fld := ⟨0x1010, 0x200, 0x20, 0, 32⟩
/-- `CRYPT.DESC_W5.W`. -/ def F.crypt_DESC_W5_W : Fld := ⟨0x1014, 0x200, 0x20, 0, 32⟩
/-- `CRYPT.DESC_W7.W`. -/ def F.crypt_DESC_W7_W : Fld := ⟨0x101c, 0x200, 0x20, 0, 32⟩
/-- `CRYPT.ENTROPY_FAIL.COUNT`. -/ def F.crypt_ENTROPY_FAIL_COUNT : Fld := ⟨0x188, 0, 0, 0, 32⟩
/-- `CRYPT.RING_CTRL.HEAD`. -/ def F.crypt_RING_CTRL_HEAD : Fld := ⟨0x100, 0x10, 0, 4, 4⟩
/-- `CRYPT.RING_CTRL.INT_EN`. -/ def F.crypt_RING_CTRL_INT_EN : Fld := ⟨0x100, 0x10, 0, 31, 1⟩
/-- `CRYPT.RING_CTRL.TAIL`. -/ def F.crypt_RING_CTRL_TAIL : Fld := ⟨0x100, 0x10, 0, 0, 4⟩
/-- `CRYPT.RING_DONE.COUNT`. -/ def F.crypt_RING_DONE_COUNT : Fld := ⟨0x104, 0x10, 0, 0, 32⟩
/-- `FAB.AUDIT_RECLAIMED`. -/ def F.fab_AUDIT_RECLAIMED : Fld := ⟨0xa4, 0, 0, 0, 32⟩
/-- `FAB.AUDIT_STATUS.PASSES`. -/ def F.fab_AUDIT_STATUS_PASSES : Fld := ⟨0xa0, 0, 0, 24, 8⟩
/-- `FAB.AUDIT_STATUS.POSITION`. -/ def F.fab_AUDIT_STATUS_POSITION : Fld := ⟨0xa0, 0, 0, 0, 17⟩
/-- `FAB.AUDIT_STRIKES`. -/ def F.fab_AUDIT_STRIKES : Fld := ⟨0xa8, 0, 0, 0, 32⟩
/-- `FAB.BUF_CFG.START_RESERVE`. -/ def F.fab_BUF_CFG_START_RESERVE : Fld := ⟨0x80, 0, 0, 0, 18⟩
/-- `FAB.BUF_FREE.FREE`. -/ def F.fab_BUF_FREE_FREE : Fld := ⟨0x88, 0, 0, 0, 18⟩
/-- `FAB.BUF_FREE_MIN.MIN`. -/ def F.fab_BUF_FREE_MIN_MIN : Fld := ⟨0x8c, 0, 0, 0, 18⟩
/-- `FAB.BUF_FULL_DROP`. -/ def F.fab_BUF_FULL_DROP : Fld := ⟨0xac, 0, 0, 0, 32⟩
/-- `FAB.CT_FRAMES`. -/ def F.fab_CT_FRAMES : Fld := ⟨0x424, 0x40, 0, 0, 32⟩
/-- `FAB.CYCLE`. -/ def F.fab_CYCLE : Fld := ⟨0x94, 0, 0, 0, 32⟩
/-- `FAB.DROP_STATUS.STICKY`. -/ def F.fab_DROP_STATUS_STICKY : Fld := ⟨0xc0, 0, 0, 16, 16⟩
/-- `FAB.DROP_STATUS.SUSTAINED`. -/ def F.fab_DROP_STATUS_SUSTAINED : Fld := ⟨0xc0, 0, 0, 0, 16⟩
/-- `FAB.ECC_CORR`. -/ def F.fab_ECC_CORR : Fld := ⟨0xb8, 0, 0, 0, 32⟩
/-- `FAB.ECC_UNCORR`. -/ def F.fab_ECC_UNCORR : Fld := ⟨0xbc, 0, 0, 0, 32⟩
/-- `FAB.LOSSLESS_DROP`. -/ def F.fab_LOSSLESS_DROP : Fld := ⟨0x428, 0x40, 0, 0, 32⟩
/-- `FAB.LOSSLESS_USED.TC4`. -/ def F.fab_LOSSLESS_USED_TC4 : Fld := ⟨0x414, 0x40, 0, 0, 16⟩
/-- `FAB.LOSSLESS_USED.TC5`. -/ def F.fab_LOSSLESS_USED_TC5 : Fld := ⟨0x414, 0x40, 0, 16, 16⟩
/-- `FAB.PAUSE_STATE.TC`. -/ def F.fab_PAUSE_STATE_TC : Fld := ⟨0x430, 0x40, 0, 0, 8⟩
/-- `FAB.PFC_CFG.EN`. -/ def F.fab_PFC_CFG_EN : Fld := ⟨0x408, 0x40, 0, 31, 1⟩
/-- `FAB.PFC_CFG.PRIO_TC4`. -/ def F.fab_PFC_CFG_PRIO_TC4 : Fld := ⟨0x408, 0x40, 0, 0, 8⟩
/-- `FAB.PFC_CFG.PRIO_TC5`. -/ def F.fab_PFC_CFG_PRIO_TC5 : Fld := ⟨0x408, 0x40, 0, 8, 8⟩
/-- `FAB.PFC_CFG.RX_EN`. -/ def F.fab_PFC_CFG_RX_EN : Fld := ⟨0x408, 0x40, 0, 30, 1⟩
/-- `FAB.PFC_CFG.RX_PAUSE_EN`. -/ def F.fab_PFC_CFG_RX_PAUSE_EN : Fld := ⟨0x408, 0x40, 0, 29, 1⟩
/-- `FAB.PFC_HEAD.HEADROOM`. -/ def F.fab_PFC_HEAD_HEADROOM : Fld := ⟨0x410, 0x40, 0, 0, 16⟩
/-- `FAB.PFC_HEAD.QUANTA`. -/ def F.fab_PFC_HEAD_QUANTA : Fld := ⟨0x410, 0x40, 0, 16, 16⟩
/-- `FAB.PFC_THRESH.XOFF`. -/ def F.fab_PFC_THRESH_XOFF : Fld := ⟨0x40c, 0x40, 0, 16, 16⟩
/-- `FAB.PFC_THRESH.XON`. -/ def F.fab_PFC_THRESH_XON : Fld := ⟨0x40c, 0x40, 0, 0, 16⟩
/-- `FAB.PFC_TX`. -/ def F.fab_PFC_TX : Fld := ⟨0x42c, 0x40, 0, 0, 32⟩
/-- `FAB.PORT_CFG.CT_EN`. -/ def F.fab_PORT_CFG_CT_EN : Fld := ⟨0x400, 0x40, 0, 31, 1⟩
/-- `FAB.PORT_CFG.LIMIT`. -/ def F.fab_PORT_CFG_LIMIT : Fld := ⟨0x400, 0x40, 0, 0, 18⟩
/-- `FAB.PORT_USED.CELLS`. -/ def F.fab_PORT_USED_CELLS : Fld := ⟨0x404, 0x40, 0, 0, 18⟩
/-- `FAB.PUSHOUT`. -/ def F.fab_PUSHOUT : Fld := ⟨0x420, 0x40, 0, 0, 32⟩
/-- `FAB.QCFG.LIMIT`. -/ def F.fab_QCFG_LIMIT : Fld := ⟨0x1000, 0x20, 0, 0, 18⟩
/-- `FAB.QCFG.PROFILE`. -/ def F.fab_QCFG_PROFILE : Fld := ⟨0x1000, 0x20, 0, 28, 4⟩
/-- `FAB.QDEPTH.CELLS`. -/ def F.fab_QDEPTH_CELLS : Fld := ⟨0x1008, 0x20, 0, 0, 18⟩
/-- `FAB.QDROP_LIMIT`. -/ def F.fab_QDROP_LIMIT : Fld := ⟨0x1014, 0x20, 0, 0, 32⟩
/-- `FAB.QDROP_RED`. -/ def F.fab_QDROP_RED : Fld := ⟨0x1010, 0x20, 0, 0, 32⟩
/-- `FAB.QENQ`. -/ def F.fab_QENQ : Fld := ⟨0x101c, 0x20, 0, 0, 32⟩
/-- `FAB.QENT_DROP`. -/ def F.fab_QENT_DROP : Fld := ⟨0xb4, 0, 0, 0, 32⟩
/-- `FAB.QENT_FREE.FREE`. -/ def F.fab_QENT_FREE_FREE : Fld := ⟨0x90, 0, 0, 0, 19⟩
/-- `FAB.QEVICTED`. -/ def F.fab_QEVICTED : Fld := ⟨0x1018, 0x20, 0, 0, 32⟩
/-- `FAB.QFRAMES.COUNT`. -/ def F.fab_QFRAMES_COUNT : Fld := ⟨0x100c, 0x20, 0, 0, 18⟩
/-- `FAB.QRESV`. -/ def F.fab_QRESV : Fld := ⟨0x1004, 0x20, 0, 0, 32⟩
/-- `FAB.QRESV.RESV`. -/ def F.fab_QRESV_RESV : Fld := ⟨0x1004, 0x20, 0, 0, 18⟩
/-- `FAB.RED_MAX.CELLS`. -/ def F.fab_RED_MAX_CELLS : Fld := ⟨0x804, 0x40, 0x10, 0, 18⟩
/-- `FAB.RED_MIN.CELLS`. -/ def F.fab_RED_MIN_CELLS : Fld := ⟨0x800, 0x40, 0x10, 0, 18⟩
/-- `FAB.RED_PMAX.PMAX`. -/ def F.fab_RED_PMAX_PMAX : Fld := ⟨0x808, 0x40, 0x10, 0, 8⟩
/-- `FAB.SLICE_MAP`. -/ def F.fab_SLICE_MAP : Fld := ⟨0x84, 0, 0, 0, 32⟩
/-- `FAB.SLICE_MAP.SPARE_FOR`. -/ def F.fab_SLICE_MAP_SPARE_FOR : Fld := ⟨0x84, 0, 0, 0, 4⟩
/-- `FAB.SLICE_MAP.SPARE_USED`. -/ def F.fab_SLICE_MAP_SPARE_USED : Fld := ⟨0x84, 0, 0, 31, 1⟩
/-- `FAB.SLICE_SKIP`. -/ def F.fab_SLICE_SKIP : Fld := ⟨0xb0, 0, 0, 0, 32⟩
/-- `FAB.STOMP`. -/ def F.fab_STOMP : Fld := ⟨0x418, 0x40, 0, 0, 32⟩
/-- `FAB.UNDERRUN`. -/ def F.fab_UNDERRUN : Fld := ⟨0x41c, 0x40, 0, 0, 32⟩
/-- `FLX.FLX_CLUSTER.STATIC_SLOTS`. -/ def F.flx_FLX_CLUSTER_STATIC_SLOTS : Fld := ⟨0x110, 0, 0, 4, 10⟩
/-- `FLX.FLX_CTRL`. -/ def F.flx_FLX_CTRL : Fld := ⟨0x100, 0, 0, 0, 32⟩
/-- `FLX.FLX_CYCLE_TS`. -/ def F.flx_FLX_CYCLE_TS : Fld := ⟨0x108, 0, 0, 0, 32⟩
/-- `FLX.FLX_NODE.CHANNELS`. -/ def F.flx_FLX_NODE_CHANNELS : Fld := ⟨0x11c, 0, 0, 17, 2⟩
/-- `FLX.FLX_STATUS.CMD_ERR`. -/ def F.flx_FLX_STATUS_CMD_ERR : Fld := ⟨0x104, 0, 0, 19, 1⟩
/-- `FLX.FLX_STATUS.CYCLE`. -/ def F.flx_FLX_STATUS_CYCLE : Fld := ⟨0x104, 0, 0, 24, 8⟩
/-- `FLX.FLX_STATUS.POC_STATE`. -/ def F.flx_FLX_STATUS_POC_STATE : Fld := ⟨0x104, 0, 0, 20, 4⟩
/-- `FLX.MB_DATA`. -/ def F.flx_MB_DATA : Fld := ⟨0x8000, 4, 0, 0, 32⟩
/-- `FLX.MB_HDR.BASE`. -/ def F.flx_MB_HDR_BASE : Fld := ⟨0x800, 8, 0, 22, 6⟩
/-- `FLX.MB_HDR.CH`. -/ def F.flx_MB_HDR_CH : Fld := ⟨0x800, 8, 0, 28, 2⟩
/-- `FLX.MB_HDR.PAYLOAD`. -/ def F.flx_MB_HDR_PAYLOAD : Fld := ⟨0x800, 8, 0, 0, 7⟩
/-- `FLX.MB_HDR.REP`. -/ def F.flx_MB_HDR_REP : Fld := ⟨0x800, 8, 0, 19, 3⟩
/-- `FLX.MB_HDR.SLOT`. -/ def F.flx_MB_HDR_SLOT : Fld := ⟨0x800, 8, 0, 8, 11⟩
/-- `FLX.MB_HDR.TX`. -/ def F.flx_MB_HDR_TX : Fld := ⟨0x800, 8, 0, 30, 1⟩
/-- `FLX.MB_HDR.VALID`. -/ def F.flx_MB_HDR_VALID : Fld := ⟨0x800, 8, 0, 31, 1⟩
/-- `FLX.MB_STAT.NEW`. -/ def F.flx_MB_STAT_NEW : Fld := ⟨0x804, 8, 0, 31, 1⟩
/-- `FLX.MB_STAT.NULL`. -/ def F.flx_MB_STAT_NULL : Fld := ⟨0x804, 8, 0, 30, 1⟩
/-- `FLX.MB_STAT.RX_CYCLE`. -/ def F.flx_MB_STAT_RX_CYCLE : Fld := ⟨0x804, 8, 0, 16, 6⟩
/-- `FN.FN_CTRL.DMA_EN`. -/ def F.fn_FN_CTRL_DMA_EN : Fld := ⟨0x100, 0, 0, 31, 1⟩
/-- `FN.FN_FENCE_ADDR`. -/ def F.fn_FN_FENCE_ADDR : Fld := ⟨0x108, 0, 0, 0, 32⟩
/-- `FN.FN_FENCE.COUNT`. -/ def F.fn_FN_FENCE_COUNT : Fld := ⟨0x104, 0, 0, 0, 16⟩
/-- `FN.MSIX_PBA.W`. -/ def F.fn_MSIX_PBA_W : Fld := ⟨0x1800, 4, 0, 0, 32⟩
/-- `FN.MSIX.W`. -/ def F.fn_MSIX_W : Fld := ⟨0x1000, 4, 0, 0, 32⟩
/-- `FN.RING_BASE_HI.ADDR`. -/ def F.fn_RING_BASE_HI_ADDR : Fld := ⟨0x404, 0x20, 0, 0, 32⟩
/-- `FN.RING_BASE_LO.ADDR`. -/ def F.fn_RING_BASE_LO_ADDR : Fld := ⟨0x400, 0x20, 0, 4, 28⟩
/-- `FN.RING_CFG.EN`. -/ def F.fn_RING_CFG_EN : Fld := ⟨0x408, 0x20, 0, 31, 1⟩
/-- `FN.RING_CFG.SIZE`. -/ def F.fn_RING_CFG_SIZE : Fld := ⟨0x408, 0x20, 0, 0, 16⟩
/-- `FN.RING_CFG.TC`. -/ def F.fn_RING_CFG_TC : Fld := ⟨0x408, 0x20, 0, 28, 3⟩
/-- `FN.RING_HEAD.HEAD`. -/ def F.fn_RING_HEAD_HEAD : Fld := ⟨0x40c, 0x20, 0, 0, 16⟩
/-- `FN.RING_TAIL.TAIL`. -/ def F.fn_RING_TAIL_TAIL : Fld := ⟨0x410, 0x20, 0, 0, 16⟩
/-- `FN.RX_FRAMES`. -/ def F.fn_RX_FRAMES : Fld := ⟨0x144, 0, 0, 0, 32⟩
/-- `FN.RX_NO_DESC`. -/ def F.fn_RX_NO_DESC : Fld := ⟨0x148, 0, 0, 0, 32⟩
/-- `FN.RX_TC_MAP.MAP`. -/ def F.fn_RX_TC_MAP_MAP : Fld := ⟨0x10c, 0, 0, 0, 32⟩
/-- `FN.RX_TOO_BIG`. -/ def F.fn_RX_TOO_BIG : Fld := ⟨0x14c, 0, 0, 0, 32⟩
/-- `FN.TX_BAD_DESC`. -/ def F.fn_TX_BAD_DESC : Fld := ⟨0x150, 0, 0, 0, 32⟩
/-- `FN.TX_FRAMES`. -/ def F.fn_TX_FRAMES : Fld := ⟨0x140, 0, 0, 0, 32⟩
/-- `GW.ADMIT_DROP`. -/ def F.gw_ADMIT_DROP : Fld := ⟨0x604, 0x20, 0, 0, 32⟩
/-- `GW.BUS_ADMIT.EN`. -/ def F.gw_BUS_ADMIT_EN : Fld := ⟨0x204, 0x10, 0, 31, 1⟩
/-- `GW.BUS_ADMIT.LIMIT`. -/ def F.gw_BUS_ADMIT_LIMIT : Fld := ⟨0x204, 0x10, 0, 0, 16⟩
/-- `GW.BUS_ADMIT.STICKY`. -/ def F.gw_BUS_ADMIT_STICKY : Fld := ⟨0x204, 0x10, 0, 29, 1⟩
/-- `GW.BUS_ADMIT.SUSTAINED`. -/ def F.gw_BUS_ADMIT_SUSTAINED : Fld := ⟨0x204, 0x10, 0, 30, 1⟩
/-- `GW.BUS_OWNER.OWNER`. -/ def F.gw_BUS_OWNER_OWNER : Fld := ⟨0x200, 0x10, 0, 0, 4⟩
/-- `GW.BUS_ROUTE.BASE`. -/ def F.gw_BUS_ROUTE_BASE : Fld := ⟨0x208, 0x10, 0, 18, 14⟩
/-- `GW.BUS_ROUTE.COUNT`. -/ def F.gw_BUS_ROUTE_COUNT : Fld := ⟨0x208, 0x10, 0, 0, 15⟩
/-- `GW.DENIED`. -/ def F.gw_DENIED : Fld := ⟨0x610, 0x20, 0, 0, 32⟩
/-- `GW.ENG_MAP`. -/ def F.gw_ENG_MAP : Fld := ⟨0x1000, 0, 0, 0, 32⟩
/-- `GW.ENG_MAP.ACTIVE`. -/ def F.gw_ENG_MAP_ACTIVE : Fld := ⟨0x1000, 0, 0, 31, 1⟩
/-- `GW.ENG_MAP.FAILED`. -/ def F.gw_ENG_MAP_FAILED : Fld := ⟨0x1000, 0, 0, 30, 1⟩
/-- `GW.ENG_MAP.LOGICAL`. -/ def F.gw_ENG_MAP_LOGICAL : Fld := ⟨0x1000, 0, 0, 0, 4⟩
/-- `GW.ETH_IN_DROP`. -/ def F.gw_ETH_IN_DROP : Fld := ⟨0x1034, 0, 0, 0, 32⟩
/-- `GW.FMT_DROP`. -/ def F.gw_FMT_DROP : Fld := ⟨0x618, 0x20, 0, 0, 32⟩
/-- `GW.GW_SA_HI.SA`. -/ def F.gw_GW_SA_HI_SA : Fld := ⟨0x130, 0, 0, 0, 16⟩
/-- `GW.GW_SA_LO.SA`. -/ def F.gw_GW_SA_LO_SA : Fld := ⟨0x134, 0, 0, 0, 32⟩
/-- `GW.IN_FRAMES`. -/ def F.gw_IN_FRAMES : Fld := ⟨0x600, 0x20, 0, 0, 32⟩
/-- `GW.IN_FULL`. -/ def F.gw_IN_FULL : Fld := ⟨0x608, 0x20, 0, 0, 32⟩
/-- `GW.ITEMS`. -/ def F.gw_ITEMS : Fld := ⟨0x1010, 0, 0, 0, 32⟩
/-- `GW.KEY_WAIT`. -/ def F.gw_KEY_WAIT : Fld := ⟨0x1038, 0, 0, 0, 32⟩
/-- `GW.MEM_ADDR.SPACE`. -/ def F.gw_MEM_ADDR_SPACE : Fld := ⟨0x1004, 0, 0, 31, 1⟩
/-- `GW.MEM_ADDR.WORD`. -/ def F.gw_MEM_ADDR_WORD : Fld := ⟨0x1004, 0, 0, 2, 14⟩
/-- `GW.MEM_DATA.DATA`. -/ def F.gw_MEM_DATA_DATA : Fld := ⟨0x1008, 0, 0, 0, 32⟩
/-- `GW.NO_ROUTE`. -/ def F.gw_NO_ROUTE : Fld := ⟨0x60c, 0x20, 0, 0, 32⟩
/-- `GW.NO_STREAM.COUNT`. -/ def F.gw_NO_STREAM_COUNT : Fld := ⟨0x148, 0, 0, 0, 32⟩
/-- `GW.OUT_FRAMES`. -/ def F.gw_OUT_FRAMES : Fld := ⟨0x61c, 0x20, 0, 0, 32⟩
/-- `GW.OUT_FULL`. -/ def F.gw_OUT_FULL : Fld := ⟨0x614, 0x20, 0, 0, 32⟩
/-- `GW.P13_OUT_DROP`. -/ def F.gw_P13_OUT_DROP : Fld := ⟨0x1030, 0, 0, 0, 32⟩
/-- `GW.PUNT_DROP.COUNT`. -/ def F.gw_PUNT_DROP_COUNT : Fld := ⟨0x144, 0, 0, 0, 32⟩
/-- `GW.PUNT_LIMIT.LIMIT`. -/ def F.gw_PUNT_LIMIT_LIMIT : Fld := ⟨0x140, 0, 0, 0, 10⟩
/-- `GW.SEQ_GAP`. -/ def F.gw_SEQ_GAP : Fld := ⟨0x102c, 0, 0, 0, 32⟩
/-- `GW.SIG_OVERWRITE`. -/ def F.gw_SIG_OVERWRITE : Fld := ⟨0x1018, 0, 0, 0, 32⟩
/-- `GW.SIG_SENT`. -/ def F.gw_SIG_SENT : Fld := ⟨0x1014, 0, 0, 0, 32⟩
/-- `GW.SIG_STALE`. -/ def F.gw_SIG_STALE : Fld := ⟨0x101c, 0, 0, 0, 32⟩
/-- `GW.TBL_CMD.BUSY`. -/ def F.gw_TBL_CMD_BUSY : Fld := ⟨0x100, 0, 0, 31, 1⟩
/-- `GW.TBL_CMD.STATUS`. -/ def F.gw_TBL_CMD_STATUS : Fld := ⟨0x100, 0, 0, 28, 3⟩
/-- `GW.TBL_DATA.DATA`. -/ def F.gw_TBL_DATA_DATA : Fld := ⟨0x104, 4, 0, 0, 32⟩
/-- `GW.TUN_FMT`. -/ def F.gw_TUN_FMT : Fld := ⟨0x1028, 0, 0, 0, 32⟩
/-- `GW.TUN_PDU_IN`. -/ def F.gw_TUN_PDU_IN : Fld := ⟨0x1024, 0, 0, 0, 32⟩
/-- `GW.TUN_PDU_OUT`. -/ def F.gw_TUN_PDU_OUT : Fld := ⟨0x1020, 0, 0, 0, 32⟩
/-- `KETTLE.FAIL.DETAIL`. -/ def F.kettle_FAIL_DETAIL : Fld := ⟨0x108, 0, 0, 0, 16⟩
/-- `KETTLE.FAIL.REASON`. -/ def F.kettle_FAIL_REASON : Fld := ⟨0x108, 0, 0, 28, 4⟩
/-- `KETTLE.FAIL.SEGMENT`. -/ def F.kettle_FAIL_SEGMENT : Fld := ⟨0x108, 0, 0, 16, 2⟩
/-- `KETTLE.KEY_REVOKE.KEY`. -/ def F.kettle_KEY_REVOKE_KEY : Fld := ⟨0x11c, 0, 0, 16, 16⟩
/-- `KETTLE.RETRY.KEY`. -/ def F.kettle_RETRY_KEY : Fld := ⟨0x130, 0, 0, 16, 16⟩
/-- `KETTLE.STATUS.COMPLETE`. -/ def F.kettle_STATUS_COMPLETE : Fld := ⟨0x100, 0, 0, 27, 1⟩
/-- `KETTLE.STATUS.FALLBACK`. -/ def F.kettle_STATUS_FALLBACK : Fld := ⟨0x100, 0, 0, 26, 1⟩
/-- `KETTLE.STATUS.KEY_USED`. -/ def F.kettle_STATUS_KEY_USED : Fld := ⟨0x100, 0, 0, 20, 2⟩
/-- `KETTLE.STATUS.PHASE`. -/ def F.kettle_STATUS_PHASE : Fld := ⟨0x100, 0, 0, 28, 4⟩
/-- `KETTLE.STATUS.SELFTEST_RAN`. -/ def F.kettle_STATUS_SELFTEST_RAN : Fld := ⟨0x100, 0, 0, 24, 1⟩
/-- `KETTLE.STATUS.SETTINGS_COPY`. -/ def F.kettle_STATUS_SETTINGS_COPY : Fld := ⟨0x100, 0, 0, 22, 1⟩
/-- `KETTLE.STATUS.SETTINGS_RESETS`. -/ def F.kettle_STATUS_SETTINGS_RESETS : Fld := ⟨0x100, 0, 0, 8, 8⟩
/-- `KETTLE.STATUS.SETTINGS_VALID`. -/ def F.kettle_STATUS_SETTINGS_VALID : Fld := ⟨0x100, 0, 0, 23, 1⟩
/-- `KETTLE.STATUS.SLOT`. -/ def F.kettle_STATUS_SLOT : Fld := ⟨0x100, 0, 0, 25, 1⟩
/-- `KETTLE.STRAPS`. -/ def F.kettle_STRAPS : Fld := ⟨0x104, 0, 0, 0, 32⟩
/-- `KETTLE.STRAPS.BOOT_MODE`. -/ def F.kettle_STRAPS_BOOT_MODE : Fld := ⟨0x104, 0, 0, 0, 2⟩
/-- `KETTLE.STRAPS.TEST_EN`. -/ def F.kettle_STRAPS_TEST_EN : Fld := ⟨0x104, 0, 0, 4, 1⟩
/-- `KETTLE.STRAPS.TRIAD_SPLIT`. -/ def F.kettle_STRAPS_TRIAD_SPLIT : Fld := ⟨0x104, 0, 0, 3, 1⟩
/-- `KETTLE.TIME_DONE.US`. -/ def F.kettle_TIME_DONE_US : Fld := ⟨0x110, 0, 0, 0, 32⟩
/-- `KETTLE.TIME_ESS.US`. -/ def F.kettle_TIME_ESS_US : Fld := ⟨0x10c, 0, 0, 0, 32⟩
/-- `KETTLE.UPD_CMD.KEY`. -/ def F.kettle_UPD_CMD_KEY : Fld := ⟨0x208, 0, 0, 16, 16⟩
/-- `KETTLE.UPD_EPOCH.EPOCH`. -/ def F.kettle_UPD_EPOCH_EPOCH : Fld := ⟨0x250, 0, 0, 0, 32⟩
/-- `KETTLE.UPD_RESET.SRC_A`. -/ def F.kettle_UPD_RESET_SRC_A : Fld := ⟨0x210, 4, 0, 16, 16⟩
/-- `KETTLE.UPD_RESET.SRC_B`. -/ def F.kettle_UPD_RESET_SRC_B : Fld := ⟨0x210, 4, 0, 0, 16⟩
/-- `KETTLE.UPD_STATUS.RECORD`. -/ def F.kettle_UPD_STATUS_RECORD : Fld := ⟨0x20c, 0, 0, 0, 28⟩
/-- `KETTLE.UPD_STATUS.STATE`. -/ def F.kettle_UPD_STATUS_STATE : Fld := ⟨0x20c, 0, 0, 28, 4⟩
/-- `KETTLE.UPD_TIME_NS.NS`. -/ def F.kettle_UPD_TIME_NS_NS : Fld := ⟨0x204, 0, 0, 0, 30⟩
/-- `KETTLE.UPD_TIME_SEC.SEC`. -/ def F.kettle_UPD_TIME_SEC_SEC : Fld := ⟨0x200, 0, 0, 0, 32⟩
/-- `KETTLE.VERSION.VERSION`. -/ def F.kettle_VERSION_VERSION : Fld := ⟨0x114, 0, 0, 0, 32⟩
/-- `LIN.BIT_ERR`. -/ def F.lin_BIT_ERR : Fld := ⟨0x120, 0x40, 0, 0, 32⟩
/-- `LIN.CHK_ERR`. -/ def F.lin_CHK_ERR : Fld := ⟨0x11c, 0x40, 0, 0, 32⟩
/-- `LIN.ET_COLL`. -/ def F.lin_ET_COLL : Fld := ⟨0x128, 0x40, 0, 0, 32⟩
/-- `LIN.HEADERS`. -/ def F.lin_HEADERS : Fld := ⟨0x110, 0x40, 0, 0, 32⟩
/-- `LIN.LIN_CFG`. -/ def F.lin_LIN_CFG : Fld := ⟨0x100, 0x40, 0, 0, 32⟩
/-- `LIN.LIN_CFG.BAUD`. -/ def F.lin_LIN_CFG_BAUD : Fld := ⟨0x100, 0x40, 0, 0, 15⟩
/-- `LIN.LIN_CFG.EN`. -/ def F.lin_LIN_CFG_EN : Fld := ⟨0x100, 0x40, 0, 31, 1⟩
/-- `LIN.LIN_CFG.ENHANCED`. -/ def F.lin_LIN_CFG_ENHANCED : Fld := ⟨0x100, 0x40, 0, 29, 1⟩
/-- `LIN.LIN_CFG.ROLE`. -/ def F.lin_LIN_CFG_ROLE : Fld := ⟨0x100, 0x40, 0, 30, 1⟩
/-- `LIN.LIN_SCHED.ACTIVE`. -/ def F.lin_LIN_SCHED_ACTIVE : Fld := ⟨0x104, 0x40, 0, 12, 2⟩
/-- `LIN.LIN_SCHED.REQ`. -/ def F.lin_LIN_SCHED_REQ : Fld := ⟨0x104, 0x40, 0, 8, 2⟩
/-- `LIN.LIN_STATUS.ENTRY`. -/ def F.lin_LIN_STATUS_ENTRY : Fld := ⟨0x108, 0x40, 0, 16, 5⟩
/-- `LIN.LIN_STATUS.LAST_ERR`. -/ def F.lin_LIN_STATUS_LAST_ERR : Fld := ⟨0x108, 0x40, 0, 4, 4⟩
/-- `LIN.LIN_STATUS.STATE`. -/ def F.lin_LIN_STATUS_STATE : Fld := ⟨0x108, 0x40, 0, 0, 2⟩
/-- `LIN.LIN_STATUS.XCVR_HOLD`. -/ def F.lin_LIN_STATUS_XCVR_HOLD : Fld := ⟨0x108, 0x40, 0, 8, 1⟩
/-- `LIN.NO_RESP`. -/ def F.lin_NO_RESP : Fld := ⟨0x118, 0x40, 0, 0, 32⟩
/-- `LIN.RESP_OK`. -/ def F.lin_RESP_OK : Fld := ⟨0x114, 0x40, 0, 0, 32⟩
/-- `LIN.SCHED_ENTRY`. -/ def F.lin_SCHED_ENTRY : Fld := ⟨0x1000, 0x200, 4, 0, 32⟩
/-- `LIN.SYNC_ERR`. -/ def F.lin_SYNC_ERR : Fld := ⟨0x124, 0x40, 0, 0, 32⟩
/-- `MAC.MACSEC_RX.VALIDATE`. -/ def F.mac_MACSEC_RX_VALIDATE : Fld := ⟨0x108, 0, 0, 0, 2⟩
/-- `MAC.MODE.IF_MODE`. -/ def F.mac_MODE_IF_MODE : Fld := ⟨0x100, 0, 0, 0, 4⟩
/-- `MAC.PREEMPT_CFG.ADD_FRAG`. -/ def F.mac_PREEMPT_CFG_ADD_FRAG : Fld := ⟨0x304, 0, 0, 0, 2⟩
/-- `MAC.PREEMPT_CFG.EN`. -/ def F.mac_PREEMPT_CFG_EN : Fld := ⟨0x304, 0, 0, 31, 1⟩
/-- `MAC.PREEMPT_CFG.VERIFY_DIS`. -/ def F.mac_PREEMPT_CFG_VERIFY_DIS : Fld := ⟨0x304, 0, 0, 30, 1⟩
/-- `MAC.PREEMPT_STATUS.VERIFY`. -/ def F.mac_PREEMPT_STATUS_VERIFY : Fld := ⟨0x308, 0, 0, 0, 3⟩
/-- `MAC.REPLAY_WINDOW`. -/ def F.mac_REPLAY_WINDOW : Fld := ⟨0x90c, 0xa0, 0, 0, 32⟩
/-- `MAC.RXSA_CTRL.KEY_SLOT`. -/ def F.mac_RXSA_CTRL_KEY_SLOT : Fld := ⟨0x910, 0xa0, 0x20, 0, 8⟩
/-- `MAC.RXSA_CTRL.VALID`. -/ def F.mac_RXSA_CTRL_VALID : Fld := ⟨0x910, 0xa0, 0x20, 31, 1⟩
/-- `MAC.RXSA_PN_HI`. -/ def F.mac_RXSA_PN_HI : Fld := ⟨0x914, 0xa0, 0x20, 0, 32⟩
/-- `MAC.RXSA_PN_LO`. -/ def F.mac_RXSA_PN_LO : Fld := ⟨0x918, 0xa0, 0x20, 0, 32⟩
/-- `MAC.RXSA_SALT0.SALT`. -/ def F.mac_RXSA_SALT0_SALT : Fld := ⟨0x920, 0xa0, 0x20, 0, 32⟩
/-- `MAC.RXSA_SALT1.SALT`. -/ def F.mac_RXSA_SALT1_SALT : Fld := ⟨0x924, 0xa0, 0x20, 0, 32⟩
/-- `MAC.RXSA_SALT2.SALT`. -/ def F.mac_RXSA_SALT2_SALT : Fld := ⟨0x928, 0xa0, 0x20, 0, 32⟩
/-- `MAC.RXSA_SSCI.SSCI`. -/ def F.mac_RXSA_SSCI_SSCI : Fld := ⟨0x91c, 0xa0, 0x20, 0, 32⟩
/-- `MAC.RX_ASSY_ERR`. -/ def F.mac_RX_ASSY_ERR : Fld := ⟨0x324, 0, 0, 0, 32⟩
/-- `MAC.RX_ASSY_OK`. -/ def F.mac_RX_ASSY_OK : Fld := ⟨0x320, 0, 0, 0, 32⟩
/-- `MAC.RX_CFG.MAX_LEN`. -/ def F.mac_RX_CFG_MAX_LEN : Fld := ⟨0x104, 0, 0, 16, 14⟩
/-- `MAC.RX_CFG.RX_EN`. -/ def F.mac_RX_CFG_RX_EN : Fld := ⟨0x104, 0, 0, 0, 1⟩
/-- `MAC.RX_CUT_BAD`. -/ def F.mac_RX_CUT_BAD : Fld := ⟨0x224, 0, 0, 0, 32⟩
/-- `MAC.RX_FCS_ERR`. -/ def F.mac_RX_FCS_ERR : Fld := ⟨0x20c, 0, 0, 0, 32⟩
/-- `MAC.RX_FRAMES`. -/ def F.mac_RX_FRAMES : Fld := ⟨0x200, 0, 0, 0, 32⟩
/-- `MAC.RX_LATE`. -/ def F.mac_RX_LATE : Fld := ⟨0xe08, 0, 0, 0, 32⟩
/-- `MAC.RX_LEN_BAD`. -/ def F.mac_RX_LEN_BAD : Fld := ⟨0x228, 0, 0, 0, 32⟩
/-- `MAC.RX_MACSEC_FAIL`. -/ def F.mac_RX_MACSEC_FAIL : Fld := ⟨0x21c, 0, 0, 0, 32⟩
/-- `MAC.RX_NO_SA`. -/ def F.mac_RX_NO_SA : Fld := ⟨0xe0c, 0, 0, 0, 32⟩
/-- `MAC.RX_OCTETS_HI.COUNT`. -/ def F.mac_RX_OCTETS_HI_COUNT : Fld := ⟨0x208, 0, 0, 0, 32⟩
/-- `MAC.RX_OCTETS_LO`. -/ def F.mac_RX_OCTETS_LO : Fld := ⟨0x204, 0, 0, 0, 32⟩
/-- `MAC.RX_OVERSIZE`. -/ def F.mac_RX_OVERSIZE : Fld := ⟨0x214, 0, 0, 0, 32⟩
/-- `MAC.RX_PAUSE`. -/ def F.mac_RX_PAUSE : Fld := ⟨0x218, 0, 0, 0, 32⟩
/-- `MAC.RX_RUNT`. -/ def F.mac_RX_RUNT : Fld := ⟨0x210, 0, 0, 0, 32⟩
/-- `MAC.RX_SCI_HI.SCI`. -/ def F.mac_RX_SCI_HI_SCI : Fld := ⟨0x900, 0xa0, 0, 0, 32⟩
/-- `MAC.RX_SCI_LO.SCI`. -/ def F.mac_RX_SCI_LO_SCI : Fld := ⟨0x904, 0xa0, 0, 0, 32⟩
/-- `MAC.RX_SC_CFG.REPLAY`. -/ def F.mac_RX_SC_CFG_REPLAY : Fld := ⟨0x908, 0xa0, 0, 30, 1⟩
/-- `MAC.RX_SC_CFG.VALID`. -/ def F.mac_RX_SC_CFG_VALID : Fld := ⟨0x908, 0xa0, 0, 31, 1⟩
/-- `MAC.RX_SMD_ERR`. -/ def F.mac_RX_SMD_ERR : Fld := ⟨0x328, 0, 0, 0, 32⟩
/-- `MAC.RX_UNPROTECTED`. -/ def F.mac_RX_UNPROTECTED : Fld := ⟨0x220, 0, 0, 0, 32⟩
/-- `MAC.SECY_TX_CFG.CIPHER`. -/ def F.mac_SECY_TX_CFG_CIPHER : Fld := ⟨0x800, 0, 0, 28, 3⟩
/-- `MAC.SECY_TX_CFG.CONF`. -/ def F.mac_SECY_TX_CFG_CONF : Fld := ⟨0x800, 0, 0, 26, 1⟩
/-- `MAC.SECY_TX_CFG.CONF_OFS`. -/ def F.mac_SECY_TX_CFG_CONF_OFS : Fld := ⟨0x800, 0, 0, 24, 2⟩
/-- `MAC.SECY_TX_CFG.EN`. -/ def F.mac_SECY_TX_CFG_EN : Fld := ⟨0x800, 0, 0, 31, 1⟩
/-- `MAC.SECY_TX_CFG.ENC_AN`. -/ def F.mac_SECY_TX_CFG_ENC_AN : Fld := ⟨0x800, 0, 0, 0, 2⟩
/-- `MAC.SECY_TX_CFG.PN_WARN`. -/ def F.mac_SECY_TX_CFG_PN_WARN : Fld := ⟨0x800, 0, 0, 23, 1⟩
/-- `MAC.SECY_TX_CFG.SCI_EN`. -/ def F.mac_SECY_TX_CFG_SCI_EN : Fld := ⟨0x800, 0, 0, 27, 1⟩
/-- `MAC.TXSA_CTRL.KEY_SLOT`. -/ def F.mac_TXSA_CTRL_KEY_SLOT : Fld := ⟨0x840, 0x20, 0, 0, 8⟩
/-- `MAC.TXSA_CTRL.VALID`. -/ def F.mac_TXSA_CTRL_VALID : Fld := ⟨0x840, 0x20, 0, 31, 1⟩
/-- `MAC.TXSA_PN_HI`. -/ def F.mac_TXSA_PN_HI : Fld := ⟨0x844, 0x20, 0, 0, 32⟩
/-- `MAC.TXSA_PN_LO`. -/ def F.mac_TXSA_PN_LO : Fld := ⟨0x848, 0x20, 0, 0, 32⟩
/-- `MAC.TXSA_SALT0.SALT`. -/ def F.mac_TXSA_SALT0_SALT : Fld := ⟨0x850, 0x20, 0, 0, 32⟩
/-- `MAC.TXSA_SALT1.SALT`. -/ def F.mac_TXSA_SALT1_SALT : Fld := ⟨0x854, 0x20, 0, 0, 32⟩
/-- `MAC.TXSA_SALT2.SALT`. -/ def F.mac_TXSA_SALT2_SALT : Fld := ⟨0x858, 0x20, 0, 0, 32⟩
/-- `MAC.TXSA_SSCI.SSCI`. -/ def F.mac_TXSA_SSCI_SSCI : Fld := ⟨0x84c, 0x20, 0, 0, 32⟩
/-- `MAC.TX_CFG.TX_EN`. -/ def F.mac_TX_CFG_TX_EN : Fld := ⟨0x300, 0, 0, 0, 1⟩
/-- `MAC.TX_FRAGMENTS`. -/ def F.mac_TX_FRAGMENTS : Fld := ⟨0x31c, 0, 0, 0, 32⟩
/-- `MAC.TX_FRAMES`. -/ def F.mac_TX_FRAMES : Fld := ⟨0x310, 0, 0, 0, 32⟩
/-- `MAC.TX_OCTETS_HI.COUNT`. -/ def F.mac_TX_OCTETS_HI_COUNT : Fld := ⟨0x318, 0, 0, 0, 32⟩
/-- `MAC.TX_OCTETS_LO`. -/ def F.mac_TX_OCTETS_LO : Fld := ⟨0x314, 0, 0, 0, 32⟩
/-- `MAC.TX_PN_EXHAUSTED`. -/ def F.mac_TX_PN_EXHAUSTED : Fld := ⟨0xe04, 0, 0, 0, 32⟩
/-- `MAC.TX_PN_THRESH_HI`. -/ def F.mac_TX_PN_THRESH_HI : Fld := ⟨0x80c, 0, 0, 0, 32⟩
/-- `MAC.TX_PN_THRESH_LO`. -/ def F.mac_TX_PN_THRESH_LO : Fld := ⟨0x810, 0, 0, 0, 32⟩
/-- `MAC.TX_PROTECTED`. -/ def F.mac_TX_PROTECTED : Fld := ⟨0xe00, 0, 0, 0, 32⟩
/-- `MAC.TX_SCI_HI.SCI`. -/ def F.mac_TX_SCI_HI_SCI : Fld := ⟨0x804, 0, 0, 0, 32⟩
/-- `MAC.TX_SCI_LO.SCI`. -/ def F.mac_TX_SCI_LO_SCI : Fld := ⟨0x808, 0, 0, 0, 32⟩
/-- `MAC.VERIFY_FAIL`. -/ def F.mac_VERIFY_FAIL : Fld := ⟨0x32c, 0, 0, 0, 32⟩
/-- `MSPI.ABANDONED`. -/ def F.mspi_ABANDONED : Fld := ⟨0x14c, 0, 0, 0, 32⟩
/-- `MSPI.CRC_ERR`. -/ def F.mspi_CRC_ERR : Fld := ⟨0x144, 0, 0, 0, 32⟩
/-- `MSPI.FENCE_ADDR`. -/ def F.mspi_FENCE_ADDR : Fld := ⟨0x104, 0, 0, 0, 32⟩
/-- `MSPI.FENCE.COUNT`. -/ def F.mspi_FENCE_COUNT : Fld := ⟨0x100, 0, 0, 0, 16⟩
/-- `MSPI.FRAME_ERR`. -/ def F.mspi_FRAME_ERR : Fld := ⟨0x148, 0, 0, 0, 32⟩
/-- `MSPI.TRANSFERS`. -/ def F.mspi_TRANSFERS : Fld := ⟨0x140, 0, 0, 0, 32⟩
/-- `NETM.ABORTS`. -/ def F.netm_ABORTS : Fld := ⟨0x148, 0, 0, 0, 32⟩
/-- `NETM.AGREEMENTS`. -/ def F.netm_AGREEMENTS : Fld := ⟨0x144, 0, 0, 0, 32⟩
/-- `NETM.BAD_MSG`. -/ def F.netm_BAD_MSG : Fld := ⟨0x150, 0, 0, 0, 32⟩
/-- `NETM.COMMIT_DISCARD`. -/ def F.netm_COMMIT_DISCARD : Fld := ⟨0x154, 0, 0, 0, 32⟩
/-- `NETM.NETM_CFG.BB_COUNT`. -/ def F.netm_NETM_CFG_BB_COUNT : Fld := ⟨0x100, 0, 0, 16, 7⟩
/-- `NETM.NETM_CFG.BB_EN`. -/ def F.netm_NETM_CFG_BB_EN : Fld := ⟨0x100, 0, 0, 30, 1⟩
/-- `NETM.NETM_CFG.BB_POS`. -/ def F.netm_NETM_CFG_BB_POS : Fld := ⟨0x100, 0, 0, 8, 6⟩
/-- `NETM.NETM_CFG.BB_RING`. -/ def F.netm_NETM_CFG_BB_RING : Fld := ⟨0x100, 0, 0, 0, 8⟩
/-- `NETM.NETM_CFG.EN`. -/ def F.netm_NETM_CFG_EN : Fld := ⟨0x100, 0, 0, 31, 1⟩
/-- `NETM.NETM_CMD.WAKE`. -/ def F.netm_NETM_CMD_WAKE : Fld := ⟨0x11c, 0, 0, 0, 1⟩
/-- `NETM.NETM_LAST_WAKE.REASON`. -/ def F.netm_NETM_LAST_WAKE_REASON : Fld := ⟨0x120, 0, 0, 28, 4⟩
/-- `NETM.NETM_LAST_WAKE.SOURCE`. -/ def F.netm_NETM_LAST_WAKE_SOURCE : Fld := ⟨0x120, 0, 0, 16, 8⟩
/-- `NETM.NETM_LOCAL.HOLD`. -/ def F.netm_NETM_LOCAL_HOLD : Fld := ⟨0x108, 0, 0, 0, 32⟩
/-- `NETM.NETM_RING_DA_HI.DA`. -/ def F.netm_NETM_RING_DA_HI_DA : Fld := ⟨0x114, 0, 0, 0, 16⟩
/-- `NETM.NETM_RING_DA_LO.DA`. -/ def F.netm_NETM_RING_DA_LO_DA : Fld := ⟨0x118, 0, 0, 0, 32⟩
/-- `NETM.NETM_STATUS.BB_SEEN`. -/ def F.netm_NETM_STATUS_BB_SEEN : Fld := ⟨0x10c, 0, 0, 28, 1⟩
/-- `NETM.NETM_STATUS.LOCAL_OK`. -/ def F.netm_NETM_STATUS_LOCAL_OK : Fld := ⟨0x10c, 0, 0, 29, 1⟩
/-- `NETM.NETM_STATUS.PHASE`. -/ def F.netm_NETM_STATUS_PHASE : Fld := ⟨0x10c, 0, 0, 30, 2⟩
/-- `NETM.NETM_STATUS.SUB_OK`. -/ def F.netm_NETM_STATUS_SUB_OK : Fld := ⟨0x10c, 0, 0, 0, 24⟩
/-- `NETM.NETM_SUB_EN.EN`. -/ def F.netm_NETM_SUB_EN_EN : Fld := ⟨0x110, 0, 0, 0, 24⟩
/-- `NETM.NETM_TIMING.AGREE_TICKS`. -/ def F.netm_NETM_TIMING_AGREE_TICKS : Fld := ⟨0x104, 0, 0, 8, 8⟩
/-- `NETM.NETM_TIMING.DRAIN_TICKS`. -/ def F.netm_NETM_TIMING_DRAIN_TICKS : Fld := ⟨0x104, 0, 0, 0, 8⟩
/-- `NETM.NETM_TIMING.ROUND_TICKS`. -/ def F.netm_NETM_TIMING_ROUND_TICKS : Fld := ⟨0x104, 0, 0, 24, 8⟩
/-- `NETM.NETM_TIMING.TOKEN_TIMEOUT`. -/ def F.netm_NETM_TIMING_TOKEN_TIMEOUT : Fld := ⟨0x104, 0, 0, 16, 8⟩
/-- `NETM.ROUNDS`. -/ def F.netm_ROUNDS : Fld := ⟨0x140, 0, 0, 0, 32⟩
/-- `NETM.SUB_CFG.CAN_ID`. -/ def F.netm_SUB_CFG_CAN_ID : Fld := ⟨0x200, 8, 0, 0, 11⟩
/-- `NETM.SUB_CFG.COUNT`. -/ def F.netm_SUB_CFG_COUNT : Fld := ⟨0x200, 8, 0, 16, 7⟩
/-- `NETM.SUB_CFG.RING`. -/ def F.netm_SUB_CFG_RING : Fld := ⟨0x200, 8, 0, 24, 8⟩
/-- `NETM.SUB_STATUS.ROUND`. -/ def F.netm_SUB_STATUS_ROUND : Fld := ⟨0x204, 8, 0, 24, 8⟩
/-- `NETM.SUB_STATUS.VOTES`. -/ def F.netm_SUB_STATUS_VOTES : Fld := ⟨0x204, 8, 0, 17, 7⟩
/-- `NETM.TOKEN_LOST`. -/ def F.netm_TOKEN_LOST : Fld := ⟨0x14c, 0, 0, 0, 32⟩
/-- `PCIE.FENCE_ADDR`. -/ def F.pcie_FENCE_ADDR : Fld := ⟨0x104, 0, 0, 0, 32⟩
/-- `PCIE.FENCE.COUNT`. -/ def F.pcie_FENCE_COUNT : Fld := ⟨0x100, 0, 0, 0, 16⟩
/-- `PCIE.LINK_STATUS.SPEED`. -/ def F.pcie_LINK_STATUS_SPEED : Fld := ⟨0x108, 0, 0, 28, 3⟩
/-- `PCIE.LINK_STATUS.UP`. -/ def F.pcie_LINK_STATUS_UP : Fld := ⟨0x108, 0, 0, 31, 1⟩
/-- `PCIE.LINK_STATUS.WIDTH`. -/ def F.pcie_LINK_STATUS_WIDTH : Fld := ⟨0x108, 0, 0, 24, 4⟩
/-- `PIPE.AGED`. -/ def F.pipe_AGED : Fld := ⟨0x358, 0, 0, 0, 32⟩
/-- `PIPE.AGE_PERIOD.TICKS`. -/ def F.pipe_AGE_PERIOD_TICKS : Fld := ⟨0x310, 0, 0, 0, 24⟩
/-- `PIPE.AGE_SLICE.BUCKETS`. -/ def F.pipe_AGE_SLICE_BUCKETS : Fld := ⟨0x314, 0, 0, 0, 11⟩
/-- `PIPE.AGE_STATUS.POSITION`. -/ def F.pipe_AGE_STATUS_POSITION : Fld := ⟨0x318, 0, 0, 0, 14⟩
/-- `PIPE.AGE_STATUS.SWEEPING`. -/ def F.pipe_AGE_STATUS_SWEEPING : Fld := ⟨0x318, 0, 0, 31, 1⟩
/-- `PIPE.DA_MISS`. -/ def F.pipe_DA_MISS : Fld := ⟨0x344, 0, 0, 0, 32⟩
/-- `PIPE.ECC_CORR`. -/ def F.pipe_ECC_CORR : Fld := ⟨0x35c, 0, 0, 0, 32⟩
/-- `PIPE.FDB_CFG.DROP_STATIC_MOVE`. -/ def F.pipe_FDB_CFG_DROP_STATIC_MOVE : Fld := ⟨0x300, 0, 0, 16, 1⟩
/-- `PIPE.FDB_CFG.LEARN_LIMIT`. -/ def F.pipe_FDB_CFG_LEARN_LIMIT : Fld := ⟨0x300, 0, 0, 0, 16⟩
/-- `PIPE.FDB_CMD`. -/ def F.pipe_FDB_CMD : Fld := ⟨0x380, 0, 0, 0, 32⟩
/-- `PIPE.FDB_CMD.BUSY`. -/ def F.pipe_FDB_CMD_BUSY : Fld := ⟨0x380, 0, 0, 31, 1⟩
/-- `PIPE.FDB_CMD.STATUS`. -/ def F.pipe_FDB_CMD_STATUS : Fld := ⟨0x380, 0, 0, 28, 3⟩
/-- `PIPE.FDB_DROP`. -/ def F.pipe_FDB_DROP : Fld := ⟨0x350, 0, 0, 0, 32⟩
/-- `PIPE.FDB_KEY_HI`. -/ def F.pipe_FDB_KEY_HI : Fld := ⟨0x384, 0, 0, 0, 32⟩
/-- `PIPE.FDB_KEY_LO`. -/ def F.pipe_FDB_KEY_LO : Fld := ⟨0x388, 0, 0, 0, 32⟩
/-- `PIPE.FDB_OCC.ENTRIES`. -/ def F.pipe_FDB_OCC_ENTRIES : Fld := ⟨0x360, 0, 0, 0, 16⟩
/-- `PIPE.FDB_OCC.STASH`. -/ def F.pipe_FDB_OCC_STASH : Fld := ⟨0x360, 0, 0, 16, 7⟩
/-- `PIPE.FDB_OCC.STASH_HWM`. -/ def F.pipe_FDB_OCC_STASH_HWM : Fld := ⟨0x360, 0, 0, 23, 7⟩
/-- `PIPE.FDB_RES_HI`. -/ def F.pipe_FDB_RES_HI : Fld := ⟨0x38c, 0, 0, 0, 32⟩
/-- `PIPE.FDB_RES_LO`. -/ def F.pipe_FDB_RES_LO : Fld := ⟨0x390, 0, 0, 0, 32⟩
/-- `PIPE.FDB_SEED`. -/ def F.pipe_FDB_SEED : Fld := ⟨0x304, 0, 0, 0, 32⟩
/-- `PIPE.FDB_SLOT`. -/ def F.pipe_FDB_SLOT : Fld := ⟨0x394, 0, 0, 0, 32⟩
/-- `PIPE.GEN_CTRL`. -/ def F.pipe_GEN_CTRL : Fld := ⟨0x200, 0, 0, 0, 32⟩
/-- `PIPE.GEN_CTRL.SWAP`. -/ def F.pipe_GEN_CTRL_SWAP : Fld := ⟨0x200, 0, 0, 0, 1⟩
/-- `PIPE.GEN_INFLIGHT.COUNT`. -/ def F.pipe_GEN_INFLIGHT_COUNT : Fld := ⟨0x208, 4, 0, 0, 18⟩
/-- `PIPE.GEN_STATUS.CUR_GEN`. -/ def F.pipe_GEN_STATUS_CUR_GEN : Fld := ⟨0x204, 0, 0, 31, 1⟩
/-- `PIPE.GEN_STATUS.INACTIVE`. -/ def F.pipe_GEN_STATUS_INACTIVE : Fld := ⟨0x204, 0, 0, 30, 1⟩
/-- `PIPE.GEN_STATUS.RC_SUSTAINED`. -/ def F.pipe_GEN_STATUS_RC_SUSTAINED : Fld := ⟨0x204, 0, 0, 28, 1⟩
/-- `PIPE.GEN_STATUS.REJECTS`. -/ def F.pipe_GEN_STATUS_REJECTS : Fld := ⟨0x204, 0, 0, 20, 8⟩
/-- `PIPE.GEN_STATUS.RELEASE_TIMEOUT`. -/ def F.pipe_GEN_STATUS_RELEASE_TIMEOUT : Fld := ⟨0x204, 0, 0, 0, 8⟩
/-- `PIPE.GEN_STATUS.SWAP_PENDING`. -/ def F.pipe_GEN_STATUS_SWAP_PENDING : Fld := ⟨0x204, 0, 0, 29, 1⟩
/-- `PIPE.HEADS`. -/ def F.pipe_HEADS : Fld := ⟨0x1c8, 0, 0, 0, 32⟩
/-- `PIPE.HIT_LOST`. -/ def F.pipe_HIT_LOST : Fld := ⟨0x348, 0, 0, 0, 32⟩
/-- `PIPE.LEARNED`. -/ def F.pipe_LEARNED : Fld := ⟨0x330, 0, 0, 0, 32⟩
/-- `PIPE.LEARN_DROP`. -/ def F.pipe_LEARN_DROP : Fld := ⟨0x334, 0, 0, 0, 32⟩
/-- `PIPE.LEARN_EN.PORT_MASK`. -/ def F.pipe_LEARN_EN_PORT_MASK : Fld := ⟨0x308, 0, 0, 0, 16⟩
/-- `PIPE.LEARN_FAIL`. -/ def F.pipe_LEARN_FAIL : Fld := ⟨0x338, 0, 0, 0, 32⟩
/-- `PIPE.LEARN_STATUS.STICKY`. -/ def F.pipe_LEARN_STATUS_STICKY : Fld := ⟨0x30c, 0, 0, 1, 1⟩
/-- `PIPE.LEARN_STATUS.SUSTAINED`. -/ def F.pipe_LEARN_STATUS_SUSTAINED : Fld := ⟨0x30c, 0, 0, 0, 1⟩
/-- `PIPE.MOVES`. -/ def F.pipe_MOVES : Fld := ⟨0x33c, 0, 0, 0, 32⟩
/-- `PIPE.PARSE_CFG.ALT_TPID`. -/ def F.pipe_PARSE_CFG_ALT_TPID : Fld := ⟨0x80, 0, 0, 0, 16⟩
/-- `PIPE.PUNT_COUNT`. -/ def F.pipe_PUNT_COUNT : Fld := ⟨0x144, 4, 0, 0, 32⟩
/-- `PIPE.PUNT_DROP`. -/ def F.pipe_PUNT_DROP : Fld := ⟨0x184, 4, 0, 0, 32⟩
/-- `PIPE.PUNT_LIMIT.LIMIT`. -/ def F.pipe_PUNT_LIMIT_LIMIT : Fld := ⟨0x104, 4, 0, 0, 10⟩
/-- `PIPE.PUNT_QFULL`. -/ def F.pipe_PUNT_QFULL : Fld := ⟨0x1c4, 0, 0, 0, 32⟩
/-- `PIPE.PUNT_STATUS.STICKY`. -/ def F.pipe_PUNT_STATUS_STICKY : Fld := ⟨0x1c0, 0, 0, 17, 9⟩
/-- `PIPE.PUNT_STATUS.SUSTAINED`. -/ def F.pipe_PUNT_STATUS_SUSTAINED : Fld := ⟨0x1c0, 0, 0, 1, 9⟩
/-- `PIPE.PVID`. -/ def F.pipe_PVID : Fld := ⟨0x400, 4, 0, 0, 32⟩
/-- `PIPE.RECIRC_DROP`. -/ def F.pipe_RECIRC_DROP : Fld := ⟨0x214, 0, 0, 0, 32⟩
/-- `PIPE.RECIRC_LIMIT.LIMIT`. -/ def F.pipe_RECIRC_LIMIT_LIMIT : Fld := ⟨0x210, 0, 0, 0, 16⟩
/-- `PIPE.RECIRC_STALE`. -/ def F.pipe_RECIRC_STALE : Fld := ⟨0x218, 0, 0, 0, 32⟩
/-- `PIPE.SAME_PORT`. -/ def F.pipe_SAME_PORT : Fld := ⟨0x354, 0, 0, 0, 32⟩
/-- `PIPE.SHADOW_CFG.COUNT`. -/ def F.pipe_SHADOW_CFG_COUNT : Fld := ⟨0x31c, 0, 0, 0, 13⟩
/-- `PIPE.SHADOW_CFG.REPAIR`. -/ def F.pipe_SHADOW_CFG_REPAIR : Fld := ⟨0x31c, 0, 0, 16, 1⟩
/-- `PIPE.SHADOW_STATUS.LAST_INDEX`. -/ def F.pipe_SHADOW_STATUS_LAST_INDEX : Fld := ⟨0x320, 0, 0, 0, 12⟩
/-- `PIPE.SHADOW_STATUS.MISMATCHES`. -/ def F.pipe_SHADOW_STATUS_MISMATCHES : Fld := ⟨0x320, 0, 0, 16, 16⟩
/-- `PIPE.STATIC_MOVE`. -/ def F.pipe_STATIC_MOVE : Fld := ⟨0x340, 0, 0, 0, 32⟩
/-- `PIPE.TC_MAP.DEF_TC`. -/ def F.pipe_TC_MAP_DEF_TC : Fld := ⟨0x440, 4, 0, 24, 3⟩
/-- `PIPE.TC_MAP.PCP_MAP`. -/ def F.pipe_TC_MAP_PCP_MAP : Fld := ⟨0x440, 4, 0, 0, 24⟩
/-- `PIPE.UDF_DEF.ANCHOR`. -/ def F.pipe_UDF_DEF_ANCHOR : Fld := ⟨0x84, 4, 0, 8, 2⟩
/-- `PIPE.UDF_DEF.OFFSET`. -/ def F.pipe_UDF_DEF_OFFSET : Fld := ⟨0x84, 4, 0, 0, 8⟩
/-- `PIPE.VLAN_DROP`. -/ def F.pipe_VLAN_DROP : Fld := ⟨0x34c, 0, 0, 0, 32⟩
/-- `SAUCER.ACCESS_ERR`. -/ def F.saucer_ACCESS_ERR : Fld := ⟨0x150, 0, 0, 0, 32⟩
/-- `SAUCER.CFG.GRACE`. -/ def F.saucer_CFG_GRACE : Fld := ⟨0x100, 0, 0, 0, 12⟩
/-- `SAUCER.CFG.PHY_RST`. -/ def F.saucer_CFG_PHY_RST : Fld := ⟨0x100, 0, 0, 31, 1⟩
/-- `SAUCER.END_REFUSED`. -/ def F.saucer_END_REFUSED : Fld := ⟨0x154, 0, 0, 0, 32⟩
/-- `SAUCER.EPISODES`. -/ def F.saucer_EPISODES : Fld := ⟨0x144, 0, 0, 0, 32⟩
/-- `SAUCER.EPISODE_END.KEY`. -/ def F.saucer_EPISODE_END_KEY : Fld := ⟨0x10c, 0, 0, 16, 16⟩
/-- `SAUCER.EPISODE.END_STATUS`. -/ def F.saucer_EPISODE_END_STATUS : Fld := ⟨0x104, 0, 0, 25, 2⟩
/-- `SAUCER.EPISODE.GRACE_COUNT`. -/ def F.saucer_EPISODE_GRACE_COUNT : Fld := ⟨0x104, 0, 0, 12, 13⟩
/-- `SAUCER.EPISODE.HOST_ONLY`. -/ def F.saucer_EPISODE_HOST_ONLY : Fld := ⟨0x104, 0, 0, 28, 1⟩
/-- `SAUCER.EPISODE.OPEN`. -/ def F.saucer_EPISODE_OPEN : Fld := ⟨0x104, 0, 0, 31, 1⟩
/-- `SAUCER.EPISODE.RECORD_FAULT`. -/ def F.saucer_EPISODE_RECORD_FAULT : Fld := ⟨0x104, 0, 0, 27, 1⟩
/-- `SAUCER.EPISODE.SEQ`. -/ def F.saucer_EPISODE_SEQ : Fld := ⟨0x104, 0, 0, 0, 8⟩
/-- `SAUCER.EPISODE.STEP`. -/ def F.saucer_EPISODE_STEP : Fld := ⟨0x104, 0, 0, 29, 2⟩
/-- `SAUCER.ERRORS`. -/ def F.saucer_ERRORS : Fld := ⟨0x140, 0, 0, 0, 32⟩
/-- `SAUCER.INJ_CFG.MODE`. -/ def F.saucer_INJ_CFG_MODE : Fld := ⟨0x118, 0, 0, 0, 1⟩
/-- `SAUCER.LASTING_COUNT`. -/ def F.saucer_LASTING_COUNT : Fld := ⟨0x14c, 0, 0, 0, 32⟩
/-- `SAUCER.LASTING.DETECTOR`. -/ def F.saucer_LASTING_DETECTOR : Fld := ⟨0x114, 0, 0, 11, 5⟩
/-- `SAUCER.LASTING.INJ`. -/ def F.saucer_LASTING_INJ : Fld := ⟨0x114, 0, 0, 8, 1⟩
/-- `SAUCER.LASTING.LEDGER_FULL`. -/ def F.saucer_LASTING_LEDGER_FULL : Fld := ⟨0x114, 0, 0, 9, 1⟩
/-- `SAUCER.LASTING.REPAIR`. -/ def F.saucer_LASTING_REPAIR : Fld := ⟨0x114, 0, 0, 10, 1⟩
/-- `SAUCER.LASTING.SOURCE`. -/ def F.saucer_LASTING_SOURCE : Fld := ⟨0x114, 0, 0, 16, 16⟩
/-- `SAUCER.OVR_SRC.DETECTOR`. -/ def F.saucer_OVR_SRC_DETECTOR : Fld := ⟨0x400, 8, 0, 11, 5⟩
/-- `SAUCER.OVR_SRC.EN`. -/ def F.saucer_OVR_SRC_EN : Fld := ⟨0x400, 8, 0, 0, 1⟩
/-- `SAUCER.OVR_SRC.SOURCE`. -/ def F.saucer_OVR_SRC_SOURCE : Fld := ⟨0x400, 8, 0, 16, 16⟩
/-- `SAUCER.OVR_WK.K`. -/ def F.saucer_OVR_WK_K : Fld := ⟨0x404, 8, 0, 24, 8⟩
/-- `SAUCER.OVR_WK.W`. -/ def F.saucer_OVR_WK_W : Fld := ⟨0x404, 8, 0, 0, 16⟩
/-- `SAUCER.REC_ADDR_LO.ADDR`. -/ def F.saucer_REC_ADDR_LO_ADDR : Fld := ⟨0x208, 0x20, 0, 0, 32⟩
/-- `SAUCER.REC_INFO.ACCESS`. -/ def F.saucer_REC_INFO_ACCESS : Fld := ⟨0x200, 0x20, 0, 7, 4⟩
/-- `SAUCER.REC_INFO.CORRUPT`. -/ def F.saucer_REC_INFO_CORRUPT : Fld := ⟨0x200, 0x20, 0, 5, 1⟩
/-- `SAUCER.REC_INFO.DETECTOR`. -/ def F.saucer_REC_INFO_DETECTOR : Fld := ⟨0x200, 0x20, 0, 11, 5⟩
/-- `SAUCER.REC_INFO.INJ`. -/ def F.saucer_REC_INFO_INJ : Fld := ⟨0x200, 0x20, 0, 6, 1⟩
/-- `SAUCER.REC_INFO.SOURCE`. -/ def F.saucer_REC_INFO_SOURCE : Fld := ⟨0x200, 0x20, 0, 16, 16⟩
/-- `SAUCER.REC_INFO.VALID`. -/ def F.saucer_REC_INFO_VALID : Fld := ⟨0x200, 0x20, 0, 0, 1⟩
/-- `SAUCER.REC_MASTER_ADDR.ADDR_HI`. -/ def F.saucer_REC_MASTER_ADDR_ADDR_HI : Fld := ⟨0x204, 0x20, 0, 0, 8⟩
/-- `SAUCER.REC_MASTER_ADDR.MASTER`. -/ def F.saucer_REC_MASTER_ADDR_MASTER : Fld := ⟨0x204, 0x20, 0, 8, 8⟩
/-- `SAUCER.REC_SYNDROME.SYN`. -/ def F.saucer_REC_SYNDROME_SYN : Fld := ⟨0x20c, 0x20, 0, 0, 32⟩
/-- `SAUCER.REC_WC_HI.NS`. -/ def F.saucer_REC_WC_HI_NS : Fld := ⟨0x210, 0x20, 0, 0, 32⟩
/-- `SAUCER.REC_WC_LO.NS`. -/ def F.saucer_REC_WC_LO_NS : Fld := ⟨0x214, 0x20, 0, 0, 32⟩
/-- `SAUCER.SAFE_ENTRIES`. -/ def F.saucer_SAFE_ENTRIES : Fld := ⟨0x148, 0, 0, 0, 32⟩
/-- `SAUCER.ST_STATUS.DEGRADED`. -/ def F.saucer_ST_STATUS_DEGRADED : Fld := ⟨0x180, 0, 0, 30, 1⟩
/-- `SAUCER.ST_STATUS.MAPPED`. -/ def F.saucer_ST_STATUS_MAPPED : Fld := ⟨0x180, 0, 0, 16, 8⟩
/-- `SAUCER.ST_STATUS.RAN`. -/ def F.saucer_ST_STATUS_RAN : Fld := ⟨0x180, 0, 0, 31, 1⟩
/-- `SAUCER.ST_STATUS.RETIRED`. -/ def F.saucer_ST_STATUS_RETIRED : Fld := ⟨0x180, 0, 0, 0, 16⟩
/-- `SAUCER.SUBSEQUENT.COUNT`. -/ def F.saucer_SUBSEQUENT_COUNT : Fld := ⟨0x108, 0, 0, 0, 16⟩
/-- `SAUCER.WINDOW.K`. -/ def F.saucer_WINDOW_K : Fld := ⟨0x110, 0, 0, 24, 8⟩
/-- `SAUCER.WINDOW.W`. -/ def F.saucer_WINDOW_W : Fld := ⟨0x110, 0, 0, 0, 16⟩
/-- `SENT.MSG_OK`. -/ def F.sent_MSG_OK : Fld := ⟨0x120, 0x40, 0, 0, 32⟩
/-- `SENT.QSPI_CFG.EN`. -/ def F.sent_QSPI_CFG_EN : Fld := ⟨0x800, 0x40, 0, 31, 1⟩
/-- `SENT.QSPI_CFG.WORD`. -/ def F.sent_QSPI_CFG_WORD : Fld := ⟨0x800, 0x40, 0, 24, 5⟩
/-- `SENT.QSPI_COUNT`. -/ def F.sent_QSPI_COUNT : Fld := ⟨0x804, 0x40, 0, 0, 32⟩
/-- `SENT.SENT_CFG.CRC_MODE`. -/ def F.sent_SENT_CFG_CRC_MODE : Fld := ⟨0x100, 0x40, 0, 26, 1⟩
/-- `SENT.SENT_CFG.EN`. -/ def F.sent_SENT_CFG_EN : Fld := ⟨0x100, 0x40, 0, 31, 1⟩
/-- `SENT.SENT_CFG.NIBBLES`. -/ def F.sent_SENT_CFG_NIBBLES : Fld := ⟨0x100, 0x40, 0, 28, 3⟩
/-- `SENT.SENT_CFG.PAUSE`. -/ def F.sent_SENT_CFG_PAUSE : Fld := ⟨0x100, 0x40, 0, 27, 1⟩
/-- `SENT.SENT_CFG.SLOW`. -/ def F.sent_SENT_CFG_SLOW : Fld := ⟨0x100, 0x40, 0, 24, 2⟩
/-- `SENT.SENT_CFG.TICK`. -/ def F.sent_SENT_CFG_TICK : Fld := ⟨0x100, 0x40, 0, 0, 12⟩
/-- `SENT.SENT_ERR`. -/ def F.sent_SENT_ERR : Fld := ⟨0x124, 0x40, 4, 0, 32⟩
/-- `SENT.SENT_FAST`. -/ def F.sent_SENT_FAST : Fld := ⟨0x108, 0x40, 0, 0, 32⟩
/-- `SENT.SENT_FAST.DATA`. -/ def F.sent_SENT_FAST_DATA : Fld := ⟨0x108, 0x40, 0, 4, 24⟩
/-- `SENT.SENT_FAST.STAT`. -/ def F.sent_SENT_FAST_STAT : Fld := ⟨0x108, 0x40, 0, 28, 4⟩
/-- `SENT.SENT_FAST_TS.NS`. -/ def F.sent_SENT_FAST_TS_NS : Fld := ⟨0x10c, 0x40, 0, 0, 32⟩
/-- `SENT.SENT_SLOW`. -/ def F.sent_SENT_SLOW : Fld := ⟨0x110, 0x40, 0, 0, 32⟩
/-- `SENT.SENT_SLOW.DATA`. -/ def F.sent_SENT_SLOW_DATA : Fld := ⟨0x110, 0x40, 0, 0, 16⟩
/-- `SENT.SENT_SLOW.ENHANCED`. -/ def F.sent_SENT_SLOW_ENHANCED : Fld := ⟨0x110, 0x40, 0, 30, 1⟩
/-- `SENT.SENT_SLOW.ID`. -/ def F.sent_SENT_SLOW_ID : Fld := ⟨0x110, 0x40, 0, 20, 8⟩
/-- `SENT.SENT_SLOW.VALID`. -/ def F.sent_SENT_SLOW_VALID : Fld := ⟨0x110, 0x40, 0, 31, 1⟩
/-- `SENT.SENT_STATUS.LAST_ERR`. -/ def F.sent_SENT_STATUS_LAST_ERR : Fld := ⟨0x104, 0x40, 0, 4, 4⟩
/-- `SENT.SENT_STATUS.MEAS_TICK`. -/ def F.sent_SENT_STATUS_MEAS_TICK : Fld := ⟨0x104, 0x40, 0, 8, 16⟩
/-- `SPOUT.CBS_CFG`. -/ def F.spout_CBS_CFG : Fld := ⟨0x200, 0x10, 0, 0, 32⟩
/-- `SPOUT.CBS_CFG.EN`. -/ def F.spout_CBS_CFG_EN : Fld := ⟨0x200, 0x10, 0, 31, 1⟩
/-- `SPOUT.CBS_CFG.IDLE_SLOPE`. -/ def F.spout_CBS_CFG_IDLE_SLOPE : Fld := ⟨0x200, 0x10, 0, 0, 25⟩
/-- `SPOUT.CBS_CREDIT`. -/ def F.spout_CBS_CREDIT : Fld := ⟨0x20c, 0x10, 0, 0, 32⟩
/-- `SPOUT.CBS_HICREDIT`. -/ def F.spout_CBS_HICREDIT : Fld := ⟨0x204, 0x10, 0, 0, 32⟩
/-- `SPOUT.CBS_LOCREDIT`. -/ def F.spout_CBS_LOCREDIT : Fld := ⟨0x208, 0x10, 0, 0, 32⟩
/-- `SPOUT.FIT_WAIT`. -/ def F.spout_FIT_WAIT : Fld := ⟨0x400, 4, 0, 0, 32⟩
/-- `SPOUT.GATE_BASE_NS.NS`. -/ def F.spout_GATE_BASE_NS_NS : Fld := ⟨0x300, 0, 0, 0, 30⟩
/-- `SPOUT.GATE_BASE_SEC`. -/ def F.spout_GATE_BASE_SEC : Fld := ⟨0x304, 0, 0, 0, 32⟩
/-- `SPOUT.GATE_CHANGE.CHANGE`. -/ def F.spout_GATE_CHANGE_CHANGE : Fld := ⟨0x310, 0, 0, 0, 1⟩
/-- `SPOUT.GATE_CYCLE_NS.NS`. -/ def F.spout_GATE_CYCLE_NS_NS : Fld := ⟨0x308, 0, 0, 0, 30⟩
/-- `SPOUT.GATE_LIST_LEN.LEN`. -/ def F.spout_GATE_LIST_LEN_LEN : Fld := ⟨0x30c, 0, 0, 0, 10⟩
/-- `SPOUT.GATE_OPER_LEN.LEN`. -/ def F.spout_GATE_OPER_LEN_LEN : Fld := ⟨0x318, 0, 0, 0, 10⟩
/-- `SPOUT.GATE_OVERRUN`. -/ def F.spout_GATE_OVERRUN : Fld := ⟨0x420, 0, 0, 0, 32⟩
/-- `SPOUT.GATE_STATUS.ENTRY`. -/ def F.spout_GATE_STATUS_ENTRY : Fld := ⟨0x314, 0, 0, 16, 10⟩
/-- `SPOUT.GATE_STATUS.GCL_REJECTS`. -/ def F.spout_GATE_STATUS_GCL_REJECTS : Fld := ⟨0x314, 0, 0, 8, 8⟩
/-- `SPOUT.GATE_STATUS.OPER_VALID`. -/ def F.spout_GATE_STATUS_OPER_VALID : Fld := ⟨0x314, 0, 0, 30, 1⟩
/-- `SPOUT.GATE_STATUS.PENDING`. -/ def F.spout_GATE_STATUS_PENDING : Fld := ⟨0x314, 0, 0, 31, 1⟩
/-- `SPOUT.GATE_STEP`. -/ def F.spout_GATE_STEP : Fld := ⟨0x424, 0, 0, 0, 32⟩
/-- `SPOUT.GCL_ADDR.INDEX`. -/ def F.spout_GCL_ADDR_INDEX : Fld := ⟨0x320, 0, 0, 0, 9⟩
/-- `SPOUT.GCL_ADDR.OPER`. -/ def F.spout_GCL_ADDR_OPER : Fld := ⟨0x320, 0, 0, 31, 1⟩
/-- `SPOUT.GCL_DATA_HI`. -/ def F.spout_GCL_DATA_HI : Fld := ⟨0x324, 0, 0, 0, 32⟩
/-- `SPOUT.GCL_DATA_LO`. -/ def F.spout_GCL_DATA_LO : Fld := ⟨0x328, 0, 0, 0, 32⟩
/-- `SPOUT.HIST_CFG.CLEAR`. -/ def F.spout_HIST_CFG_CLEAR : Fld := ⟨0x500, 0, 0, 31, 1⟩
/-- `SPOUT.HIST_CFG.DEPTH_SHIFT`. -/ def F.spout_HIST_CFG_DEPTH_SHIFT : Fld := ⟨0x500, 0, 0, 0, 5⟩
/-- `SPOUT.HIST_CFG.SOJ_SHIFT`. -/ def F.spout_HIST_CFG_SOJ_SHIFT : Fld := ⟨0x500, 0, 0, 8, 5⟩
/-- `SPOUT.H_DEPTH_BIN.HI`. -/ def F.spout_H_DEPTH_BIN_HI : Fld := ⟨0x800, 0x80, 4, 16, 16⟩
/-- `SPOUT.H_DEPTH_BIN.LO`. -/ def F.spout_H_DEPTH_BIN_LO : Fld := ⟨0x800, 0x80, 4, 0, 16⟩
/-- `SPOUT.H_DEPTH_MAX.MAX`. -/ def F.spout_H_DEPTH_MAX_MAX : Fld := ⟨0x844, 0x80, 0, 0, 18⟩
/-- `SPOUT.H_DEPTH_MIN.MIN`. -/ def F.spout_H_DEPTH_MIN_MIN : Fld := ⟨0x840, 0x80, 0, 0, 18⟩
/-- `SPOUT.H_DEPTH_SUM.SUM`. -/ def F.spout_H_DEPTH_SUM_SUM : Fld := ⟨0x848, 0x80, 0, 0, 32⟩
/-- `SPOUT.H_SAMPLES.DEPTH`. -/ def F.spout_H_SAMPLES_DEPTH : Fld := ⟨0x858, 0x80, 0, 0, 16⟩
/-- `SPOUT.H_SAMPLES.SOJ`. -/ def F.spout_H_SAMPLES_SOJ : Fld := ⟨0x858, 0x80, 0, 16, 16⟩
/-- `SPOUT.H_SOJ_BIN.HI`. -/ def F.spout_H_SOJ_BIN_HI : Fld := ⟨0x820, 0x80, 4, 16, 16⟩
/-- `SPOUT.H_SOJ_BIN.LO`. -/ def F.spout_H_SOJ_BIN_LO : Fld := ⟨0x820, 0x80, 4, 0, 16⟩
/-- `SPOUT.H_SOJ_MAX.MAX`. -/ def F.spout_H_SOJ_MAX_MAX : Fld := ⟨0x850, 0x80, 0, 0, 32⟩
/-- `SPOUT.H_SOJ_MIN.MIN`. -/ def F.spout_H_SOJ_MIN_MIN : Fld := ⟨0x84c, 0x80, 0, 0, 32⟩
/-- `SPOUT.H_SOJ_SUM.SUM`. -/ def F.spout_H_SOJ_SUM_SUM : Fld := ⟨0x854, 0x80, 0, 0, 32⟩
/-- `SPOUT.PCS_CFG.EN`. -/ def F.spout_PCS_CFG_EN : Fld := ⟨0x280, 0x10, 0, 31, 1⟩
/-- `SPOUT.PCS_CFG.RATE`. -/ def F.spout_PCS_CFG_RATE : Fld := ⟨0x280, 0x10, 0, 0, 24⟩
/-- `SPOUT.PCS_CREDIT`. -/ def F.spout_PCS_CREDIT : Fld := ⟨0x288, 0x10, 0, 0, 32⟩
/-- `SPOUT.PCS_MAX.CREDIT`. -/ def F.spout_PCS_MAX_CREDIT : Fld := ⟨0x284, 0x10, 0, 0, 24⟩
/-- `SPOUT.QMAXFRAME.BYTES`. -/ def F.spout_QMAXFRAME_BYTES : Fld := ⟨0x120, 4, 0, 0, 14⟩
/-- `SPOUT.QUANTUM.BYTES`. -/ def F.spout_QUANTUM_BYTES : Fld := ⟨0x110, 4, 0, 0, 16⟩
/-- `SPOUT.SCHED_CFG.GATE_EN`. -/ def F.spout_SCHED_CFG_GATE_EN : Fld := ⟨0x100, 0, 0, 30, 1⟩
/-- `SPOUT.SCHED_CFG.GATE_TD`. -/ def F.spout_SCHED_CFG_GATE_TD : Fld := ⟨0x100, 0, 0, 28, 2⟩
/-- `SPOUT.SCHED_CFG.WRR_EN`. -/ def F.spout_SCHED_CFG_WRR_EN : Fld := ⟨0x100, 0, 0, 31, 1⟩
/-- `SPOUT.SCHED_STATUS.ELIGIBLE`. -/ def F.spout_SCHED_STATUS_ELIGIBLE : Fld := ⟨0x104, 0, 0, 0, 8⟩
/-- `SPOUT.SCHED_STATUS.GATES`. -/ def F.spout_SCHED_STATUS_GATES : Fld := ⟨0x104, 0, 0, 8, 8⟩
/-- `SPOUT.SCHED_STATUS.HOLD`. -/ def F.spout_SCHED_STATUS_HOLD : Fld := ⟨0x104, 0, 0, 18, 1⟩
/-- `SPOUT.SCHED_STATUS.OVERCOMMIT`. -/ def F.spout_SCHED_STATUS_OVERCOMMIT : Fld := ⟨0x104, 0, 0, 17, 1⟩
/-- `SPOUT.SCHED_STATUS.PREEMPT_ACTIVE`. -/ def F.spout_SCHED_STATUS_PREEMPT_ACTIVE : Fld := ⟨0x104, 0, 0, 16, 1⟩
/-- `SPOUT.TX_SEL`. -/ def F.spout_TX_SEL : Fld := ⟨0x430, 4, 0, 0, 32⟩
/-- `STRAIN.ADMIT_DROP`. -/ def F.strain_ADMIT_DROP : Fld := ⟨0x21c, 0, 0, 0, 32⟩
/-- `STRAIN.ADMIT.EN`. -/ def F.strain_ADMIT_EN : Fld := ⟨0x300, 4, 0, 31, 1⟩
/-- `STRAIN.ADMIT.LIMIT`. -/ def F.strain_ADMIT_LIMIT : Fld := ⟨0x300, 4, 0, 0, 16⟩
/-- `STRAIN.ADMIT_STATUS.STICKY`. -/ def F.strain_ADMIT_STATUS_STICKY : Fld := ⟨0x340, 0, 0, 16, 16⟩
/-- `STRAIN.ADMIT_STATUS.SUSTAINED`. -/ def F.strain_ADMIT_STATUS_SUSTAINED : Fld := ⟨0x340, 0, 0, 0, 16⟩
/-- `STRAIN.BUS_METER.EN`. -/ def F.strain_BUS_METER_EN : Fld := ⟨0x380, 4, 0, 31, 1⟩
/-- `STRAIN.BUS_METER.METER`. -/ def F.strain_BUS_METER_METER : Fld := ⟨0x380, 4, 0, 0, 11⟩
/-- `STRAIN.CAN_KEYS`. -/ def F.strain_CAN_KEYS : Fld := ⟨0x228, 0, 0, 0, 32⟩
/-- `STRAIN.DROP_GATE`. -/ def F.strain_DROP_GATE : Fld := ⟨0x214, 0, 0, 0, 32⟩
/-- `STRAIN.DROP_METER`. -/ def F.strain_DROP_METER : Fld := ⟨0x20c, 0, 0, 0, 32⟩
/-- `STRAIN.DROP_PARITY`. -/ def F.strain_DROP_PARITY : Fld := ⟨0x218, 0, 0, 0, 32⟩
/-- `STRAIN.DROP_RULE`. -/ def F.strain_DROP_RULE : Fld := ⟨0x208, 0, 0, 0, 32⟩
/-- `STRAIN.DROP_SDU`. -/ def F.strain_DROP_SDU : Fld := ⟨0x210, 0, 0, 0, 32⟩
/-- `STRAIN.DROP_ZONE`. -/ def F.strain_DROP_ZONE : Fld := ⟨0x204, 0, 0, 0, 32⟩
/-- `STRAIN.GATE_BASE_NS.NS`. -/ def F.strain_GATE_BASE_NS_NS : Fld := ⟨0x30004, 0x200, 0, 0, 30⟩
/-- `STRAIN.GATE_BASE_SEC.SEC`. -/ def F.strain_GATE_BASE_SEC_SEC : Fld := ⟨0x30008, 0x200, 0, 0, 32⟩
/-- `STRAIN.GATE_CTRL.EN`. -/ def F.strain_GATE_CTRL_EN : Fld := ⟨0x30000, 0x200, 0, 0, 1⟩
/-- `STRAIN.GATE_CTRL.TD`. -/ def F.strain_GATE_CTRL_TD : Fld := ⟨0x30000, 0x200, 0, 1, 2⟩
/-- `STRAIN.GATE_CYCLE_NS.NS`. -/ def F.strain_GATE_CYCLE_NS_NS : Fld := ⟨0x3000c, 0x200, 0, 0, 30⟩
/-- `STRAIN.GATE_DROP`. -/ def F.strain_GATE_DROP : Fld := ⟨0x30014, 0x200, 0, 0, 32⟩
/-- `STRAIN.GATE_LIST_LEN.LEN`. -/ def F.strain_GATE_LIST_LEN_LEN : Fld := ⟨0x30010, 0x200, 0, 0, 7⟩
/-- `STRAIN.GCL`. -/ def F.strain_GCL : Fld := ⟨0x30100, 0x200, 4, 0, 32⟩
/-- `STRAIN.MIRRORS`. -/ def F.strain_MIRRORS : Fld := ⟨0x224, 0, 0, 0, 32⟩
/-- `STRAIN.M_CBS.SIZE`. -/ def F.strain_M_CBS_SIZE : Fld := ⟨0x10008, 0x20, 0, 0, 20⟩
/-- `STRAIN.M_CIR.RATE`. -/ def F.strain_M_CIR_RATE : Fld := ⟨0x10000, 0x20, 0, 0, 20⟩
/-- `STRAIN.M_GREEN`. -/ def F.strain_M_GREEN : Fld := ⟨0x10014, 0x20, 0, 0, 32⟩
/-- `STRAIN.M_MODE.AWARE`. -/ def F.strain_M_MODE_AWARE : Fld := ⟨0x10010, 0x20, 0, 1, 1⟩
/-- `STRAIN.M_MODE.RED_DROP`. -/ def F.strain_M_MODE_RED_DROP : Fld := ⟨0x10010, 0x20, 0, 0, 1⟩
/-- `STRAIN.M_PBS.SIZE`. -/ def F.strain_M_PBS_SIZE : Fld := ⟨0x1000c, 0x20, 0, 0, 20⟩
/-- `STRAIN.M_PIR.RATE`. -/ def F.strain_M_PIR_RATE : Fld := ⟨0x10004, 0x20, 0, 0, 20⟩
/-- `STRAIN.M_RED`. -/ def F.strain_M_RED : Fld := ⟨0x1001c, 0x20, 0, 0, 32⟩
/-- `STRAIN.M_YELLOW`. -/ def F.strain_M_YELLOW : Fld := ⟨0x10018, 0x20, 0, 0, 32⟩
/-- `STRAIN.REDIRECTS`. -/ def F.strain_REDIRECTS : Fld := ⟨0x220, 0, 0, 0, 32⟩
/-- `STRAIN.RULE_ACT_HI`. -/ def F.strain_RULE_ACT_HI : Fld := ⟨0x154, 0, 0, 0, 32⟩
/-- `STRAIN.RULE_ACT_LO`. -/ def F.strain_RULE_ACT_LO : Fld := ⟨0x158, 0, 0, 0, 32⟩
/-- `STRAIN.RULE_CMD`. -/ def F.strain_RULE_CMD : Fld := ⟨0x100, 0, 0, 0, 32⟩
/-- `STRAIN.RULE_CMD.BUSY`. -/ def F.strain_RULE_CMD_BUSY : Fld := ⟨0x100, 0, 0, 31, 1⟩
/-- `STRAIN.RULE_CMD.STATUS`. -/ def F.strain_RULE_CMD_STATUS : Fld := ⟨0x100, 0, 0, 28, 3⟩
/-- `STRAIN.RULE_CMD.VALID`. -/ def F.strain_RULE_CMD_VALID : Fld := ⟨0x100, 0, 0, 27, 1⟩
/-- `STRAIN.RULE_COUNT`. -/ def F.strain_RULE_COUNT : Fld := ⟨0x15c, 0, 0, 0, 32⟩
/-- `STRAIN.RULE_KEY`. -/ def F.strain_RULE_KEY : Fld := ⟨0x104, 4, 0, 0, 32⟩
/-- `STRAIN.RULE_MASK`. -/ def F.strain_RULE_MASK : Fld := ⟨0x12c, 4, 0, 0, 32⟩
/-- `STRAIN.SF_CFG.GATE`. -/ def F.strain_SF_CFG_GATE : Fld := ⟨0x20000, 0x10, 0, 16, 6⟩
/-- `STRAIN.SF_CFG.GATE_EN`. -/ def F.strain_SF_CFG_GATE_EN : Fld := ⟨0x20000, 0x10, 0, 22, 1⟩
/-- `STRAIN.SF_CFG.MAX_SDU`. -/ def F.strain_SF_CFG_MAX_SDU : Fld := ⟨0x20000, 0x10, 0, 0, 14⟩
/-- `STRAIN.SF_CFG.TC_MASK`. -/ def F.strain_SF_CFG_TC_MASK : Fld := ⟨0x20000, 0x10, 0, 23, 8⟩
/-- `STRAIN.SF_CFG.VALID`. -/ def F.strain_SF_CFG_VALID : Fld := ⟨0x20000, 0x10, 0, 31, 1⟩
/-- `STRAIN.SF_DROP`. -/ def F.strain_SF_DROP : Fld := ⟨0x2000c, 0x10, 0, 0, 32⟩
/-- `STRAIN.SF_METER.BLOCKED`. -/ def F.strain_SF_METER_BLOCKED : Fld := ⟨0x20004, 0x10, 0, 29, 1⟩
/-- `STRAIN.SF_METER.BLOCK_OVERSIZE`. -/ def F.strain_SF_METER_BLOCK_OVERSIZE : Fld := ⟨0x20004, 0x10, 0, 30, 1⟩
/-- `STRAIN.SF_METER.METER`. -/ def F.strain_SF_METER_METER : Fld := ⟨0x20004, 0x10, 0, 0, 11⟩
/-- `STRAIN.SF_METER.METER_EN`. -/ def F.strain_SF_METER_METER_EN : Fld := ⟨0x20004, 0x10, 0, 31, 1⟩
/-- `STRAIN.SF_PASS`. -/ def F.strain_SF_PASS : Fld := ⟨0x20008, 0x10, 0, 0, 32⟩
/-- `STRAIN.TCAM_PARITY`. -/ def F.strain_TCAM_PARITY : Fld := ⟨0x22c, 0, 0, 0, 32⟩
/-- `STRAIN.VERDICTS`. -/ def F.strain_VERDICTS : Fld := ⟨0x200, 0, 0, 0, 32⟩
/-- `SYS.DEVICE_ID.PART`. -/ def F.sys_DEVICE_ID_PART : Fld := ⟨0x100, 0, 0, 16, 16⟩
/-- `SYS.FALLBACK_REASON.ACTIVE`. -/ def F.sys_FALLBACK_REASON_ACTIVE : Fld := ⟨0x140, 0, 0, 31, 1⟩
/-- `SYS.FALLBACK_REASON.DETAIL`. -/ def F.sys_FALLBACK_REASON_DETAIL : Fld := ⟨0x140, 0, 0, 0, 16⟩
/-- `SYS.FALLBACK_REASON.FB_SEG_BAD`. -/ def F.sys_FALLBACK_REASON_FB_SEG_BAD : Fld := ⟨0x140, 0, 0, 30, 1⟩
/-- `SYS.FALLBACK_REASON.REASON`. -/ def F.sys_FALLBACK_REASON_REASON : Fld := ⟨0x140, 0, 0, 24, 4⟩
/-- `SYS.INT_MASK_MSPI.MASK`. -/ def F.sys_INT_MASK_MSPI_MASK : Fld := ⟨0x184, 0, 0, 0, 26⟩
/-- `SYS.INT_MASK_PF0.MASK`. -/ def F.sys_INT_MASK_PF0_MASK : Fld := ⟨0x180, 0, 0, 0, 26⟩
/-- `SYS.INT_MASK_TRIAD.MASK`. -/ def F.sys_INT_MASK_TRIAD_MASK : Fld := ⟨0x188, 0, 0, 0, 26⟩
/-- `T1S.BEACON_LOSS`. -/ def F.t1s_BEACON_LOSS : Fld := ⟨0x124, 0x40, 0, 0, 32⟩
/-- `T1S.COLLISIONS`. -/ def F.t1s_COLLISIONS : Fld := ⟨0x120, 0x40, 0, 0, 32⟩
/-- `T1S.RX_DROP`. -/ def F.t1s_RX_DROP : Fld := ⟨0x118, 0x40, 0, 0, 32⟩
/-- `T1S.RX_FRAMES`. -/ def F.t1s_RX_FRAMES : Fld := ⟨0x110, 0x40, 0, 0, 32⟩
/-- `T1S.T1S_BURST`. -/ def F.t1s_T1S_BURST : Fld := ⟨0x104, 0x40, 0, 0, 32⟩
/-- `T1S.T1S_BURST.BURST_COUNT`. -/ def F.t1s_T1S_BURST_BURST_COUNT : Fld := ⟨0x104, 0x40, 0, 8, 8⟩
/-- `T1S.T1S_CFG`. -/ def F.t1s_T1S_CFG : Fld := ⟨0x100, 0x40, 0, 0, 32⟩
/-- `T1S.T1S_CFG.EN`. -/ def F.t1s_T1S_CFG_EN : Fld := ⟨0x100, 0x40, 0, 31, 1⟩
/-- `T1S.T1S_CFG.NODE_ID`. -/ def F.t1s_T1S_CFG_NODE_ID : Fld := ⟨0x100, 0x40, 0, 16, 8⟩
/-- `T1S.T1S_CFG.PLCA_EN`. -/ def F.t1s_T1S_CFG_PLCA_EN : Fld := ⟨0x100, 0x40, 0, 30, 1⟩
/-- `T1S.T1S_STATUS.CUR_ID`. -/ def F.t1s_T1S_STATUS_CUR_ID : Fld := ⟨0x10c, 0x40, 0, 8, 8⟩
/-- `T1S.T1S_STATUS.PLCA_ACTIVE`. -/ def F.t1s_T1S_STATUS_PLCA_ACTIVE : Fld := ⟨0x10c, 0x40, 0, 31, 1⟩
/-- `T1S.T1S_TC.DEF_TC`. -/ def F.t1s_T1S_TC_DEF_TC : Fld := ⟨0x108, 0x40, 0, 24, 3⟩
/-- `T1S.T1S_TC.PCP_MAP`. -/ def F.t1s_T1S_TC_PCP_MAP : Fld := ⟨0x108, 0x40, 0, 0, 24⟩
/-- `T1S.TX_DROP`. -/ def F.t1s_TX_DROP : Fld := ⟨0x11c, 0x40, 0, 0, 32⟩
/-- `T1S.TX_FRAMES`. -/ def F.t1s_TX_FRAMES : Fld := ⟨0x114, 0x40, 0, 0, 32⟩
/-- `TICK.ALIGN.NS`. -/ def F.tick_ALIGN_NS : Fld := ⟨0x114, 0, 0, 0, 32⟩
/-- `TICK.CFG.PERIOD_K`. -/ def F.tick_CFG_PERIOD_K : Fld := ⟨0x100, 0, 0, 0, 3⟩
/-- `TICK.COUNT.COUNT`. -/ def F.tick_COUNT_COUNT : Fld := ⟨0x108, 0, 0, 0, 32⟩
/-- `TICK.LAST_WC_HI.NS`. -/ def F.tick_LAST_WC_HI_NS : Fld := ⟨0x10c, 0, 0, 0, 32⟩
/-- `TICK.LAST_WC_LO.NS`. -/ def F.tick_LAST_WC_LO_NS : Fld := ⟨0x110, 0, 0, 0, 32⟩
/-- `TICK.STATUS.STATE`. -/ def F.tick_STATUS_STATE : Fld := ⟨0x104, 0, 0, 30, 2⟩
/-- `TIME.DOM_CFG.DOMAIN_NUMBER`. -/ def F.time_DOM_CFG_DOMAIN_NUMBER : Fld := ⟨0x200, 0x80, 0, 0, 8⟩
/-- `TIME.DOM_CFG.EN`. -/ def F.time_DOM_CFG_EN : Fld := ⟨0x200, 0x80, 0, 31, 1⟩
/-- `TIME.DOM_CFG.EXT_CFG`. -/ def F.time_DOM_CFG_EXT_CFG : Fld := ⟨0x200, 0x80, 0, 30, 1⟩
/-- `TIME.DOM_CFG.GM_CAPABLE`. -/ def F.time_DOM_CFG_GM_CAPABLE : Fld := ⟨0x200, 0x80, 0, 29, 1⟩
/-- `TIME.DOM_CFG.GUARD_INITIAL`. -/ def F.time_DOM_CFG_GUARD_INITIAL : Fld := ⟨0x200, 0x80, 0, 28, 1⟩
/-- `TIME.DOM_CMD`. -/ def F.time_DOM_CMD : Fld := ⟨0x244, 0x80, 0, 0, 32⟩
/-- `TIME.DOM_CMD.BUSY`. -/ def F.time_DOM_CMD_BUSY : Fld := ⟨0x244, 0x80, 0, 31, 1⟩
/-- `TIME.DOM_CMD.STATUS`. -/ def F.time_DOM_CMD_STATUS : Fld := ⟨0x244, 0x80, 0, 28, 3⟩
/-- `TIME.DOM_GUARD.JUMP_THRESH`. -/ def F.time_DOM_GUARD_JUMP_THRESH : Fld := ⟨0x208, 0x80, 0, 0, 20⟩
/-- `TIME.DOM_HOLD.LIMIT`. -/ def F.time_DOM_HOLD_LIMIT : Fld := ⟨0x210, 0x80, 0, 0, 16⟩
/-- `TIME.DOM_OFFSET.NS`. -/ def F.time_DOM_OFFSET_NS : Fld := ⟨0x218, 0x80, 0, 0, 32⟩
/-- `TIME.DOM_PRIO.CLOCK_CLASS`. -/ def F.time_DOM_PRIO_CLOCK_CLASS : Fld := ⟨0x204, 0x80, 0, 16, 8⟩
/-- `TIME.DOM_PRIO.PRIORITY1`. -/ def F.time_DOM_PRIO_PRIORITY1 : Fld := ⟨0x204, 0x80, 0, 8, 8⟩
/-- `TIME.DOM_PRIO.PRIORITY2`. -/ def F.time_DOM_PRIO_PRIORITY2 : Fld := ⟨0x204, 0x80, 0, 0, 8⟩
/-- `TIME.DOM_RATE.RATE`. -/ def F.time_DOM_RATE_RATE : Fld := ⟨0x21c, 0x80, 0, 0, 32⟩
/-- `TIME.DOM_SERVO.MAX_SLEW`. -/ def F.time_DOM_SERVO_MAX_SLEW : Fld := ⟨0x20c, 0x80, 0, 0, 16⟩
/-- `TIME.DOM_SERVO.SYNC_TIMEOUT`. -/ def F.time_DOM_SERVO_SYNC_TIMEOUT : Fld := ⟨0x20c, 0x80, 0, 16, 8⟩
/-- `TIME.DOM_STATUS.HOLD_EXPIRED`. -/ def F.time_DOM_STATUS_HOLD_EXPIRED : Fld := ⟨0x214, 0x80, 0, 25, 1⟩
/-- `TIME.DOM_STATUS.REFUSED`. -/ def F.time_DOM_STATUS_REFUSED : Fld := ⟨0x214, 0x80, 0, 27, 1⟩
/-- `TIME.DOM_STATUS.REFUSED_STICKY`. -/ def F.time_DOM_STATUS_REFUSED_STICKY : Fld := ⟨0x214, 0x80, 0, 26, 1⟩
/-- `TIME.DOM_STATUS.SLAVE_PORT`. -/ def F.time_DOM_STATUS_SLAVE_PORT : Fld := ⟨0x214, 0x80, 0, 16, 4⟩
/-- `TIME.DOM_STATUS.STATE`. -/ def F.time_DOM_STATUS_STATE : Fld := ⟨0x214, 0x80, 0, 29, 3⟩
/-- `TIME.DOM_STATUS.SYNCED`. -/ def F.time_DOM_STATUS_SYNCED : Fld := ⟨0x214, 0x80, 0, 28, 1⟩
/-- `TIME.GM_CHANGES.COUNT`. -/ def F.time_GM_CHANGES_COUNT : Fld := ⟨0x254, 0x80, 0, 0, 32⟩
/-- `TIME.GM_ID_HI.ID`. -/ def F.time_GM_ID_HI_ID : Fld := ⟨0x220, 0x80, 0, 0, 32⟩
/-- `TIME.GM_ID_LO.ID`. -/ def F.time_GM_ID_LO_ID : Fld := ⟨0x224, 0x80, 0, 0, 32⟩
/-- `TIME.MEAN_DELAY.DELAY`. -/ def F.time_MEAN_DELAY_DELAY : Fld := ⟨0x814, 0x40, 0, 0, 32⟩
/-- `TIME.PDELAY_CFG.ALLOWED_LOST`. -/ def F.time_PDELAY_CFG_ALLOWED_LOST : Fld := ⟨0x810, 0x40, 0, 16, 4⟩
/-- `TIME.PDELAY_CFG.AVG_SHIFT`. -/ def F.time_PDELAY_CFG_AVG_SHIFT : Fld := ⟨0x810, 0x40, 0, 20, 4⟩
/-- `TIME.PDELAY_CFG.THRESH`. -/ def F.time_PDELAY_CFG_THRESH : Fld := ⟨0x810, 0x40, 0, 0, 16⟩
/-- `TIME.PDELAY_LOST.COUNT`. -/ def F.time_PDELAY_LOST_COUNT : Fld := ⟨0x824, 0x40, 0, 0, 32⟩
/-- `TIME.PORT_ASYM.ASYM`. -/ def F.time_PORT_ASYM_ASYM : Fld := ⟨0x80c, 0x40, 0, 0, 32⟩
/-- `TIME.PORT_CFG.CMLDS`. -/ def F.time_PORT_CFG_CMLDS : Fld := ⟨0x800, 0x40, 0, 29, 1⟩
/-- `TIME.PORT_CFG.DOM_MASK`. -/ def F.time_PORT_CFG_DOM_MASK : Fld := ⟨0x800, 0x40, 0, 20, 4⟩
/-- `TIME.PORT_CFG.LOG_ANNOUNCE`. -/ def F.time_PORT_CFG_LOG_ANNOUNCE : Fld := ⟨0x800, 0x40, 0, 4, 4⟩
/-- `TIME.PORT_CFG.LOG_PDELAY`. -/ def F.time_PORT_CFG_LOG_PDELAY : Fld := ⟨0x800, 0x40, 0, 8, 4⟩
/-- `TIME.PORT_CFG.LOG_SYNC`. -/ def F.time_PORT_CFG_LOG_SYNC : Fld := ⟨0x800, 0x40, 0, 12, 4⟩
/-- `TIME.PORT_CFG.ONE_STEP`. -/ def F.time_PORT_CFG_ONE_STEP : Fld := ⟨0x800, 0x40, 0, 30, 1⟩
/-- `TIME.PORT_CFG.PTP_EN`. -/ def F.time_PORT_CFG_PTP_EN : Fld := ⟨0x800, 0x40, 0, 31, 1⟩
/-- `TIME.PORT_LAT.RX_LAT`. -/ def F.time_PORT_LAT_RX_LAT : Fld := ⟨0x808, 0x40, 0, 0, 16⟩
/-- `TIME.PORT_LAT.TX_LAT`. -/ def F.time_PORT_LAT_TX_LAT : Fld := ⟨0x808, 0x40, 0, 16, 16⟩
/-- `TIME.PORT_NRR.RATE`. -/ def F.time_PORT_NRR_RATE : Fld := ⟨0x818, 0x40, 0, 0, 32⟩
/-- `TIME.PORT_ROLE.ROLE_CFG`. -/ def F.time_PORT_ROLE_ROLE_CFG : Fld := ⟨0x804, 0x40, 0, 0, 8⟩
/-- `TIME.PORT_ROLE.ROLE_STATE`. -/ def F.time_PORT_ROLE_ROLE_STATE : Fld := ⟨0x804, 0x40, 0, 16, 8⟩
/-- `TIME.PORT_STATUS.AS_CAPABLE`. -/ def F.time_PORT_STATUS_AS_CAPABLE : Fld := ⟨0x81c, 0x40, 0, 31, 1⟩
/-- `TIME.PORT_STATUS.ONESTEP_ACTIVE`. -/ def F.time_PORT_STATUS_ONESTEP_ACTIVE : Fld := ⟨0x81c, 0x40, 0, 29, 1⟩
/-- `TIME.PORT_STATUS.PARTNER_1STEP`. -/ def F.time_PORT_STATUS_PARTNER_1STEP : Fld := ⟨0x81c, 0x40, 0, 30, 1⟩
/-- `TIME.REC_GM_HI.ID`. -/ def F.time_REC_GM_HI_ID : Fld := ⟨0x23c, 0x80, 0, 0, 32⟩
/-- `TIME.REC_GM_LO.ID`. -/ def F.time_REC_GM_LO_ID : Fld := ⟨0x240, 0x80, 0, 0, 32⟩
/-- `TIME.REC_OFS_HI.NS`. -/ def F.time_REC_OFS_HI_NS : Fld := ⟨0x22c, 0x80, 0, 0, 32⟩
/-- `TIME.REC_OFS_LO.NS`. -/ def F.time_REC_OFS_LO_NS : Fld := ⟨0x230, 0x80, 0, 0, 32⟩
/-- `TIME.REC_SEQ.SEQ`. -/ def F.time_REC_SEQ_SEQ : Fld := ⟨0x228, 0x80, 0, 0, 8⟩
/-- `TIME.REC_WC_HI.NS`. -/ def F.time_REC_WC_HI_NS : Fld := ⟨0x234, 0x80, 0, 0, 32⟩
/-- `TIME.REC_WC_LO.NS`. -/ def F.time_REC_WC_LO_NS : Fld := ⟨0x238, 0x80, 0, 0, 32⟩
/-- `TIME.REFUSALS.COUNT`. -/ def F.time_REFUSALS_COUNT : Fld := ⟨0x258, 0x80, 0, 0, 32⟩
/-- `TIME.RXQ_DROP`. -/ def F.time_RXQ_DROP : Fld := ⟨0xe0, 0, 0, 0, 32⟩
/-- `TIME.RX_DISCARD`. -/ def F.time_RX_DISCARD : Fld := ⟨0x828, 0x40, 0, 0, 32⟩
/-- `TIME.SET_HI.NS`. -/ def F.time_SET_HI_NS : Fld := ⟨0x248, 0x80, 0, 0, 32⟩
/-- `TIME.SET_LO.NS`. -/ def F.time_SET_LO_NS : Fld := ⟨0x24c, 0x80, 0, 0, 32⟩
/-- `TIME.SNAP_CTRL`. -/ def F.time_SNAP_CTRL : Fld := ⟨0x100, 0, 0, 0, 32⟩
/-- `TIME.SNAP_FRAC.VALUE`. -/ def F.time_SNAP_FRAC_VALUE : Fld := ⟨0x10c, 0x10, 0, 0, 16⟩
/-- `TIME.SNAP_HI.VALUE`. -/ def F.time_SNAP_HI_VALUE : Fld := ⟨0x104, 0x10, 0, 0, 32⟩
/-- `TIME.SNAP_LO.VALUE`. -/ def F.time_SNAP_LO_VALUE : Fld := ⟨0x108, 0x10, 0, 0, 32⟩
/-- `TIME.STEPS.COUNT`. -/ def F.time_STEPS_COUNT : Fld := ⟨0x250, 0x80, 0, 0, 32⟩
/-- `TIME.SYNC_RX.COUNT`. -/ def F.time_SYNC_RX_COUNT : Fld := ⟨0x25c, 0x80, 0, 0, 32⟩
/-- `TIME.SYNC_TX`. -/ def F.time_SYNC_TX : Fld := ⟨0x820, 0x40, 0, 0, 32⟩
/-- `TRIAD.AGREE_MASKED`. -/ def F.triad_AGREE_MASKED : Fld := ⟨0x154, 0, 0, 0, 32⟩
/-- `TRIAD.DIGEST.CRC`. -/ def F.triad_DIGEST_CRC : Fld := ⟨0x110, 4, 0, 0, 32⟩
/-- `TRIAD.DIGEST_MISMATCH`. -/ def F.triad_DIGEST_MISMATCH : Fld := ⟨0x150, 0, 0, 0, 32⟩
/-- `TRIAD.DIGEST_TICK.TICK`. -/ def F.triad_DIGEST_TICK_TICK : Fld := ⟨0x11c, 0, 0, 0, 32⟩
/-- `TRIAD.MASKED`. -/ def F.triad_MASKED : Fld := ⟨0x144, 4, 0, 0, 32⟩
/-- `TRIAD.MB_CTRL.INT_EN`. -/ def F.triad_MB_CTRL_INT_EN : Fld := ⟨0x1000, 0x400, 0, 2, 1⟩
/-- `TRIAD.MB_REQ.DATA`. -/ def F.triad_MB_REQ_DATA : Fld := ⟨0x1100, 0x400, 4, 0, 32⟩
/-- `TRIAD.MB_RSP.DATA`. -/ def F.triad_MB_RSP_DATA : Fld := ⟨0x1300, 0x400, 4, 0, 32⟩
/-- `TRIAD.MB_STATUS.ABORTED`. -/ def F.triad_MB_STATUS_ABORTED : Fld := ⟨0x1004, 0x400, 0, 29, 1⟩
/-- `TRIAD.MB_STATUS.STATE`. -/ def F.triad_MB_STATUS_STATE : Fld := ⟨0x1004, 0x400, 0, 30, 2⟩
/-- `TRIAD.RESYNCS`. -/ def F.triad_RESYNCS : Fld := ⟨0x140, 0, 0, 0, 32⟩
/-- `TRIAD.RESYNC_TIME`. -/ def F.triad_RESYNC_TIME : Fld := ⟨0x15c, 0, 0, 0, 32⟩
/-- `TRIAD.SELFTEST_RUNS`. -/ def F.triad_SELFTEST_RUNS : Fld := ⟨0x158, 0, 0, 0, 32⟩
/-- `TRIAD.TRIAD_CFG.SPLIT_IMG`. -/ def F.triad_TRIAD_CFG_SPLIT_IMG : Fld := ⟨0x100, 0, 0, 31, 1⟩
/-- `TRIAD.TRIAD_DBG.LEAD`. -/ def F.triad_TRIAD_DBG_LEAD : Fld := ⟨0x108, 0, 0, 0, 2⟩
/-- `TRIAD.TRIAD_STATUS.B_CHECKED`. -/ def F.triad_TRIAD_STATUS_B_CHECKED : Fld := ⟨0x104, 0, 0, 20, 1⟩
/-- `TRIAD.TRIAD_STATUS.DEBUG_SPLIT`. -/ def F.triad_TRIAD_STATUS_DEBUG_SPLIT : Fld := ⟨0x104, 0, 0, 25, 1⟩
/-- `TRIAD.TRIAD_STATUS.FAILED`. -/ def F.triad_TRIAD_STATUS_FAILED : Fld := ⟨0x104, 0, 0, 26, 3⟩
/-- `TRIAD.TRIAD_STATUS.HELD`. -/ def F.triad_TRIAD_STATUS_HELD : Fld := ⟨0x104, 0, 0, 23, 1⟩
/-- `TRIAD.TRIAD_STATUS.LAST_MINORITY`. -/ def F.triad_TRIAD_STATUS_LAST_MINORITY : Fld := ⟨0x104, 0, 0, 18, 2⟩
/-- `TRIAD.TRIAD_STATUS.MODE`. -/ def F.triad_TRIAD_STATUS_MODE : Fld := ⟨0x104, 0, 0, 29, 3⟩
/-- `TRIAD.TRIAD_STATUS.READY`. -/ def F.triad_TRIAD_STATUS_READY : Fld := ⟨0x104, 0, 0, 21, 1⟩
/-- `TRIAD.TRIAD_STATUS.RESYNC`. -/ def F.triad_TRIAD_STATUS_RESYNC : Fld := ⟨0x104, 0, 0, 24, 1⟩
/-- `TRIAD.TRIAD_STATUS.SPLIT_REFUSED`. -/ def F.triad_TRIAD_STATUS_SPLIT_REFUSED : Fld := ⟨0x104, 0, 0, 22, 1⟩
/-- `TSIO.GPIO_OE.OE`. -/ def F.tsio_GPIO_OE_OE : Fld := ⟨0x88, 0, 0, 0, 24⟩
/-- `TSIO.GPIO_OUT.OUT`. -/ def F.tsio_GPIO_OUT_OUT : Fld := ⟨0x84, 0, 0, 0, 24⟩
/-- `TSIO.PERIOD`. -/ def F.tsio_PERIOD : Fld := ⟨0x40c, 0x20, 0, 0, 32⟩
/-- `TSIO.PERIOD.NS`. -/ def F.tsio_PERIOD_NS : Fld := ⟨0x40c, 0x20, 0, 0, 32⟩
/-- `TSIO.PIN_FUNC.TIME_FN`. -/ def F.tsio_PIN_FUNC_TIME_FN : Fld := ⟨0x80, 0, 0, 0, 24⟩
/-- `TSIO.SB_CHANGED.CHANGED`. -/ def F.tsio_SB_CHANGED_CHANGED : Fld := ⟨0x604, 0, 0, 0, 24⟩
/-- `TSIO.SB_ERR.EN`. -/ def F.tsio_SB_ERR_EN : Fld := ⟨0x610, 4, 0, 31, 1⟩
/-- `TSIO.SB_ERR.GPIO`. -/ def F.tsio_SB_ERR_GPIO : Fld := ⟨0x610, 4, 0, 0, 5⟩
/-- `TSIO.SB_SAMPLE.PHY_INT_N`. -/ def F.tsio_SB_SAMPLE_PHY_INT_N : Fld := ⟨0x600, 0, 0, 0, 12⟩
/-- `TSIO.SB_SAMPLE.PHY_WAKE`. -/ def F.tsio_SB_SAMPLE_PHY_WAKE : Fld := ⟨0x600, 0, 0, 12, 12⟩
/-- `TSIO.START_HI.NS`. -/ def F.tsio_START_HI_NS : Fld := ⟨0x404, 0x20, 0, 0, 32⟩
/-- `TSIO.START_LO.NS`. -/ def F.tsio_START_LO_NS : Fld := ⟨0x408, 0x20, 0, 0, 32⟩
/-- `TSIO.TSIN_CFG.CLOCK`. -/ def F.tsio_TSIN_CFG_CLOCK : Fld := ⟨0x100, 0x20, 0, 4, 3⟩
/-- `TSIO.TSIN_CFG.EDGE`. -/ def F.tsio_TSIN_CFG_EDGE : Fld := ⟨0x100, 0x20, 0, 1, 2⟩
/-- `TSIO.TSIN_CFG.EN`. -/ def F.tsio_TSIN_CFG_EN : Fld := ⟨0x100, 0x20, 0, 0, 1⟩
/-- `TSIO.TSIN_DATA_HI.NS`. -/ def F.tsio_TSIN_DATA_HI_NS : Fld := ⟨0x10c, 0x20, 0, 0, 32⟩
/-- `TSIO.TSIN_DATA_LO.NS`. -/ def F.tsio_TSIN_DATA_LO_NS : Fld := ⟨0x110, 0x20, 0, 0, 32⟩
/-- `TSIO.TSIN_DATA_X`. -/ def F.tsio_TSIN_DATA_X : Fld := ⟨0x108, 0x20, 0, 0, 32⟩
/-- `TSIO.TSIN_STATUS.LEVEL`. -/ def F.tsio_TSIN_STATUS_LEVEL : Fld := ⟨0x104, 0x20, 0, 0, 5⟩
/-- `TSIO.TSIN_STATUS.LOST`. -/ def F.tsio_TSIN_STATUS_LOST : Fld := ⟨0x104, 0x20, 0, 16, 16⟩
/-- `TSIO.TSOUT_CFG`. -/ def F.tsio_TSOUT_CFG : Fld := ⟨0x400, 0x20, 0, 0, 32⟩
/-- `TSIO.TSOUT_CFG.ACTIVE_LOW`. -/ def F.tsio_TSOUT_CFG_ACTIVE_LOW : Fld := ⟨0x400, 0x20, 0, 2, 1⟩
/-- `TSIO.TSOUT_CFG.CLOCK`. -/ def F.tsio_TSOUT_CFG_CLOCK : Fld := ⟨0x400, 0x20, 0, 4, 3⟩
/-- `TSIO.TSOUT_CFG.EN`. -/ def F.tsio_TSOUT_CFG_EN : Fld := ⟨0x400, 0x20, 0, 0, 1⟩
/-- `TSIO.TSOUT_CFG.PERIODIC`. -/ def F.tsio_TSOUT_CFG_PERIODIC : Fld := ⟨0x400, 0x20, 0, 1, 1⟩
/-- `TSIO.TSOUT_STATUS.ACTIVE`. -/ def F.tsio_TSOUT_STATUS_ACTIVE : Fld := ⟨0x414, 0x20, 0, 0, 1⟩
/-- `TSIO.TSOUT_STATUS.MISSED`. -/ def F.tsio_TSOUT_STATUS_MISSED : Fld := ⟨0x414, 0x20, 0, 1, 1⟩
/-- `TSIO.WIDTH.NS`. -/ def F.tsio_WIDTH_NS : Fld := ⟨0x410, 0x20, 0, 0, 32⟩
/-- `ULIS.AUTH_FAIL`. -/ def F.ulis_AUTH_FAIL : Fld := ⟨0x14c, 0, 0, 0, 32⟩
/-- `ULIS.FLUSHES`. -/ def F.ulis_FLUSHES : Fld := ⟨0x148, 0, 0, 0, 32⟩
/-- `ULIS.LINK_DOWNS`. -/ def F.ulis_LINK_DOWNS : Fld := ⟨0x144, 0, 0, 0, 32⟩
/-- `ULIS.RETRIES`. -/ def F.ulis_RETRIES : Fld := ⟨0x140, 0, 0, 0, 32⟩
/-- `ULIS.ULIS_STATUS.AUTH`. -/ def F.ulis_ULIS_STATUS_AUTH : Fld := ⟨0x100, 0, 0, 30, 1⟩
/-- `ULIS.ULIS_STATUS.SECRET`. -/ def F.ulis_ULIS_STATUS_SECRET : Fld := ⟨0x100, 0, 0, 29, 1⟩
/-- `ULIS.ULIS_STATUS.UP`. -/ def F.ulis_ULIS_STATUS_UP : Fld := ⟨0x100, 0, 0, 31, 1⟩
/-- `UNIT_COMMIT.LAST_TICK`. -/ def F.unit_COMMIT_LAST_TICK : Fld := ⟨0x14, 0, 0, 0, 16⟩
/-- `UNIT_CTRL.EN`. -/ def F.unit_CTRL_EN : Fld := ⟨4, 0, 0, 0, 1⟩
/-- `UNIT_FAULT`. -/ def F.unit_FAULT : Fld := ⟨0xc, 0, 0, 0, 32⟩
/-- `UNIT_INJECT`. -/ def F.unit_INJECT : Fld := ⟨0x10, 0, 0, 0, 32⟩
/-- `UNIT_STATUS.EVENT`. -/ def F.unit_STATUS_EVENT : Fld := ⟨8, 0, 0, 30, 1⟩
/-- `UNIT_TICKJOB.BUDGET`. -/ def F.unit_TICKJOB_BUDGET : Fld := ⟨0x18, 0, 0, 0, 20⟩
/-- `UNIT_TICKJOB.OVR_CONSEC`. -/ def F.unit_TICKJOB_OVR_CONSEC : Fld := ⟨0x18, 0, 0, 20, 4⟩
/-- `UNIT_TICKJOB.OVR_TOTAL`. -/ def F.unit_TICKJOB_OVR_TOTAL : Fld := ⟨0x18, 0, 0, 24, 7⟩
/-- `UNIT_TICKJOB.RUNNING`. -/ def F.unit_TICKJOB_RUNNING : Fld := ⟨0x18, 0, 0, 31, 1⟩

end Sys2Proof.Machine
end

