-- ==== Sys2Proof/Machine/State.lean ====
section
/-! DEFINITION. The machine's state as plain data, its two stop reasons, and the state right after reset. -/

namespace Sys2Proof.Machine

/-- Why the machine stops with a fault. -/
inductive Fault where
  /-- Nothing raises it: the manual gives every command of the block an effect. Safe. -/
  | none
  deriving DecidableEq, Repr

/-- Why a command has no meaning here. -/
inductive Refusal where
  /-- A command without a meaning yet, by its mnemonic. Safe: nothing is proved about it. -/
  | notModelled (mnemonic : String)
  deriving DecidableEq, Repr

/-! ### Register bus, staging and fault reports (chapters 0, 1, 15, 18) -/

/-- A staged RWS write: the unit, the register's address, the whole written word, its master (R9, R433), and the number of MSPI transfers
when it was staged (R378). -/
structure Staged where
  unit : Nat
  addr : Nat
  value : Word
  master : Nat
  transfer : Nat := 0
  deriving DecidableEq, Repr

/-- A report that a detector has sent and the Saucer has not taken: how often the detector fired, and the details of
the last time (R318, Table 15.1). -/
structure Report where
  unit : Nat
  det : Nat
  count : Nat
  access : Nat
  master : Nat
  addr : Nat
  syndrome : Nat
  wcNs : Nat
  inj : Bool
  deriving DecidableEq, Repr

/-- A unit's tick job (R27 to R29): whole slices outstanding behind the one in progress; of that one, the items left of its
first part and of its second part (the saved position); whether its budget is spent, or the unit was disabled, until the
next boundary. -/
structure TickJob where
  backlog : Nat := 0
  first : Nat := 0
  second : Nat := 0
  stopped : Bool := false
  deriving DecidableEq, Repr

/-- A word of a memory whose stored check bits are wrong: a memory of Table 15.8 and its word index, and whether the code
corrects it (R66, R115, R441). -/
structure Upset where
  mem : Nat
  index : Nat
  correctable : Bool
  deriving DecidableEq, Repr

/-! ### Clocks (chapters 1, 5, 7) -/

/-- WC (80 bits, units of 2^-16 ns), and how far the present moment lies behind the last edge of the TIME clock and of the FAB clock,
in quarters of a FAB cycle (0.4 ns; five of them are a TIME cycle) (R111, R161, Table 1.10). -/
structure Clocks where
  wc : Nat := 0
  timeQuarter : Nat := 0
  fabQuarter : Nat := 0
  deriving DecidableEq, Repr

/-! ### One-time-programmable store (chapters 12, 15, 16) -/

/-- The OTP store on the Cosy die (16.1): life-cycle state, unit and link secrets, signing-key, fallback and debug hashes,
revoke bits, the device identifier, and the repair ledger's words in the order they were programmed. Nothing in it is
ever erased. -/
structure Otp where
  lc : Nat := 0
  secret : Option Nat := none
  linkSecret : Option Nat := none
  signHash : List (Nat × Nat) := []
  revoked : List Nat := []
  fbHash : Option Nat := none
  dbgHash : Option Nat := none
  uid : Nat := 0
  ledger : List Nat := []
  deriving DecidableEq, Repr

/-! ### Frames, forwarding, firewall and buffer (chapters 2 to 5) -/

/-- The frame metadata record (R45, Table 2.9), one field for each of its fields; the four extraction values are
UDF0 to UDF3. -/
structure FrameMeta where
  inPort : Nat := 0
  inSub : Nat := 0
  pass2 : Bool := false
  gen : Bool := false
  lenKnown : Bool := false
  macsec : Bool := false
  length : Nat := 0
  slow : Nat := 0
  ts : Nat := 0
  pcpO : Nat := 0
  deiO : Nat := 0
  vidO : Nat := 0
  pcpI : Nat := 0
  deiI : Nat := 0
  vidI : Nat := 0
  tags : Nat := 0
  l3Type : Nat := 0
  l4Type : Nat := 0
  l3Off : Nat := 0
  l4Off : Nat := 0
  v6Ext : Nat := 0
  msAn : Nat := 0
  etype : Nat := 0
  ptpMsg : Nat := 0
  ptpDom : Nat := 0
  udfValid : Nat := 0
  udf0 : Nat := 0
  udf1 : Nat := 0
  udf2 : Nat := 0
  udf3 : Nat := 0
  fid : Nat := 0
  zone : Nat := 0
  tc : Nat := 0
  colour : Nat := 0
  msSc : Nat := 0
  rtag : Nat := 0
  deriving DecidableEq, Repr

/-- An entry of a forwarding table or of a shadow: key bits [127:64] and result bits [63:0] (R58, Table 3.1). -/
structure FdbEntry where
  key : Nat := 0
  res : Nat := 0
  deriving DecidableEq, Repr

/-- A source event: SA, FID and the source (R74). -/
structure SourceEvent where
  sa : Nat
  fid : Nat
  port : Nat
  sub : Nat
  deriving DecidableEq, Repr

/-- One pipeline: forwarding table, stash, shadow, VLAN table, learning queues, sweep and slow-path counts
(chapters 2 and 3). -/
structure PipeState where
  fdb : List (Nat × FdbEntry) := []
  shadow : List (Nat × FdbEntry) := []
  vlan : List (Nat × Nat) := []
  ptr : Nat := 0
  eventFifo : List SourceEvent := []
  hitQ : List Nat := []
  learnQ : List SourceEvent := []
  learnAdmitted : Nat := 0
  learnShed : Bool := false
  learnRun : Nat := 0
  sweepAge : Option Nat := none
  shadowNext : Nat := 0
  puntAdmitted : List (Nat × Nat) := []
  puntShed : List Nat := []
  puntRun : List (Nat × Nat) := []
  cmdStatus : Nat := 0
  deriving DecidableEq, Repr

/-- A rule row: validity, 320-bit value and mask, action word (R90, R91); its counter stands beside it. -/
structure RuleRow where
  valid : Bool := false
  value : Nat := 0
  mask : Nat := 0
  act : Nat := 0
  count : Nat := 0
  deriving DecidableEq, Repr

/-- A rule bank: rows, zone map, zone-pair defaults, IPv6 prefixes with their valid bit (Table 4.5). -/
structure Bank where
  rows : List (Nat × RuleRow) := []
  zmap : List (Nat × Nat) := []
  zpair : List (Nat × Nat) := []
  pfx : List (Nat × (Nat × Bool)) := []
  rescan : Nat := 0
  deriving DecidableEq, Repr

/-- A stream gate's running copy: the list in use, the cycle, the domain, the current entry and when it and the cycle end
in domain nanoseconds; of an enabled gate that is not running yet, the domain and the start of its first cycle (R97). -/
structure StreamGate where
  running : Bool := false
  td : Nat := 0
  cycleNs : Nat := 0
  cycleStart : Int := 0
  list : List Nat := []
  entry : Nat := 0
  entryEnd : Int := 0
  deriving DecidableEq, Repr

/-- A meter's buckets in sixteenths of a frame (R93). -/
structure Meter where
  c : Nat := 0
  p : Nat := 0
  deriving DecidableEq, Repr

/-- What an infuser submits for one frame on a bus (Table 4.3, kind 3, and Table 4.2): the infuser, the bus code minus 32,
whether the frame is to be sent, the format, the identifier (an 11-bit one in bits 28 to 18), length, DLC, CAN XL fields,
the first eight data bytes with byte 0 most significant, the single destination bus or 63, the CANsec mark, the class,
and the set of destination zones. -/
structure CanKey where
  infuser : Nat
  bus : Nat
  toBus : Bool
  format : Nat
  ide : Bool
  id : Nat
  len : Nat
  dlc : Nat
  sdt : Nat
  vcid : Nat
  af : Nat
  data : Nat
  destBus : Nat
  cansec : Bool
  tc : Nat
  dzones : Nat
  deriving DecidableEq, Repr

/-- The verdict on a CAN key, as its infuser receives it (R104): 0 permit, 1 deny, 2 punt; the destination zones kept; class
and colour; the infuser. -/
structure CanVerdict where
  verdict : Nat
  keep : List Nat
  tc : Nat
  colour : Nat
  infuser : Nat
  deriving DecidableEq, Repr

/-- One Strainer: its two banks, meters, gates, admission counts, and the status its running command will report
(chapter 4). -/
structure StrainState where
  bank0 : Bank := {}
  bank1 : Bank := {}
  meters : List (Nat × Meter) := []
  gates : List (Nat × StreamGate) := []
  admitted : List (Nat × Nat) := []
  admitShed : List Nat := []
  admitRun : List (Nat × Nat) := []
  cmdStatus : Nat := 0
  canFifo : List CanKey := []
  deriving DecidableEq, Repr

/-- The generation control of PIPE_W that no register shows: boundaries passed in DRAINING, the FAB cycle of the swap,
recirculations admitted in this tick, whether R52 shed, and its run (R52, R55). -/
structure GenState where
  drainTicks : Nat := 0
  swapCycle : Nat := 0
  admitted : Nat := 0
  shed : Bool := false
  run : Nat := 0
  deriving DecidableEq, Repr

/-- A cell of the buffer that is not on a free list: its bytes, its owner record and its link word (R114, Table 5.1;
NEXT is the order of the frame's chain), and the auditor's strike (R135). -/
structure Cell where
  data : List Byte
  owner : Nat
  ref : Nat
  sof : Bool
  eof : Bool
  bad : Bool
  strike : Bool
  deriving DecidableEq, Repr

/-- A copy of a frame as the verdict planned it: destination port, class, whether it is cut-through, whether it is the
mirror copy, the segments and functions it selects, and whether it is a recirculation or the slow-path copy. -/
structure Copy where
  port : Nat
  tc : Nat
  ct : Bool
  mirror : Bool
  subS : Nat
  subH : Nat
  recirc : Bool
  slow : Bool
  deriving DecidableEq, Repr

/-- Lossless cells counted for a frame in one class: the class, the cells, and how many of its copies hold them (Table
5.5). -/
structure LosslessUse where
  tc : Nat
  cells : Nat
  holders : Nat
  deriving DecidableEq, Repr

/-- A cell waiting in an input's hold, with its record (R117). -/
structure HeldCell where
  record : Nat
  data : List Byte
  sof : Bool
  eof : Bool
  deriving DecidableEq, Repr

/-- What the MAC takes from the SecTAG of a protected frame: the receive channel its SCI names, the association number, the packet
number, recovered to 64 bits for the XPN ciphers (R40, R354). -/
structure RxSec where
  channel : Option Nat
  an : Nat
  pn : Nat
  deriving DecidableEq, Repr

/-- A frame record (Table 5.2): metadata, cells in chain order, the bytes written so far, COPIES, finished copies, COMPLETE and BAD, and beside it
what the frame still waits for or carries to its outputs: whether the end-of-frame checks are done, the copies planned
and not enqueued, the source event held until the end, the lossless cells counted for it, the stream filter whose size
check is left to the end, whether it was ended at MAX_LEN + 1 (R37), whether a cut-through copy has left, the length its IP header implies, its VLAN, whether it
arrived tagged, the UNTAG mask of that VLAN. STATE is WRITING or LIVE while the record is listed; a FREE record is not
listed. -/
structure Frame where
  fm : FrameMeta := {}
  chain : List Nat := []
  bytes : Nat := 0
  copies : Nat := 0
  done : Nat := 0
  complete : Bool := false
  bad : Bool := false
  ended : Bool := false
  plan : List Copy := []
  srcEvent : Option SourceEvent := none
  lossless : List LosslessUse := []
  sduLimit : Option Nat := none
  truncated : Bool := false
  cutLeft : Bool := false
  implied : Option Nat := none
  vid : Nat := 0
  untag : Nat := 0
  deriving DecidableEq, Repr

/-- A frame that the MAC of an E-port receives: its bytes on the wire so far, WC at its first bit, whether it has ended, whether it
began while the MAC or RX_EN was off, whether it was ended at MAX_LEN + 1 (R37), its SecTAG once read, the cells handed to the
fabric, whether the fabric dropped it at its first cell (R116), its frame record while that is in use, and the record as it was when it
became FREE before the frame's end. -/
structure MacFrame where
  raw : List Byte
  wc : Nat
  ended : Bool
  off : Bool
  cut : Bool := false
  sec : Option RxSec := none
  cells : Nat := 0
  lost : Bool := false
  record : Option Nat := none
  past : Option Frame := none
  deriving DecidableEq, Repr

/-- An input port of the fabric: the record of the frame that a P12 to P15 source is writing, the hold of at most two cells (R117),
the records whose heads wait for the pipeline, on an E-port the frames its MAC receives or has received, oldest first, until
their end-of-frame checks, and on P12 the segment whose turn it is (R203). -/
structure InPort where
  writing : Option Nat := none
  hold : List HeldCell := []
  heads : List Nat := []
  rx : List MacFrame := []
  turn : Nat := 0
  deriving DecidableEq, Repr

/-- A queue entry (Table 5.3): its place in the pool, the record, the copy, whether its first cell has been read, the cells
accounted for it, whether a reservation holds them, whether a lossless count does, and whether it has failed the fit
check as a head copy (R154). -/
structure QEntry where
  slot : Nat
  frame : Nat
  copy : Copy
  started : Bool
  acct : Nat
  resv : Bool
  lossless : Bool
  fitFailed : Bool
  deriving DecidableEq, Repr

/-- A discard walk: the record, the next position in its chain, and the positions already released by the copy's own
reads (R120, R121). -/
structure Walk where
  frame : Nat
  pos : Nat
  skip : List Nat
  deriving DecidableEq, Repr

/-- A frame that a P12 to P15 source offers: the record fields it brings (for a second pass those that R50 keeps), its
bytes, how many of them have been offered. -/
structure Offer where
  fm : FrameMeta
  bytes : List Byte
  offset : Nat
  deriving DecidableEq, Repr

/-- A copy whose last cell an output has read: the port, the metadata, the bytes as they leave, the copy. -/
structure Delivered where
  port : Nat
  fm : FrameMeta
  bytes : List Byte
  copy : Copy
  deriving DecidableEq, Repr

/-- A copy that an output has selected: its class, the cells read so far with their chain positions (R123), the deficit of
its class before the selection (R143), and how far the output has followed the chain, written cells alone counted when it is used. -/
structure Reading where
  tc : Nat
  cells : List (Nat × List Byte)
  deficit : Int
  seen : Nat := 1
  deriving DecidableEq, Repr

/-- What an E-port has put on its wire: the port, WC at the first bit, whether it is a whole frame (0), a fragment that is not the
last of its frame (1), the last fragment (2) or what left of a frame before an error code group (3, Table 15.6), and its bytes, DA to FCS or
mCRC. -/
structure WireOut where
  port : Nat
  wc : Nat
  part : Nat
  bytes : List Byte
  deriving DecidableEq, Repr

/-- Pause timers of one port (R130): for each priority, and for PAUSE, when the timer ends in WC nanoseconds. -/
structure PauseTimers where
  prio : List (Nat × Nat) := []
  all : Option Nat := none
  deriving DecidableEq, Repr

/-- The fabric beyond its registers (chapter 5): cells in use, records, inputs, queues, reservation use, copies
whose moment of R119 has come, walks, copies being read, re-entries, copies read out, frames sent on E-ports, pauses,
PFC state of each (port, class) and the WC at which its last PFC frame was made (units of 2^-16 ns), current link rates in Mb/s, octet
counts, ports that dropped in this tick and their runs, the inputs (by number) and outputs (16 + number) that have had their cell of the
present FAB cycle, and the LFSR. -/
structure FabState where
  cells : List (Nat × Cell) := []
  frames : List (Nat × Frame) := []
  inputs : List (Nat × InPort) := []
  queues : List (Nat × List QEntry) := []
  resvUsed : List (Nat × Nat) := []
  toEnqueue : List (Nat × Copy) := []
  walks : List Walk := []
  reading : List (Nat × List Reading) := []
  offers : List (Nat × List Offer) := []
  delivered : List Delivered := []
  wire : List WireOut := []
  pause : List (Nat × PauseTimers) := []
  pfcOn : List Nat := []
  pfcAt : List (Nat × Nat) := []
  links : List (Nat × Nat) := []
  rxOctets : List (Nat × Nat) := []
  txOctets : List (Nat × Nat) := []
  dropped : List Nat := []
  dropRun : List (Nat × Nat) := []
  used : List Nat := []
  lfsr : Nat := 1
  deriving DecidableEq, Repr

/-! ### Time (chapter 7) -/

/-- What one Announce says of its sender: its priority vector (systemIdentity, stepsRemoved, source port identity; the
smaller number is the better vector), the grandmasterIdentity (R435), and what a relay hands on unchanged: the second octet of the
flags, currentUtcOffset, timeSource, and the path trace. -/
structure Announced where
  vector : Nat
  gm : Nat
  flags : Nat := 0
  utc : Nat := 0
  source : Nat := 0xA0
  path : List Byte := []
  deriving DecidableEq, Repr

/-- What a relay takes over from the last processed Sync (R170): preciseOriginTimestamp in nanoseconds, C_pre in units of
2^-16 ns, the WC receive timestamp tI, and the end of the Follow_Up information TLV after the rate (the grandmaster's last phase
and frequency change). -/
structure Upstream where
  origin : Int
  correction : Int
  wc : Nat
  change : List Byte := []
  deriving DecidableEq, Repr

/-- A time domain beyond its registers (R162, R163, R174): its time in units of 2^-47 ns, RATE and last_r − 1 with 48
fractional bits, r − 1 of the last processed Sync, that Sync's logMessageInterval and the WC at which it was processed (units of
2^-16 ns), the WC at which HOLDOVER began, what a relay takes from the Sync, and the Announces accepted on each port. -/
structure Domain where
  time : Int := 0
  rate : Int := 0
  lastRate : Int := 0
  syncRate : Int := 0
  logInterval : Int := 0
  syncWc : Nat := 0
  holdWc : Nat := 0
  up : Option Upstream := none
  announced : List (Nat × Announced) := []
  deriving DecidableEq, Repr

/-- A gPTP frame in the receive queue: the port, WC of its timestamp point in units of 2^-16 ns, and the PTP message. -/
structure PtpRx where
  port : Nat
  wc : Nat
  data : List Byte
  deriving DecidableEq, Repr

/-- A gPTP frame in a port's transmit queue (R167): the port, its type, the domain, the frame without FCS as the time engine wrote
it, whether a Sync leaves one-step, the WC at which a relayed Sync's upstream message was received, and the rate ratio − 1 with 48
fractional bits (R170, R171). -/
structure PtpMsg where
  port : Nat
  kind : PtpKind
  domain : Nat
  data : List Byte
  oneStep : Bool := false
  upWc : Option Nat := none
  rate : Int := 0
  deriving DecidableEq, Repr

/-- A gPTP port's path-delay measurement (R172): the previous exchange's t3 and t4, nrr − 1 with 48 fractional bits, d in
units of 2^-16 ns if there has been an exchange, consecutive losses, when the outstanding request left (WC) and its sequenceId. -/
structure PdelayState where
  prev : Option (Int × Int) := none
  nrr : Option Int := none
  delay : Option Int := none
  lost : Nat := 0
  sent : Option Nat := none
  seq : Nat := 0
  deriving DecidableEq, Repr

/-- The message intervals that a link partner has requested (Table 7.3): logSyncInterval, logMinPdelayReqInterval,
logAnnounceInterval. -/
structure Intervals where
  sync : Option Int := none
  pdelay : Option Int := none
  announce : Option Int := none
  deriving DecidableEq, Repr

/-- A captured edge (R177): its time in half nanoseconds, its direction, its clock. -/
structure Capture where
  half : Nat
  rising : Bool
  clock : Nat
  deriving DecidableEq, Repr

/-- The tick's placement (R22 to R24): WC at the last boundary; at WC `since` (units of 2^-16 ns), `left` of the tick's own time was left to the next
boundary (units of 2^-64 ns); the tick's rate relative to WC − 1 while it follows no domain (48 fractional bits); by how much
the running tick is lengthened or shortened toward TD0 (units of 2^-64 ns, positive shortens it); whether TD0 has been synchronised
since the release of TICK. -/
structure TickPlan where
  last : Nat := 0
  since : Nat := 0
  left : Int := 0
  rate : Int := 0
  adj : Int := 0
  seen : Bool := false
  deriving DecidableEq, Repr

/-- TIME, TICK and TSIO beyond their registers: domains, ports, the queues of the time engine with the messages it holds for a full
transmit queue (R167), the last sequenceId of each
message type, domain and port, the command of DOM_CMD that each domain is BUSY with (opcode and SEQ), requested
intervals, captures, each input's last captured edge (WC in half nanoseconds), the outputs whose single pulse may not
fire again until EN commits (R179), the tick's placement, the previous sample of each GPIO that side-band inputs name (R227), the levels on the GPIO pins, and the program memory by byte (12.4). -/
structure TimeState where
  domains : List (Nat × Domain) := []
  ports : List (Nat × PdelayState) := []
  rxQ : List PtpRx := []
  txQ : List (Nat × List PtpMsg) := []
  waiting : List (Nat × List PtpMsg) := []
  seqs : List (Nat × Nat) := []
  cmds : List (Nat × Nat × Nat) := []
  intervals : List (Nat × Intervals) := []
  captures : List (Nat × List Capture) := []
  lastEdge : List (Nat × Nat) := []
  fired : List Nat := []
  tick : TickPlan := {}
  sbPrev : List (Nat × Bool) := []
  pins : PinsIn := {}
  prog : List (Nat × Nat) := []
  deriving DecidableEq, Repr

/-! ### Spout (chapter 6) -/

/-- The configuration of a gate schedule: BASE in nanoseconds, CYCLE, time domain, entries used (R147). -/
structure GateCfg where
  base : Int := 0
  cycle : Nat := 0
  td : Nat := 0
  len : Nat := 0
  deriving DecidableEq, Repr

/-- A port's gates (R147 to R150): which of the two list memories is operational, the memories, the operational
configuration if one runs, the pending one, the current cycle's start, the current entry and when it ends (domain
nanoseconds), the gate states, and whether a HOLD is in effect. -/
structure GateState where
  oper1 : Bool := false
  list0 : List (Nat × Nat) := []
  list1 : List (Nat × Nat) := []
  oper : Option GateCfg := none
  pending : Option GateCfg := none
  swapAt : Int := 0
  cycleStart : Int := 0
  entry : Nat := 0
  entryEnd : Int := 0
  gates : Nat := 255
  hold : Bool := false
  deriving DecidableEq, Repr

/-- A frame between the first read of its copy and its last bit on the wire of an E-port. `tc` is its class, 8 for a time-engine
message, 9 for a PFC frame of the MAC (R128). WC values are in units of 2^-16 ns: when its first bit can leave, since when the fragment now on the wire is there, the
close of its class's gate (R154), when its last byte was read. `cuts` are the fragments already sent, each with its length and
start; `pos` is their sum; `cut` is the length at which the fragment on the wire ends. `guess` is the frame's egress bytes until `body`, the frame as it leaves without MACsec and FCS, is
whole. `sec` is the association number and packet number it is protected with, taken at its start. `cells` is how many of its
cells the read buffer has taken. A `clear` frame takes the uncontrolled port and is never protected. -/
structure Tx where
  tc : Nat
  ready : Nat
  start : Option Nat
  pos : Nat
  cuts : List (Nat × Nat)
  cut : Option Nat
  rate : Nat
  guess : Nat
  body : Option (List Byte)
  known : Nat
  stomp : Bool
  sec : Option (Nat × Nat)
  close : Option Nat
  cells : Nat
  clear : Bool
  msg : Option PtpMsg
  deriving DecidableEq, Repr

/-- A Spout instance beyond its registers: deficits, visits and the round-robin position (R142), the guard bands that classes have
paid for a head of unknown length (R142), shaper credits in units of 2^-16 × 10^-6 bit (R144), packet credits (R146), gates; the
frames read or being read but not sent, when the wire is free, and the WC all of this stands for (units of 2^-16 ns). -/
structure SpoutState where
  deficit : List (Nat × Int) := []
  visited : List Nat := []
  rr : Nat := 0
  guardPaid : List (Nat × Nat) := []
  cbs : List (Nat × Int) := []
  pcs : List (Nat × Int) := []
  gate : GateState := {}
  line : List Tx := []
  free : Nat := 0
  since : Nat := 0
  deriving DecidableEq, Repr

/-! ### Edge controllers (chapter 8) -/

/-- A CAN channel beyond its registers: the operating mode in effect (OPMODE takes effect at the next bus idle); the frames in the
receive buffer, verified and not handed on (R185); the transmit queue in arrival order, the position of the frame in transmission,
the egress shaper's credit (R146), whether the last release took a signal slot, whether a frame already waits for credit,
the guard's use in this tick, whether it drives its flag, and the guard lists that commits have replaced, newest first, each with the
WC of its commit (units of 2^-16 ns; R106). -/
structure CanState where
  mode : Nat := 0
  rxb : List BusFrame := []
  txq : List BusFrame := []
  active : Option Nat := none
  credit : Int := 0
  lastSig : Bool := false
  held : Bool := false
  guardUsed : Nat := 0
  guardFlag : Bool := false
  guardOld : List (Nat × List (Nat × Word)) := []
  deriving DecidableEq, Repr

/-- The slot of a LIN channel in progress: identifier, schedule TYPE, whether this node publishes, data length, and the
response published if there is one. -/
structure LinSlot where
  id : Nat
  type : Nat
  pub : Bool
  len : Nat
  resp : Option (List Byte)
  deriving DecidableEq, Repr

/-- A LIN channel beyond its registers: the next entry, the slot in progress, and the response buffers by identifier. -/
structure LinState where
  next : Nat := 0
  slot : Option LinSlot := none
  resp : List (Nat × List Byte) := []
  stopped : Bool := false
  deriving DecidableEq, Repr

/-- A SENT channel beyond its registers: the last accepted sync pulse, and status bits 3 and 2 of the accepted messages of
the slow message being assembled, oldest first. -/
structure SentState where
  lastSync : Option Nat := none
  slow : List (Bool × Bool) := []
  deriving DecidableEq, Repr

/-- A T1S segment beyond its registers: frames to be sent with their classes, and the bytes of received frames waiting for
P12 that no offer holds. -/
structure T1sState where
  tx : List (List Byte) := []
  deriving DecidableEq, Repr

/-- All edge controllers: channels by number; FlexRay transmit buffers written since they were last sent; the words that
each sensor SPI master received last; what each controller put on its bus, oldest first; transceivers whose transmitter is
off after a TXD time-out, and whose receiver output is held recessive (Table 8.2); those with a written MODE that has not taken effect;
the transceiver modes held before entry to the Safe state (R330); frames sent by T1S segments. -/
structure EdgeState where
  can : List (Nat × CanState) := []
  lin : List (Nat × LinState) := []
  sent : List (Nat × SentState) := []
  t1s : List (Nat × T1sState) := []
  flxUpdated : List Nat := []
  spi : List (Nat × Nat) := []
  busSent : List (Nat × BusFrame) := []
  txdOff : List Nat := []
  rxHeld : List Nat := []
  xcvrReq : List Nat := []
  preSafe : List (Nat × Nat) := []
  segSent : List (Nat × List Byte) := []
  deriving DecidableEq, Repr

/-! ### Gateway (chapter 9) -/

/-- What a frame becomes for its destination: a frame for a CAN outbound buffer, data for a LIN response buffer by identifier, data
for a FlexRay transmit buffer (Table 9.4). -/
inductive Placed where
  | can (f : BusFrame) | lin (id : Nat) (data : List Byte) | flx (buf : Nat) (data : List Byte)
  deriving DecidableEq, Repr

/-- What is left of an item that an engine runs (R209, R215, R221, R224): the verdict on a frame received from a bus, with its route
entry; a destination of a routed frame, with that entry; the verdict on a frame about to be sent on a bus, with what is placed
there and the destination PDU it is, if it is one; a message of an inbound PDU, with its tunnel entry. -/
inductive GwWork where
  | route (bus : Nat) (f : BusFrame) (entry : Nat)
  | dest (bus : Nat) (f : BusFrame) (entry : Nat)
  | ask (bus : Nat) (f : BusFrame) (put : Placed) (pdu : Option Nat)
  | message (entry : Nat) (m : List Byte)
  deriving DecidableEq, Repr

/-- An engine beyond its registers: side-band items (line number, new level), whether the last item was a signal step, the
round-robin position, the signal job's remaining work (closing tunnels, silent source PDUs, due destination PDUs: the
tick each belongs to), its Ethernet inbound buffer, its P13 outbound buffer (class and PDU), what is left of the item it runs,
whether the key it waits for has been submitted, whether that item is a signal step, and the verdict that has come for a signal step of
a job that is stopped (R432). -/
structure EngineState where
  sb : List (Nat × Bool) := []
  lastSig : Bool := false
  rr : Nat := 0
  job : List (Nat × Nat × Nat) := []
  ethIn : List (Nat × List Byte) := []
  p13Out : List (Nat × List Byte) := []
  work : List GwWork := []
  asked : Bool := false
  inSig : Bool := false
  verdict : Option CanVerdict := none
  deriving DecidableEq, Repr

/-- The whole gateway: the four shared tables by entry index (Tables 9.2, 9.6, 9.7, 9.8), inbound and outbound frame buffers
by bus code, outbound signal slots by PDU (bus code and frame), destination images by PDU, last reception by source PDU
(tick number), open batched PDUs and sequence numbers by tunnel entry, the gateway punt queue with its count in this tick,
hand-off admission by bus, collisions reported to owners, engine memories, whether the engines run the essential microcode (Table 12.8),
and the engines. -/
structure GwState where
  route : List (Nat × Nat) := []
  tunnel : List (Nat × Nat) := []
  pdu : List (Nat × Nat) := []
  sig : List (Nat × Nat) := []
  inQ : List (Nat × List BusFrame) := []
  outQ : List (Nat × List BusFrame) := []
  slots : List (Nat × (Nat × BusFrame)) := []
  images : List (Nat × Nat) := []
  lastRx : List (Nat × Nat) := []
  openPdu : List (Nat × List Byte) := []
  seqOut : List (Nat × Nat) := []
  seqIn : List (Nat × Nat) := []
  puntQ : List (Nat × BusFrame) := []
  punted : Nat := 0
  admitted : List (Nat × Nat) := []
  admitShed : List Nat := []
  admitRun : List (Nat × Nat) := []
  collisions : List Nat := []
  mem : List (Nat × Nat) := []
  essential : Bool := false
  engines : List (Nat × EngineState) := []
  deriving DecidableEq, Repr

/-! ### Keys, jobs and life cycle (chapter 16) -/

/-- A full slot of the key store: key (128 or 256 bits), attribute byte (Table 16.1), label, origin, and the GCM_ENC jobs run
under it (R339, R352). -/
structure KeySlot where
  key : Nat
  attr : Nat
  label : Nat
  origin : Nat
  encs : Nat
  deriving DecidableEq, Repr

/-- Security state beyond its registers: the key that each association or engine has fetched, by engine-key number; the
SSCI and SALT that each association took at INSTALL (R353); CANsec
fetches still to come; the key store; KEY_DATA, KEY_ATTR and KEY_CMD of each of the three masters (16 numbers each: words 0 to
7, the attribute byte, STATUS); wrap key and settings key; generate requests of the DRBG since its last seed, none while it
is not instantiated; whether a health test has failed since; the DBG_AUTH challenge, none where no random bits could be had for
it; the sets whose KEY_CMD reads BUSY; the ring whose job the service has
taken, and where its round robin goes on; blobs of the image that wait for ring 3. -/
structure SecState where
  engineKeys : List (Nat × Nat) := []
  salts : List (Nat × (Nat × Nat)) := []
  fetches : List Nat := []
  slots : List (Nat × KeySlot) := []
  keyRegs : List (Nat × Nat) := []
  wrapKey : Option Nat := none
  setKey : Option Nat := none
  drbg : Option Nat := none
  entropyBad : Bool := false
  challenge : Option Nat := none
  busySets : List Nat := []
  running : Option Nat := none
  nextRing : Nat := 0
  blobs : List (Nat × List Byte) := []
  deriving DecidableEq, Repr
/-! ### Steward triad (chapter 14) -/

/-- The triad beyond its registers: the shared SRAM by 32-bit word; events latched by one core only (event, mask of cores,
offers left); agreed events not yet delivered (event, mask of the cores they go to); the minority core of a resynchronisation
that is due or runs; the requests copied at the doorbells, in the order of their agreement; whether the update service holds
the inactive slot open; the next self-test pattern; whether the mode has been decided in this start. -/
structure TriadState where
  sram : List (Nat × Nat) := []
  latched : List (Nat × Nat × Nat) := []
  agreed : List (Nat × Nat) := []
  deferred : List (Nat × Nat) := []
  served : List Nat := []
  minority : Option Nat := none
  requests : List (Nat × List Nat) := []
  slotOpen : Bool := false
  pattern : Nat := 0
  decided : Bool := false
  poisoned : Bool := false
  recordErased : Bool := false
  deriving DecidableEq, Repr
/-! ### Saucer (chapter 15) -/

/-- The Saucer beyond its registers: the window of each source (its ID times 32 plus the detector): buckets newest first, each
with its errors and whether one was injected (R331, R332); the number of the next boundary it acts on; and the boundary
numbers whose bucket moves are outstanding; WC of the last own boundary; and the GRACE that the last boundary compared with, which is
the one before its commit (R325). -/
structure SaucerState where
  windows : List (Nat × List (Nat × Bool)) := []
  boundary : Nat := 0
  moves : List Nat := []
  ownAt : Option Nat := none
  grace : Nat := 8
  deriving DecidableEq, Repr
/-! ### Host interfaces (chapter 17) -/

/-- A register write that has crossed into the posted buffer toward the Cosy die and has no resolution yet: master, address,
value, the number of MSPI transfers when it was launched (R378, R380), and whether it is a ledger entry of the Saucer (R333). -/
structure Posted where
  master : Nat
  addr : Nat
  value : Word
  transfer : Nat
  repair : Bool := false
  deriving DecidableEq, Repr

/-- Where the value of a read goes: kept as the last register read, to the completion of a PCIe request, to MISO, or nowhere (a read
that MSPI has abandoned, R378). -/
inductive ReadDest where
  | data
  | pcie
  | mspi
  | lost
  deriving DecidableEq, Repr

/-- A non-posted request that waits behind posted writes (R382, R384, R387): master, address, whether it asks for the whole register (R7),
and where its value goes. -/
structure NonPosted where
  master : Nat
  addr : Nat
  whole : Bool
  dest : ReadDest
  deriving DecidableEq, Repr

/-- One MSI-X message as it left: function, vector, address, data (R375). -/
structure MsixMsg where
  fn : Nat
  vector : Nat
  addr : Nat
  data : Nat
  deriving DecidableEq, Repr

/-- The host paths beyond their registers: per function (bit mask) Bus Master Enable, MSI-X enable and the function mask;
messages sent; where the transmit round robin stands (16 × function + ring); bytes written to host memory, by address;
read data of the last PCIe request; the status word captured by the last MSPI transfer, its LAST_ERR, and the bytes it
shifted out; posted writes on their way to the Cosy die, oldest first, of which the posted buffer of the link holds the first 16
and the others still wait at their originators (R383); non-posted requests that wait, oldest first, of which the link holds 8; the
rest of the configuration space of the functions that differ from its defaults; consecutive CRC failures of one Ulis packet. -/
structure HostState where
  bme : Nat := 0
  msixEn : Nat := 0
  msixMask : Nat := 0
  msix : List MsixMsg := []
  txNext : Nat := 0
  dma : List (Nat × List Byte) := []
  completion : List Word := []
  mspiStatus : Nat := 0
  mspiErr : Bool := false
  miso : List Byte := []
  posted : List Posted := []
  reads : List NonPosted := []
  cfg : List (Nat × PcieCfg) := []
  ulisFails : Nat := 0
  deriving DecidableEq, Repr

/-! ### Kettle (chapters 12 and 13) -/

/-- A SCHEMA section: source ID, schema version, and the settable offsets with their field masks (R278). -/
structure Schema where
  source : Nat
  version : Nat
  masks : List (Nat × Nat)
  deriving DecidableEq, Repr

/-- A section of the settings area: source ID, schema version, and its pairs of offset and value (Table 12.9). -/
structure SetSection where
  source : Nat
  version : Nat
  values : List (Nat × Nat)
  deriving DecidableEq, Repr

/-- The settings copy in use: its number, its generation, its sections; and whether the settings service has written since boot
complete (R277, R299). -/
structure SettingsArea where
  copy : Nat := 1
  gen : Nat := 0
  sections : List SetSection := []
  written : Bool := false
  deriving DecidableEq, Repr

/-- A part of a slot, as the manifest states it: type, number of sections, bytes covered, digest (Table 13.2). -/
structure Part where
  kind : Nat
  sections : Nat
  length : Nat
  digest : Nat
  deriving DecidableEq, Repr

/-- Kettle beyond its registers: where the start stands (`KStage` names the codes); WC at the release of the Brew die; the
repair ledger in force, and the numbers of the OTP entries that failed their check (R337); the signing keys of this start (slot and hash) and the fallback-key hash; of the segment being read
its block digests, the next block, its body length, the bytes not yet loaded, the last source ID and the number of sections
loaded; the essential segment's VERSION and TICK_K; the manifest's VERSION; unit enables and the fields of R276 held back; the
schemas of the primary segment; the parts of a trial start and what has streamed of each (type, sections, bytes); the TD0 time that
is armed (nanoseconds), and TICK.COUNT when an activation was armed in Fallback mode; the slot of the key that signed the running
primary; whether the time engine has reported ready, whether the E-port lanes are powered (R275), whether the wake controller's bank
was switched for a trial start (R294); the settings area; and what was written to the flash, oldest first: offset and bytes, none for an
erased sector (R289, R296, R299). -/
structure KettleState where
  stage : Nat := 0
  startWc : Nat := 0
  ledger : List Nat := []
  badEntries : List Nat := []
  keys : List (Nat × Nat) := []
  fbHash : Option Nat := none
  digests : List Nat := []
  next : Nat := 0
  bodyLen : Nat := 0
  buf : List Byte := []
  lastSource : Nat := 0
  sections : Nat := 0
  version : Nat := 0
  tickK : Nat := 2
  manifest : Nat := 0
  enables : List (Nat × Word) := []
  held : List (Nat × Word) := []
  schemas : List Schema := []
  parts : List Part := []
  streamed : List (Nat × Nat × List Byte) := []
  armedAt : Nat := 0
  armedTick : Nat := 0
  keyUsed : Nat := 0
  timeReady : Bool := false
  lanes : Bool := false
  switched : Bool := false
  settings : SettingsArea := {}
  flash : List (Nat × List Byte) := []
  deriving DecidableEq, Repr

/-! ### Consent rings and power (chapters 10 and 11) -/

/-- A ring (0 the backbone, 1 + s sub-ring s) beyond its registers: ticks since its round began, whether that round is
outstanding, whether the next round starts at once, the backbone's round number, the last round forwarded, whether the
last round was complete and consenting, TOKENs to be sent at the next boundary (round, consent, votes), and the reason of
a WAKE that waits until the medium is live. -/
structure RingState where
  since : Nat := 0
  waiting : Bool := false
  fresh : Bool := true
  round : Nat := 0
  lastFwd : Option Nat := none
  ok : Bool := false
  tokens : List (Nat × Bool × Nat) := []
  wake : Option Nat := none
  deriving DecidableEq, Repr

/-- NETM beyond its registers: rings, ticks in the present phase, the drain length, what a follower has received (AGREE, the
ARG of a DRAIN, COMMIT), and ticks since a backbone message was accepted. -/
structure NetmState where
  rings : List (Nat × RingState) := []
  timer : Nat := 0
  drainLen : Nat := 0
  agreeSeen : Bool := false
  drainSeen : Option Nat := none
  commitSeen : Bool := false
  bbSince : Nat := 0
  deriving DecidableEq, Repr

/-- The Cosy die beyond its registers: the power state (0 Off, 1 Sleep, 2 Standby, 3 Ready, 4 Active, 5 Fallback, 6 Safe) and
the one held before Safe; whether the Brew die is out of reset, whether Kettle has started it, and whether
it is in power-on reset (its rails have been off since its last release); consecutive PMIC_PG
time-outs; INH cycled low; XIN lost; the active slot not yet taken from the commit records (R297); wake detectors armed, a
wake latched since, a commit requested, a commit accepted, the wake registers locked, the wake timer running, the levels on
WAKE0 to WAKE3; the wake-controller program memory of two banks and the bank in use; and what the Cosy die follows of the Saucer (R328): step 2
seen and tick messages since, an episode open, the source and detector last received. -/
structure CosyState where
  power : Nat := 3
  before : Nat := 4
  brewRun : Bool := false
  brewStarted : Bool := false
  brewPor : Bool := true
  pgFails : Nat := 0
  inhLow : Bool := false
  clockLost : Bool := false
  cold : Bool := true
  armed : Bool := false
  latched : Bool := false
  commitReq : Bool := false
  committed : Bool := false
  locked : Bool := false
  timerOn : Bool := false
  wakePins : Nat := 0
  prog : List (Nat × Nat) := []
  progBank : Nat := 0
  sawSafe : Bool := false
  graceMsgs : Nat := 0
  sawOpen : Bool := false
  lastSource : Nat := 0
  lastDet : Nat := 0
  tickAt : Nat := 0
  deriving DecidableEq, Repr

/-- The whole machine. -/
structure State where
  regs : List (Nat × Word) := []
  staged : List Staged := []
  reports : List Report := []
  jobs : List (Nat × TickJob) := []
  resetPs : List (Nat × Nat) := []
  otp : Otp := {}
  upsets : List Upset := []
  clk : Clocks := {}
  pipeE : PipeState := {}
  pipeW : PipeState := {}
  strainE : StrainState := {}
  strainW : StrainState := {}
  gen : GenState := {}
  fab : FabState := {}
  spout : List (Nat × SpoutState) := []
  time : TimeState := {}
  edge : EdgeState := {}
  gw : GwState := {}
  safe : Bool := false
  netm : NetmState := {}
  cosy : CosyState := {}
  sec : SecState := {}
  triad : TriadState := {}
  saucer : SaucerState := {}
  kettle : KettleState := {}
  host : HostState := {}
  readData : Word := 0#32
  free : Nat := 0
  pending : List Instr := []
  deriving DecidableEq, Repr

/-- Right after reset. -/
def State.reset : State := {}

end Sys2Proof.Machine
end

