-- ==== Sys2Proof/Machine/RegTable.lean ====
section
/-! DEFINITION. The register tables of the manual, one list of rows for each kind of unit, written from the register
tables of each chapter (the rule of the chapter that says the table holds is named at each list). A row gives the
offset of its first instance, the counts and strides of its two array dimensions, where it is present, and its
fields (most significant bit, least significant bit, access kind of Table 0.3, reset value). Bits of no field are
reserved (R10). -/

namespace Sys2Proof.Machine

/-- The registers of a SYS unit (R405, 18_register_map.md), beside its unit frame. -/
def regsSys : List RegRow :=
  [⟨0x100, 1, 0x1000000, 1, 0x1000000, .all, [⟨31, 16, .ro, 0x4872⟩, ⟨15, 8, .ro, 0xb⟩, ⟨7, 4, .ro, 1⟩]⟩,
   ⟨0x180, 1, 0x1000000, 1, 0x1000000, .all, [⟨25, 0, .rw, 6⟩]⟩,
   ⟨0x184, 1, 0x1000000, 1, 0x1000000, .all, [⟨25, 0, .rw, 6⟩]⟩,
   ⟨0x188, 1, 0x1000000, 1, 0x1000000, .all, [⟨25, 0, .rw, 0⟩]⟩,
   ⟨0x18c, 1, 0x1000000, 1, 0x1000000, .all, [⟨2, 2, .ro, 0⟩, ⟨1, 1, .ro, 0⟩, ⟨0, 0, .ro, 0⟩]⟩,
   ⟨0x190, 1, 0x1000000, 1, 0x1000000, .all, [⟨0, 0, .wo, 0⟩]⟩,
   ⟨0x140, 1, 0x1000000, 1, 0x1000000, .all, [⟨31, 31, .ro, 0⟩, ⟨30, 30, .ro, 0⟩, ⟨27, 24, .ro, 0⟩, ⟨15, 0, .ro, 0⟩]⟩,
   ⟨0x400, 26, 4, 1, 4, .all, [⟨31, 0, .ro, 0⟩]⟩]

/-- The registers of a TICK unit (R407, 18_register_map.md), beside its unit frame. -/
def regsTick : List RegRow :=
  [⟨0x100, 1, 0x1000000, 1, 0x1000000, .all, [⟨2, 0, .ro, 2⟩]⟩,
   ⟨0x104, 1, 0x1000000, 1, 0x1000000, .all, [⟨31, 30, .ro, 0⟩]⟩,
   ⟨0x108, 1, 0x1000000, 1, 0x1000000, .all, [⟨31, 0, .ro, 0⟩]⟩,
   ⟨0x10c, 1, 0x1000000, 1, 0x1000000, .all, [⟨31, 0, .ro, 0⟩]⟩,
   ⟨0x110, 1, 0x1000000, 1, 0x1000000, .all, [⟨31, 0, .ro, 0⟩]⟩,
   ⟨0x114, 1, 0x1000000, 1, 0x1000000, .all, [⟨31, 0, .ro, 0⟩]⟩]

/-- The registers of a SAUCER unit (R338, 15_saucer.md), beside its unit frame. -/
def regsSaucer : List RegRow :=
  [⟨0x100, 1, 0x1000000, 1, 0x1000000, .all, [⟨31, 31, .rws, 0⟩, ⟨11, 0, .rws, 8⟩]⟩,
   ⟨0x104, 1, 0x1000000, 1, 0x1000000, .all, [⟨31, 31, .ro, 0⟩, ⟨30, 29, .ro, 0⟩, ⟨28, 28, .ro, 0⟩, ⟨27, 27, .ro, 0⟩, ⟨26, 25, .ro, 0⟩, ⟨24, 12, .ro, 0⟩, ⟨7, 0, .ro, 0⟩]⟩,
   ⟨0x108, 1, 0x1000000, 1, 0x1000000, .all, [⟨15, 0, .ro, 0⟩]⟩,
   ⟨0x10c, 1, 0x1000000, 1, 0x1000000, .all, [⟨31, 16, .wo, 0⟩, ⟨7, 0, .wo, 0⟩]⟩,
   ⟨0x110, 1, 0x1000000, 1, 0x1000000, .all, [⟨31, 24, .rws, 3⟩, ⟨15, 0, .rws, 0x1f40⟩]⟩,
   ⟨0x114, 1, 0x1000000, 1, 0x1000000, .all, [⟨31, 16, .ro, 0⟩, ⟨15, 11, .ro, 0⟩, ⟨10, 10, .ro, 0⟩, ⟨9, 9, .ro, 0⟩, ⟨8, 8, .ro, 0⟩]⟩,
   ⟨0x118, 1, 0x1000000, 1, 0x1000000, .all, [⟨0, 0, .rw, 0⟩]⟩,
   ⟨0x140, 1, 0x1000000, 1, 0x1000000, .all, [⟨31, 0, .ro, 0⟩]⟩,
   ⟨0x144, 1, 0x1000000, 1, 0x1000000, .all, [⟨31, 0, .ro, 0⟩]⟩,
   ⟨0x148, 1, 0x1000000, 1, 0x1000000, .all, [⟨31, 0, .ro, 0⟩]⟩,
   ⟨0x14c, 1, 0x1000000, 1, 0x1000000, .all, [⟨31, 0, .rc, 0⟩]⟩,
   ⟨0x150, 1, 0x1000000, 1, 0x1000000, .all, [⟨31, 0, .rc, 0⟩]⟩,
   ⟨0x154, 1, 0x1000000, 1, 0x1000000, .all, [⟨31, 0, .rc, 0⟩]⟩,
   ⟨0x180, 1, 0x1000000, 1, 0x1000000, .all, [⟨31, 31, .ro, 0⟩, ⟨30, 30, .ro, 0⟩, ⟨23, 16, .ro, 0⟩, ⟨15, 0, .ro, 0⟩]⟩,
   ⟨0x200, 2, 0x20, 1, 0x20, .all, [⟨31, 16, .ro, 0⟩, ⟨15, 11, .ro, 0⟩, ⟨10, 7, .ro, 0⟩, ⟨6, 6, .ro, 0⟩, ⟨5, 5, .ro, 0⟩, ⟨0, 0, .ro, 0⟩]⟩,
   ⟨0x204, 2, 0x20, 1, 0x20, .all, [⟨15, 8, .ro, 0⟩, ⟨7, 0, .ro, 0⟩]⟩,
   ⟨0x208, 2, 0x20, 1, 0x20, .all, [⟨31, 0, .ro, 0⟩]⟩,
   ⟨0x20c, 2, 0x20, 1, 0x20, .all, [⟨31, 0, .ro, 0⟩]⟩,
   ⟨0x210, 2, 0x20, 1, 0x20, .all, [⟨31, 0, .ro, 0⟩]⟩,
   ⟨0x214, 2, 0x20, 1, 0x20, .all, [⟨31, 0, .ro, 0⟩]⟩,
   ⟨0x400, 64, 8, 1, 8, .all, [⟨31, 16, .rws, 0⟩, ⟨15, 11, .rws, 0⟩, ⟨0, 0, .rws, 0⟩]⟩,
   ⟨0x404, 64, 8, 1, 8, .all, [⟨31, 24, .rws, 3⟩, ⟨15, 0, .rws, 0x1f40⟩]⟩]

/-- The registers of a KETTLE unit (R286, 12_boot.md), beside its unit frame. -/
def regsKettle : List RegRow :=
  [⟨0x100, 1, 0x1000000, 1, 0x1000000, .all, [⟨31, 28, .ro, 0⟩, ⟨27, 27, .ro, 0⟩, ⟨26, 26, .ro, 0⟩, ⟨25, 25, .ro, 0⟩, ⟨24, 24, .ro, 0⟩, ⟨23, 23, .ro, 0⟩, ⟨22, 22, .ro, 0⟩, ⟨21, 20, .ro, 0⟩, ⟨15, 8, .ro, 0⟩]⟩,
   ⟨0x104, 1, 0x1000000, 1, 0x1000000, .all, [⟨4, 4, .ro, 0⟩, ⟨3, 3, .ro, 0⟩, ⟨1, 0, .ro, 0⟩]⟩,
   ⟨0x108, 1, 0x1000000, 1, 0x1000000, .all, [⟨31, 28, .ro, 0⟩, ⟨17, 16, .ro, 0⟩, ⟨15, 0, .ro, 0⟩]⟩,
   ⟨0x10c, 1, 0x1000000, 1, 0x1000000, .all, [⟨31, 0, .ro, 0⟩]⟩,
   ⟨0x110, 1, 0x1000000, 1, 0x1000000, .all, [⟨31, 0, .ro, 0⟩]⟩,
   ⟨0x114, 1, 0x1000000, 1, 0x1000000, .all, [⟨31, 0, .ro, 0⟩]⟩,
   ⟨0x118, 1, 0x1000000, 1, 0x1000000, .all, [⟨10, 8, .ro, 0⟩, ⟨6, 4, .ro, 0⟩, ⟨0, 0, .ro, 0⟩]⟩,
   ⟨0x11c, 1, 0x1000000, 1, 0x1000000, .all, [⟨31, 16, .wo, 0⟩, ⟨1, 0, .wo, 0⟩]⟩,
   ⟨0x120, 4, 4, 1, 4, .all, [⟨31, 0, .ro, 0⟩]⟩,
   ⟨0x130, 1, 0x1000000, 1, 0x1000000, .all, [⟨31, 16, .wo, 0⟩]⟩,
   ⟨0x200, 1, 0x1000000, 1, 0x1000000, .all, [⟨31, 0, .rw, 0⟩]⟩,
   ⟨0x204, 1, 0x1000000, 1, 0x1000000, .all, [⟨29, 0, .rw, 0⟩]⟩,
   ⟨0x208, 1, 0x1000000, 1, 0x1000000, .all, [⟨31, 16, .wo, 0⟩, ⟨1, 0, .wo, 0⟩]⟩,
   ⟨0x20c, 1, 0x1000000, 1, 0x1000000, .all, [⟨31, 28, .ro, 0⟩, ⟨27, 0, .ro, 0⟩]⟩,
   ⟨0x210, 16, 4, 1, 4, .all, [⟨31, 16, .ro, 0xffff⟩, ⟨15, 0, .ro, 0xffff⟩]⟩,
   ⟨0x250, 1, 0x1000000, 1, 0x1000000, .all, [⟨31, 0, .ro, 0⟩]⟩]

/-- The registers of a TRIAD unit (R317, 14_triad.md), beside its unit frame. -/
def regsTriad : List RegRow :=
  [⟨0x100, 1, 0x1000000, 1, 0x1000000, .all, [⟨31, 31, .rwl, 0⟩]⟩,
   ⟨0x104, 1, 0x1000000, 1, 0x1000000, .all, [⟨31, 29, .ro, 0⟩, ⟨28, 26, .ro, 0⟩, ⟨25, 25, .ro, 0⟩, ⟨24, 24, .ro, 0⟩, ⟨23, 23, .ro, 0⟩, ⟨22, 22, .ro, 0⟩, ⟨21, 21, .ro, 0⟩, ⟨20, 20, .ro, 1⟩, ⟨19, 18, .ro, 3⟩]⟩,
   ⟨0x108, 1, 0x1000000, 1, 0x1000000, .all, [⟨1, 0, .rwl, 0⟩]⟩,
   ⟨0x110, 3, 4, 1, 4, .all, [⟨31, 0, .ro, 0⟩]⟩,
   ⟨0x11c, 1, 0x1000000, 1, 0x1000000, .all, [⟨31, 0, .ro, 0⟩]⟩,
   ⟨0x140, 1, 0x1000000, 1, 0x1000000, .all, [⟨31, 0, .ro, 0⟩]⟩,
   ⟨0x144, 3, 4, 1, 4, .all, [⟨31, 0, .rc, 0⟩]⟩,
   ⟨0x150, 1, 0x1000000, 1, 0x1000000, .all, [⟨31, 0, .rc, 0⟩]⟩,
   ⟨0x154, 1, 0x1000000, 1, 0x1000000, .all, [⟨31, 0, .rc, 0⟩]⟩,
   ⟨0x158, 1, 0x1000000, 1, 0x1000000, .all, [⟨31, 0, .ro, 0⟩]⟩,
   ⟨0x15c, 1, 0x1000000, 1, 0x1000000, .all, [⟨31, 0, .ro, 0⟩]⟩,
   ⟨0x1000, 4, 0x400, 1, 0x400, .all, [⟨2, 2, .rw, 0⟩, ⟨1, 1, .wo, 0⟩, ⟨0, 0, .wo, 0⟩]⟩,
   ⟨0x1004, 4, 0x400, 1, 0x400, .all, [⟨31, 30, .ro, 0⟩, ⟨29, 29, .w1c, 0⟩]⟩,
   ⟨0x1100, 4, 0x400, 128, 4, .all, [⟨31, 0, .rw, 0⟩]⟩,
   ⟨0x1300, 4, 0x400, 64, 4, .all, [⟨31, 0, .ro, 0⟩]⟩]

/-- The registers of a TIME unit (R180, 07_time.md), beside its unit frame. -/
def regsTime : List RegRow :=
  [⟨0xe0, 1, 0x1000000, 1, 0x1000000, .all, [⟨31, 0, .rc, 0⟩]⟩,
   ⟨0x100, 1, 0x1000000, 1, 0x1000000, .all, [⟨0, 0, .wo, 0⟩]⟩,
   ⟨0x104, 5, 0x10, 1, 0x10, .all, [⟨31, 0, .ro, 0⟩]⟩,
   ⟨0x108, 5, 0x10, 1, 0x10, .all, [⟨31, 0, .ro, 0⟩]⟩,
   ⟨0x10c, 5, 0x10, 1, 0x10, .all, [⟨15, 0, .ro, 0⟩]⟩,
   ⟨0x200, 4, 0x80, 1, 0x80, .all, [⟨31, 31, .rws, 0⟩, ⟨30, 30, .rwl, 0⟩, ⟨29, 29, .rws, 0⟩, ⟨28, 28, .rws, 0⟩, ⟨7, 0, .rwl, 0⟩]⟩,
   ⟨0x204, 4, 0x80, 1, 0x80, .all, [⟨23, 16, .rws, 0xf8⟩, ⟨15, 8, .rws, 0xf6⟩, ⟨7, 0, .rws, 0xf8⟩]⟩,
   ⟨0x208, 4, 0x80, 1, 0x80, .all, [⟨19, 0, .rws, 0x3e8⟩]⟩,
   ⟨0x20c, 4, 0x80, 1, 0x80, .all, [⟨23, 16, .rws, 3⟩, ⟨15, 0, .rws, 0x64⟩]⟩,
   ⟨0x210, 4, 0x80, 1, 0x80, .all, [⟨15, 0, .rws, 0xa⟩]⟩,
   ⟨0x214, 4, 0x80, 1, 0x80, .all, [⟨31, 29, .ro, 0⟩, ⟨28, 28, .ro, 0⟩, ⟨27, 27, .ro, 0⟩, ⟨26, 26, .w1c, 0⟩, ⟨25, 25, .ro, 0⟩, ⟨19, 16, .ro, 0xf⟩]⟩,
   ⟨0x218, 4, 0x80, 1, 0x80, .all, [⟨31, 0, .ro, 0⟩]⟩,
   ⟨0x21c, 4, 0x80, 1, 0x80, .all, [⟨31, 0, .ro, 0⟩]⟩,
   ⟨0x220, 4, 0x80, 1, 0x80, .all, [⟨31, 0, .ro, 0⟩]⟩,
   ⟨0x224, 4, 0x80, 1, 0x80, .all, [⟨31, 0, .ro, 0⟩]⟩,
   ⟨0x228, 4, 0x80, 1, 0x80, .all, [⟨7, 0, .ro, 0⟩]⟩,
   ⟨0x22c, 4, 0x80, 1, 0x80, .all, [⟨31, 0, .ro, 0⟩]⟩,
   ⟨0x230, 4, 0x80, 1, 0x80, .all, [⟨31, 0, .ro, 0⟩]⟩,
   ⟨0x234, 4, 0x80, 1, 0x80, .all, [⟨31, 0, .ro, 0⟩]⟩,
   ⟨0x238, 4, 0x80, 1, 0x80, .all, [⟨31, 0, .ro, 0⟩]⟩,
   ⟨0x23c, 4, 0x80, 1, 0x80, .all, [⟨31, 0, .ro, 0⟩]⟩,
   ⟨0x240, 4, 0x80, 1, 0x80, .all, [⟨31, 0, .ro, 0⟩]⟩,
   ⟨0x244, 4, 0x80, 1, 0x80, .all, [⟨31, 31, .ro, 0⟩, ⟨30, 28, .ro, 0⟩, ⟨19, 16, .wo, 0⟩, ⟨7, 0, .wo, 0⟩]⟩,
   ⟨0x248, 4, 0x80, 1, 0x80, .all, [⟨31, 0, .rw, 0⟩]⟩] ++
  [⟨0x24c, 4, 0x80, 1, 0x80, .all, [⟨31, 0, .rw, 0⟩]⟩,
   ⟨0x250, 4, 0x80, 1, 0x80, .all, [⟨31, 0, .ro, 0⟩]⟩,
   ⟨0x254, 4, 0x80, 1, 0x80, .all, [⟨31, 0, .ro, 0⟩]⟩,
   ⟨0x258, 4, 0x80, 1, 0x80, .all, [⟨31, 0, .rc, 0⟩]⟩,
   ⟨0x25c, 4, 0x80, 1, 0x80, .all, [⟨31, 0, .ro, 0⟩]⟩,
   ⟨0x800, 12, 0x40, 1, 0x40, .all, [⟨31, 31, .rwl, 0⟩, ⟨30, 30, .rws, 0⟩, ⟨29, 29, .rwl, 1⟩, ⟨23, 20, .rws, 0⟩, ⟨15, 12, .rws, 0xd⟩, ⟨11, 8, .rws, 0⟩, ⟨7, 4, .rws, 0⟩]⟩,
   ⟨0x804, 12, 0x40, 1, 0x40, .all, [⟨23, 16, .ro, 0⟩, ⟨7, 0, .rws, 0⟩]⟩,
   ⟨0x808, 12, 0x40, 1, 0x40, .all, [⟨31, 16, .rwl, 0⟩, ⟨15, 0, .rwl, 0⟩]⟩,
   ⟨0x80c, 12, 0x40, 1, 0x40, .all, [⟨31, 0, .rws, 0⟩]⟩,
   ⟨0x810, 12, 0x40, 1, 0x40, .all, [⟨23, 20, .rws, 3⟩, ⟨19, 16, .rws, 3⟩, ⟨15, 0, .rws, 0x320⟩]⟩,
   ⟨0x814, 12, 0x40, 1, 0x40, .all, [⟨31, 0, .ro, 0⟩]⟩,
   ⟨0x818, 12, 0x40, 1, 0x40, .all, [⟨31, 0, .ro, 0⟩]⟩,
   ⟨0x81c, 12, 0x40, 1, 0x40, .all, [⟨31, 31, .ro, 0⟩, ⟨30, 30, .ro, 0⟩, ⟨29, 29, .ro, 0⟩]⟩,
   ⟨0x820, 12, 0x40, 1, 0x40, .all, [⟨31, 0, .ro, 0⟩]⟩,
   ⟨0x824, 12, 0x40, 1, 0x40, .all, [⟨31, 0, .rc, 0⟩]⟩,
   ⟨0x828, 12, 0x40, 1, 0x40, .all, [⟨31, 0, .rc, 0⟩]⟩]

/-- The registers of a CADDY unit (R366, 16_security.md), beside its unit frame. -/
def regsCaddy : List RegRow :=
  [⟨0x100, 1, 0x1000000, 1, 0x1000000, .all, [⟨31, 31, .ro, 0⟩, ⟨30, 28, .ro, 0⟩, ⟨17, 16, .wo, 0⟩, ⟨7, 0, .wo, 0⟩]⟩,
   ⟨0x104, 1, 0x1000000, 1, 0x1000000, .all, [⟨7, 0, .wo, 0⟩]⟩,
   ⟨0x120, 8, 4, 1, 4, .all, [⟨31, 0, .wo, 0⟩]⟩,
   ⟨0x140, 1, 0x1000000, 1, 0x1000000, .all, [⟨7, 0, .rw, 0⟩]⟩,
   ⟨0x144, 1, 0x1000000, 1, 0x1000000, .all, [⟨31, 31, .ro, 0⟩, ⟨30, 28, .ro, 0⟩, ⟨7, 0, .ro, 0⟩]⟩,
   ⟨0x148, 1, 0x1000000, 1, 0x1000000, .all, [⟨31, 0, .ro, 0⟩]⟩,
   ⟨0x160, 1, 0x1000000, 1, 0x1000000, .all, [⟨31, 31, .ro, 0⟩, ⟨30, 30, .w1c, 0⟩, ⟨21, 16, .w1c, 0⟩, ⟨4, 0, .ro, 0⟩]⟩,
   ⟨0x164, 1, 0x1000000, 1, 0x1000000, .all, [⟨31, 16, .wo, 0⟩]⟩,
   ⟨0x168, 1, 0x1000000, 1, 0x1000000, .all, [⟨31, 28, .ro, 0⟩, ⟨27, 26, .ro, 0⟩, ⟨25, 25, .ro, 0⟩, ⟨24, 24, .ro, 0⟩, ⟨1, 0, .ro, 0⟩]⟩,
   ⟨0x16c, 1, 0x1000000, 1, 0x1000000, .all, [⟨31, 31, .ro, 0⟩, ⟨30, 28, .ro, 0⟩, ⟨27, 16, .wo, 0⟩, ⟨3, 2, .wo, 0⟩, ⟨1, 0, .wo, 0⟩]⟩,
   ⟨0x170, 8, 4, 1, 4, .all, [⟨31, 0, .wo, 0⟩]⟩,
   ⟨0x1a0, 1, 0x1000000, 1, 0x1000000, .all, [⟨31, 0, .ro, 0⟩]⟩,
   ⟨0x1a4, 1, 0x1000000, 1, 0x1000000, .all, [⟨31, 0, .rc, 0⟩]⟩,
   ⟨0x1a8, 1, 0x1000000, 1, 0x1000000, .all, [⟨31, 0, .rc, 0⟩]⟩,
   ⟨0x1ac, 1, 0x1000000, 1, 0x1000000, .all, [⟨31, 0, .ro, 0⟩]⟩]

/-- The registers of a CRYPT unit (R366, 16_security.md), beside its unit frame. -/
def regsCrypt : List RegRow :=
  [⟨0x100, 4, 0x10, 1, 0x10, .all, [⟨31, 31, .rw, 0⟩, ⟨7, 4, .ro, 0⟩, ⟨3, 0, .rw, 0⟩]⟩,
   ⟨0x104, 4, 0x10, 1, 0x10, .all, [⟨31, 0, .ro, 0⟩]⟩,
   ⟨0x180, 1, 0x1000000, 1, 0x1000000, .all, [⟨31, 0, .rc, 0⟩]⟩,
   ⟨0x184, 1, 0x1000000, 1, 0x1000000, .all, [⟨31, 0, .rc, 0⟩]⟩,
   ⟨0x188, 1, 0x1000000, 1, 0x1000000, .all, [⟨31, 0, .rc, 0⟩]⟩,
   ⟨0x1000, 4, 0x200, 16, 0x20, .all, [⟨31, 0, .rw, 0⟩]⟩,
   ⟨0x1004, 4, 0x200, 16, 0x20, .all, [⟨31, 0, .rw, 0⟩]⟩,
   ⟨0x1008, 4, 0x200, 16, 0x20, .all, [⟨31, 0, .rw, 0⟩]⟩,
   ⟨0x100c, 4, 0x200, 16, 0x20, .all, [⟨31, 0, .rw, 0⟩]⟩,
   ⟨0x1010, 4, 0x200, 16, 0x20, .all, [⟨31, 0, .rw, 0⟩]⟩,
   ⟨0x1014, 4, 0x200, 16, 0x20, .all, [⟨31, 0, .rw, 0⟩]⟩,
   ⟨0x1018, 4, 0x200, 16, 0x20, .all, [⟨31, 0, .rw, 0⟩]⟩,
   ⟨0x101c, 4, 0x200, 16, 0x20, .all, [⟨31, 0, .ro, 0⟩]⟩,
   ⟨0x10000, 16384, 4, 1, 4, .all, [⟨31, 0, .rw, 0⟩]⟩]

/-- The registers of a PIPE unit (R83, 03_forwarding_tables.md), beside its unit frame. -/
def regsPipe : List RegRow :=
  [⟨0x80, 1, 0x1000000, 1, 0x1000000, .all, [⟨15, 0, .rwl, 0x9100⟩]⟩,
   ⟨0x84, 4, 4, 1, 4, .all, [⟨9, 8, .rwl, 0⟩, ⟨7, 0, .rwl, 0⟩]⟩,
   ⟨0x104, 9, 4, 1, 4, .all, [⟨9, 0, .rws, 0x20⟩]⟩,
   ⟨0x144, 9, 4, 1, 4, .all, [⟨31, 0, .ro, 0⟩]⟩,
   ⟨0x184, 9, 4, 1, 4, .all, [⟨31, 0, .rc, 0⟩]⟩,
   ⟨0x1c0, 1, 0x1000000, 1, 0x1000000, .all, [⟨25, 17, .w1c, 0⟩, ⟨9, 1, .ro, 0⟩]⟩,
   ⟨0x1c4, 1, 0x1000000, 1, 0x1000000, .all, [⟨31, 0, .rc, 0⟩]⟩,
   ⟨0x1c8, 1, 0x1000000, 1, 0x1000000, .all, [⟨31, 0, .ro, 0⟩]⟩,
   ⟨0x200, 1, 0x1000000, 1, 0x1000000, .west, [⟨0, 0, .rws, 0⟩]⟩,
   ⟨0x204, 1, 0x1000000, 1, 0x1000000, .west, [⟨31, 31, .ro, 0⟩, ⟨30, 30, .ro, 0⟩, ⟨29, 29, .ro, 0⟩, ⟨28, 28, .ro, 0⟩, ⟨27, 20, .rc, 0⟩, ⟨7, 0, .rws, 0x10⟩]⟩,
   ⟨0x208, 2, 4, 1, 4, .west, [⟨17, 0, .ro, 0⟩]⟩,
   ⟨0x210, 1, 0x1000000, 1, 0x1000000, .west, [⟨15, 0, .rws, 0x1000⟩]⟩,
   ⟨0x214, 1, 0x1000000, 1, 0x1000000, .west, [⟨31, 0, .rc, 0⟩]⟩,
   ⟨0x218, 1, 0x1000000, 1, 0x1000000, .west, [⟨31, 0, .rc, 0⟩]⟩,
   ⟨0x300, 1, 0x1000000, 1, 0x1000000, .all, [⟨16, 16, .rws, 0⟩, ⟨15, 0, .rws, 0x100⟩]⟩,
   ⟨0x304, 1, 0x1000000, 1, 0x1000000, .all, [⟨31, 0, .ro, 0⟩]⟩,
   ⟨0x308, 1, 0x1000000, 1, 0x1000000, .all, [⟨15, 0, .rws, 0x5fff⟩]⟩,
   ⟨0x30c, 1, 0x1000000, 1, 0x1000000, .all, [⟨1, 1, .w1c, 0⟩, ⟨0, 0, .ro, 0⟩]⟩,
   ⟨0x310, 1, 0x1000000, 1, 0x1000000, .all, [⟨23, 0, .rws, 0xc3500⟩]⟩,
   ⟨0x314, 1, 0x1000000, 1, 0x1000000, .all, [⟨10, 0, .rws, 0x40⟩]⟩,
   ⟨0x318, 1, 0x1000000, 1, 0x1000000, .all, [⟨31, 31, .ro, 0⟩, ⟨13, 0, .ro, 0⟩]⟩,
   ⟨0x31c, 1, 0x1000000, 1, 0x1000000, .all, [⟨16, 16, .rws, 0⟩, ⟨12, 0, .rws, 0⟩]⟩,
   ⟨0x320, 1, 0x1000000, 1, 0x1000000, .all, [⟨31, 16, .rc, 0⟩, ⟨11, 0, .ro, 0⟩]⟩,
   ⟨0x330, 1, 0x1000000, 1, 0x1000000, .all, [⟨31, 0, .ro, 0⟩]⟩] ++
  [⟨0x334, 1, 0x1000000, 1, 0x1000000, .all, [⟨31, 0, .rc, 0⟩]⟩,
   ⟨0x338, 1, 0x1000000, 1, 0x1000000, .all, [⟨31, 0, .rc, 0⟩]⟩,
   ⟨0x33c, 1, 0x1000000, 1, 0x1000000, .all, [⟨31, 0, .ro, 0⟩]⟩,
   ⟨0x340, 1, 0x1000000, 1, 0x1000000, .all, [⟨31, 0, .rc, 0⟩]⟩,
   ⟨0x344, 1, 0x1000000, 1, 0x1000000, .all, [⟨31, 0, .ro, 0⟩]⟩,
   ⟨0x348, 1, 0x1000000, 1, 0x1000000, .all, [⟨31, 0, .rc, 0⟩]⟩,
   ⟨0x34c, 1, 0x1000000, 1, 0x1000000, .all, [⟨31, 0, .rc, 0⟩]⟩,
   ⟨0x350, 1, 0x1000000, 1, 0x1000000, .all, [⟨31, 0, .rc, 0⟩]⟩,
   ⟨0x354, 1, 0x1000000, 1, 0x1000000, .all, [⟨31, 0, .rc, 0⟩]⟩,
   ⟨0x358, 1, 0x1000000, 1, 0x1000000, .all, [⟨31, 0, .ro, 0⟩]⟩,
   ⟨0x35c, 1, 0x1000000, 1, 0x1000000, .all, [⟨31, 0, .rc, 0⟩]⟩,
   ⟨0x360, 1, 0x1000000, 1, 0x1000000, .all, [⟨29, 23, .rc, 0⟩, ⟨22, 16, .ro, 0⟩, ⟨15, 0, .ro, 0⟩]⟩,
   ⟨0x380, 1, 0x1000000, 1, 0x1000000, .all, [⟨31, 31, .ro, 0⟩, ⟨30, 28, .ro, 0⟩, ⟨19, 16, .wo, 0⟩, ⟨15, 0, .wo, 0⟩]⟩,
   ⟨0x384, 1, 0x1000000, 1, 0x1000000, .all, [⟨31, 0, .rw, 0⟩]⟩,
   ⟨0x388, 1, 0x1000000, 1, 0x1000000, .all, [⟨31, 0, .rw, 0⟩]⟩,
   ⟨0x38c, 1, 0x1000000, 1, 0x1000000, .all, [⟨31, 0, .rw, 0⟩]⟩,
   ⟨0x390, 1, 0x1000000, 1, 0x1000000, .all, [⟨31, 0, .rw, 0⟩]⟩,
   ⟨0x394, 1, 0x1000000, 1, 0x1000000, .all, [⟨15, 0, .ro, 0⟩]⟩,
   ⟨0x400, 16, 4, 1, 4, .all, [⟨11, 0, .rws, 1⟩]⟩,
   ⟨0x440, 12, 4, 1, 4, .all, [⟨26, 24, .rws, 0⟩, ⟨23, 0, .rws, 0xfac688⟩]⟩]

/-- The registers of a STRAIN unit (R109, 04_strainer.md), beside its unit frame. -/
def regsStrain : List RegRow :=
  [⟨0x100, 1, 0x1000000, 1, 0x1000000, .all, [⟨31, 31, .ro, 0⟩, ⟨30, 28, .ro, 0⟩, ⟨27, 27, .ro, 0⟩, ⟨20, 20, .wo, 0⟩, ⟨19, 16, .wo, 0⟩, ⟨11, 0, .wo, 0⟩]⟩,
   ⟨0x104, 10, 4, 1, 4, .all, [⟨31, 0, .rw, 0⟩]⟩,
   ⟨0x12c, 10, 4, 1, 4, .all, [⟨31, 0, .rw, 0⟩]⟩,
   ⟨0x154, 1, 0x1000000, 1, 0x1000000, .all, [⟨31, 0, .rw, 0⟩]⟩,
   ⟨0x158, 1, 0x1000000, 1, 0x1000000, .all, [⟨31, 0, .rw, 0⟩]⟩,
   ⟨0x15c, 1, 0x1000000, 1, 0x1000000, .all, [⟨31, 0, .ro, 0⟩]⟩,
   ⟨0x200, 1, 0x1000000, 1, 0x1000000, .all, [⟨31, 0, .ro, 0⟩]⟩,
   ⟨0x204, 1, 0x1000000, 1, 0x1000000, .all, [⟨31, 0, .rc, 0⟩]⟩,
   ⟨0x208, 1, 0x1000000, 1, 0x1000000, .all, [⟨31, 0, .rc, 0⟩]⟩,
   ⟨0x20c, 1, 0x1000000, 1, 0x1000000, .all, [⟨31, 0, .rc, 0⟩]⟩,
   ⟨0x210, 1, 0x1000000, 1, 0x1000000, .all, [⟨31, 0, .rc, 0⟩]⟩,
   ⟨0x214, 1, 0x1000000, 1, 0x1000000, .all, [⟨31, 0, .rc, 0⟩]⟩,
   ⟨0x218, 1, 0x1000000, 1, 0x1000000, .all, [⟨31, 0, .rc, 0⟩]⟩,
   ⟨0x21c, 1, 0x1000000, 1, 0x1000000, .all, [⟨31, 0, .rc, 0⟩]⟩,
   ⟨0x220, 1, 0x1000000, 1, 0x1000000, .all, [⟨31, 0, .ro, 0⟩]⟩,
   ⟨0x224, 1, 0x1000000, 1, 0x1000000, .all, [⟨31, 0, .ro, 0⟩]⟩,
   ⟨0x228, 1, 0x1000000, 1, 0x1000000, .all, [⟨31, 0, .ro, 0⟩]⟩,
   ⟨0x22c, 1, 0x1000000, 1, 0x1000000, .all, [⟨31, 0, .rc, 0⟩]⟩,
   ⟨0x300, 16, 4, 1, 4, .all, [⟨31, 31, .rws, 0⟩, ⟨15, 0, .rws, 0xffff⟩]⟩,
   ⟨0x340, 1, 0x1000000, 1, 0x1000000, .all, [⟨31, 16, .w1c, 0⟩, ⟨15, 0, .ro, 0⟩]⟩,
   ⟨0x380, 38, 4, 1, 4, .all, [⟨31, 31, .rws, 0⟩, ⟨10, 0, .rws, 0⟩]⟩,
   ⟨0x10000, 2048, 0x20, 1, 0x20, .all, [⟨19, 0, .rws, 0⟩]⟩,
   ⟨0x10004, 2048, 0x20, 1, 0x20, .all, [⟨19, 0, .rws, 0⟩]⟩,
   ⟨0x10008, 2048, 0x20, 1, 0x20, .all, [⟨19, 0, .rws, 0⟩]⟩] ++
  [⟨0x1000c, 2048, 0x20, 1, 0x20, .all, [⟨19, 0, .rws, 0⟩]⟩,
   ⟨0x10010, 2048, 0x20, 1, 0x20, .all, [⟨1, 1, .rws, 0⟩, ⟨0, 0, .rws, 1⟩]⟩,
   ⟨0x10014, 2048, 0x20, 1, 0x20, .all, [⟨31, 0, .rc, 0⟩]⟩,
   ⟨0x10018, 2048, 0x20, 1, 0x20, .all, [⟨31, 0, .rc, 0⟩]⟩,
   ⟨0x1001c, 2048, 0x20, 1, 0x20, .all, [⟨31, 0, .rc, 0⟩]⟩,
   ⟨0x20000, 4096, 0x10, 1, 0x10, .all, [⟨31, 31, .rws, 0⟩, ⟨30, 23, .rws, 0xff⟩, ⟨22, 22, .rws, 0⟩, ⟨21, 16, .rws, 0⟩, ⟨13, 0, .rws, 0⟩]⟩,
   ⟨0x20004, 4096, 0x10, 1, 0x10, .all, [⟨31, 31, .rws, 0⟩, ⟨30, 30, .rws, 0⟩, ⟨29, 29, .w1c, 0⟩, ⟨10, 0, .rws, 0⟩]⟩,
   ⟨0x20008, 4096, 0x10, 1, 0x10, .all, [⟨31, 0, .ro, 0⟩]⟩,
   ⟨0x2000c, 4096, 0x10, 1, 0x10, .all, [⟨31, 0, .rc, 0⟩]⟩,
   ⟨0x30000, 64, 0x200, 1, 0x200, .all, [⟨2, 1, .rws, 0⟩, ⟨0, 0, .rws, 0⟩]⟩,
   ⟨0x30004, 64, 0x200, 1, 0x200, .all, [⟨29, 0, .rws, 0⟩]⟩,
   ⟨0x30008, 64, 0x200, 1, 0x200, .all, [⟨31, 0, .rws, 0⟩]⟩,
   ⟨0x3000c, 64, 0x200, 1, 0x200, .all, [⟨29, 0, .rws, 0xf4240⟩]⟩,
   ⟨0x30010, 64, 0x200, 1, 0x200, .all, [⟨6, 0, .rws, 0⟩]⟩,
   ⟨0x30014, 64, 0x200, 1, 0x200, .all, [⟨31, 0, .rc, 0⟩]⟩,
   ⟨0x30100, 64, 0x200, 64, 4, .all, [⟨31, 31, .rws, 0⟩, ⟨30, 30, .rws, 0⟩, ⟨29, 27, .rws, 0⟩, ⟨26, 0, .rws, 0⟩]⟩]

/-- The registers of a FAB unit (R138, 05_fabric_and_buffer.md), beside its unit frame. -/
def regsFab : List RegRow :=
  [⟨0x80, 1, 0x1000000, 1, 0x1000000, .all, [⟨17, 0, .rws, 0x1000⟩]⟩,
   ⟨0x84, 1, 0x1000000, 1, 0x1000000, .all, [⟨31, 31, .ro, 0⟩, ⟨3, 0, .ro, 0⟩]⟩,
   ⟨0x88, 1, 0x1000000, 1, 0x1000000, .all, [⟨17, 0, .ro, 0x20000⟩]⟩,
   ⟨0x8c, 1, 0x1000000, 1, 0x1000000, .all, [⟨17, 0, .rc, 0x20000⟩]⟩,
   ⟨0x90, 1, 0x1000000, 1, 0x1000000, .all, [⟨18, 0, .ro, 0x40000⟩]⟩,
   ⟨0x94, 1, 0x1000000, 1, 0x1000000, .all, [⟨31, 0, .ro, 0⟩]⟩,
   ⟨0xa0, 1, 0x1000000, 1, 0x1000000, .all, [⟨31, 24, .ro, 0⟩, ⟨16, 0, .ro, 0⟩]⟩,
   ⟨0xa4, 1, 0x1000000, 1, 0x1000000, .all, [⟨31, 0, .rc, 0⟩]⟩,
   ⟨0xa8, 1, 0x1000000, 1, 0x1000000, .all, [⟨17, 0, .ro, 0⟩]⟩,
   ⟨0xac, 1, 0x1000000, 1, 0x1000000, .all, [⟨31, 0, .rc, 0⟩]⟩,
   ⟨0xb0, 1, 0x1000000, 1, 0x1000000, .all, [⟨31, 0, .ro, 0⟩]⟩,
   ⟨0xb4, 1, 0x1000000, 1, 0x1000000, .all, [⟨31, 0, .rc, 0⟩]⟩,
   ⟨0xb8, 1, 0x1000000, 1, 0x1000000, .all, [⟨31, 0, .rc, 0⟩]⟩,
   ⟨0xbc, 1, 0x1000000, 1, 0x1000000, .all, [⟨31, 0, .rc, 0⟩]⟩,
   ⟨0xc0, 1, 0x1000000, 1, 0x1000000, .all, [⟨31, 16, .w1c, 0⟩, ⟨15, 0, .ro, 0⟩]⟩,
   ⟨0x400, 16, 0x40, 1, 0x40, .all, [⟨31, 31, .rws, 1⟩, ⟨17, 0, .rws, 0x4000⟩]⟩,
   ⟨0x404, 16, 0x40, 1, 0x40, .all, [⟨17, 0, .ro, 0⟩]⟩,
   ⟨0x408, 16, 0x40, 1, 0x40, .all, [⟨31, 31, .rwl, 0⟩, ⟨30, 30, .rwl, 0⟩, ⟨29, 29, .rwl, 0⟩, ⟨15, 8, .rwl, 0⟩, ⟨7, 0, .rwl, 0⟩]⟩,
   ⟨0x40c, 16, 0x40, 1, 0x40, .all, [⟨31, 16, .rws, 0x200⟩, ⟨15, 0, .rws, 0x100⟩]⟩,
   ⟨0x410, 16, 0x40, 1, 0x40, .all, [⟨31, 16, .rws, 0xffff⟩, ⟨15, 0, .rws, 0x100⟩]⟩,
   ⟨0x414, 16, 0x40, 1, 0x40, .all, [⟨31, 16, .ro, 0⟩, ⟨15, 0, .ro, 0⟩]⟩,
   ⟨0x418, 16, 0x40, 1, 0x40, .all, [⟨31, 0, .rc, 0⟩]⟩,
   ⟨0x41c, 16, 0x40, 1, 0x40, .all, [⟨31, 0, .rc, 0⟩]⟩,
   ⟨0x420, 16, 0x40, 1, 0x40, .all, [⟨31, 0, .rc, 0⟩]⟩] ++
  [⟨0x424, 16, 0x40, 1, 0x40, .all, [⟨31, 0, .ro, 0⟩]⟩,
   ⟨0x428, 16, 0x40, 1, 0x40, .all, [⟨31, 0, .rc, 0⟩]⟩,
   ⟨0x42c, 16, 0x40, 1, 0x40, .all, [⟨31, 0, .ro, 0⟩]⟩,
   ⟨0x430, 16, 0x40, 1, 0x40, .all, [⟨7, 0, .ro, 0⟩]⟩,
   ⟨0x800, 16, 0x40, 3, 0x10, .all, [⟨17, 0, .rws, 0x800⟩]⟩,
   ⟨0x804, 16, 0x40, 3, 0x10, .all, [⟨17, 0, .rws, 0x1000⟩]⟩,
   ⟨0x808, 16, 0x40, 3, 0x10, .all, [⟨7, 0, .rws, 0x20⟩]⟩,
   ⟨0x1000, 128, 0x20, 1, 0x20, .all, [⟨31, 28, .rws, 0⟩, ⟨17, 0, .rws, 0x2000⟩]⟩,
   ⟨0x1004, 128, 0x20, 1, 0x20, .all, [⟨17, 0, .rws, 0⟩]⟩,
   ⟨0x1008, 128, 0x20, 1, 0x20, .all, [⟨17, 0, .ro, 0⟩]⟩,
   ⟨0x100c, 128, 0x20, 1, 0x20, .all, [⟨17, 0, .ro, 0⟩]⟩,
   ⟨0x1010, 128, 0x20, 1, 0x20, .all, [⟨31, 0, .rc, 0⟩]⟩,
   ⟨0x1014, 128, 0x20, 1, 0x20, .all, [⟨31, 0, .rc, 0⟩]⟩,
   ⟨0x1018, 128, 0x20, 1, 0x20, .all, [⟨31, 0, .rc, 0⟩]⟩,
   ⟨0x101c, 128, 0x20, 1, 0x20, .all, [⟨31, 0, .ro, 0⟩]⟩]

/-- The registers of a SPOUT unit (R158, 06_egress_scheduling.md), beside its unit frame. -/
def regsSpout : List RegRow :=
  [⟨0x100, 1, 0x1000000, 1, 0x1000000, .all, [⟨31, 31, .rws, 0⟩, ⟨30, 30, .rws, 0⟩, ⟨29, 28, .rws, 0⟩]⟩,
   ⟨0x104, 1, 0x1000000, 1, 0x1000000, .all, [⟨18, 18, .ro, 0⟩, ⟨17, 17, .ro, 0⟩, ⟨16, 16, .ro, 0⟩, ⟨15, 8, .ro, 0xff⟩, ⟨7, 0, .ro, 0⟩]⟩,
   ⟨0x110, 4, 4, 1, 4, .all, [⟨15, 0, .rws, 0x600⟩]⟩,
   ⟨0x120, 8, 4, 1, 4, .all, [⟨13, 0, .rws, 0x5f2⟩]⟩,
   ⟨0x200, 4, 0x10, 1, 0x10, .all, [⟨31, 31, .rws, 0⟩, ⟨24, 0, .rws, 0⟩]⟩,
   ⟨0x204, 4, 0x10, 1, 0x10, .all, [⟨31, 0, .rws, 0x7fffffff⟩]⟩,
   ⟨0x208, 4, 0x10, 1, 0x10, .all, [⟨31, 0, .rws, 0x80000000⟩]⟩,
   ⟨0x20c, 4, 0x10, 1, 0x10, .all, [⟨31, 0, .ro, 0⟩]⟩,
   ⟨0x280, 8, 0x10, 1, 0x10, .all, [⟨31, 31, .rws, 0⟩, ⟨23, 0, .rws, 0⟩]⟩,
   ⟨0x284, 8, 0x10, 1, 0x10, .all, [⟨23, 0, .rws, 0x100⟩]⟩,
   ⟨0x288, 8, 0x10, 1, 0x10, .all, [⟨31, 0, .ro, 0⟩]⟩,
   ⟨0x300, 1, 0x1000000, 1, 0x1000000, .all, [⟨29, 0, .rws, 0⟩]⟩,
   ⟨0x304, 1, 0x1000000, 1, 0x1000000, .all, [⟨31, 0, .rws, 0⟩]⟩,
   ⟨0x308, 1, 0x1000000, 1, 0x1000000, .all, [⟨29, 0, .rws, 0xf4240⟩]⟩,
   ⟨0x30c, 1, 0x1000000, 1, 0x1000000, .all, [⟨9, 0, .rws, 0⟩]⟩,
   ⟨0x310, 1, 0x1000000, 1, 0x1000000, .all, [⟨0, 0, .rws, 0⟩]⟩,
   ⟨0x314, 1, 0x1000000, 1, 0x1000000, .all, [⟨31, 31, .ro, 0⟩, ⟨30, 30, .ro, 0⟩, ⟨25, 16, .ro, 0⟩, ⟨15, 8, .rc, 0⟩]⟩,
   ⟨0x318, 1, 0x1000000, 1, 0x1000000, .all, [⟨9, 0, .ro, 0⟩]⟩,
   ⟨0x320, 1, 0x1000000, 1, 0x1000000, .all, [⟨31, 31, .rw, 0⟩, ⟨8, 0, .rw, 0⟩]⟩,
   ⟨0x324, 1, 0x1000000, 1, 0x1000000, .all, [⟨31, 0, .rw, 0⟩]⟩,
   ⟨0x328, 1, 0x1000000, 1, 0x1000000, .all, [⟨31, 0, .rw, 0⟩]⟩,
   ⟨0x400, 8, 4, 1, 4, .all, [⟨31, 0, .ro, 0⟩]⟩,
   ⟨0x420, 1, 0x1000000, 1, 0x1000000, .all, [⟨31, 0, .rc, 0⟩]⟩,
   ⟨0x424, 1, 0x1000000, 1, 0x1000000, .all, [⟨31, 0, .rc, 0⟩]⟩] ++
  [⟨0x430, 8, 4, 1, 4, .all, [⟨31, 0, .ro, 0⟩]⟩,
   ⟨0x500, 1, 0x1000000, 1, 0x1000000, .all, [⟨31, 31, .rws, 0⟩, ⟨12, 8, .rws, 7⟩, ⟨4, 0, .rws, 0⟩]⟩,
   ⟨0x800, 8, 0x80, 8, 4, .all, [⟨31, 16, .ro, 0⟩, ⟨15, 0, .ro, 0⟩]⟩,
   ⟨0x820, 8, 0x80, 8, 4, .all, [⟨31, 16, .ro, 0⟩, ⟨15, 0, .ro, 0⟩]⟩,
   ⟨0x840, 8, 0x80, 1, 0x80, .all, [⟨17, 0, .ro, 0x3ffff⟩]⟩,
   ⟨0x844, 8, 0x80, 1, 0x80, .all, [⟨17, 0, .ro, 0⟩]⟩,
   ⟨0x848, 8, 0x80, 1, 0x80, .all, [⟨31, 0, .ro, 0⟩]⟩,
   ⟨0x84c, 8, 0x80, 1, 0x80, .all, [⟨31, 0, .ro, 0xffffffff⟩]⟩,
   ⟨0x850, 8, 0x80, 1, 0x80, .all, [⟨31, 0, .ro, 0⟩]⟩,
   ⟨0x854, 8, 0x80, 1, 0x80, .all, [⟨31, 0, .ro, 0⟩]⟩,
   ⟨0x858, 8, 0x80, 1, 0x80, .all, [⟨31, 16, .ro, 0⟩, ⟨15, 0, .ro, 0⟩]⟩]

/-- The registers of a MAC unit (R159, 06_egress_scheduling.md), beside its unit frame. -/
def regsMac : List RegRow :=
  [⟨0x100, 1, 0x1000000, 1, 0x1000000, .all, [⟨5, 4, .rwl, 0⟩, ⟨3, 0, .rwl, 0⟩]⟩,
   ⟨0x104, 1, 0x1000000, 1, 0x1000000, .all, [⟨29, 16, .rwl, 0x5f2⟩, ⟨0, 0, .rw, 0⟩]⟩,
   ⟨0x108, 1, 0x1000000, 1, 0x1000000, .all, [⟨1, 0, .rwl, 0⟩]⟩,
   ⟨0x200, 1, 0x1000000, 1, 0x1000000, .all, [⟨31, 0, .ro, 0⟩]⟩,
   ⟨0x204, 1, 0x1000000, 1, 0x1000000, .all, [⟨31, 0, .ro, 0⟩]⟩,
   ⟨0x208, 1, 0x1000000, 1, 0x1000000, .all, [⟨31, 0, .ro, 0⟩]⟩,
   ⟨0x20c, 1, 0x1000000, 1, 0x1000000, .all, [⟨31, 0, .rc, 0⟩]⟩,
   ⟨0x210, 1, 0x1000000, 1, 0x1000000, .all, [⟨31, 0, .rc, 0⟩]⟩,
   ⟨0x214, 1, 0x1000000, 1, 0x1000000, .all, [⟨31, 0, .rc, 0⟩]⟩,
   ⟨0x218, 1, 0x1000000, 1, 0x1000000, .all, [⟨31, 0, .rc, 0⟩]⟩,
   ⟨0x21c, 1, 0x1000000, 1, 0x1000000, .all, [⟨31, 0, .rc, 0⟩]⟩,
   ⟨0x220, 1, 0x1000000, 1, 0x1000000, .all, [⟨31, 0, .rc, 0⟩]⟩,
   ⟨0x224, 1, 0x1000000, 1, 0x1000000, .all, [⟨31, 0, .rc, 0⟩]⟩,
   ⟨0x228, 1, 0x1000000, 1, 0x1000000, .all, [⟨31, 0, .rc, 0⟩]⟩,
   ⟨0x300, 1, 0x1000000, 1, 0x1000000, .all, [⟨0, 0, .rw, 0⟩]⟩,
   ⟨0x304, 1, 0x1000000, 1, 0x1000000, .all, [⟨31, 31, .rwl, 0⟩, ⟨30, 30, .rwl, 0⟩, ⟨23, 16, .rwl, 0xa⟩, ⟨1, 0, .rwl, 0⟩]⟩,
   ⟨0x308, 1, 0x1000000, 1, 0x1000000, .all, [⟨2, 0, .ro, 0⟩]⟩,
   ⟨0x310, 1, 0x1000000, 1, 0x1000000, .all, [⟨31, 0, .ro, 0⟩]⟩,
   ⟨0x314, 1, 0x1000000, 1, 0x1000000, .all, [⟨31, 0, .ro, 0⟩]⟩,
   ⟨0x318, 1, 0x1000000, 1, 0x1000000, .all, [⟨31, 0, .ro, 0⟩]⟩,
   ⟨0x31c, 1, 0x1000000, 1, 0x1000000, .all, [⟨31, 0, .ro, 0⟩]⟩,
   ⟨0x320, 1, 0x1000000, 1, 0x1000000, .all, [⟨31, 0, .ro, 0⟩]⟩,
   ⟨0x324, 1, 0x1000000, 1, 0x1000000, .all, [⟨31, 0, .rc, 0⟩]⟩,
   ⟨0x328, 1, 0x1000000, 1, 0x1000000, .all, [⟨31, 0, .rc, 0⟩]⟩] ++
  [⟨0x32c, 1, 0x1000000, 1, 0x1000000, .all, [⟨31, 0, .rc, 0⟩]⟩,
   ⟨0x800, 1, 0x1000000, 1, 0x1000000, .all, [⟨31, 31, .rwl, 0⟩, ⟨30, 28, .rwl, 0⟩, ⟨27, 27, .rwl, 1⟩, ⟨26, 26, .rwl, 1⟩, ⟨25, 24, .rwl, 0⟩, ⟨23, 23, .w1c, 0⟩, ⟨1, 0, .rws, 0⟩]⟩,
   ⟨0x804, 1, 0x1000000, 1, 0x1000000, .all, [⟨31, 0, .rwl, 0⟩]⟩,
   ⟨0x808, 1, 0x1000000, 1, 0x1000000, .all, [⟨31, 0, .rwl, 0⟩]⟩,
   ⟨0x80c, 1, 0x1000000, 1, 0x1000000, .all, [⟨31, 0, .rws, 0⟩]⟩,
   ⟨0x810, 1, 0x1000000, 1, 0x1000000, .all, [⟨31, 0, .rws, 0xc0000000⟩]⟩,
   ⟨0x840, 4, 0x20, 1, 0x20, .all, [⟨31, 31, .ro, 0⟩, ⟨30, 30, .wo, 0⟩, ⟨29, 29, .wo, 0⟩, ⟨7, 0, .rw, 0⟩]⟩,
   ⟨0x844, 4, 0x20, 1, 0x20, .all, [⟨31, 0, .ro, 0⟩]⟩,
   ⟨0x848, 4, 0x20, 1, 0x20, .all, [⟨31, 0, .ro, 0⟩]⟩,
   ⟨0x84c, 4, 0x20, 1, 0x20, .all, [⟨31, 0, .rw, 0⟩]⟩,
   ⟨0x850, 4, 0x20, 1, 0x20, .all, [⟨31, 0, .rw, 0⟩]⟩,
   ⟨0x854, 4, 0x20, 1, 0x20, .all, [⟨31, 0, .rw, 0⟩]⟩,
   ⟨0x858, 4, 0x20, 1, 0x20, .all, [⟨31, 0, .rw, 0⟩]⟩,
   ⟨0x900, 8, 0xa0, 1, 0xa0, .all, [⟨31, 0, .rwl, 0⟩]⟩,
   ⟨0x904, 8, 0xa0, 1, 0xa0, .all, [⟨31, 0, .rwl, 0⟩]⟩,
   ⟨0x908, 8, 0xa0, 1, 0xa0, .all, [⟨31, 31, .rwl, 0⟩, ⟨30, 30, .rwl, 1⟩]⟩,
   ⟨0x90c, 8, 0xa0, 1, 0xa0, .all, [⟨31, 0, .rws, 0⟩]⟩,
   ⟨0x910, 8, 0xa0, 4, 0x20, .all, [⟨31, 31, .ro, 0⟩, ⟨30, 30, .wo, 0⟩, ⟨29, 29, .wo, 0⟩, ⟨7, 0, .rw, 0⟩]⟩,
   ⟨0x914, 8, 0xa0, 4, 0x20, .all, [⟨31, 0, .rw, 0⟩]⟩,
   ⟨0x918, 8, 0xa0, 4, 0x20, .all, [⟨31, 0, .rw, 0⟩]⟩,
   ⟨0x91c, 8, 0xa0, 4, 0x20, .all, [⟨31, 0, .rw, 0⟩]⟩,
   ⟨0x920, 8, 0xa0, 4, 0x20, .all, [⟨31, 0, .rw, 0⟩]⟩,
   ⟨0x924, 8, 0xa0, 4, 0x20, .all, [⟨31, 0, .rw, 0⟩]⟩,
   ⟨0x928, 8, 0xa0, 4, 0x20, .all, [⟨31, 0, .rw, 0⟩]⟩] ++
  [⟨0xe00, 1, 0x1000000, 1, 0x1000000, .all, [⟨31, 0, .ro, 0⟩]⟩,
   ⟨0xe04, 1, 0x1000000, 1, 0x1000000, .all, [⟨31, 0, .rc, 0⟩]⟩,
   ⟨0xe08, 1, 0x1000000, 1, 0x1000000, .all, [⟨31, 0, .rc, 0⟩]⟩,
   ⟨0xe0c, 1, 0x1000000, 1, 0x1000000, .all, [⟨31, 0, .rc, 0⟩]⟩]

/-- The registers of a PCIE unit (R395, 17_host_and_crossings.md), beside its unit frame. -/
def regsPcie : List RegRow :=
  [⟨0x40, 5, 4, 1, 4, .all, [⟨31, 0, .ro, 0⟩]⟩,
   ⟨0x100, 1, 0x1000000, 1, 0x1000000, .all, [⟨15, 0, .rc, 0⟩]⟩,
   ⟨0x104, 1, 0x1000000, 1, 0x1000000, .all, [⟨31, 0, .ro, 0⟩]⟩,
   ⟨0x108, 1, 0x1000000, 1, 0x1000000, .all, [⟨31, 31, .ro, 0⟩, ⟨30, 28, .ro, 0⟩, ⟨27, 24, .ro, 0⟩]⟩]

/-- The registers of a FN unit (R395, 17_host_and_crossings.md), beside its unit frame. -/
def regsFn : List RegRow :=
  [⟨0x100, 1, 0x1000000, 1, 0x1000000, .all, [⟨31, 31, .rw, 0⟩]⟩,
   ⟨0x104, 1, 0x1000000, 1, 0x1000000, .all, [⟨15, 0, .rc, 0⟩]⟩,
   ⟨0x108, 1, 0x1000000, 1, 0x1000000, .all, [⟨31, 0, .ro, 0⟩]⟩,
   ⟨0x10c, 1, 0x1000000, 1, 0x1000000, .all, [⟨31, 0, .rwl, 0x76543210⟩]⟩,
   ⟨0x140, 1, 0x1000000, 1, 0x1000000, .all, [⟨31, 0, .ro, 0⟩]⟩,
   ⟨0x144, 1, 0x1000000, 1, 0x1000000, .all, [⟨31, 0, .ro, 0⟩]⟩,
   ⟨0x148, 1, 0x1000000, 1, 0x1000000, .all, [⟨31, 0, .rc, 0⟩]⟩,
   ⟨0x14c, 1, 0x1000000, 1, 0x1000000, .all, [⟨31, 0, .rc, 0⟩]⟩,
   ⟨0x150, 1, 0x1000000, 1, 0x1000000, .all, [⟨31, 0, .rc, 0⟩]⟩,
   ⟨0x400, 32, 0x20, 1, 0x20, .all, [⟨31, 4, .rwl, 0⟩]⟩,
   ⟨0x404, 32, 0x20, 1, 0x20, .all, [⟨31, 0, .rwl, 0⟩]⟩,
   ⟨0x408, 32, 0x20, 1, 0x20, .all, [⟨31, 31, .rw, 0⟩, ⟨30, 28, .rwl, 0⟩, ⟨15, 0, .rwl, 0x10⟩]⟩,
   ⟨0x40c, 32, 0x20, 1, 0x20, .all, [⟨15, 0, .ro, 0⟩]⟩,
   ⟨0x410, 32, 0x20, 1, 0x20, .all, [⟨15, 0, .rw, 0⟩]⟩,
   ⟨0x1000, 256, 4, 1, 4, .all, [⟨31, 0, .rw, 0⟩]⟩,
   ⟨0x1800, 2, 4, 1, 4, .all, [⟨31, 0, .ro, 0⟩]⟩]

/-- The registers of a MSPI unit (R395, 17_host_and_crossings.md), beside its unit frame. -/
def regsMspi : List RegRow :=
  [⟨0x100, 1, 0x1000000, 1, 0x1000000, .all, [⟨15, 0, .rc, 0⟩]⟩,
   ⟨0x104, 1, 0x1000000, 1, 0x1000000, .all, [⟨31, 0, .ro, 0⟩]⟩,
   ⟨0x140, 1, 0x1000000, 1, 0x1000000, .all, [⟨31, 0, .ro, 0⟩]⟩,
   ⟨0x144, 1, 0x1000000, 1, 0x1000000, .all, [⟨31, 0, .rc, 0⟩]⟩,
   ⟨0x148, 1, 0x1000000, 1, 0x1000000, .all, [⟨31, 0, .rc, 0⟩]⟩,
   ⟨0x14c, 1, 0x1000000, 1, 0x1000000, .all, [⟨31, 0, .rc, 0⟩]⟩]

/-- The registers of a ULIS unit (R395, 17_host_and_crossings.md), beside its unit frame. -/
def regsUlis : List RegRow :=
  [⟨0x100, 1, 0x1000000, 1, 0x1000000, .all, [⟨31, 31, .ro, 0⟩, ⟨30, 30, .ro, 0⟩, ⟨29, 29, .ro, 0⟩]⟩,
   ⟨0x140, 1, 0x1000000, 1, 0x1000000, .all, [⟨31, 0, .ro, 0⟩]⟩,
   ⟨0x144, 1, 0x1000000, 1, 0x1000000, .all, [⟨31, 0, .ro, 0⟩]⟩,
   ⟨0x148, 1, 0x1000000, 1, 0x1000000, .all, [⟨31, 0, .ro, 0⟩]⟩,
   ⟨0x14c, 1, 0x1000000, 1, 0x1000000, .all, [⟨31, 0, .rc, 0⟩]⟩]

/-- The registers of a GW unit (R229, 09_infusers.md), beside its unit frame. -/
def regsGw : List RegRow :=
  [⟨0x100, 1, 0x1000000, 1, 0x1000000, .shared, [⟨31, 31, .ro, 0⟩, ⟨30, 28, .ro, 0⟩, ⟨27, 26, .wo, 0⟩, ⟨25, 22, .wo, 0⟩, ⟨13, 0, .wo, 0⟩]⟩,
   ⟨0x104, 8, 4, 1, 4, .shared, [⟨31, 0, .rw, 0⟩]⟩,
   ⟨0x130, 1, 0x1000000, 1, 0x1000000, .shared, [⟨15, 0, .rws, 0⟩]⟩,
   ⟨0x134, 1, 0x1000000, 1, 0x1000000, .shared, [⟨31, 0, .rws, 0⟩]⟩,
   ⟨0x140, 1, 0x1000000, 1, 0x1000000, .shared, [⟨9, 0, .rws, 0x20⟩]⟩,
   ⟨0x144, 1, 0x1000000, 1, 0x1000000, .shared, [⟨31, 0, .rc, 0⟩]⟩,
   ⟨0x148, 1, 0x1000000, 1, 0x1000000, .shared, [⟨31, 0, .rc, 0⟩]⟩,
   ⟨0x200, 38, 0x10, 1, 0x10, .shared, [⟨3, 0, .ro, 0xf⟩]⟩,
   ⟨0x204, 38, 0x10, 1, 0x10, .shared, [⟨31, 31, .rws, 0⟩, ⟨30, 30, .ro, 0⟩, ⟨29, 29, .w1c, 0⟩, ⟨15, 0, .rws, 0xffff⟩]⟩,
   ⟨0x208, 38, 0x10, 1, 0x10, .shared, [⟨31, 18, .rws, 0⟩, ⟨14, 0, .rws, 0⟩]⟩,
   ⟨0x600, 38, 0x20, 1, 0x20, .shared, [⟨31, 0, .ro, 0⟩]⟩,
   ⟨0x604, 38, 0x20, 1, 0x20, .shared, [⟨31, 0, .rc, 0⟩]⟩,
   ⟨0x608, 38, 0x20, 1, 0x20, .shared, [⟨31, 0, .rc, 0⟩]⟩,
   ⟨0x60c, 38, 0x20, 1, 0x20, .shared, [⟨31, 0, .rc, 0⟩]⟩,
   ⟨0x610, 38, 0x20, 1, 0x20, .shared, [⟨31, 0, .rc, 0⟩]⟩,
   ⟨0x614, 38, 0x20, 1, 0x20, .shared, [⟨31, 0, .rc, 0⟩]⟩,
   ⟨0x618, 38, 0x20, 1, 0x20, .shared, [⟨31, 0, .rc, 0⟩]⟩,
   ⟨0x61c, 38, 0x20, 1, 0x20, .shared, [⟨31, 0, .ro, 0⟩]⟩,
   ⟨0x1000, 1, 0x1000000, 1, 0x1000000, .all, [⟨31, 31, .ro, 0⟩, ⟨30, 30, .ro, 0⟩, ⟨3, 0, .ro, 0xf⟩]⟩,
   ⟨0x1004, 1, 0x1000000, 1, 0x1000000, .all, [⟨31, 31, .rw, 0⟩, ⟨15, 2, .rw, 0⟩]⟩,
   ⟨0x1008, 1, 0x1000000, 1, 0x1000000, .all, [⟨31, 0, .rwl, 0⟩]⟩,
   ⟨0x1010, 1, 0x1000000, 1, 0x1000000, .all, [⟨31, 0, .ro, 0⟩]⟩,
   ⟨0x1014, 1, 0x1000000, 1, 0x1000000, .all, [⟨31, 0, .ro, 0⟩]⟩,
   ⟨0x1018, 1, 0x1000000, 1, 0x1000000, .all, [⟨31, 0, .rc, 0⟩]⟩] ++
  [⟨0x101c, 1, 0x1000000, 1, 0x1000000, .all, [⟨31, 0, .rc, 0⟩]⟩,
   ⟨0x1020, 1, 0x1000000, 1, 0x1000000, .all, [⟨31, 0, .ro, 0⟩]⟩,
   ⟨0x1024, 1, 0x1000000, 1, 0x1000000, .all, [⟨31, 0, .ro, 0⟩]⟩,
   ⟨0x1028, 1, 0x1000000, 1, 0x1000000, .all, [⟨31, 0, .rc, 0⟩]⟩,
   ⟨0x102c, 1, 0x1000000, 1, 0x1000000, .all, [⟨31, 0, .rc, 0⟩]⟩,
   ⟨0x1030, 1, 0x1000000, 1, 0x1000000, .all, [⟨31, 0, .rc, 0⟩]⟩,
   ⟨0x1034, 1, 0x1000000, 1, 0x1000000, .all, [⟨31, 0, .rc, 0⟩]⟩,
   ⟨0x1038, 1, 0x1000000, 1, 0x1000000, .all, [⟨31, 0, .ro, 0⟩]⟩]

/-- The registers of a CAN unit (R193, 08_edge_buses.md), beside its unit frame. -/
def regsCan : List RegRow :=
  [⟨0x100, 1, 0x1000000, 1, 0x1000000, .all, [⟨7, 7, .rwl, 0⟩, ⟨6, 6, .rwl, 1⟩, ⟨5, 5, .rwl, 1⟩, ⟨4, 4, .rwl, 0⟩, ⟨3, 3, .rwl, 1⟩, ⟨2, 2, .rwl, 1⟩, ⟨1, 1, .rwl, 0⟩]⟩,
   ⟨0x104, 1, 0x1000000, 1, 0x1000000, .all, [⟨2, 2, .wo, 0⟩, ⟨1, 0, .rw, 0⟩]⟩,
   ⟨0x108, 1, 0x1000000, 1, 0x1000000, .all, [⟨31, 24, .rwl, 3⟩, ⟨23, 16, .rwl, 0x3e⟩, ⟨15, 9, .rwl, 0xf⟩, ⟨8, 2, .rwl, 0xf⟩]⟩,
   ⟨0x10c, 1, 0x1000000, 1, 0x1000000, .all, [⟨31, 24, .rwl, 0⟩, ⟨23, 16, .rwl, 0x3a⟩, ⟨15, 9, .rwl, 0x13⟩, ⟨8, 2, .rwl, 0x13⟩]⟩,
   ⟨0x110, 1, 0x1000000, 1, 0x1000000, .all, [⟨31, 24, .rwl, 0⟩, ⟨23, 16, .rwl, 0xa⟩, ⟨15, 9, .rwl, 3⟩, ⟨8, 2, .rwl, 3⟩]⟩,
   ⟨0x114, 1, 0x1000000, 1, 0x1000000, .all, [⟨31, 31, .rwl, 1⟩, ⟨30, 30, .rwl, 1⟩, ⟨23, 16, .rwl, 0x3c⟩, ⟨15, 8, .rwl, 0xc⟩, ⟨7, 0, .ro, 0⟩]⟩,
   ⟨0x118, 1, 0x1000000, 1, 0x1000000, .canX, [⟨21, 16, .rwl, 0⟩, ⟨13, 8, .rwl, 0⟩, ⟨5, 0, .rwl, 0⟩]⟩,
   ⟨0x11c, 1, 0x1000000, 1, 0x1000000, .all, [⟨31, 24, .ro, 0⟩, ⟨23, 16, .ro, 0⟩, ⟨11, 9, .ro, 0⟩, ⟨8, 8, .ro, 0⟩, ⟨7, 7, .ro, 0⟩, ⟨6, 6, .ro, 0⟩, ⟨2, 0, .ro, 0⟩]⟩,
   ⟨0x120, 1, 0x1000000, 1, 0x1000000, .all, [⟨31, 24, .ro, 0⟩, ⟨23, 16, .ro, 0⟩, ⟨15, 8, .ro, 0⟩]⟩,
   ⟨0x140, 1, 0x1000000, 1, 0x1000000, .all, [⟨31, 0, .ro, 0⟩]⟩,
   ⟨0x144, 1, 0x1000000, 1, 0x1000000, .all, [⟨31, 0, .ro, 0⟩]⟩,
   ⟨0x148, 1, 0x1000000, 1, 0x1000000, .all, [⟨31, 0, .rc, 0⟩]⟩,
   ⟨0x14c, 1, 0x1000000, 1, 0x1000000, .all, [⟨31, 0, .rc, 0⟩]⟩,
   ⟨0x150, 1, 0x1000000, 1, 0x1000000, .all, [⟨31, 0, .rc, 0⟩]⟩,
   ⟨0x154, 1, 0x1000000, 1, 0x1000000, .all, [⟨31, 0, .rc, 0⟩]⟩,
   ⟨0x158, 1, 0x1000000, 1, 0x1000000, .all, [⟨31, 0, .rc, 0⟩]⟩,
   ⟨0x15c, 1, 0x1000000, 1, 0x1000000, .all, [⟨31, 0, .ro, 0⟩]⟩,
   ⟨0x160, 1, 0x1000000, 1, 0x1000000, .all, [⟨31, 0, .rc, 0⟩]⟩,
   ⟨0x164, 1, 0x1000000, 1, 0x1000000, .all, [⟨31, 0, .rc, 0⟩]⟩,
   ⟨0x168, 1, 0x1000000, 1, 0x1000000, .all, [⟨31, 0, .rc, 0⟩]⟩,
   ⟨0x16c, 1, 0x1000000, 1, 0x1000000, .all, [⟨31, 0, .rc, 0⟩]⟩,
   ⟨0x600, 1, 0x1000000, 1, 0x1000000, .all, [⟨8, 1, .rws, 0x40⟩, ⟨0, 0, .rws, 0⟩]⟩,
   ⟨0x604, 1, 0x1000000, 1, 0x1000000, .all, [⟨28, 0, .rws, 0x1fffffff⟩]⟩,
   ⟨0x608, 1, 0x1000000, 1, 0x1000000, .all, [⟨31, 0, .ro, 0⟩]⟩] ++
  [⟨0x60c, 1, 0x1000000, 1, 0x1000000, .all, [⟨31, 0, .rc, 0⟩]⟩,
   ⟨0x700, 1, 0x1000000, 1, 0x1000000, .all, [⟨31, 31, .rws, 0⟩, ⟨23, 0, .rws, 0⟩]⟩,
   ⟨0x704, 1, 0x1000000, 1, 0x1000000, .all, [⟨23, 0, .rws, 0x100⟩]⟩,
   ⟨0x708, 1, 0x1000000, 1, 0x1000000, .all, [⟨31, 0, .ro, 0⟩]⟩,
   ⟨0x70c, 1, 0x1000000, 1, 0x1000000, .all, [⟨31, 0, .ro, 0⟩]⟩,
   ⟨0x800, 256, 4, 1, 4, .all, [⟨31, 31, .rws, 0⟩, ⟨30, 30, .rws, 0⟩, ⟨28, 0, .rws, 0⟩]⟩,
   ⟨0xc00, 1, 0x1000000, 1, 0x1000000, .all, [⟨31, 31, .rwl, 0⟩, ⟨30, 30, .rwl, 0⟩, ⟨29, 29, .rwl, 0⟩, ⟨28, 28, .rwl, 0⟩, ⟨7, 0, .rws, 0⟩]⟩,
   ⟨0xc04, 1, 0x1000000, 1, 0x1000000, .all, [⟨31, 0, .ro, 0⟩]⟩,
   ⟨0xc10, 4, 8, 1, 8, .all, [⟨31, 31, .rws, 0⟩, ⟨15, 8, .rws, 0⟩, ⟨7, 0, .rws, 0⟩]⟩,
   ⟨0xc14, 4, 8, 1, 8, .all, [⟨31, 0, .ro, 0⟩]⟩]

/-- The registers of a LIN unit (R196, 08_edge_buses.md), beside its unit frame. -/
def regsLin : List RegRow :=
  [⟨0x100, 8, 0x40, 1, 0x40, .all, [⟨31, 31, .rws, 0⟩, ⟨30, 30, .rws, 0⟩, ⟨29, 29, .rws, 1⟩, ⟨14, 0, .rws, 0x4b00⟩]⟩,
   ⟨0x104, 8, 0x40, 1, 0x40, .all, [⟨13, 12, .ro, 0⟩, ⟨9, 8, .rws, 0⟩, ⟨7, 0, .rws, 0x32⟩]⟩,
   ⟨0x108, 8, 0x40, 1, 0x40, .all, [⟨20, 16, .ro, 0⟩, ⟨8, 8, .ro, 0⟩, ⟨7, 4, .ro, 0⟩, ⟨1, 0, .ro, 0⟩]⟩,
   ⟨0x110, 8, 0x40, 1, 0x40, .all, [⟨31, 0, .ro, 0⟩]⟩,
   ⟨0x114, 8, 0x40, 1, 0x40, .all, [⟨31, 0, .ro, 0⟩]⟩,
   ⟨0x118, 8, 0x40, 1, 0x40, .all, [⟨31, 0, .rc, 0⟩]⟩,
   ⟨0x11c, 8, 0x40, 1, 0x40, .all, [⟨31, 0, .rc, 0⟩]⟩,
   ⟨0x120, 8, 0x40, 1, 0x40, .all, [⟨31, 0, .rc, 0⟩]⟩,
   ⟨0x124, 8, 0x40, 1, 0x40, .all, [⟨31, 0, .rc, 0⟩]⟩,
   ⟨0x128, 8, 0x40, 1, 0x40, .all, [⟨31, 0, .rc, 0⟩]⟩,
   ⟨0x1000, 8, 0x200, 128, 4, .all, [⟨31, 31, .rws, 0⟩, ⟨30, 28, .rws, 0⟩, ⟨21, 16, .rws, 0⟩, ⟨15, 8, .rws, 0⟩, ⟨7, 7, .rws, 0⟩, ⟨2, 0, .rws, 0⟩]⟩]

/-- The registers of a SENT unit (R198, 08_edge_buses.md), beside its unit frame. -/
def regsSent : List RegRow :=
  [⟨0x100, 8, 0x40, 1, 0x40, .all, [⟨31, 31, .rws, 0⟩, ⟨30, 28, .rws, 6⟩, ⟨27, 27, .rws, 0⟩, ⟨26, 26, .rws, 1⟩, ⟨25, 24, .rws, 0⟩, ⟨11, 0, .rws, 0x78⟩]⟩,
   ⟨0x104, 8, 0x40, 1, 0x40, .all, [⟨23, 8, .ro, 0⟩, ⟨7, 4, .ro, 0⟩]⟩,
   ⟨0x108, 8, 0x40, 1, 0x40, .all, [⟨31, 28, .ro, 0⟩, ⟨27, 4, .ro, 0⟩]⟩,
   ⟨0x10c, 8, 0x40, 1, 0x40, .all, [⟨31, 0, .ro, 0⟩]⟩,
   ⟨0x110, 8, 0x40, 1, 0x40, .all, [⟨31, 31, .ro, 0⟩, ⟨30, 30, .ro, 0⟩, ⟨27, 20, .ro, 0⟩, ⟨15, 0, .ro, 0⟩]⟩,
   ⟨0x120, 8, 0x40, 1, 0x40, .all, [⟨31, 0, .ro, 0⟩]⟩,
   ⟨0x124, 8, 0x40, 5, 4, .all, [⟨31, 0, .rc, 0⟩]⟩,
   ⟨0x800, 4, 0x40, 1, 0x40, .all, [⟨31, 31, .rws, 0⟩, ⟨30, 29, .rws, 0⟩, ⟨28, 24, .rws, 0xf⟩, ⟨23, 16, .rws, 3⟩]⟩,
   ⟨0x804, 4, 0x40, 1, 0x40, .all, [⟨31, 0, .ro, 0⟩]⟩]

/-- The registers of a FLX unit (R201, 08_edge_buses.md), beside its unit frame. -/
def regsFlx : List RegRow :=
  [⟨0x100, 1, 0x1000000, 1, 0x1000000, .all, [⟨3, 0, .wo, 0⟩]⟩,
   ⟨0x104, 1, 0x1000000, 1, 0x1000000, .all, [⟨31, 24, .ro, 0⟩, ⟨23, 20, .ro, 0⟩, ⟨19, 19, .ro, 0⟩]⟩,
   ⟨0x108, 1, 0x1000000, 1, 0x1000000, .all, [⟨31, 0, .ro, 0⟩]⟩,
   ⟨0x110, 1, 0x1000000, 1, 0x1000000, .all, [⟨31, 28, .rwl, 0⟩, ⟨27, 14, .rwl, 0x1388⟩, ⟨13, 4, .rwl, 0x3c⟩]⟩,
   ⟨0x114, 1, 0x1000000, 1, 0x1000000, .all, [⟨31, 22, .rwl, 0x28⟩, ⟨21, 15, .rwl, 8⟩, ⟨14, 2, .rwl, 0⟩]⟩,
   ⟨0x118, 1, 0x1000000, 1, 0x1000000, .all, [⟨31, 24, .rwl, 0x28⟩, ⟨23, 10, .rwl, 0x64⟩, ⟨9, 4, .rwl, 5⟩]⟩,
   ⟨0x11c, 1, 0x1000000, 1, 0x1000000, .all, [⟨31, 21, .rwl, 0⟩, ⟨20, 20, .rwl, 0⟩, ⟨19, 19, .rwl, 0⟩, ⟨18, 17, .rwl, 3⟩, ⟨14, 10, .rwl, 8⟩]⟩,
   ⟨0x200, 12, 4, 1, 4, .all, [⟨31, 0, .rwl, 0⟩]⟩,
   ⟨0x800, 128, 8, 1, 8, .all, [⟨31, 31, .rw, 0⟩, ⟨30, 30, .rw, 0⟩, ⟨29, 28, .rw, 0⟩, ⟨27, 22, .rw, 0⟩, ⟨21, 19, .rw, 0⟩, ⟨18, 8, .rw, 0⟩, ⟨6, 0, .rw, 0⟩]⟩,
   ⟨0x804, 128, 8, 1, 8, .all, [⟨31, 31, .rc, 0⟩, ⟨30, 30, .ro, 0⟩, ⟨21, 16, .ro, 0⟩]⟩,
   ⟨0x8000, 8192, 4, 1, 4, .all, [⟨31, 0, .rw, 0⟩]⟩]

/-- The registers of a T1S unit (R205, 08_edge_buses.md), beside its unit frame. -/
def regsT1s : List RegRow :=
  [⟨0x100, 8, 0x40, 1, 0x40, .all, [⟨31, 31, .rws, 0⟩, ⟨30, 30, .rws, 1⟩, ⟨23, 16, .rws, 0⟩, ⟨15, 8, .rws, 8⟩, ⟨7, 0, .rws, 0x20⟩]⟩,
   ⟨0x104, 8, 0x40, 1, 0x40, .all, [⟨15, 8, .rws, 0⟩, ⟨7, 0, .rws, 0x80⟩]⟩,
   ⟨0x108, 8, 0x40, 1, 0x40, .all, [⟨26, 24, .rws, 0⟩, ⟨23, 0, .rws, 0xfac688⟩]⟩,
   ⟨0x10c, 8, 0x40, 1, 0x40, .all, [⟨31, 31, .ro, 0⟩, ⟨15, 8, .ro, 0⟩]⟩,
   ⟨0x110, 8, 0x40, 1, 0x40, .all, [⟨31, 0, .ro, 0⟩]⟩,
   ⟨0x114, 8, 0x40, 1, 0x40, .all, [⟨31, 0, .ro, 0⟩]⟩,
   ⟨0x118, 8, 0x40, 1, 0x40, .all, [⟨31, 0, .rc, 0⟩]⟩,
   ⟨0x11c, 8, 0x40, 1, 0x40, .all, [⟨31, 0, .rc, 0⟩]⟩,
   ⟨0x120, 8, 0x40, 1, 0x40, .all, [⟨31, 0, .rc, 0⟩]⟩,
   ⟨0x124, 8, 0x40, 1, 0x40, .all, [⟨31, 0, .rc, 0⟩]⟩]

/-- The registers of a TSIO unit (R180, 07_time.md), beside its unit frame. -/
def regsTsio : List RegRow :=
  [⟨0x80, 1, 0x1000000, 1, 0x1000000, .all, [⟨23, 0, .rws, 0⟩]⟩,
   ⟨0x84, 1, 0x1000000, 1, 0x1000000, .all, [⟨23, 0, .rw, 0⟩]⟩,
   ⟨0x88, 1, 0x1000000, 1, 0x1000000, .all, [⟨23, 0, .rw, 0⟩]⟩,
   ⟨0x8c, 1, 0x1000000, 1, 0x1000000, .all, [⟨23, 0, .ro, 0⟩]⟩,
   ⟨0x100, 16, 0x20, 1, 0x20, .all, [⟨6, 4, .rws, 4⟩, ⟨2, 1, .rws, 1⟩, ⟨0, 0, .rws, 0⟩]⟩,
   ⟨0x104, 16, 0x20, 1, 0x20, .all, [⟨31, 16, .rc, 0⟩, ⟨4, 0, .ro, 0⟩]⟩,
   ⟨0x108, 16, 0x20, 1, 0x20, .all, [⟨31, 31, .ro, 0⟩, ⟨30, 30, .ro, 0⟩, ⟨29, 27, .ro, 0⟩, ⟨0, 0, .ro, 0⟩]⟩,
   ⟨0x10c, 16, 0x20, 1, 0x20, .all, [⟨31, 0, .ro, 0⟩]⟩,
   ⟨0x110, 16, 0x20, 1, 0x20, .all, [⟨31, 0, .ro, 0⟩]⟩,
   ⟨0x400, 8, 0x20, 1, 0x20, .all, [⟨6, 4, .rws, 4⟩, ⟨2, 2, .rws, 0⟩, ⟨1, 1, .rws, 0⟩, ⟨0, 0, .rws, 0⟩]⟩,
   ⟨0x404, 8, 0x20, 1, 0x20, .all, [⟨31, 0, .rws, 0⟩]⟩,
   ⟨0x408, 8, 0x20, 1, 0x20, .all, [⟨31, 0, .rws, 0⟩]⟩,
   ⟨0x40c, 8, 0x20, 1, 0x20, .all, [⟨31, 0, .rws, 0x3b9aca00⟩]⟩,
   ⟨0x410, 8, 0x20, 1, 0x20, .all, [⟨31, 0, .rws, 0x5f5e100⟩]⟩,
   ⟨0x414, 8, 0x20, 1, 0x20, .all, [⟨1, 1, .ro, 0⟩, ⟨0, 0, .ro, 0⟩]⟩,
   ⟨0x600, 1, 0x1000000, 1, 0x1000000, .all, [⟨23, 12, .ro, 0⟩, ⟨11, 0, .ro, 0xfff⟩]⟩,
   ⟨0x604, 1, 0x1000000, 1, 0x1000000, .all, [⟨23, 0, .w1c, 0⟩]⟩,
   ⟨0x610, 12, 4, 1, 4, .all, [⟨31, 31, .rws, 0⟩, ⟨30, 30, .rws, 1⟩, ⟨4, 0, .rws, 0⟩]⟩]

/-- The registers of a NETM unit (R245, 10_sleep_and_wake.md), beside its unit frame. -/
def regsNetm : List RegRow :=
  [⟨0x100, 1, 0x1000000, 1, 0x1000000, .all, [⟨31, 31, .rwl, 0⟩, ⟨30, 30, .rwl, 0⟩, ⟨22, 16, .rwl, 2⟩, ⟨13, 8, .rwl, 0⟩, ⟨7, 0, .rwl, 0⟩]⟩,
   ⟨0x104, 1, 0x1000000, 1, 0x1000000, .all, [⟨31, 24, .rws, 0x50⟩, ⟨23, 16, .rws, 0x28⟩, ⟨15, 8, .rws, 8⟩, ⟨7, 0, .rws, 0x10⟩]⟩,
   ⟨0x108, 1, 0x1000000, 1, 0x1000000, .all, [⟨31, 0, .rw, 1⟩]⟩,
   ⟨0x10c, 1, 0x1000000, 1, 0x1000000, .all, [⟨31, 30, .ro, 0⟩, ⟨29, 29, .ro, 0⟩, ⟨28, 28, .ro, 0⟩, ⟨23, 0, .ro, 0⟩]⟩,
   ⟨0x110, 1, 0x1000000, 1, 0x1000000, .all, [⟨23, 0, .rwl, 0⟩]⟩,
   ⟨0x114, 1, 0x1000000, 1, 0x1000000, .all, [⟨15, 0, .rwl, 0⟩]⟩,
   ⟨0x118, 1, 0x1000000, 1, 0x1000000, .all, [⟨31, 0, .rwl, 0⟩]⟩,
   ⟨0x11c, 1, 0x1000000, 1, 0x1000000, .all, [⟨0, 0, .wo, 0⟩]⟩,
   ⟨0x120, 1, 0x1000000, 1, 0x1000000, .all, [⟨31, 28, .ro, 0⟩, ⟨23, 16, .ro, 0⟩]⟩,
   ⟨0x140, 1, 0x1000000, 1, 0x1000000, .all, [⟨31, 0, .ro, 0⟩]⟩,
   ⟨0x144, 1, 0x1000000, 1, 0x1000000, .all, [⟨31, 0, .ro, 0⟩]⟩,
   ⟨0x148, 1, 0x1000000, 1, 0x1000000, .all, [⟨31, 0, .ro, 0⟩]⟩,
   ⟨0x14c, 1, 0x1000000, 1, 0x1000000, .all, [⟨31, 0, .rc, 0⟩]⟩,
   ⟨0x150, 1, 0x1000000, 1, 0x1000000, .all, [⟨31, 0, .rc, 0⟩]⟩,
   ⟨0x154, 1, 0x1000000, 1, 0x1000000, .all, [⟨31, 0, .rc, 0⟩]⟩,
   ⟨0x200, 24, 8, 1, 8, .all, [⟨31, 24, .rwl, 0⟩, ⟨22, 16, .rwl, 2⟩, ⟨10, 0, .rwl, 0⟩]⟩,
   ⟨0x204, 24, 8, 1, 8, .all, [⟨31, 24, .ro, 0⟩, ⟨23, 17, .ro, 0⟩]⟩]

/-- The registers of a COSY unit (R264, 11_power.md), beside its unit frame. -/
def regsCosy : List RegRow :=
  [⟨0x1000, 1, 0x1000000, 1, 0x1000000, .all, [⟨31, 29, .ro, 3⟩, ⟨28, 28, .ro, 1⟩, ⟨27, 27, .ro, 0⟩, ⟨26, 26, .ro, 1⟩, ⟨25, 25, .ro, 0⟩, ⟨24, 24, .ro, 0⟩, ⟨9, 0, .ro, 0⟩]⟩,
   ⟨0x1004, 1, 0x1000000, 1, 0x1000000, .all, [⟨31, 31, .rw, 0⟩, ⟨23, 16, .rw, 0x14⟩, ⟨13, 12, .rw, 3⟩]⟩,
   ⟨0x1008, 1, 0x1000000, 1, 0x1000000, .all, [⟨31, 28, .ro, 0⟩, ⟨27, 24, .ro, 0⟩, ⟨15, 0, .ro, 0⟩]⟩,
   ⟨0x100c, 1, 0x1000000, 1, 0x1000000, .all, [⟨31, 16, .wo, 0⟩, ⟨0, 0, .wo, 0⟩]⟩,
   ⟨0x1010, 1, 0x1000000, 1, 0x1000000, .all, [⟨31, 0, .ro, 0⟩]⟩,
   ⟨0x1014, 1, 0x1000000, 1, 0x1000000, .all, [⟨31, 0, .ro, 0⟩]⟩,
   ⟨0x1018, 1, 0x1000000, 1, 0x1000000, .all, [⟨31, 0, .ro, 0⟩]⟩,
   ⟨0x101c, 1, 0x1000000, 1, 0x1000000, .all, [⟨31, 0, .ro, 0⟩]⟩,
   ⟨0x1020, 1, 0x1000000, 1, 0x1000000, .all, [⟨9, 0, .rc, 0x3ff⟩]⟩,
   ⟨0x1040, 8, 4, 1, 4, .all, [⟨31, 0, .rw, 0⟩]⟩,
   ⟨0x2000, 12, 4, 1, 4, .all, [⟨11, 11, .w1c, 0⟩, ⟨10, 10, .w1c, 0⟩, ⟨9, 9, .ro, 0⟩, ⟨5, 4, .ro, 3⟩, ⟨1, 0, .rw, 3⟩]⟩,
   ⟨0x2040, 8, 4, 1, 4, .all, [⟨11, 11, .w1c, 0⟩, ⟨10, 10, .w1c, 0⟩, ⟨9, 9, .ro, 0⟩, ⟨5, 4, .ro, 3⟩, ⟨1, 0, .rw, 3⟩]⟩,
   ⟨0x3000, 1, 0x1000000, 1, 0x1000000, .all, [⟨31, 31, .rw, 0⟩, ⟨19, 16, .rw, 0xf⟩, ⟨15, 8, .rw, 0xff⟩, ⟨7, 4, .rw, 0⟩, ⟨3, 0, .rw, 0xf⟩]⟩,
   ⟨0x3004, 1, 0x1000000, 1, 0x1000000, .all, [⟨31, 0, .rw, 0⟩]⟩,
   ⟨0x3008, 1, 0x1000000, 1, 0x1000000, .all, [⟨31, 28, .ro, 0⟩, ⟨23, 16, .ro, 0⟩]⟩,
   ⟨0x300c, 1, 0x1000000, 1, 0x1000000, .all, [⟨31, 0, .ro, 0⟩]⟩,
   ⟨0x3010, 1, 0x1000000, 1, 0x1000000, .all, [⟨31, 31, .rw, 0⟩, ⟨15, 0, .rw, 0x2710⟩]⟩,
   ⟨0x3100, 8, 0x80, 1, 0x80, .all, [⟨31, 31, .rw, 0⟩, ⟨13, 8, .ro, 0⟩, ⟨1, 0, .rw, 2⟩]⟩,
   ⟨0x3110, 8, 0x80, 4, 0x18, .all, [⟨31, 31, .rw, 0⟩, ⟨30, 30, .rw, 0⟩, ⟨29, 29, .rw, 0⟩, ⟨3, 0, .rw, 0⟩]⟩,
   ⟨0x3114, 8, 0x80, 4, 0x18, .all, [⟨28, 0, .rw, 0⟩]⟩,
   ⟨0x3118, 8, 0x80, 4, 0x18, .all, [⟨28, 0, .rw, 0x1fffffff⟩]⟩,
   ⟨0x311c, 8, 0x80, 4, 0x18, .all, [⟨31, 0, .rw, 0⟩]⟩,
   ⟨0x3120, 8, 0x80, 4, 0x18, .all, [⟨31, 0, .rw, 0⟩]⟩,
   ⟨0x4000, 1, 0x1000000, 1, 0x1000000, .all, [⟨31, 28, .ro, 0⟩, ⟨23, 16, .ro, 0⟩, ⟨15, 15, .ro, 0⟩, ⟨1, 0, .ro, 0⟩]⟩] ++
  [⟨0x4004, 1, 0x1000000, 1, 0x1000000, .all, [⟨31, 31, .ro, 0⟩, ⟨30, 30, .ro, 0⟩, ⟨27, 24, .ro, 0⟩, ⟨23, 20, .ro, 0⟩, ⟨19, 16, .ro, 0⟩, ⟨15, 12, .ro, 0⟩]⟩,
   ⟨0x4008, 1, 0x1000000, 1, 0x1000000, .all, [⟨31, 16, .ro, 0⟩, ⟨15, 11, .ro, 0⟩, ⟨10, 10, .ro, 0⟩, ⟨9, 9, .ro, 0⟩, ⟨8, 8, .ro, 0⟩, ⟨7, 0, .ro, 0⟩]⟩,
   ⟨0x400c, 1, 0x1000000, 1, 0x1000000, .all, [⟨31, 31, .ro, 0⟩, ⟨7, 0, .ro, 0⟩]⟩,
   ⟨0x4010, 1, 0x1000000, 1, 0x1000000, .all, [⟨17, 16, .ro, 0⟩, ⟨15, 0, .ro, 0⟩]⟩,
   ⟨0x5000, 64, 4, 1, 4, .all, [⟨31, 31, .ro, 0⟩, ⟨30, 28, .ro, 0⟩, ⟨27, 20, .ro, 0⟩, ⟨19, 0, .ro, 0⟩]⟩]

end Sys2Proof.Machine
end

