-- ==== Sys2Proof/Machine/Units.lean ====
section
/-! DEFINITION. The unit tree and the address map (R16 to R19, R396, Tables 1.3, 18.1): every unit is named by its
source ID, its position in the depth-first walk from SYS. -/

namespace Sys2Proof.Machine

/-- A unit, by its source ID (R19). -/
abbrev UnitNo := Nat

/-- What a unit is: which register table it has (Table 18.1). -/
inductive UKind where
  | sys | tick | saucer | kettle | triad | time | caddy | crypt | pipe | strain | fab | spout | mac | pcie | fn
  | mspi | ulis | gw | can | lin | sent | flx | t1s | tsio | netm | cosy | group | none
  deriving DecidableEq, Repr

def uSys : UnitNo := 0x00
def uTick : UnitNo := 0x01
def uSaucer : UnitNo := 0x02
def uKettle : UnitNo := 0x03
def uTriad : UnitNo := 0x04
def uTime : UnitNo := 0x05
def uCaddy : UnitNo := 0x06
def uCrypt : UnitNo := 0x07
def uFab : UnitNo := 0x0C
def uSpoutGrp : UnitNo := 0x0D
def uMacGrp : UnitNo := 0x1E
def uPcie : UnitNo := 0x2B
def uMspi : UnitNo := 0x31
def uUlis : UnitNo := 0x32
def uGwGrp : UnitNo := 0x33
def uCanGrp : UnitNo := 0x41
def uLin : UnitNo := 0x52
def uSent : UnitNo := 0x53
def uFlx : UnitNo := 0x54
def uT1s : UnitNo := 0x55
def uTsio : UnitNo := 0x56
def uNetm : UnitNo := 0x57
def uCosy : UnitNo := 0x58
/-- PIPE_E (0) and PIPE_W (1). -/
def uPipe (w : Bool) : UnitNo := if w then 0x09 else 0x08
/-- STRAIN_E and STRAIN_W. -/
def uStrain (w : Bool) : UnitNo := if w then 0x0B else 0x0A
/-- SPOUT instance of fabric port `p`. -/
def uSpout (p : Nat) : UnitNo := 0x0E + p
/-- MAC instance of E-port `n`. -/
def uMac (n : Nat) : UnitNo := 0x1F + n
/-- PCIe function unit `f`. -/
def uFn (f : Nat) : UnitNo := 0x2C + f
/-- GW instance, physical engine `n`. -/
def uGw (n : Nat) : UnitNo := 0x34 + n
/-- CAN instance of channel `n`. -/
def uCan (n : Nat) : UnitNo := 0x42 + n

/-- The number of units of the tree (Table 18.1: source IDs 0x00 to 0x58). -/
def unitCount : Nat := 0x59

/-- The kind of a unit (Table 18.1). -/
def kindOf (u : UnitNo) : UKind :=
  if u < 0x08 then
    match u with
    | 0 => .sys | 1 => .tick | 2 => .saucer | 3 => .kettle | 4 => .triad | 5 => .time | 6 => .caddy | _ => .crypt
  else if u < 0x0A then .pipe
  else if u < 0x0C then .strain
  else if u = 0x0C then .fab
  else if u = 0x0D then .group
  else if u < 0x1E then .spout
  else if u = 0x1E then .group
  else if u < 0x2B then .mac
  else if u = 0x2B then .pcie
  else if u < 0x31 then .fn
  else if u = 0x31 then .mspi
  else if u = 0x32 then .ulis
  else if u = 0x33 then .group
  else if u < 0x41 then .gw
  else if u = 0x41 then .group
  else if u < 0x52 then .can
  else if u = 0x52 then .lin
  else if u = 0x53 then .sent
  else if u = 0x54 then .flx
  else if u = 0x55 then .t1s
  else if u = 0x56 then .tsio
  else if u = 0x57 then .netm
  else if u = 0x58 then .cosy
  else .none

/-- The array instance of a unit: its number within SPOUT, MAC, GW or CAN, its function number, 0 or 1 for East and
West, and 0 otherwise (Table 18.2, INSTANCE). -/
def instOf (u : UnitNo) : Nat :=
  match kindOf u with
  | .pipe => u - 0x08
  | .strain => u - 0x0A
  | .spout => u - 0x0E
  | .mac => u - 0x1F
  | .fn => u - 0x2C
  | .gw => u - 0x34
  | .can => u - 0x42
  | _ => 0

/-- The base address of a unit's window, for the array groups the address of their group frame (Table 18.1, R18). -/
def baseOf (u : UnitNo) : Nat :=
  match kindOf u with
  | .sys => 0x40000000
  | .tick => 0x40010000
  | .saucer => 0x40020000
  | .kettle => 0x40030000
  | .triad => 0x40040000
  | .time => 0x40050000
  | .caddy => 0x40060000
  | .crypt => 0x40070000
  | .pipe => 0x40100000 + 0x40000 * (u - 0x08)
  | .strain => 0x40180000 + 0x40000 * (u - 0x0A)
  | .fab => 0x40200000
  | .spout => 0x40240000 + 0x1000 * (u - 0x0E)
  | .mac => 0x40280000 + 0x1000 * (u - 0x1F)
  | .pcie => 0x402C0000
  | .fn => 0x402C4000 + 0x2000 * (u - 0x2C)
  | .mspi => 0x402D0000
  | .ulis => 0x402E0000
  | .gw => 0x40300000 + 0x10000 * (u - 0x34)
  | .can => 0x40400000 + 0x1000 * (u - 0x42)
  | .lin => 0x40410000
  | .sent => 0x40420000
  | .flx => 0x40430000
  | .t1s => 0x40440000
  | .tsio => 0x40450000
  | .netm => 0x40460000
  | .cosy => 0x4F000000
  | .group =>
    if u = 0x0D then 0x40008000 else if u = 0x1E then 0x40008100 else if u = 0x33 then 0x40008200 else 0x40008300
  | .none => 0

/-- The first address of COSY's window: an access from here up to 0x4FFF_FFFF crosses the Ulis link (R13). -/
def cosyBase : Nat := 0x4F000000

/-- The unit whose window holds an address, SYS's group frames named as the groups they are, the PCIe function
blocks as the functions they are; none outside every window (R396, R397, Table 18.1). -/
def unitAt (a : Nat) : Option UnitNo :=
  if a < 0x40000000 then none
  else if a < 0x40010000 then
    if a < 0x40008000 then some uSys
    else if a < 0x40008100 then some uSpoutGrp
    else if a < 0x40008200 then some uMacGrp
    else if a < 0x40008300 then some uGwGrp
    else if a < 0x40008400 then some uCanGrp
    else some uSys
  else if a < 0x40070000 then some ((a - 0x40000000) / 0x10000)
  else if a < 0x40090000 then some uCrypt
  else if a < 0x40100000 then none
  else if a < 0x40200000 then some (0x08 + (a - 0x40100000) / 0x40000)
  else if a < 0x40240000 then some uFab
  else if a < 0x40250000 then some (uSpout ((a - 0x40240000) / 0x1000))
  else if a < 0x40280000 then none
  else if a < 0x4028C000 then some (uMac ((a - 0x40280000) / 0x1000))
  else if a < 0x402C0000 then none
  else if a < 0x402D0000 then
    if a < 0x402C4000 then some uPcie
    else if a < 0x402CE000 then some (uFn ((a - 0x402C4000) / 0x2000))
    else some uPcie
  else if a < 0x402E0000 then some uMspi
  else if a < 0x40300000 then some uUlis
  else if a < 0x403D0000 then some (uGw ((a - 0x40300000) / 0x10000))
  else if a < 0x40400000 then none
  else if a < 0x40410000 then some (uCan ((a - 0x40400000) / 0x1000))
  else if a < 0x40470000 then some (uLin + (a - 0x40410000) / 0x10000)
  else if a < 0x4F000000 then none
  else if a < 0x50000000 then some uCosy
  else none

/-- The children of a unit in child-table order (R17, R19, Table 18.1). -/
def childrenOf (u : UnitNo) : List UnitNo :=
  if u = uSys then
    [0x01, 0x02, 0x03, 0x04, 0x05, 0x06, 0x07, 0x08, 0x09, 0x0A, 0x0B, 0x0C, 0x0D, 0x1E, 0x2B, 0x31, 0x32, 0x33,
     0x41, 0x52, 0x53, 0x54, 0x55, 0x56, 0x57, 0x58]
  else if u = uSpoutGrp then (List.range 16).map uSpout
  else if u = uMacGrp then (List.range 12).map uMac
  else if u = uPcie then (List.range 5).map uFn
  else if u = uGwGrp then (List.range 13).map uGw
  else if u = uCanGrp then (List.range 16).map uCan
  else []

/-- The parent of a unit; SYS is its own. -/
def parentOf (u : UnitNo) : UnitNo :=
  match kindOf u with
  | .spout => uSpoutGrp
  | .mac => uMacGrp
  | .fn => uPcie
  | .gw => uGwGrp
  | .can => uCanGrp
  | _ => uSys

/-- Whether a unit is a leaf: it has no children (R20). -/
def isLeaf (u : UnitNo) : Bool := (childrenOf u).isEmpty

/-- A unit with its whole subtree: the tree is three levels deep (R396). -/
def subtree (u : UnitNo) : List UnitNo :=
  u :: (childrenOf u).flatMap (fun c => c :: childrenOf c)

/-- The leaves of a unit's subtree. -/
def leavesOf (u : UnitNo) : List UnitNo := (subtree u).filter isLeaf

/-- The source ID of a unit read as its type code (Table 18.1). -/
def typeOf (u : UnitNo) : Nat :=
  match kindOf u with
  | .sys => 0x01 | .tick => 0x02 | .saucer => 0x03 | .kettle => 0x04 | .triad => 0x05 | .time => 0x06
  | .caddy => 0x07 | .crypt => 0x08 | .pipe => 0x09 | .strain => 0x0A | .fab => 0x0B | .spout => 0x0C
  | .mac => 0x0D | .pcie => 0x0E | .fn => 0x0F | .mspi => 0x10 | .ulis => 0x11 | .gw => 0x12 | .can => 0x13
  | .lin => 0x14 | .sent => 0x15 | .flx => 0x16 | .t1s => 0x17 | .tsio => 0x18 | .netm => 0x19 | .cosy => 0x1A
  | .group => 0x1F | .none => 0

/-- The picoseconds of one cycle of a unit's clock domain (Tables 1.1, 1.10). -/
def cyclePs (u : UnitNo) : Nat :=
  match kindOf u with
  | .pipe | .strain | .fab | .spout => 1600
  | .triad => 1000
  | .mac => if instOf u < 4 then 2560 else 6400
  | .pcie | .fn => 4000
  | .mspi | .lin | .sent | .flx | .tsio => 25000
  | .ulis => 2500
  | .can => 6250
  | .t1s => 40000
  | .cosy => 1000000
  | _ => 2000

/-- Whether a unit has a tick job (Table 1.7). -/
def hasTickJob (u : UnitNo) : Bool :=
  match kindOf u with
  | .pipe | .fab | .spout | .gw | .saucer | .triad => true
  | _ => false

/-- The default budget of a unit's tick job, in cycles of its domain: PIPE 4,096 (R79), FAB 2,048 (5.6), SPOUT 256
(6.7), GW 16,384 (R208), SAUCER 4,096 (15.5), TRIAD 2,048 (R306). -/
def budgetDefault (u : UnitNo) : Nat :=
  match kindOf u with
  | .pipe => 4096
  | .fab => 2048
  | .spout => 256
  | .gw => 16384
  | .saucer => 4096
  | .triad => 2048
  | _ => 0

/-- The register table of a unit's kind. -/
def rowsOf (k : UKind) : List RegRow :=
  match k with
  | .sys => regsSys | .tick => regsTick | .saucer => regsSaucer | .kettle => regsKettle | .triad => regsTriad
  | .time => regsTime | .caddy => regsCaddy | .crypt => regsCrypt | .pipe => regsPipe | .strain => regsStrain
  | .fab => regsFab | .spout => regsSpout | .mac => regsMac | .pcie => regsPcie | .fn => regsFn | .mspi => regsMspi
  | .ulis => regsUlis | .gw => regsGw | .can => regsCan | .lin => regsLin | .sent => regsSent | .flx => regsFlx
  | .t1s => regsT1s | .tsio => regsTsio | .netm => regsNetm | .cosy => regsCosy
  | .group => [] | .none => []

/-- Whether offset `o` is one of a row's instances. -/
def RegRow.hit (r : RegRow) (o : Nat) : Bool :=
  decide (r.off ≤ o) &&
    (let d := o - r.off
     let q := d % r.st1
     decide (d / r.st1 < r.n1) && decide (q / r.st2 < r.n2) && decide (q % r.st2 = 0))

/-- The outer array index of offset `o` within a row. -/
def RegRow.idx1 (r : RegRow) (o : Nat) : Nat := (o - r.off) / r.st1

/-- The inner array index of offset `o` within a row. -/
def RegRow.idx2 (r : RegRow) (o : Nat) : Nat := (o - r.off) % r.st1 / r.st2

/-- Whether a row is present in instance `i` of its kind (Table 2.13: PIPE_W only). -/
def RegRow.isIn (r : RegRow) (i : Nat) : Bool :=
  match r.present with
  | .west => i == 1
  | _ => true

/-- The unit frame's registers of a unit (Tables 1.3, 1.8, 18.2 to 18.6). UNIT_CTRL, UNIT_STATUS, UNIT_FAULT,
UNIT_INJECT and UNIT_COMMIT of a group read by Table 1.5; their stored words are those of the leaves. -/
def frameRows (u : UnitNo) : List RegRow :=
  let one (o : Nat) (fs : List FieldSpec) : RegRow := ⟨o, 1, 0x1000000, 1, 0x1000000, .all, fs⟩
  let leaf := isLeaf u
  let enAcc : Access := if u = uSys || u = uCosy then .ro else .rw
  let enReset := if leaf && u != uCosy then 0 else 1
  [one 0x000 [⟨31, 0, .ro, 0⟩],
   one 0x004 [⟨1, 1, .wo, 0⟩, ⟨0, 0, enAcc, enReset⟩],
   one 0x008 (if leaf then [⟨31, 31, .ro, 0⟩, ⟨30, 30, .w1c, 0⟩, ⟨29, 27, .ro, 0⟩] else [⟨31, 0, .ro, 0⟩]),
   one 0x00C [⟨31, 0, .w1c, 0⟩],
   one 0x010 (if leaf then [⟨31, 0, .rw, 0⟩] else [⟨31, 0, .ro, 0⟩]),
   one 0x014 [⟨31, 31, .ro, 0⟩, ⟨30, 30, .wo, 0⟩, ⟨15, 0, .ro, 0⟩],
   one 0x018 (if hasTickJob u then
       [⟨31, 31, .ro, 0⟩, ⟨30, 24, .rc, 0⟩, ⟨23, 20, .ro, 0⟩, ⟨19, 0, .rws, budgetDefault u⟩]
     else [⟨31, 0, .ro, 0⟩]),
   one 0x020 [⟨31, 24, .ro, 0⟩, ⟨23, 0, .ro, 0⟩]]

/-- The child-table rows of the array groups (R17, R18: at group frame + 0x40). -/
def groupRows (u : UnitNo) : List RegRow :=
  match kindOf u with
  | .group => [⟨0x40, (childrenOf u).length, 4, 1, 4, .all, [⟨31, 0, .ro, 0⟩]⟩]
  | _ => []

/-- The address through which a shared register is stored: the GW block from 0x100 to 0xFFF is one block that every
instance shows (R229); every other address is its own. -/
def canonAddr (a : Nat) : Nat :=
  if 0x40300000 ≤ a ∧ a < 0x403D0000 then
    let o := a % 0x10000
    if 0x100 ≤ o ∧ o < 0x1000 then 0x40300000 + o else a
  else a

/-- A register found by its address: its unit, its row, and its offset in the unit's window. -/
structure Found where
  unit : UnitNo
  row : RegRow
  off : Nat
  deriving DecidableEq, Repr

/-- The register at an address, if the manual gives one there (R397). -/
def findReg (a : Nat) : Option Found :=
  match unitAt a with
  | none => none
  | some u =>
    let o := a - baseOf u
    let rows := if o < 0x40 then frameRows u else groupRows u ++ rowsOf (kindOf u)
    match rows.find? (fun r => r.hit o && r.isIn (instOf u)) with
    | none => none
    | some r => some ⟨u, r, o⟩

/-- The word whose fields hold their reset values. -/
def resetWord (fs : List FieldSpec) : Word :=
  fs.foldl (fun w f => setBits w f.lsb (f.msb + 1 - f.lsb) f.reset) 0#32

/-- What a register holds after the reset of its unit, by address: the Reset column of its table. Three registers have
a reset that depends on the index: the child tables (R17), and DOMAIN_NUMBER (n in domain n, Table 7.6). -/
def regReset (a : Nat) : Word :=
  match findReg a with
  | none => 0#32
  | some f =>
    if kindOf f.unit = .time ∧ 0x200 ≤ f.off ∧ f.off < 0x400 ∧ (f.off - 0x200) % 0x80 = 0 then
      BitVec.ofNat 32 ((f.off - 0x200) / 0x80)
    else resetWord f.row.fields

/-- A unit whose window lies on the Cosy die. -/
def isCosy (u : UnitNo) : Bool := u == uCosy

end Sys2Proof.Machine
end

