-- ==== Sys2Proof/Machine/Ops.lean ====
section
/-! DEFINITION. The named operations every meaning uses: reading and writing registers and their fields, counters,
the enable tree, detectors and access errors, free values. -/

namespace Sys2Proof.Machine

/-! ### Registers and fields -/

/-- The stored word of the register at an address (R396; a shared GW register through any instance, R229). -/
def State.word (s : State) (a : Nat) : Word := smGet regReset s.regs (canonAddr a)

/-- The state with a word stored at an address. -/
def State.setWord (s : State) (a : Nat) (w : Word) : State :=
  { s with regs := smSet regReset s.regs (canonAddr a) w }

/-- The address of a field's register: unit window, offset, array indices. -/
def fldAddr (u : UnitNo) (f : Fld) (i j : Nat) : Nat := baseOf u + f.off + f.st1 * i + f.st2 * j

/-- The stored value of a field. -/
def State.rd (s : State) (u : UnitNo) (f : Fld) (i : Nat := 0) (j : Nat := 0) : Nat :=
  getBits (s.word (fldAddr u f i j)) f.lsb f.width

/-- The state with a field set by the hardware. -/
def State.wr (s : State) (u : UnitNo) (f : Fld) (v : Nat) (i : Nat := 0) (j : Nat := 0) : State :=
  s.setWord (fldAddr u f i j) (setBits (s.word (fldAddr u f i j)) f.lsb f.width v)

/-- A one-bit field read as a truth value. -/
def State.flag (s : State) (u : UnitNo) (f : Fld) (i : Nat := 0) (j : Nat := 0) : Bool := s.rd u f i j != 0

/-- A counter that wraps to 0 after its maximum, advanced by `n` (R11). -/
def State.inc (s : State) (u : UnitNo) (f : Fld) (i : Nat := 0) (j : Nat := 0) (n : Nat := 1) : State :=
  s.wr u f ((s.rd u f i j + n) % 2 ^ f.width) i j

/-- A counter that saturates at its maximum, advanced by `n` (R11). -/
def State.sat (s : State) (u : UnitNo) (f : Fld) (i : Nat := 0) (j : Nat := 0) (n : Nat := 1) : State :=
  s.wr u f (min (s.rd u f i j + n) (2 ^ f.width - 1)) i j

/-- Bit `b` of a field set. -/
def State.orBit (s : State) (u : UnitNo) (f : Fld) (b : Nat) (i : Nat := 0) (j : Nat := 0) : State :=
  s.wr u f (setBit (s.rd u f i j) b) i j

/-- Bit `b` of a field cleared. -/
def State.clrBit (s : State) (u : UnitNo) (f : Fld) (b : Nat) (i : Nat := 0) (j : Nat := 0) : State :=
  s.wr u f (clearBit (s.rd u f i j) b) i j

/-- A write staged in place of an earlier one to the same register; the bits that are not RWS are not committed (R9). -/
def State.stage (s : State) (u : UnitNo) (m a : Nat) (v : Word) : State :=
  { s with staged := s.staged.filter (fun e => canonAddr e.addr != canonAddr a) ++ [⟨u, a, v, m, s.rd uMspi F.mspi_TRANSFERS⟩] }

/-- The host paths replaced. -/
def State.setHost (s : State) (h : HostState) : State := { s with host := h }

/-! ### The enable tree -/

/-- A unit's own enable bit (Table 18.3; SYS and COSY read 1). -/
def State.enBit (s : State) (u : UnitNo) : Bool := s.flag u F.unit_CTRL_EN

/-- A unit counts as enabled when its own enable and the enable of every ancestor is set (Table 1.5). -/
def State.enabled (s : State) (u : UnitNo) : Bool :=
  s.enBit u && s.enBit (parentOf u) && s.enBit uSys

/-- A unit is held in reset (R399). -/
def State.resetting (s : State) (u : UnitNo) : Bool := s.resetPs.any (fun e => e.1 == u)

/-! ### Free values -/

/-- The next free value below `n` (log entry 1). -/
def State.drawn (s : State) (n : Nat) : Nat := Config.freeNat s.free % n

/-- The state after a free value has been drawn. -/
def State.draw (s : State) : State := { s with free := s.free + 1 }

/-- A field's value within its stated range; outside it, an open value of the range (log entry 2). -/
def openField (lo hi v : Nat) : Nat :=
  if lo ≤ v ∧ v ≤ hi then v else lo + Config.openNat v % (hi - lo + 1)

/-- A quotient, exact where it is exact, else rounded in the direction Config leaves open (log entry 3). -/
def quot (a b : Int) : Int :=
  if b = 0 then 0 else if a % b = 0 then a / b else if Config.roundUp a b then a / b + 1 else a / b

/-! ### Clocks of the domains (R161, R162) -/

def noDomain (_ : Nat) : Domain := {}

/-- Time domain `n`. -/
def State.dom (s : State) (n : Nat) : Domain := smGet noDomain s.time.domains n

/-- The state with one domain replaced. -/
def State.setDom (s : State) (n : Nat) (d : Domain) : State :=
  { s with time := { s.time with domains := smSet noDomain s.time.domains n d } }

/-- Domain time in whole nanoseconds, 64 bits. -/
def State.domNs (s : State) (n : Nat) : Int := (s.dom n).time / 2 ^ 47 % 2 ^ 64

/-- A span of WC (units of 2^-16 ns) in the time of a domain, in units of 2^-47 ns. -/
def Domain.span (d : Domain) (w : Int) : Int := w * 2 ^ 31 + quot (w * d.rate) (2 ^ 17)

/-- A domain time in its 80 bits (R162). -/
def wrapTime (t : Int) : Int := t % 2 ^ 111

/-- Domain time at an instant of WC given in units of 2^-16 ns. -/
def State.domAt (s : State) (n : Nat) (wc : Int) : Int :=
  wrapTime ((s.dom n).time + (s.dom n).span (wc - Int.ofNat s.clk.wc))

/-- The instant of WC, in units of 2^-16 ns, at which a domain reaches a time given in nanoseconds, at its present rate. -/
def State.domToWc (s : State) (n : Nat) (t : Int) : Int :=
  Int.ofNat s.clk.wc + quot ((t * 2 ^ 47 - (s.dom n).time) * 2 ^ 17) (2 ^ 48 + (s.dom n).rate)

/-- A time of one domain in another one, in nanoseconds, at their present rates (DEDUCED, log entry 94: R148 and R153 compare instants
of a pending change with those of a running cycle). -/
def State.acrossDomains (s : State) (src dst : Nat) (t : Int) : Int :=
  if src = dst then t else s.domAt dst (s.domToWc src t) / 2 ^ 47

/-! ### Detectors -/

/-- WC in whole nanoseconds, 64 bits (R161). -/
def State.wcNs (s : State) : Nat := s.clk.wc / 65536 % 2 ^ 64

/-- The detail fields of a report (Table 15.1). -/
structure Detail where
  access : Nat := 0
  master : Nat := 0
  addr : Nat := 0
  syndrome : Nat := 0
  deriving DecidableEq, Repr

/-- A report joined to those not taken yet: a detector that fires again before the Saucer takes its report counts, and
the last report carries the details (R318). -/
def joinReport (r : Report) : List Report → List Report
  | [] => [r]
  | q :: t => if q.unit = r.unit ∧ q.det = r.det then { r with count := q.count + 1 } :: t else q :: joinReport r t

/-- Detector `d` of unit `u` fires: its UNIT_FAULT bit is set and a report is sent, with the WC time of the cycle
(R318, R401). -/
def State.fireInj (s : State) (u : UnitNo) (d : Nat) (x : Detail) (inj : Bool) : State :=
  let s := s.orBit u F.unit_FAULT d
  { s with reports := joinReport ⟨u, d, 1, x.access, x.master, x.addr, x.syndrome, s.wcNs, inj⟩ s.reports }

/-- A detector fires by itself. -/
def State.fire (s : State) (u : UnitNo) (d : Nat) (x : Detail := {}) : State := s.fireInj u d x false

/-- Detector `d` of unit `u` is armed for one injection (R334). -/
def State.armed (s : State) (u : UnitNo) (d : Nat) : Bool := bitOf (s.rd u F.unit_INJECT) d

/-- One evaluation of a detector that is no code checker: it fires on its condition, and an armed injection forces
its output once and is then disarmed (R334, R335). -/
def State.check (s : State) (u : UnitNo) (d : Nat) (cond : Bool) (x : Detail := {}) : State :=
  if s.armed u d then (s.clrBit u F.unit_INJECT d).fireInj u d x true
  else if cond then s.fire u d x else s

/-- What a code check found in the word it checked. -/
inductive CodeResult where
  | good | corrected | failed
  deriving DecidableEq, Repr

/-- One check of a symbol code: the word as read, or altered by an armed injection (R334: MODE 0 gives a correctable,
MODE 1 an uncorrectable error; the stored data never changes). Answers what the checker finds, whether an injection
made it, and the state with the injection spent. -/
def State.codeCheck (s : State) (u : UnitNo) (d : Nat) (found : CodeResult) : CodeResult × Bool × State :=
  if s.armed u d then
    ((if s.rd uSaucer F.saucer_INJ_CFG_MODE = 0 then .corrected else .failed), true, s.clrBit u F.unit_INJECT d)
  else (found, false, s)

/-- The comparison of an engine's two cipher instances (R356): the manual gives the stored data no way to differ, so only an
injection makes it fail. A mismatch fires the engine's detector and counts in COMPARE_FAIL. -/
def State.cipherCheck (s : State) (u : UnitNo) (d : Nat) : Bool × State :=
  if s.armed u d then (true, (s.check u d false).sat uCrypt F.crypt_COMPARE_FAIL) else (false, s)

/-- The unit that reports an access error at an address: the leaf whose window holds it; else the unit of the master
(R404). -/
def accessReporter (m a : Nat) : UnitNo :=
  let byMaster : UnitNo :=
    if m = 0x08 then uMspi
    else if m = 0x10 ∨ m = 0x11 ∨ m = 0x38 then uTriad
    else if m = 0x18 then uKettle
    else if 0x20 ≤ m ∧ m ≤ 0x2C then uGw (m - 0x20)
    else if m = 0x30 then uTime
    else if m = 0x31 then uCaddy
    else if m = 0x32 then uCrypt
    else if 1 ≤ m ∧ m ≤ 5 then uFn (m - 1)
    else uFn 0
  match unitAt a with
  | some u => if isLeaf u then u else byMaster
  | none => byMaster

/-- A code checker reports an uncorrectable word. The manual gives the codes no generator, so that the check-bit difference and the
failing symbols of SYNDROME (Table 15.1) are a free value (DESIGN CHOICE, log entry 115). -/
def State.codeFail (s : State) (u : UnitNo) (d : Nat) (x : Detail) (inj : Bool) : State :=
  (s.fireInj u d { x with syndrome := s.drawn (2 ^ 32) } inj).draw

/-- An access error: the access detector (31) of the reporting unit fires (R403, R404); an injection armed there is spent. -/
def State.accessError (s : State) (m a access : Nat) (syndrome : Nat := 0) : State :=
  s.check (accessReporter m a) 31 true { access := access, master := m, addr := a, syndrome := syndrome }

/-- The fence of the originating master counts a refusal and keeps its address: PCIE.FENCE for PF0 (which FN_FENCE of
function 0 shows too), FN_FENCE for VF1 to VF4, MSPI.FENCE for MSPI (R381, Table 17.11). -/
def State.fenceCount (s : State) (m a : Nat) : State :=
  if m = 1 then (s.sat uPcie F.pcie_FENCE_COUNT).wr uPcie F.pcie_FENCE_ADDR a
  else if 2 ≤ m ∧ m ≤ 5 then (s.sat (uFn (m - 1)) F.fn_FN_FENCE_COUNT).wr (uFn (m - 1)) F.fn_FN_FENCE_ADDR a
  else if m = 8 then
    let t := (s.sat uMspi F.mspi_FENCE_COUNT).wr uMspi F.mspi_FENCE_ADDR a
    { t with host := { t.host with mspiErr := true } }
  else s

/-- A refused write: an access error with access type 4, counted in the originator's fence (R381). -/
def State.refuse (s : State) (m a : Nat) : State := (s.accessError m a 4).fenceCount m a

/-- A refusal `r` that comes after its write was launched shows in LAST_ERR only while the transfer that launched it is the last one of
MSPI (R378). -/
def State.lastErrOf (r s : State) (m transfer : Nat) : State :=
  if m = 8 ∧ transfer ≠ s.rd uMspi F.mspi_TRANSFERS then { r with host := { r.host with mspiErr := s.host.mspiErr } } else r

def State.setKettle (s : State) (k : KettleState) : State := { s with kettle := k }

/-! ### Stages of a start (12.5, 13.4) -/

/-- Where a start stands: not started, waiting for the self-test, a header or a body to come, and what follows. -/
def stIdle : Nat := 0
def stTest : Nat := 1
def stManifest : Nat := 2
def stEssHead : Nat := 3
def stEssBody : Nat := 4
def stEssDone : Nat := 5
def stPriHead : Nat := 6
def stPriBody : Nat := 7
def stPriDone : Nat := 8
def stHanded : Nat := 9
def stComplete : Nat := 10
def stFbHead : Nat := 11
def stFbBody : Nat := 12
def stFbDone : Nat := 13

/-- Boot complete has been reached (R276); a reset of the KETTLE unit, which sets STATUS back, does not change that. -/
def State.bootDone (s : State) : Bool := s.kettle.stage == stComplete

/-- The device is in Fallback mode, which only a new start ends (R285). -/
def State.fallback (s : State) : Bool := decide (stFbHead ≤ s.kettle.stage)

/-- A trial start runs (13.4). -/
def State.trial (s : State) : Bool :=
  s.flag uCosy F.cosy_SLOT_RET_TRIAL && decide (stManifest ≤ s.kettle.stage) && decide (s.kettle.stage ≤ stHanded)

/-- TEST_EN was high at the release of the Brew die: it serves JTAG test access only (R265). -/
def State.testMode (s : State) : Bool := s.flag uKettle F.kettle_STRAPS_TEST_EN

/-- The Brew die takes no command and no register access: it is without power (Sleep, Standby, Off; R365) or in test mode (R265). -/
def State.deaf (s : State) : Bool := s.testMode || decide (s.cosy.power < 3)

/-! ### The Cosy side and stopped transmitters -/

/-- A write to a COSY register: applied at the far side of the Ulis link, refused while the link is down or the Cosy die
refuses it (R184, R381, R385). -/
def State.cosyWrite (s : State) (m a : Nat) (ok : Bool) (run : State → State) : State :=
  if ok && s.flag uUlis F.ulis_ULIS_STATUS_UP then run s else s.refuse m a

/-- No new frame starts on any transmitter: the device is in the Safe state (Table 15.6), or an activation has fired
(R292; UPD_STATUS.STATE 2). -/
def State.txStopped (s : State) : Bool := s.safe || s.rd uKettle F.kettle_UPD_STATUS_STATE == 2

/-! ### The interrupt tree and MSI-X (R375, R400, R406, Table 18.8) -/

/-- A leaf's unit interrupt: EVENT, or in SAUCER an open episode (Table 18.4, Table 18.8). -/
def State.irq (s : State) (u : UnitNo) : Bool :=
  s.flag u F.unit_STATUS_EVENT || (u == uSaucer && s.flag uSaucer F.saucer_EPISODE_OPEN)

/-- SYS UNIT_STATUS[25:0]: bit i while any leaf below child i has its interrupt active (18.4). -/
def State.irqTree (s : State) : Nat :=
  maskOf ((List.range 26).filter (fun i => (leavesOf ((childrenOf uSys).getD i uSys)).any s.irq))

/-- An output of the tree with its mask. -/
def State.irqOut (s : State) (mask : Fld) : Bool := (s.irqTree &&& s.rd uSys mask) != 0

/-- Word `k` of entry `v` of function `f`'s MSI-X table. -/
def State.msixWord (s : State) (f v k : Nat) : Nat := s.rd (uFn f) F.fn_MSIX_W (4 * v + k)

/-- A message for a vector waits in the pending bits. -/
def State.msixPending (s : State) (f v : Nat) : Bool := bitOf (s.rd (uFn f) F.fn_MSIX_PBA_W (v / 32)) (v % 32)

/-- A message for a vector may leave: link up, Bus Master Enable, neither the function nor the vector masked (log entry 46). -/
def State.msixOpen (s : State) (f v : Nat) : Bool :=
  s.flag uPcie F.pcie_LINK_STATUS_UP && bitOf s.host.bme f && !bitOf s.host.msixMask f && !bitOf (s.msixWord f v 3) 0

/-- A vector is signalled: nothing while MSI-X is off, a pending bit while it may not leave, else the message. -/
def State.signal (s : State) (f v : Nat) : State :=
  if !bitOf s.host.msixEn f || s.msixPending f v then s
  else if s.msixOpen f v then
    let m : MsixMsg := ⟨f, v, s.msixWord f v 1 * 2 ^ 32 + s.msixWord f v 0, s.msixWord f v 2⟩
    { s with host := { s.host with msix := s.host.msix ++ [m] } }
  else s.orBit (uFn f) F.fn_MSIX_PBA_W (v % 32) (v / 32)

/-- Pending messages that may leave now do. -/
def State.msixFlush (s : State) (f : Nat) : State :=
  (List.range 33).foldl (fun s v =>
    if bitOf s.host.msixEn f && s.msixPending f v && s.msixOpen f v then
      (s.clrBit (uFn f) F.fn_MSIX_PBA_W (v % 32) (v / 32)).signal f v
    else s) s

/-- A change that may make outputs active: the PF0 output that becomes active signals vector 32 of PF0, and the interrupt of
function unit n that becomes active signals vector 32 of VFn (R406). -/
def State.withIrq (s : State) (run : State → State) : State :=
  let t := run s
  let t := if !s.irqOut F.sys_INT_MASK_PF0_MASK && t.irqOut F.sys_INT_MASK_PF0_MASK then t.signal 0 32 else t
  [1, 2, 3, 4].foldl (fun t f => if !s.irq (uFn f) && t.irq (uFn f) then t.signal f 32 else t) t

/-- An event cause of a unit's interrupt: UNIT_STATUS.EVENT is set (R400, Table 18.8). -/
def State.event (s : State) (u : UnitNo) : State := s.withIrq (fun s => s.wr u F.unit_STATUS_EVENT 1)

/-! ### Tick jobs (R27 to R29) -/

def noJob (_ : Nat) : TickJob := {}

/-- The tick job of a unit. -/
def State.tickJob (s : State) (u : UnitNo) : TickJob := smGet noJob s.jobs u

/-- The state with a unit's tick job replaced. -/
def State.setTickJob (s : State) (u : UnitNo) (j : TickJob) : State := { s with jobs := smSet noJob s.jobs u j }

/-- The job's work is done: RUNNING and OVR_CONSEC are 0 (R29). -/
def State.jobDone (s : State) (u : UnitNo) : State :=
  (s.wr u F.unit_TICKJOB_RUNNING 0).wr u F.unit_TICKJOB_OVR_CONSEC 0

/-! ### Memories of Table 15.8 -/

/-- ADDR of an error in a memory of Table 15.8: MEM in [39:32], the word index in [31:0] (R441). -/
def memAddr (mem idx : Nat) : Nat := mem * 2 ^ 32 + idx

/-- The words of a row of a ledger memory (Table 15.8). -/
def wordsPerRow (mem : Nat) : Nat :=
  if mem ≤ 4 then 4 else if mem ≤ 6 then 8 else if mem ≤ 10 then 1 else if mem ≤ 12 then 16 else if mem = 13 then 4
  else if mem = 14 then 8 else if mem ≤ 16 then 4 else if mem = 17 then 16 else 1

/-- A word that the repair ledger in force retires: a RETIRE entry (KIND 3) names its memory and row (R336, Table 15.9). -/
def State.retiredWord (s : State) (mem idx : Nat) : Bool :=
  s.kettle.ledger.any (fun e =>
    e / 2 ^ 31 == 1 && e / 2 ^ 28 % 8 == 3 && e / 2 ^ 20 % 256 == mem && e % 2 ^ 20 == idx / wordsPerRow mem)

/-- What the code of a stored word shows when it is read: good, corrected or failed. -/
def State.codeOf (s : State) (mem idx : Nat) : CodeResult :=
  match s.upsets.find? (fun u => u.mem == mem && u.index == idx) with
  | none => .good
  | some u => if u.correctable then .corrected else .failed

/-- The word has been written again: its check bits are right. -/
def State.clearUpset (s : State) (mem idx : Nat) : State :=
  { s with upsets := s.upsets.filter (fun u => !(u.mem == mem && u.index == idx)) }

/-! ### The two pipelines and their Strainers -/

/-- PIPE_E or PIPE_W. -/
def State.pipe (s : State) (w : Bool) : PipeState := if w then s.pipeW else s.pipeE

/-- The state with one pipeline replaced. -/
def State.setPipe (s : State) (w : Bool) (p : PipeState) : State :=
  if w then { s with pipeW := p } else { s with pipeE := p }

/-- STRAIN_E or STRAIN_W. -/
def State.strain (s : State) (w : Bool) : StrainState := if w then s.strainW else s.strainE

/-- The state with one Strainer replaced. -/
def State.setStrain (s : State) (w : Bool) (p : StrainState) : State :=
  if w then { s with strainW := p } else { s with strainE := p }

/-- The pipeline of a fabric port: West for P2, P3, P8 to P11, P13 and P15 (R15, Table 1.2). -/
def pipeOf (port : Nat) : Bool := port == 2 || port == 3 || (8 ≤ port && port ≤ 11) || port == 13 || port == 15

end Sys2Proof.Machine
end

