-- ==== Sys2Proof/Machine/Activation.lean ====
section
/-! DEFINITION. The retained update record and the instant at which an armed activation fires (R290 to R292, Table 13.7), as the time
engine reaches them: a step of TD0 that passes the armed time triggers it (Table 7.4). -/

namespace Sys2Proof.Machine

/-- SLOT_RET's result of an activation. -/
def State.slotResult (s : State) (result reason cause part : Nat) : State :=
  let s := (s.wr uCosy F.cosy_SLOT_RET_RESULT result).wr uCosy F.cosy_SLOT_RET_REASON reason
  (s.wr uCosy F.cosy_SLOT_RET_CAUSE cause).wr uCosy F.cosy_SLOT_RET_PART part

/-- An armed activation ends with RESULT CANCELLED. -/
def State.cancelActivation (s : State) (cause : Nat) : State :=
  if s.rd uKettle F.kettle_UPD_STATUS_STATE = 1 then
    (s.wr uKettle F.kettle_UPD_STATUS_STATE 0).slotResult 3 0 cause 15
  else s

def State.updState (s : State) : Nat := s.rd uKettle F.kettle_UPD_STATUS_STATE
def State.setUpdState (s : State) (v : Nat) : State := s.wr uKettle F.kettle_UPD_STATUS_STATE v

/-- TD0 time as UPD_TIME is compared with it: low 32 bits of the seconds, nanoseconds. -/
def State.td0Time (s : State) : Nat :=
  let ns := (s.domNs 0).toNat
  ns / 1000000000 % 2 ^ 32 * 1000000000 + ns % 1000000000

/-- The time of UPD_TIME; a number of nanoseconds above 999,999,999 acts as that. -/
def State.updTime (s : State) : Nat :=
  s.rd uKettle F.kettle_UPD_TIME_SEC_SEC * 1000000000 + min 999999999 (s.rd uKettle F.kettle_UPD_TIME_NS_NS)

/-- An armed activation is due: TD0 has reached the armed time; in Fallback mode, a tick boundary has come since the arming. -/
def State.activationDue (s : State) : Bool :=
  s.updState == 1 && (if s.fallback then s.rd uTick F.tick_COUNT_COUNT != s.kettle.armedTick else decide (s.kettle.armedAt ≤ s.td0Time))

/-- `ACTIVATION_FIRE`: no new frame starts from now on; in the Safe state the activation is cancelled. -/
def activationFireStep (s : State) : State :=
  if s.activationDue then (if s.safe then s.cancelActivation 8 else s.setUpdState 2) else s

end Sys2Proof.Machine
end

