-- ==== Sys2Proof/Machine/Crypto.lean ====
section
/-! DEFINITION. The published algorithms the crypto service names (Table 16.5, R344, R345): SHA-256 (FIPS 180-4), HMAC (FIPS
198-1), the counter-mode KDF (SP 800-108), AES (FIPS 197), CMAC (SP 800-38B), GCM (SP 800-38D) and ECDSA verification on P-256
(FIPS 186-4). Byte strings are lists, first byte first; keys, blocks and digests are numbers, first byte most
significant. -/

namespace Sys2Proof.Machine

/-- Bytes cut into blocks of `w` bytes, at most `fuel` of them; the last may be short. -/
def blocks (w : Nat) : Nat → List Byte → List (List Byte)
  | 0, _ => []
  | fuel + 1, l => if l.isEmpty then [] else l.take w :: blocks w fuel (l.drop w)

/-! ### SHA-256, HMAC, KDF -/

def rotr32 (n x : Nat) : Nat := x / 2 ^ n + x % 2 ^ n * 2 ^ (32 - n)

/-- The largest number whose `k`-th power is at most `n`, found bit by bit, from bit `i - 1` down. -/
def rootBits (k n : Nat) : Nat → Nat → Nat
  | 0, r => r
  | i + 1, r => rootBits k n i (if (r + 2 ^ i) ^ k ≤ n then r + 2 ^ i else r)

/-- The first 32 bits of the fractional part of the `k`-th root of a number below 2^12. -/
def rootFraction (k p : Nat) : Nat := rootBits k (p * 2 ^ (32 * k)) 44 0 % 2 ^ 32

/-- The first 64 primes. -/
def primes64 : List Nat := (List.range 312).filter (fun p => 1 < p && (List.range p).all (fun d => d < 2 || p % d != 0))

/-- The round constants, from the cube roots of the primes, and the initial hash value, from the square roots of the first eight. -/
def shaK : List Nat := primes64.map (rootFraction 3)
def shaH : List Nat := (primes64.take 8).map (rootFraction 2)

/-- The message schedule, kept newest first: from 16 words to 64. -/
def shaExpand : Nat → List Nat → List Nat
  | 0, l => l
  | n + 1, l =>
    let x := l.getD 14 0
    let y := l.getD 1 0
    let s0 := rotr32 7 x ^^^ rotr32 18 x ^^^ x / 2 ^ 3
    let s1 := rotr32 17 y ^^^ rotr32 19 y ^^^ y / 2 ^ 10
    shaExpand n (((l.getD 15 0 + s0 + l.getD 6 0 + s1) % 2 ^ 32) :: l)

/-- One round on the eight working variables. -/
def shaRound (v : List Nat) (kw : Nat) : List Nat :=
  let a := v.getD 0 0
  let e := v.getD 4 0
  let s1 := rotr32 6 e ^^^ rotr32 11 e ^^^ rotr32 25 e
  let ch := (e &&& v.getD 5 0) ^^^ ((2 ^ 32 - 1 - e) &&& v.getD 6 0)
  let t1 := v.getD 7 0 + s1 + ch + kw
  let s0 := rotr32 2 a ^^^ rotr32 13 a ^^^ rotr32 22 a
  let maj := (a &&& v.getD 1 0) ^^^ (a &&& v.getD 2 0) ^^^ (v.getD 1 0 &&& v.getD 2 0)
  [(t1 + s0 + maj) % 2 ^ 32, a, v.getD 1 0, v.getD 2 0, (v.getD 3 0 + t1) % 2 ^ 32, e, v.getD 5 0, v.getD 6 0]

def shaBlock (h : List Nat) (b : List Byte) : List Nat :=
  let w := (shaExpand 48 ((List.range 16).map (fun i => be32 b (4 * i))).reverse).reverse
  let v := (w.zip shaK).foldl (fun v p => shaRound v (p.1 + p.2)) h
  (h.zip v).map (fun p => (p.1 + p.2) % 2 ^ 32)

/-- SHA-256 of a byte string. -/
def sha256 (m : List Byte) : List Byte :=
  let z := (119 - m.length % 64) % 64
  let p := m ++ [0x80#8] ++ List.replicate z 0#8 ++ beBytes 8 (8 * m.length)
  ((blocks 64 (p.length / 64) p).foldl shaBlock shaH).flatMap (beBytes 4)

/-- HMAC-SHA-256. -/
def hmac (key m : List Byte) : List Byte :=
  let k := if 64 < key.length then sha256 key else key
  let k := k ++ List.replicate (64 - k.length) 0#8
  sha256 (k.map (· ^^^ 0x5c#8) ++ sha256 (k.map (· ^^^ 0x36#8) ++ m))

/-- The counter-mode KDF with HMAC-SHA-256 and a 32-bit counter for an output of at most 256 bits: one block. `info` is Label ‖
0x00 ‖ Context; the output length in bits follows it in 32 bits (PRESUMED, log entry 41). -/
def kdfBytes (key info : List Byte) (bits : Nat) : List Byte :=
  (hmac key (beBytes 4 1 ++ info ++ beBytes 4 bits)).take (bits / 8)

/-! ### AES -/

/-- Multiplication by x in GF(2^8). -/
def xtime (a : Nat) : Nat := if 128 ≤ a then (2 * a) ^^^ 0x11b else 2 * a

/-- Multiplication in GF(2^8), over the low `n` bits of `b`. -/
def gmul : Nat → Nat → Nat → Nat
  | 0, _, _ => 0
  | n + 1, a, b => (if b % 2 = 1 then a else 0) ^^^ gmul n (xtime a) (b / 2)

def gsq (a : Nat) : Nat := gmul 8 a a

/-- The multiplicative inverse, a to the power of 254. -/
def ginv (a : Nat) : Nat :=
  let x2 := gsq a
  let x3 := gmul 8 x2 a
  let x12 := gsq (gsq x3)
  let x15 := gmul 8 x12 x3
  let x240 := gsq (gsq (gsq (gsq x15)))
  gmul 8 (gmul 8 x240 x12) x2

def rotl8 (n x : Nat) : Nat := (x * 2 ^ n) % 256 + x / 2 ^ (8 - n)

/-- SubBytes of one byte. -/
def sbox (a : Nat) : Nat :=
  let b := ginv a
  b ^^^ rotl8 1 b ^^^ rotl8 2 b ^^^ rotl8 3 b ^^^ rotl8 4 b ^^^ 0x63

/-- SubWord on a 32-bit word. -/
def subWord (w : Nat) : Nat :=
  (List.range 4).foldl (fun a i => a + sbox (w / 256 ^ i % 256) * 256 ^ i) 0

/-- The key schedule, newest word first: word `i` of a key of `nk` words. -/
def expandKey (nk : Nat) : Nat → Nat → Nat → List Nat → List Nat
  | 0, _, _, l => l
  | n + 1, i, rcon, l =>
    let t := l.headD 0
    let first := i % nk == 0
    let t := if first then subWord (t * 256 % 2 ^ 32 + t / 2 ^ 24) ^^^ rcon * 2 ^ 24
      else if 6 < nk ∧ i % nk = 4 then subWord t else t
    expandKey nk n (i + 1) (if first then xtime rcon else rcon) ((l.getD (nk - 1) 0 ^^^ t) :: l)

/-- The round keys as numbers of 128 bits. The key is a number of 128 or 256 bits. -/
def roundKeys (long : Bool) (key : Nat) : List Nat :=
  let nk := if long then 8 else 4
  let rounds := nk + 6
  let l := (List.range nk).map (fun i => key / 2 ^ (32 * (nk - 1 - i)) % 2 ^ 32)
  let w := (expandKey nk (4 * (rounds + 1) - nk) nk 1 l.reverse).reverse
  (List.range (rounds + 1)).map (fun r => (List.range 4).foldl (fun a i => a * 2 ^ 32 + w.getD (4 * r + i) 0) 0)

def toBytes16 (x : Nat) : List Nat := (List.range 16).map (fun i => x / 256 ^ (15 - i) % 256)
def ofBytes16 (l : List Nat) : Nat := l.foldl (fun a b => a * 256 + b) 0

/-- SubBytes and ShiftRows. -/
def subShift (x : Nat) : List Nat :=
  let b := toBytes16 x
  (List.range 16).map (fun i => sbox (b.getD ((i + 4 * (i % 4)) % 16) 0))

def mixColumn (c : List Nat) : List Nat :=
  let at4 (i : Nat) : Nat := c.getD (i % 4) 0
  (List.range 4).map (fun i => xtime (at4 i) ^^^ (xtime (at4 (i + 1)) ^^^ at4 (i + 1)) ^^^ at4 (i + 2) ^^^ at4 (i + 3))

def mixColumns (b : List Nat) : List Nat := (List.range 4).flatMap (fun c => mixColumn ((b.drop (4 * c)).take 4))

/-- AES encryption of one block under a list of round keys. -/
def aesBlock (ks : List Nat) (x : Nat) : Nat :=
  match ks with
  | [] => x
  | k0 :: t =>
    let y := t.dropLast.foldl (fun x k => ofBytes16 (mixColumns (subShift x)) ^^^ k) (x ^^^ k0)
    ofBytes16 (subShift y) ^^^ t.getLastD 0

/-- A block of up to 16 bytes as a number, padded with zeros on the right. -/
def block128 (l : List Byte) : Nat := beNat l * 256 ^ (16 - l.length)

/-! ### CMAC -/

/-- Doubling in GF(2^128) as CMAC orders the bits. -/
def dbl128 (x : Nat) : Nat := if x < 2 ^ 127 then 2 * x else (2 * x) % 2 ^ 128 ^^^ 0x87

/-- AES-CMAC: the 128-bit tag. -/
def cmac (ks : List Nat) (m : List Byte) : Nat :=
  let k1 := dbl128 (aesBlock ks 0)
  let bs := if m.isEmpty then [[]] else blocks 16 (m.length / 16 + 1) m
  let lastB := bs.getLastD []
  let fin := if lastB.length = 16 then block128 lastB ^^^ k1 else block128 (lastB ++ [0x80#8]) ^^^ dbl128 k1
  aesBlock ks (bs.dropLast.foldl (fun c b => aesBlock ks (c ^^^ block128 b)) 0 ^^^ fin)

/-! ### GCM -/

/-- Multiplication in GF(2^128) as GCM orders the bits: `n` bits of `x` from the most significant one of 128. -/
def ghashMul : Nat → Nat → Nat → Nat → Nat
  | 0, _, _, z => z
  | n + 1, x, v, z =>
    let z := if x / 2 ^ n % 2 = 1 then z ^^^ v else z
    let v := if v % 2 = 0 then v / 2 else v / 2 ^^^ 0xe1 * 2 ^ 120
    ghashMul n x v z

def ghash (h : Nat) (y : Nat) (l : List (List Byte)) : Nat :=
  l.foldl (fun y b => ghashMul 128 (y ^^^ block128 b) h 0) y

/-- Counter-mode encryption from a counter block on. -/
def gctr (ks : List Nat) : List (List Byte) → Nat → List Byte
  | [], _ => []
  | b :: t, cb =>
    let k := beBytes 16 (aesBlock ks cb)
    (b.zip k).map (fun p => p.1 ^^^ p.2) ++ gctr ks t (cb / 2 ^ 32 * 2 ^ 32 + (cb + 1) % 2 ^ 32)

/-- AES-GCM with a 96-bit IV: the text transformed, and the tag over the ciphertext, which is the input when decrypting. -/
def gcm (ks : List Nat) (iv : Nat) (aad text : List Byte) (decrypt : Bool) : List Byte × Nat :=
  let h := aesBlock ks 0
  let j0 := iv * 2 ^ 32 + 1
  let cut (l : List Byte) : List (List Byte) := blocks 16 (l.length / 16 + 1) l
  let out := gctr ks (cut text) (iv * 2 ^ 32 + 2)
  let c := if decrypt then text else out
  let s := ghash h (ghash h 0 (cut aad)) (cut c)
  let s := ghashMul 128 (s ^^^ (8 * aad.length * 2 ^ 64 + 8 * c.length)) h 0
  (out, aesBlock ks j0 ^^^ s)

/-! ### ECDSA on P-256 -/

def p256P : Nat := 2 ^ 256 - 2 ^ 224 + 2 ^ 192 + 2 ^ 96 - 1
def p256N : Nat := 0xffffffff00000000ffffffffffffffffbce6faada7179e84f3b9cac2fc632551
def p256B : Nat := 0x5ac635d8aa3a93e7b3ebbd55769886bc651d06b0cc53b0f63bce3c3e27d2604b
def p256Gx : Nat := 0x6b17d1f2e12c4247f8bce6e563a440f277037d812deb33a0f4a13945d898c296
def p256Gy : Nat := 0x4fe342e2fe1a7f9b8ee7eb4a7c0f9e162bce33576b315ececbb6406837bf51f5

/-- b to the power of the low `n` bits of `e`, modulo m. -/
def powMod (m : Nat) : Nat → Nat → Nat → Nat
  | 0, _, _ => 1
  | n + 1, b, e => (if e % 2 = 1 then b else 1) * powMod m n (b * b % m) (e / 2) % m

/-- The inverse modulo a prime below 2^256. -/
def invMod (m a : Nat) : Nat := powMod m 256 (a % m) (m - 2)

/-- A point of the curve in projective form: (X, Y, Z) stands for (X/Z², Y/Z³), and Z = 0 for the point at infinity.  The
form keeps divisions out of the chain of additions. -/
abbrev EcPoint := Nat × Nat × Nat

/-- a - b modulo p, both reduced. -/
def subP (a b : Nat) : Nat := (a + (p256P - b)) % p256P

/-- A point added to itself. -/
def ecDouble (q : EcPoint) : EcPoint :=
  let (x, y, z) := q
  let p := p256P
  let yy := y * y % p
  let zz := z * z % p
  let s := 4 * x * yy % p
  let m := 3 * subP x zz * (x + zz) % p
  let x' := subP (m * m % p) (2 * s % p)
  (x', subP (m * subP s x' % p) (8 * yy * yy % p), 2 * y * z % p)

/-- Addition on the curve. -/
def ecAdd (a b : EcPoint) : EcPoint :=
  let (x1, y1, z1) := a
  let (x2, y2, z2) := b
  let p := p256P
  if z1 = 0 then b
  else if z2 = 0 then a
  else
    let zz1 := z1 * z1 % p
    let zz2 := z2 * z2 % p
    let u := x1 * zz2 % p
    let h := subP (x2 * zz1 % p) u
    let v := y1 * zz2 * z2 % p
    let r := subP (y2 * zz1 * z1 % p) v
    if h = 0 then (if r = 0 then ecDouble a else (1, 1, 0))
    else
      let hh := h * h % p
      let hhh := h * hh % p
      let w := u * hh % p
      let x' := subP (r * r % p) ((hhh + 2 * w) % p)
      (x', subP (r * subP w x' % p) (v * hhh % p), h * z1 * z2 % p)

/-- k times a point, over the low `n` bits of `k`. -/
def ecMul : Nat → Nat → EcPoint → EcPoint
  | 0, _, _ => (1, 1, 0)
  | n + 1, k, q => if k = 0 then (1, 1, 0) else ecAdd (if k % 2 = 1 then q else (1, 1, 0)) (ecMul n (k / 2) (ecDouble q))

/-- Whether (r, s) is a signature of the digest under the public key (x, y). -/
def ecdsaOk (digest x y r s : Nat) : Bool :=
  let p := p256P
  let n := p256N
  if x < p ∧ y < p ∧ (y * y) % p = (x * x * x + (p - 3) * x + p256B) % p ∧ 0 < r ∧ r < n ∧ 0 < s ∧ s < n then
    let w := invMod n s
    let q := ecAdd (ecMul 256 (digest * w % n) (p256Gx, p256Gy, 1)) (ecMul 256 (r * w % n) (x, y, 1))
    let zi := invMod p q.2.2
    q.2.2 != 0 && q.1 * (zi * zi % p) % p % n == r
  else false

end Sys2Proof.Machine
end

