-- ==== Sys2Proof/Machine/Fdb.lean ====
section
/-! DEFINITION. Forwarding tables: entries, hashing, lookup, insertion with relocation, the stash, learning, ageing, the
shadow and the command interface (chapter 3). -/

namespace Sys2Proof.Machine

/-! ### CRCs (R60) -/

/-- One bit of a reflected CRC of 32 bits with reflected polynomial `poly`. -/
def crcBit (poly c : Nat) : Nat := if c % 2 = 1 then (c / 2) ^^^ poly else c / 2

/-- One byte of a reflected CRC. -/
def crcByte (poly c : Nat) (b : Byte) : Nat := iter (crcBit poly) 8 (c ^^^ b.toNat)

/-- A reflected 32-bit CRC with initial value and final XOR 0xFFFF_FFFF. -/
def crc32With (poly : Nat) (l : List Byte) : Nat := (l.foldl (crcByte poly) 0xFFFFFFFF) ^^^ 0xFFFFFFFF

/-- CRC-32C: polynomial 0x1EDC_6F41, reflected 0x82F6_3B78. -/
def crc32c (l : List Byte) : Nat := crc32With 0x82F63B78 l

/-- CRC-32 of IEEE 802.3: polynomial 0x04C1_1DB7, reflected 0xEDB8_8320. -/
def crc32 (l : List Byte) : Nat := crc32With 0xEDB88320 l

/-! ### Entries (R58, Table 3.1) -/

/-- Bits `[lsb + w - 1 : lsb]` of a number. -/
def nbits (n lsb w : Nat) : Nat := n / 2 ^ lsb % 2 ^ w

/-- A number with bits `[lsb + w - 1 : lsb]` replaced. -/
def setNbits (n lsb w v : Nat) : Nat := n % 2 ^ lsb + (v % 2 ^ w) * 2 ^ lsb + n / 2 ^ (lsb + w) * 2 ^ (lsb + w)

def FdbEntry.mac (e : FdbEntry) : Nat := nbits e.key 16 48
def FdbEntry.fid (e : FdbEntry) : Nat := nbits e.key 4 12
def FdbEntry.typ (e : FdbEntry) : Nat := nbits e.key 0 4
def FdbEntry.hit (e : FdbEntry) : Bool := nbits e.res 63 1 != 0
def FdbEntry.strike (e : FdbEntry) : Bool := nbits e.res 62 1 != 0
def FdbEntry.static (e : FdbEntry) : Bool := nbits e.res 61 1 != 0
def FdbEntry.action (e : FdbEntry) : Nat := nbits e.res 58 2
def FdbEntry.destMask (e : FdbEntry) : Nat := nbits e.res 42 16
def FdbEntry.subS (e : FdbEntry) : Nat := nbits e.res 34 8
def FdbEntry.subH (e : FdbEntry) : Nat := nbits e.res 29 5
def FdbEntry.tcOvr (e : FdbEntry) : Bool := nbits e.res 28 1 != 0
def FdbEntry.tc (e : FdbEntry) : Nat := nbits e.res 25 3
def FdbEntry.stream (e : FdbEntry) : Nat := nbits e.res 13 12

/-- The entry with HIT set or clear. -/
def FdbEntry.setHit (e : FdbEntry) (b : Bool) : FdbEntry := { e with res := setNbits e.res 63 1 (b2n b) }

/-- The entry with STRIKE set or clear. -/
def FdbEntry.setStrike (e : FdbEntry) (b : Bool) : FdbEntry := { e with res := setNbits e.res 62 1 (b2n b) }

/-- A result as the table and the shadow hold it: bit 15 of DEST_MASK is reserved and reads 0 (R58, Table 3.1). -/
def heldRes (r : Nat) : Nat := setNbits r 57 1 0

/-- A result without its maintenance bits HIT and STRIKE (R59). -/
def plainRes (r : Nat) : Nat := nbits r 0 62

/-- The empty entry: what an unlisted slot holds. -/
def noEntry (_ : Nat) : FdbEntry := {}

/-- The key of an address: MAC, FID and TYPE 1. -/
def fdbKey (mac fid : Nat) : Nat := mac * 2 ^ 16 + fid % 4096 * 16 + 1

/-- The result of a learnt entry: the source as its only destination, HIT 1 and nothing else (R76). A station learnt from P15 has
DEST_MASK 0, whose bit 15 reads 0 (DESIGN CHOICE, log entry 109: R76 says nothing of it). -/
def learntRes (port sub : Nat) : Nat :=
  2 ^ 63 + 2 ^ (42 + port) + (if port = 12 then 2 ^ (34 + sub) else 0) + (if port = 14 then 2 ^ (29 + sub) else 0)

/-- Whether (port, sub) is the source of an entry: the single port of DEST_MASK with its single segment or function
(3.2). -/
def FdbEntry.sourceIs (e : FdbEntry) (port sub : Nat) : Bool :=
  e.destMask == 2 ^ port && (port != 12 || e.subS == 2 ^ sub) && (port != 14 || e.subH == 2 ^ sub)

/-! ### Slots -/

/-- The ledger memory number of a forwarding table, a shadow and a VLAN table (Table 15.8). -/
def memFdb (w : Bool) : Nat := if w then 2 else 1
def memShadow (w : Bool) : Nat := if w then 4 else 3
def memVlan (w : Bool) : Nat := if w then 6 else 5

/-- The entry in a slot: bucket × 4 + way, or 32,768 + stash index. -/
def State.fdbAt (s : State) (w : Bool) (slot : Nat) : FdbEntry := smGet noEntry (s.pipe w).fdb slot

/-- An entry that holds something. -/
def FdbEntry.used (e : FdbEntry) : Bool := e.typ != 0

/-- The two candidate buckets of a key (R60). -/
def candidates (key seed : Nat) : Nat × Nat :=
  let m := beBytes 8 key ++ beBytes 4 seed
  (crc32c m % 4096, 4096 + crc32 m % 4096)

/-- The candidate buckets of a key in one pipeline. -/
def State.buckets (s : State) (w : Bool) (key : Nat) : Nat × Nat :=
  candidates key (s.rd (uPipe w) F.pipe_FDB_SEED)

/-- The slots of a bucket. -/
def bucketSlots (b : Nat) : List Nat := [4 * b, 4 * b + 1, 4 * b + 2, 4 * b + 3]

/-- The slots of the stash. -/
def stashSlots : List Nat := (List.range 64).map (fun i => 32768 + i)

/-- The slots a lookup of a key reads, in the order of R65. -/
def State.slotsFor (s : State) (w : Bool) (key : Nat) : List Nat :=
  let b := s.buckets w key
  bucketSlots b.1 ++ bucketSlots b.2 ++ stashSlots

/-- A slot written, with the occupancy counts of FDB_OCC kept. -/
def State.putFdb (s : State) (w : Bool) (slot : Nat) (e : FdbEntry) : State :=
  let e : FdbEntry := { e with res := heldRes e.res }
  let old := (s.fdbAt w slot).used
  let p := s.pipe w
  let s1 := (s.setPipe w { p with fdb := smSet noEntry p.fdb slot e }).clearUpset (memFdb w) slot
  let u := uPipe w
  if old = e.used then s1
  else if slot < 32768 then
    s1.wr u F.pipe_FDB_OCC_ENTRIES (if e.used then s.rd u F.pipe_FDB_OCC_ENTRIES + 1
      else s.rd u F.pipe_FDB_OCC_ENTRIES - 1)
  else
    let n := if e.used then s.rd u F.pipe_FDB_OCC_STASH + 1 else s.rd u F.pipe_FDB_OCC_STASH - 1
    (s1.wr u F.pipe_FDB_OCC_STASH n).wr u F.pipe_FDB_OCC_STASH_HWM (max n (s.rd u F.pipe_FDB_OCC_STASH_HWM))

/-- A table word whose code fails: treated as empty, reported by the table-memory detector, and cleared by the update port
(R66, R441). -/
def State.fdbFail (s : State) (w : Bool) (slot : Nat) (inj : Bool) : State :=
  ((s.putFdb w slot {}).clearUpset (memFdb w) slot).codeFail (uPipe w) 0
    { access := 6, addr := memAddr (memFdb w) slot } inj

/-- The codes of the words a lookup reads: a correctable one is corrected, counted and rewritten, a failing one is treated
as empty (R66). -/
def State.fdbCheck (s : State) (w : Bool) (slots : List Nat) : State :=
  if s.upsets.isEmpty then s
  else slots.foldl (fun s slot =>
    match s.codeOf (memFdb w) slot with
    | .good => s
    | .corrected => (s.clearUpset (memFdb w) slot).sat (uPipe w) F.pipe_ECC_CORR
    | .failed => s.fdbFail w slot false) s

/-- Whether any of these words has an uncorrectable error (R437). -/
def State.anyFailed (s : State) (mem : Nat) (idx : List Nat) : Bool :=
  !s.upsets.isEmpty && idx.any (fun i => s.codeOf mem i == .failed)

/-- A slot that a lookup of a key matches: an entry, not an empty way, that holds it, in a row that is not retired (R65, R336). -/
def State.holds (s : State) (w : Bool) (key slot : Nat) : Bool :=
  (s.fdbAt w slot).used && (s.fdbAt w slot).key == key && !s.retiredWord (memFdb w) slot

/-- The first slot that holds a key, in the order of R65. -/
def State.findKey (s : State) (w : Bool) (key : Nat) : Option Nat := (s.slotsFor w key).find? (s.holds w key)

/-- A lookup at a port: the codes of its words, then the first match (R64 to R66). -/
def State.fdbLookup (s : State) (w : Bool) (key : Nat) : Option FdbEntry × State :=
  let s := s.fdbCheck w (s.slotsFor w key)
  (match s.findKey w key with
   | none => none
   | some slot => some (s.fdbAt w slot), s)

/-- A lookup at the head port: an armed injection into the table-memory detector alters the check of way 0 of bucket b0
(R436), whether or not that way holds an entry. -/
def State.headLookup (s : State) (w : Bool) (key : Nat) : Option FdbEntry × State :=
  let slot := 4 * (s.buckets w key).1
  let (r, inj, s) := s.codeCheck (uPipe w) 0 .good
  let s := if !inj then s
    else match r with
      | .failed => s.fdbFail w slot true
      | _ => s.sat (uPipe w) F.pipe_ECC_CORR
  s.fdbLookup w key

/-! ### Insertion (R67 to R69, R71) -/

/-- A way that an insertion can write: empty, and not in a retired row. -/
def State.freeSlot (s : State) (w : Bool) (slot : Nat) : Bool :=
  !(s.fdbAt w slot).used && !s.retiredWord (memFdb w) slot

/-- The lowest empty way of a bucket. -/
def State.emptyWay (s : State) (w : Bool) (b : Nat) : Option Nat := (bucketSlots b).find? (s.freeSlot w)

/-- The victim way of R68: the pointer's way, skipping ways already on the path; answers the slot and the pointer. -/
def pickWay (path : List Nat) (b : Nat) : Nat → Nat → Nat × Nat
  | 0, ptr => (4 * b + ptr % 4, (ptr + 1) % 4)
  | fuel + 1, ptr =>
    let slot := 4 * b + ptr % 4
    if path.contains slot then pickWay path b fuel ((ptr + 1) % 4) else (slot, (ptr + 1) % 4)

/-- The pointer `ptr` of a table (R68). -/
def State.setPtr (s : State) (w : Bool) (ptr : Nat) : State := s.setPipe w { s.pipe w with ptr := ptr }

/-- Slots read by the update port: R66 for each, and whether a word among them has an uncorrectable error (R437). -/
def State.readSlots (s : State) (w : Bool) (slots : List Nat) : Bool × State :=
  (s.anyFailed (memFdb w) slots, s.fdbCheck w slots)

/-- The search for a relocation path (R68): at most `fuel` victims from bucket `b`, each alternate bucket read under R66; answers
the path, last victim first, with the free slot it ends at, and whether a word read was uncorrectable. -/
def State.findPath (w : Bool) : Nat → List Nat → Nat → Bool → State → Option (List Nat × Nat) × Bool × State
  | 0, _, _, bad, s => (none, bad, s)
  | fuel + 1, path, b, bad, s =>
    if (bucketSlots b).all (fun x => path.contains x || s.retiredWord (memFdb w) x) then (none, bad, s)
    else
      let (slot, ptr) := pickWay path b 3 (s.pipe w).ptr
      let path := slot :: path
      let c := s.buckets w (s.fdbAt w slot).key
      let alt := if c.1 = b then c.2 else c.1
      let (bad', s) := (s.setPtr w ptr).readSlots w (bucketSlots alt)
      match s.emptyWay w alt with
      | some dst => (some (path, dst), bad || bad', s)
      | none => State.findPath w fuel path alt (bad || bad') s

/-- The moves of a path, last victim first: each entry is copied into its destination, then its source is cleared
(R69); answers the slot left free. -/
def State.movePath (s : State) (w : Bool) : List Nat → Nat → Nat × State
  | [], dst => (dst, s)
  | src :: t, dst => ((s.putFdb w dst (s.fdbAt w src)).putFdb w src {}).movePath w t src

/-- The slot that an insertion of a key takes (R68), the way to it made free: the entry that holds the key, an empty way of b0 or
b1, up to eight relocation moves, a free stash entry; none for FULL, which changes no entry (R72). Beside it, whether a word read
was uncorrectable (R437). DESIGN CHOICE (log entry 79): of several free stash entries, of which R68 takes "a" one, the one of the
lowest number. -/
def State.placeFor (s : State) (w : Bool) (key : Nat) : Option Nat × Bool × State :=
  let (bad, s) := s.readSlots w (s.slotsFor w key)
  let b := s.buckets w key
  match (s.findKey w key).or ((s.emptyWay w b.1).or (s.emptyWay w b.2)) with
  | some slot => (some slot, bad, s)
  | none =>
    match State.findPath w 8 [] b.1 bad s with
    | (some (path, dst), bad, s) => ((some (s.movePath w path dst).1), bad, (s.movePath w path dst).2)
    | (none, bad, s) => (stashSlots.find? (s.freeSlot w), bad, s)

/-- Insertion (R68): the slot, or none for FULL, and whether a word read was uncorrectable. -/
def State.insertEntry (s : State) (w : Bool) (key res : Nat) : Option Nat × Bool × State :=
  let (r, bad, s) := s.placeFor w key
  match r with
  | some slot => (r, bad, s.putFdb w slot ⟨key, res⟩)
  | none => (none, bad, s)

/-- The stash move of R71: into a bucket way just emptied goes the lowest-numbered stash entry that has the bucket as a
candidate. -/
def State.stashMove (s : State) (w : Bool) (slot : Nat) : State :=
  if 32768 ≤ slot then s
  else
    match stashSlots.find? (fun st =>
        (s.fdbAt w st).used &&
          (let c := s.buckets w (s.fdbAt w st).key
           c.1 == slot / 4 || c.2 == slot / 4)) with
    | none => s
    | some st => (s.putFdb w slot (s.fdbAt w st)).putFdb w st {}

/-- An entry removed, then R71 applied to its way. -/
def State.removeAt (s : State) (w : Bool) (slot : Nat) : State := (s.putFdb w slot {}).stashMove w slot

/-! ### Learning (R73 to R77) -/

/-- A source event delivered to one table's event FIFO of 64; one that finds it full is discarded and counted (R75). -/
def State.pushEvent (s : State) (w : Bool) (e : SourceEvent) : State :=
  let p := s.pipe w
  if p.eventFifo.length < 64 then s.setPipe w { p with eventFifo := p.eventFifo ++ [e] }
  else s.sat (uPipe w) F.pipe_HIT_LOST

/-- A source event delivered to both tables (R74). -/
def State.sourceEvent (s : State) (e : SourceEvent) : State := (s.pushEvent false e).pushEvent true e

/-- A learn request: admitted up to LEARN_LIMIT per tick into a queue of 64, else counted in LEARN_DROP (R75). -/
def State.learnRequest (s : State) (w : Bool) (e : SourceEvent) : State :=
  let p := s.pipe w
  if p.learnAdmitted < s.rd (uPipe w) F.pipe_FDB_CFG_LEARN_LIMIT ∧ p.learnQ.length < 64 then
    s.setPipe w { p with learnQ := p.learnQ ++ [e], learnAdmitted := p.learnAdmitted + 1 }
  else (s.setPipe w { p with learnShed := true }).sat (uPipe w) F.pipe_LEARN_DROP

/-- `SOURCE_EVENT`: the next event of a table's FIFO is looked up at the event port and acted on (R74). DESIGN CHOICE (log entry 80):
a static entry of the same source whose HIT is clear meets two lines of R74; the line on static entries holds, so nothing is done. -/
def sourceEventStep (w : Bool) (s : State) : State :=
  match (s.pipe w).eventFifo with
  | [] => s
  | e :: t =>
    let s := s.setPipe w { s.pipe w with eventFifo := t }
    let key := fdbKey e.sa e.fid
    let (r, s) := s.fdbLookup w key
    match r with
    | none => s.learnRequest w e
    | some x =>
      if x.static then s
      else if x.sourceIs e.port e.sub then
        if x.hit then s
        else
          let p := s.pipe w
          if p.hitQ.length < 32 then s.setPipe w { p with hitQ := p.hitQ ++ [key] }
          else s.sat (uPipe w) F.pipe_HIT_LOST
      else s.learnRequest w e

/-- `HIT_UPDATE`: HIT is set on every copy of the next queued key (R70). -/
def hitUpdateStep (w : Bool) (s : State) : State :=
  match (s.pipe w).hitQ with
  | [] => s
  | key :: t =>
    let s := s.setPipe w { s.pipe w with hitQ := t }
    (s.slotsFor w key).foldl (fun s slot =>
      if s.holds w key slot then s.putFdb w slot ((s.fdbAt w slot).setHit true) else s) s

/-- `LEARN_INSERT`: the next learn request, once the hit queue is empty: a new learnt entry, or a station move in place
(R76, R72). DESIGN CHOICE (log entry 81): a request whose key is by now held by a static entry, or with the request's own source,
changes nothing; R76 does not say. -/
def learnInsertStep (w : Bool) (s : State) : State :=
  match (s.pipe w).hitQ, (s.pipe w).learnQ with
  | [], e :: t =>
    let s := s.setPipe w { s.pipe w with learnQ := t }
    let key := fdbKey e.sa e.fid
    let s := s.fdbCheck w (s.slotsFor w key)
    match s.findKey w key with
    | some slot =>
      let x := s.fdbAt w slot
      if x.static ∨ x.sourceIs e.port e.sub then s
      else
        let l := learntRes e.port e.sub
        (s.putFdb w slot { x with res := setNbits x.res 29 29 (nbits l 29 29) }).inc (uPipe w) F.pipe_MOVES
    | none =>
      let (r, _, s) := s.insertEntry w key (learntRes e.port e.sub)
      if r.isSome then s.inc (uPipe w) F.pipe_LEARNED else s.sat (uPipe w) F.pipe_LEARN_FAIL
  | _, _ => s

/-! ### Ageing and the shadow (R78 to R80) -/

/-- One entry under the ageing sweep (R78). -/
def State.ageEntry (s : State) (w : Bool) (slot : Nat) : State :=
  let e := s.fdbAt w slot
  if !e.used ∨ e.static then s
  else if e.hit then s.putFdb w slot ((e.setHit false).setStrike false)
  else if !e.strike then s.putFdb w slot (e.setStrike true)
  else (s.removeAt w slot).inc (uPipe w) F.pipe_AGED

/-- The listed slots from `lo` up to `hi`. -/
def State.listedSlots (s : State) (w : Bool) (lo hi : Nat) : List Nat :=
  ((s.pipe w).fdb.map (·.1)).filter (fun k => lo ≤ k && k < hi)

/-- The items of the ageing slice of a tick (3.6): AGE_SLICE buckets from POSITION, or the 64 stash entries as the last slice. -/
def State.ageItems (s : State) (w : Bool) : Nat :=
  let u := uPipe w
  let pos := s.rd u F.pipe_AGE_STATUS_POSITION
  if !s.flag u F.pipe_AGE_STATUS_SWEEPING then 0
  else if pos < 8192 then min (clampNat 1 1024 (s.rd u F.pipe_AGE_SLICE_BUCKETS)) (8192 - pos)
  else 64

/-- The next `k` items of the ageing slice, of which `left` are still to visit (R78): buckets from POSITION on, or stash entries; with
the last of the stash the sweep ends. -/
def State.ageSome (s : State) (w : Bool) (left k : Nat) : State :=
  let u := uPipe w
  let pos := s.rd u F.pipe_AGE_STATUS_POSITION
  if k = 0 then s
  else if pos < 8192 then
    ((s.listedSlots w (4 * pos) (4 * (pos + k))).foldl (fun s n => s.ageEntry w n) s).wr u F.pipe_AGE_STATUS_POSITION (pos + k)
  else
    let lo := 32768 + (64 - left)
    let s := (s.listedSlots w lo (lo + k)).foldl (fun s n => s.ageEntry w n) s
    if k < left then s else (s.wr u F.pipe_AGE_STATUS_POSITION 0).wr u F.pipe_AGE_STATUS_SWEEPING 0

/-- The start of a sweep at a boundary (R78): the first one since the reset or since AGE_PERIOD was 0 at the first boundary at which
the pipeline counts as enabled; each later one AGE_PERIOD ticks after the start of the one before, once that one has ended.
AGE_PERIOD 0 ends the sweep under way, whose unvisited part of a slice is dropped, and holds POSITION. -/
def State.sweepTick (s : State) (w : Bool) : State :=
  let u := uPipe w
  let per := s.rd u F.pipe_AGE_PERIOD_TICKS
  let age := (s.pipe w).sweepAge.map (· + 1)
  if per = 0 then
    ((s.setPipe w { s.pipe w with sweepAge := none }).wr u F.pipe_AGE_STATUS_SWEEPING 0).setTickJob u
      { s.tickJob u with first := 0 }
  else if s.enabled u ∧ (age.isNone ∨ (!s.flag u F.pipe_AGE_STATUS_SWEEPING ∧ per ≤ age.getD 0)) then
    ((s.setPipe w { s.pipe w with sweepAge := some 0 }).wr u F.pipe_AGE_STATUS_SWEEPING 1).wr u F.pipe_AGE_STATUS_POSITION 0
  else s.setPipe w { s.pipe w with sweepAge := age }

/-- A shadow or VLAN word with an uncorrectable error is reported by the table-memory detector and left unchanged
(R437). -/
def State.reportWord (s : State) (w : Bool) (mem idx : Nat) : State :=
  s.codeFail (uPipe w) 0 { access := 6, addr := memAddr mem idx } false

/-- A word of the shadow or the VLAN table read: an uncorrectable one is reported, a correctable one rewritten (R437) and, in the VLAN
table, counted (Table 3.9). -/
def State.sideRead (s : State) (w : Bool) (mem idx : Nat) : Bool × State :=
  match s.codeOf mem idx with
  | .good => (false, s)
  | .corrected =>
    (false, if mem = memVlan w then (s.clearUpset mem idx).sat (uPipe w) F.pipe_ECC_CORR else s.clearUpset mem idx)
  | .failed => (true, s.reportWord w mem idx)

/-- The comparison of one shadow entry with the table, looked up as every lookup is (R66, R80). A shadow word that cannot be read is
reported and not compared (DEDUCED from R437, log entry 82). -/
def State.shadowCheck (s : State) (w : Bool) (i : Nat) : State :=
  let u := uPipe w
  let (bad, s) := s.sideRead w (memShadow w) i
  let e := smGet noEntry (s.pipe w).shadow i
  if bad then s
  else
    let s := s.fdbCheck w (s.slotsFor w e.key)
    let found := s.findKey w e.key
    let differs := match found with
      | none => true
      | some slot => plainRes (s.fdbAt w slot).res != plainRes e.res
    let addr := match found with
      | none => 0
      | some slot => memAddr (memFdb w) slot
    let forced := s.armed u 1
    let s := s.check u 1 differs { access := 6, addr := addr }
    if !differs && !forced then s
    else
      let s := (s.sat u F.pipe_SHADOW_STATUS_MISMATCHES).wr u F.pipe_SHADOW_STATUS_LAST_INDEX i
      if s.flag u F.pipe_SHADOW_CFG_REPAIR then (s.insertEntry w e.key e.res).2.2 else s

/-- SHADOW_CFG.COUNT as it acts. -/
def State.shadowCount (s : State) (w : Bool) : Nat := min 4096 (s.rd (uPipe w) F.pipe_SHADOW_CFG_COUNT)

/-- The shadow entries to compare, in the comparer's order: the indices below COUNT whose TYPE is not 0, from the next one on
(R80). -/
def State.shadowOrder (s : State) (w : Bool) : List Nat :=
  let l := ((s.pipe w).shadow.filter (fun x => x.2.used && decide (x.1 < s.shadowCount w))).map (·.1)
  let next := (s.pipe w).shadowNext
  l.filter (next ≤ ·) ++ l.filter (· < next)

/-- The items of the compare slice: the next 16 entries, each at most once (R80). -/
def State.shadowItems (s : State) (w : Bool) : Nat := min 16 (s.shadowOrder w).length

/-- The next `k` comparisons. -/
def State.shadowSome (s : State) (w : Bool) (k : Nat) : State :=
  ((s.shadowOrder w).take k).foldl (fun s i =>
    (s.shadowCheck w i).setPipe w { (s.shadowCheck w i).pipe w with shadowNext := i + 1 }) s

/-- The learning counts at a boundary: LEARN_LIMIT starts over, and 16 ticks with a discard in each set SUSTAINED and
STICKY (R75, R77). -/
def State.learnTick (s : State) (w : Bool) : State :=
  let p := s.pipe w
  let run := if p.learnShed then min 16 (p.learnRun + 1) else 0
  let s := s.setPipe w { p with learnAdmitted := 0, learnShed := false, learnRun := run }
  if run = 16 then (s.wr (uPipe w) F.pipe_LEARN_STATUS_SUSTAINED 1).wr (uPipe w) F.pipe_LEARN_STATUS_STICKY 1
  else s.wr (uPipe w) F.pipe_LEARN_STATUS_SUSTAINED 0

/-! ### Commands (R82, R437, Table 3.7) -/

/-- STATUS codes of FDB_CMD. -/
def fdbOk : Nat := 0
def fdbNotFound : Nat := 1
def fdbFull : Nat := 2
def fdbBadArg : Nat := 3
def fdbEccErr : Nat := 4

/-- The key and the result in the operand registers. -/
def State.fdbKeyReg (s : State) (w : Bool) : Nat :=
  s.rd (uPipe w) F.pipe_FDB_KEY_HI * 2 ^ 32 + s.rd (uPipe w) F.pipe_FDB_KEY_LO
def State.fdbResReg (s : State) (w : Bool) : Nat :=
  s.rd (uPipe w) F.pipe_FDB_RES_HI * 2 ^ 32 + s.rd (uPipe w) F.pipe_FDB_RES_LO

/-- A result into FDB_RES_*. -/
def State.putRes (s : State) (w : Bool) (r : Nat) : State :=
  (s.wr (uPipe w) F.pipe_FDB_RES_HI (r / 2 ^ 32)).wr (uPipe w) F.pipe_FDB_RES_LO r

/-- A word into the key and result registers. -/
def State.putKeyRes (s : State) (w : Bool) (e : FdbEntry) : State :=
  ((s.wr (uPipe w) F.pipe_FDB_KEY_HI (e.key / 2 ^ 32)).wr (uPipe w) F.pipe_FDB_KEY_LO e.key).putRes w e.res

/-- The status the running command will report. -/
def State.fdbStatus (s : State) (w : Bool) (st : Nat) : State := s.setPipe w { s.pipe w with cmdStatus := st }

/-- The address of FDB_CMD in one pipeline. -/
def fdbCmdAddr (w : Bool) : Nat := fldAddr (uPipe w) F.pipe_FDB_CMD 0 0

/-- A write of FDB_CMD: refused while BUSY is 1, else BUSY is set and the command runs on the update port (R82). -/
def State.fdbStart (s : State) (w : Bool) (master : Nat) (run : State → State) : State :=
  if s.flag (uPipe w) F.pipe_FDB_CMD_BUSY then s.refuse master (fdbCmdAddr w)
  else run (s.wr (uPipe w) F.pipe_FDB_CMD_BUSY 1)

/-- `FDB_NOP`. -/
def fdbNopRun (w : Bool) (s : State) : State := s.fdbStatus w fdbOk

/-- The words of a key's candidate buckets and of the stash, read by a command. -/
def State.cmdRead (s : State) (w : Bool) (key : Nat) : Bool × State := s.readSlots w (s.slotsFor w key)

/-- `FDB_INSERT` (R68, Table 3.7). -/
def fdbInsertRun (w : Bool) (s : State) : State :=
  let key := s.fdbKeyReg w
  let res := s.fdbResReg w
  if key % 16 ≠ 1 ∨ nbits res 57 1 ≠ 0 then s.fdbStatus w fdbBadArg
  else
    let (r, bad, s) := s.insertEntry w key res
    match r with
    | none => s.fdbStatus w fdbFull
    | some slot => (s.wr (uPipe w) F.pipe_FDB_SLOT slot).fdbStatus w (if bad then fdbEccErr else fdbOk)

/-- `FDB_DELETE`. -/
def fdbDeleteRun (w : Bool) (s : State) : State :=
  let key := s.fdbKeyReg w
  let (bad, s) := s.cmdRead w key
  match s.findKey w key with
  | none => s.fdbStatus w (if bad then fdbEccErr else fdbNotFound)
  | some slot => (s.removeAt w slot).fdbStatus w (if bad then fdbEccErr else fdbOk)

/-- `FDB_LOOKUP`. With no match and an uncorrectable word among those read, FDB_RES is 0 (DESIGN CHOICE, log entry 109: R437 says what the
result holds for the word read and names none of several). -/
def fdbLookupRun (w : Bool) (s : State) : State :=
  let key := s.fdbKeyReg w
  let (bad, s) := s.cmdRead w key
  match s.findKey w key with
  | none => (if bad then s.putRes w 0 else s).fdbStatus w (if bad then fdbEccErr else fdbNotFound)
  | some slot => ((s.putRes w (s.fdbAt w slot).res).wr (uPipe w) F.pipe_FDB_SLOT slot).fdbStatus w
      (if bad then fdbEccErr else fdbOk)

/-- `FDB_READ_SLOT`. -/
def fdbReadSlotRun (w : Bool) (idx : Nat) (s : State) : State :=
  if 32831 < idx then s.fdbStatus w fdbBadArg
  else
    let bad := s.anyFailed (memFdb w) [idx]
    let s := s.fdbCheck w [idx]
    (s.putKeyRes w (s.fdbAt w idx)).fdbStatus w (if bad then fdbEccErr else fdbOk)

/-- An entry that FLUSH removes: learnt, meeting the mask, of the FID when the key's TYPE is 1. -/
def flushes (key mask : Nat) (e : FdbEntry) : Bool :=
  e.used && !e.static && (e.destMask &&& mask) != 0 && (key % 16 == 0 || e.fid == nbits key 4 12)

/-- `FDB_FLUSH` (R437): removes every learnt entry whose destination meets the mask, then R71 for each way emptied. -/
def fdbFlushRun (w : Bool) (s : State) : State :=
  let key := s.fdbKeyReg w
  let mask := nbits (s.fdbResReg w) 42 16
  if 2 ≤ key % 16 then s.fdbStatus w fdbBadArg
  else
    let bad := !s.upsets.isEmpty && s.upsets.any (fun u => u.mem == memFdb w && !u.correctable)
    let s := s.fdbCheck w (s.upsets.map (·.index))
    let gone := (s.listedSlots w 0 32832).filter (fun k => flushes key mask (s.fdbAt w k))
    let s := gone.foldl (fun s k => s.putFdb w k {}) s
    (gone.foldl (fun s k => s.stashMove w k) s).fdbStatus w (if bad then fdbEccErr else fdbOk)

/-- A shadow slot written. -/
def State.putShadow (s : State) (w : Bool) (i : Nat) (e : FdbEntry) : State :=
  if s.retiredWord (memShadow w) i then s
  else
    (s.setPipe w { s.pipe w with shadow := smSet noEntry (s.pipe w).shadow i { e with res := heldRes e.res } }).clearUpset
      (memShadow w) i

/-- `FDB_SHADOW_WRITE`: BAD_ARG if STATIC is 0 and TYPE is not 0. DESIGN CHOICE (log entry 17): BAD_ARG also past index 4,095, as for
every INDEX that names no slot; Table 3.7 gives no status for it. -/
def fdbShadowWriteRun (w : Bool) (idx : Nat) (s : State) : State :=
  let key := s.fdbKeyReg w
  let res := s.fdbResReg w
  if 4095 < idx ∨ (nbits res 61 1 = 0 ∧ key % 16 ≠ 0) then s.fdbStatus w fdbBadArg
  else (s.putShadow w idx ⟨key, res⟩).fdbStatus w fdbOk

/-- `FDB_SHADOW_READ`. -/
def fdbShadowReadRun (w : Bool) (idx : Nat) (s : State) : State :=
  if 4095 < idx then s.fdbStatus w fdbBadArg
  else
    let (bad, s) := s.sideRead w (memShadow w) idx
    if bad then (s.putKeyRes w {}).fdbStatus w fdbEccErr
    else (s.putKeyRes w (smGet noEntry (s.pipe w).shadow idx)).fdbStatus w fdbOk

/-- What an unwritten VLAN entry holds: all zeros, so VALID is 0 (3.2). -/
def noVlan (_ : Nat) : Nat := 0

/-- `FDB_VLAN_WRITE` (R61). -/
def fdbVlanWriteRun (w : Bool) (idx : Nat) (s : State) : State :=
  if 4095 < idx then s.fdbStatus w fdbBadArg
  else if s.retiredWord (memVlan w) idx then s.fdbStatus w fdbOk
  else ((s.setPipe w { s.pipe w with vlan := smSet noVlan (s.pipe w).vlan idx (s.fdbResReg w) }).clearUpset
    (memVlan w) idx).fdbStatus w fdbOk

/-- `FDB_VLAN_READ` (R61). -/
def fdbVlanReadRun (w : Bool) (idx : Nat) (s : State) : State :=
  if 4095 < idx then s.fdbStatus w fdbBadArg
  else
    let (bad, s) := s.sideRead w (memVlan w) idx
    if bad then (s.putRes w 0).fdbStatus w fdbEccErr else (s.putRes w (smGet noVlan (s.pipe w).vlan idx)).fdbStatus w fdbOk

/-- `FDB_INSERT_SHADOWED` (R81): shadow slot and table in one hold; FULL leaves both unchanged. -/
def fdbInsertShadowedRun (w : Bool) (idx : Nat) (s : State) : State :=
  let key := s.fdbKeyReg w
  let res := s.fdbResReg w
  if 4095 < idx ∨ key % 16 ≠ 1 ∨ nbits res 57 1 ≠ 0 ∨ nbits res 61 1 = 0 then s.fdbStatus w fdbBadArg
  else
    let (r, bad, s) := s.insertEntry w key res
    match r with
    | none => s.fdbStatus w fdbFull
    | some slot => ((s.putShadow w idx ⟨key, res⟩).wr (uPipe w) F.pipe_FDB_SLOT slot).fdbStatus w
        (if bad then fdbEccErr else fdbOk)

/-- `FDB_DELETE_SHADOWED` (R81): the shadow slot set to TYPE 0 whether or not the key is present, then R71. The slot keeps its other bits,
whatever its code says of the old word (DESIGN CHOICE, log entry 109: R82 gives TYPE alone). -/
def fdbDeleteShadowedRun (w : Bool) (idx : Nat) (s : State) : State :=
  let key := s.fdbKeyReg w
  if 4095 < idx then s.fdbStatus w fdbBadArg
  else
    let (bad, s) := s.cmdRead w key
    let old := smGet noEntry (s.pipe w).shadow idx
    let s := s.putShadow w idx { old with key := setNbits old.key 0 4 0 }
    match s.findKey w key with
    | none => s.fdbStatus w (if bad then fdbEccErr else fdbNotFound)
    | some slot => (s.removeAt w slot).fdbStatus w (if bad then fdbEccErr else fdbOk)

/-- `FDB_CMD_INVALID`: opcodes 0xC to 0xF. -/
def fdbInvalidRun (w : Bool) (s : State) : State := s.fdbStatus w fdbBadArg

/-- `FDB_CMD_COMPLETE`: BUSY clears and STATUS becomes valid (R82). -/
def fdbCompleteStep (w : Bool) (s : State) : State :=
  if s.flag (uPipe w) F.pipe_FDB_CMD_BUSY then
    (s.wr (uPipe w) F.pipe_FDB_CMD_BUSY 0).wr (uPipe w) F.pipe_FDB_CMD_STATUS (s.pipe w).cmdStatus
  else s

end Sys2Proof.Machine
end

