-- ==== Sys2Proof/Machine/Macsec.lean ====
section
/-! DEFINITION. The frame check sequence (IEEE 802.3) and inline MACsec (IEEE 802.1AE-2018, which 2.3 names): the SecTAG, the
association a frame belongs to, protection and its removal (R40, R353, R354). The layout of the SecTAG, of the initialisation vector
and of the authenticated data is the standard's. PRESUMED (log entry 58). -/

namespace Sys2Proof.Machine

/-! ### Frame check sequences -/

/-- The frame check sequence of some bytes, in the order it is sent; the complement of it stomps a frame (R134). -/
def fcsBytes (b : List Byte) (stomp : Bool) : List Byte :=
  let c := crc32 b
  (beBytes 4 (if stomp then 0xFFFFFFFF - c else c)).reverse

/-- The check sequence of a fragment that is not the last: the frame check sequence of the frame up to there, its low 16 bits
inverted (IEEE 802.3 clause 99; PRESUMED, log entry 58). -/
def mcrcBytes (b : List Byte) : List Byte := (beBytes 4 (crc32 b ^^^ 0xFFFF)).reverse

/-- Bytes without their last `n`. -/
def dropEnd (n : Nat) (b : List Byte) : List Byte := b.take (b.length - n)

/-- A frame whose last four bytes are its right check sequence. -/
def fcsGood (b : List Byte) : Bool := fcsBytes (dropEnd 4 b) false == b.drop (b.length - 4)

/-! ### The SecTAG -/

/-- The fields of a SecTAG: TCI bits, association number, short length, packet number as sent, SCI where it is sent, and how many
bytes the tag has with its EtherType. -/
structure SecTag where
  es : Bool
  scb : Bool
  encrypted : Bool
  an : Nat
  sl : Nat
  pn : Nat
  sci : Option Nat
  len : Nat
  good : Bool
  deriving DecidableEq, Repr

/-- The SecTAG of a frame: recognised only directly after the source address (R40). -/
def secTagOf (b : List Byte) : Option SecTag :=
  if be16 b 12 = 0x88E5 then
    let t := byteAt b 14
    let sc := bitOf t 5
    let es := bitOf t 6
    let scb := bitOf t 4
    let e := bitOf t 3
    some { es := es, scb := scb, encrypted := e, an := t % 4, sl := byteAt b 15 % 64, pn := be32 b 16,
           sci := if sc then some (be32 b 20 * 2 ^ 32 + be32 b 24) else none, len := if sc then 16 else 8,
           good := !bitOf t 7 && !(sc && (es || scb)) && !(e && !bitOf t 2) && decide (byteAt b 15 < 48) }
  else none

/-- The SCI of a SecTAG that sends none: of an end station its address with port 1, or 0 for single copy broadcast; else the SCI
of the one peer on a point-to-point link. -/
def SecTag.impliedSci (x : SecTag) (b : List Byte) : Option Nat :=
  match x.sci with
  | some i => some i
  | none => if x.es then some (be48 b 6 * 65536 + (if x.scb then 0 else 1)) else none

/-- The packet number recovered from its low half and the lowest acceptable one (XPN). -/
def recoverPn (xpn : Bool) (low pn : Nat) : Nat :=
  if !xpn then pn
  else
    let hi := low / 2 ^ 32
    (if 2 ^ 31 ≤ low % 2 ^ 32 ∧ pn < 2 ^ 31 then hi + 1 else hi) * 2 ^ 32 + pn

/-- The initialisation vector: SCI and packet number, or SSCI and packet number with SALT. -/
def macsecIv (xpn : Bool) (sci ssci salt pn : Nat) : Nat :=
  if xpn then (ssci * 2 ^ 64 + pn) ^^^ salt else sci * 2 ^ 32 + pn % 2 ^ 32

/-! ### Protection -/

/-- A SecTAG as it is sent. -/
def secTagBytes (sci : Option Nat) (conf : Bool) (an pn len : Nat) : List Byte :=
  let tci := (if sci.isSome then 32 else 0) + (if conf then 12 else 0) + an % 4
  beBytes 2 0x88E5 ++ beBytes 1 tci ++ beBytes 1 (if len < 48 then len else 0) ++ beBytes 4 (pn % 2 ^ 32) ++
    (match sci with
     | some i => beBytes 8 i
     | none => [])

/-- A frame without FCS under protection: the first `ofs` bytes after the tag stay clear, or all of them without
confidentiality. -/
def macsecSeal (ks : List Nat) (iv : Nat) (tag : List Byte) (conf : Bool) (ofs : Nat) (b : List Byte) : List Byte :=
  let data := b.drop 12
  let clear := if conf then data.take ofs else data
  let r := gcm ks iv (b.take 12 ++ tag ++ clear) (data.drop clear.length) false
  b.take 12 ++ tag ++ clear ++ r.1 ++ beBytes 16 r.2

/-- Plain bytes of a protected frame from the part of its data that has arrived, with no check yet. -/
def macsecOpen (ks : List Nat) (iv : Nat) (x : SecTag) (ofs : Nat) (b data : List Byte) : List Byte :=
  let n := if x.encrypted then ofs else data.length
  b.take 12 ++ data.take n ++ (gcm ks iv [] (data.drop n) true).1

/-- The integrity check value of a protected frame as it should be. -/
def macsecTag (ks : List Nat) (iv : Nat) (x : SecTag) (ofs : Nat) (b data : List Byte) : Nat :=
  let n := if x.encrypted then ofs else data.length
  (gcm ks iv (b.take (12 + x.len) ++ data.take n) (data.drop n) true).2

/-! ### One port's SecY -/

/-- CIPHER: values above 3 act as 0. Both directions of a port use the one field. DEDUCED (log entry 58). -/
def State.cipher (s : State) (p : Nat) : Nat :=
  let c := s.rd (uMac p) F.mac_SECY_TX_CFG_CIPHER
  if c ≤ 3 then c else 0

def State.xpn (s : State) (p : Nat) : Bool := 2 ≤ s.cipher p
def State.longKey (s : State) (p : Nat) : Bool := s.cipher p % 2 == 1

/-- CONF_OFS in bytes; 3 acts as 0. -/
def State.confOfs (s : State) (p : Nat) : Nat :=
  let o := s.rd (uMac p) F.mac_SECY_TX_CFG_CONF_OFS
  if o = 1 then 30 else if o = 2 then 50 else 0

/-- Egress MACsec is on at an E-port. -/
def State.macsecOn (s : State) (port : Nat) : Bool := port < 12 && s.flag (uMac port) F.mac_SECY_TX_CFG_EN

/-- X of R151: SecTAG plus ICV, 24 bytes, or 32 with the SCI in the SecTAG. -/
def State.macsecBytes (s : State) (port : Nat) : Nat :=
  if s.macsecOn port then (if s.flag (uMac port) F.mac_SECY_TX_CFG_SCI_EN then 32 else 24) else 0

/-- The engine-key number of an association: transmit, or of a receive channel (log entry 10). -/
def txKeyNo (p an : Nat) : Nat := p * 64 + an
def saKeyNo (p : Nat) (rx : Option Nat) (an : Nat) : Nat :=
  match rx with
  | none => txKeyNo p an
  | some c => p * 64 + 4 + c * 4 + an

/-- The round keys of an association; none without a key. -/
def State.saKeys (s : State) (p no : Nat) : Option (List Nat) := (pmGet s.sec.engineKeys no).map (roundKeys (s.longKey p))

/-- The initialisation vector of a frame of an association, with the SSCI and SALT it took at INSTALL (R353). -/
def State.saIv (s : State) (p no sci pn : Nat) : Nat :=
  let x := (pmGet s.sec.salts no).getD (0, 0)
  macsecIv (s.xpn p) sci x.1 x.2 pn

/-! ### Received frames -/

/-- The SCI of a receive channel. -/
def State.rxSci (s : State) (p c : Nat) : Nat := s.rd (uMac p) F.mac_RX_SCI_HI_SCI c * 2 ^ 32 + s.rd (uMac p) F.mac_RX_SCI_LO_SCI c

/-- The receive channel of a frame: the valid one with its SCI; without an SCI the first valid one. -/
def State.rxChannel (s : State) (p : Nat) (sci : Option Nat) : Option Nat :=
  (List.range 8).find? (fun c => s.flag (uMac p) F.mac_RX_SC_CFG_VALID c &&
    (match sci with
     | some i => s.rxSci p c == i
     | none => true))

/-- The lowest acceptable packet number of a receive association. -/
def State.lowPn (s : State) (p c an : Nat) : Nat :=
  s.rd (uMac p) F.mac_RXSA_PN_HI c an * 2 ^ 32 + s.rd (uMac p) F.mac_RXSA_PN_LO c an

/-- What the MAC takes from a SecTAG as it arrives: nothing with VALIDATE 0 (Table 2.5). -/
def State.rxSecOf (s : State) (p : Nat) (b : List Byte) : Option RxSec :=
  if s.rd (uMac p) F.mac_MACSEC_RX_VALIDATE = 0 then none
  else (secTagOf b).map (fun x =>
    let c := s.rxChannel p (x.impliedSci b)
    { channel := c, an := x.an, pn := recoverPn (s.xpn p) (match c with
        | some c => s.lowPn p c x.an
        | none => 0) x.pn })

/-- The data between SecTAG and ICV: of a frame still arriving, as much as is sure not to be ICV or FCS. -/
def secData (x : SecTag) (b : List Byte) : List Byte :=
  let d := dropEnd 20 (b.drop (12 + x.len))
  if 0 < x.sl ∧ x.sl < 48 then d.take x.sl else d

/-- The keys and the initialisation vector for a received frame; none without an association that has a key. -/
def State.rxKeys (s : State) (p : Nat) (r : RxSec) : Option (List Nat × Nat) :=
  match r.channel with
  | none => none
  | some c => (s.saKeys p (saKeyNo p (some c) r.an)).map (fun ks =>
      (ks, s.saIv p (saKeyNo p (some c) r.an) (s.rxSci p c) r.pn))

/-- Whether the ICV of a whole frame is right. -/
def State.icvOk (s : State) (p : Nat) (r : RxSec) (b : List Byte) : Bool :=
  match secTagOf b, s.rxKeys p r with
  | some x, some k =>
    let d := secData x b
    x.good && macsecTag k.1 k.2 x (s.confOfs p) b d == beNat (slice b (12 + x.len + d.length) 16)
  | _, _ => false

/-- The bytes of a frame that the MAC presents so far: as received, or without SecTAG and ICV, whole with a check sequence of its own
(R40). A frame that no association has a key for passes as it is. -/
def State.macPlain (s : State) (p : Nat) (f : MacFrame) : List Byte :=
  match f.sec, secTagOf f.raw with
  | some r, some x =>
    let d := if !f.ended ∧ 0 < x.sl then [] else secData x f.raw
    let b := match s.rxKeys p r with
      | some k => macsecOpen k.1 k.2 x (s.confOfs p) f.raw d
      | none => f.raw.take 12 ++ d
    if f.ended then b ++ fcsBytes b false else b
  | _, _ => f.raw

/-! ### Sent frames -/

/-- EAPOL frames take the uncontrolled port (Table 2.5). -/
def isEapol (b : List Byte) : Bool := be16 b 12 == 0x888E

/-- A packet number for a frame that starts (R354): none when the association transmits nothing. Answers the association and the
number. -/
def State.takePn (s : State) (p : Nat) : Option (Nat × Nat) × State :=
  let u := uMac p
  let an := s.rd u F.mac_SECY_TX_CFG_ENC_AN
  let pn := s.rd u F.mac_TXSA_PN_HI an * 2 ^ 32 + s.rd u F.mac_TXSA_PN_LO an
  if !s.flag u F.mac_TXSA_CTRL_VALID an ∨ pn = 0 ∨ (if s.xpn p then 2 ^ 64 - 1 else 2 ^ 32 - 1) < pn then
    (none, s.sat u F.mac_TX_PN_EXHAUSTED)
  else
    let next := pn + 1
    let s := (s.wr u F.mac_TXSA_PN_HI (next / 2 ^ 32) an).wr u F.mac_TXSA_PN_LO next an
    let s := s.inc u F.mac_TX_PROTECTED
    let thr := s.rd u F.mac_TX_PN_THRESH_HI * 2 ^ 32 + s.rd u F.mac_TX_PN_THRESH_LO
    (some (an, pn), if next = thr then (s.wr u F.mac_SECY_TX_CFG_PN_WARN 1).event u else s)

/-- The bytes on the wire, but for the FCS, of a frame that started with an association and a packet number. -/
def State.sealed (s : State) (p : Nat) (sec : Option (Nat × Nat)) (b : List Byte) : List Byte :=
  match sec with
  | none => b
  | some (an, pn) =>
    let u := uMac p
    let no := txKeyNo p an
    let sci := s.rd u F.mac_TX_SCI_HI_SCI * 2 ^ 32 + s.rd u F.mac_TX_SCI_LO_SCI
    let conf := s.flag u F.mac_SECY_TX_CFG_CONF
    let tag := secTagBytes (if s.flag u F.mac_SECY_TX_CFG_SCI_EN then some sci else none) conf an pn (b.length - 12)
    macsecSeal ((s.saKeys p no).getD []) (s.saIv p no sci pn) tag conf (s.confOfs p) b

end Sys2Proof.Machine
end

