-- ==== Sys2Proof/Machine/Queues.lean ====
section
/-! DEFINITION. Records, inputs, queues and Spout instances as every chapter of the data path reaches them, and the shapers (5.5, 6.3,
6.4). The credit of a credit-based shaper is always the present one: whatever lets time pass brings it up to date (`State.cbsTo`). -/

namespace Sys2Proof.Machine

/-! ### Records, inputs and queues -/

def noInput (_ : Nat) : InPort := {}
def State.input (s : State) (p : Nat) : InPort := smGet noInput s.fab.inputs p
def State.setInput (s : State) (p : Nat) (x : InPort) : State :=
  { s with fab := { s.fab with inputs := smSet noInput s.fab.inputs p x } }

/-- The record of a frame in the buffer; none while it is FREE. -/
def State.frame (s : State) (r : Nat) : Option Frame := pmGet s.fab.frames r
def State.setFrame (s : State) (r : Nat) (f : Frame) : State :=
  { s with fab := { s.fab with frames := pmSet s.fab.frames r f } }

/-- A record changed, if it is not FREE. -/
def State.updFrame (s : State) (r : Nat) (g : Frame → Frame) : State :=
  match s.frame r with
  | some f => s.setFrame r (g f)
  | none => s

def noQueue (_ : Nat) : List QEntry := []

/-- Queue q = 8 × port + class, oldest entry first (5.5). -/
def State.queue (s : State) (q : Nat) : List QEntry := smGet noQueue s.fab.queues q
def State.setQueue (s : State) (q : Nat) (l : List QEntry) : State :=
  { s with fab := { s.fab with queues := smSet noQueue s.fab.queues q l } }

def State.resvUsedOf (s : State) (q : Nat) : Nat := smGet zero0 s.fab.resvUsed q
def State.setResvUsed (s : State) (q n : Nat) : State :=
  { s with fab := { s.fab with resvUsed := smSet zero0 s.fab.resvUsed q n } }

def noReading (_ : Nat) : List Reading := []
def State.readingOf (s : State) (p : Nat) : List Reading := smGet noReading s.fab.reading p
def State.setReading (s : State) (p : Nat) (l : List Reading) : State :=
  { s with fab := { s.fab with reading := smSet noReading s.fab.reading p l } }

/-- The current data rate of an E-port in Mb/s; 0 while its link is down. -/
def State.linkRate (s : State) (p : Nat) : Nat := smGet zero0 s.fab.links p

/-- FAB.CYCLE, the fabric cycle number (R111). -/
def State.fabCycle (s : State) : Nat := s.rd uFab F.fab_CYCLE

/-- The queue that a copy enters: the slow path at P15 is queue 120, a recirculating TC0 copy uses queue 121 (5.5). -/
def Copy.queue (c : Copy) : Nat :=
  if c.port = 15 ∧ !c.slow then 120 + max 1 c.tc else if c.slow then 120 else 8 * c.port + c.tc

/-! ### Spout instances -/

def noSpout (_ : Nat) : SpoutState := {}
def State.spoutAt (s : State) (p : Nat) : SpoutState := smGet noSpout s.spout p
def State.setSpout (s : State) (p : Nat) (x : SpoutState) : State :=
  { s with spout := smSet noSpout s.spout p x }
def intZero (_ : Nat) : Int := 0

/-- The frame whose bits are on the wire of a port. -/
def State.onWire (s : State) (p : Nat) : Option Tx := (s.spoutAt p).line.find? (fun e => e.start.isSome)

/-- Whether a class's queue holds a copy that has not started. -/
def State.waiting (s : State) (q : Nat) : Bool := (s.queue q).any (fun e => !e.started)

/-! ### Credit-based shapers (R144) -/

/-- One bit in the units of a shaper's credit. -/
def cbsBit : Int := 65536 * 1000000

/-- IDLE_SLOPE in kb/s; larger values act as 25,000,000. -/
def State.idleSlope (s : State) (p c : Nat) : Nat := min 25000000 (s.rd (uSpout p) F.spout_CBS_CFG_IDLE_SLOPE (c - 4))

/-- The credit of a class, with the register that shows it. -/
def State.cbsAt (s : State) (p c : Nat) : Int := smGet intZero (s.spoutAt p).cbs c
def State.setCbs (s : State) (p c : Nat) (z : Int) : State :=
  (s.setSpout p { s.spoutAt p with cbs := smSet intZero (s.spoutAt p).cbs c z }).wr (uSpout p) F.spout_CBS_CREDIT
    (ofSigned 32 (quot z cbsBit)) (c - 4)

/-- The credit after `d` units of 2^-16 ns in which the class does not transmit: it rises while a copy waits or it is
negative, is held by a closed gate, and without a copy does not rise above 0. -/
def cbsRise (gateOpen waiting : Bool) (slope : Nat) (d : Nat) (credit : Int) : Int :=
  if !gateOpen then credit
  else if waiting then credit + Int.ofNat (slope * d)
  else if credit < 0 then min 0 (credit + Int.ofNat (slope * d)) else credit

/-- A copy of a class waits: in its queue, or read and not on the wire. -/
def State.cbsWaiting (s : State) (p c : Nat) : Bool :=
  s.waiting (8 * p + c) || (s.spoutAt p).line.any (fun e => e.tc == c && e.start.isNone)

/-- The credit of one class after `d` more units of 2^-16 ns: fallen at sendSlope while its frame is on the wire, risen otherwise,
limited, and 0 while the shaper is off. A disabled instance holds it (R140). -/
def State.cbsRun (s : State) (p d c : Nat) : State :=
  let u := uSpout p
  if !s.enabled u then s
  else if !s.flag u F.spout_CBS_CFG_EN (c - 4) then s.setCbs p c 0
  else
    let slope := s.idleSlope p c
    let old := s.cbsAt p c
    let cr := match s.onWire p with
      | some e => if e.tc = c then old + (Int.ofNat slope - Int.ofNat (e.rate * 1000)) * Int.ofNat d
          else cbsRise (bitOf (s.spoutAt p).gate.gates c) (s.cbsWaiting p c) slope d old
      | none => cbsRise (bitOf (s.spoutAt p).gate.gates c) (s.cbsWaiting p c) slope d old
    let lo := toSigned 32 (s.rd u F.spout_CBS_LOCREDIT (c - 4)) * cbsBit
    let hi := toSigned 32 (s.rd u F.spout_CBS_HICREDIT (c - 4)) * cbsBit
    s.setCbs p c (clampInt lo hi cr)

/-- The four shapers of an E-port brought up to the instant `t` of WC, in which nothing has changed but the time. -/
def State.cbsTo (s : State) (p t : Nat) : State :=
  let d := t - (s.spoutAt p).since
  let s := [4, 5, 6, 7].foldl (fun s c => s.cbsRun p d c) s
  s.setSpout p { s.spoutAt p with since := t }

/-! ### Packet-credit shapers (R146) -/

/-- A packet credit in its signed 24 bits; the manual states no content for a sum outside them (DESIGN CHOICE, log entry 86). -/
def fit24 (z : Int) : Int :=
  if -(2 ^ 23) ≤ z ∧ z < 2 ^ 23 then z else toSigned 24 (Config.openNat (ofSigned 64 z))

/-- The packet credit of class `c` of P13. -/
def State.pcsAt (s : State) (c : Nat) : Int := smGet intZero (s.spoutAt 13).pcs c
def State.setPcs (s : State) (c : Nat) (z : Int) : State :=
  (s.setSpout 13 { s.spoutAt 13 with pcs := smSet intZero (s.spoutAt 13).pcs c (fit24 z) }).wr (uSpout 13) F.spout_PCS_CREDIT
    (ofSigned 32 (fit24 z)) c

/-- The shaper of a class of P13 works: the instance and the shaper are enabled. -/
def State.pcsOn (s : State) (c : Nat) : Bool := s.enabled (uSpout 13) && s.flag (uSpout 13) F.spout_PCS_CFG_EN c

/-- A class of P13 without a waiting copy keeps no positive credit (R146). -/
def State.pcsSettle (s : State) (c : Nat) : State :=
  if s.pcsOn c ∧ !s.waiting (104 + c) ∧ 0 < s.pcsAt c then s.setPcs c 0 else s

/-- The packet credit of one shaper at a boundary (R146). -/
def pcsNext (waiting : Bool) (rate mx : Nat) (credit : Int) : Int :=
  let c := if waiting ∨ credit < 0 then min (credit + Int.ofNat rate) (Int.ofNat mx) else credit
  if !waiting ∧ 0 < c then 0 else c

/-- The shapers of P13 at a boundary. -/
def State.pcsTick (s : State) : State :=
  let u := uSpout 13
  (List.range 8).foldl (fun s c =>
    if s.pcsOn c then
      s.setPcs c (pcsNext (s.waiting (104 + c)) (s.rd u F.spout_PCS_CFG_RATE c) (s.rd u F.spout_PCS_MAX_CREDIT c)
        (s.pcsAt c))
    else s) s

/-! ### A queue that has lost a copy -/

/-- What a queue's loss of a copy means to its Spout: without a waiting copy no positive packet credit (R146); an empty queue ends a
positive credit (R144) and the deficit of its class (R142). A disabled instance holds its credits and deficits (R140). -/
def State.queueLeft (s : State) (q : Nat) : State :=
  let p := q / 8
  let c := q % 8
  let s := if p = 13 then s.pcsSettle c else s
  if (s.queue q).isEmpty ∧ s.enabled (uSpout p) then
    let s := if p < 12 ∧ 4 ≤ c ∧ 0 < s.cbsAt p c then s.setCbs p c 0 else s
    let x := s.spoutAt p
    if c ≤ 3 then s.setSpout p { x with
      deficit := smSet intZero x.deficit c 0, guardPaid := x.guardPaid.filter (fun g => g.1 != c) } else s
  else s

end Sys2Proof.Machine
end

