-- ==== Sys2Proof/Machine/Egress.lean ====
section
/-! DEFINITION. What leaves a port: tag edits, lengths and wire time, the frame on its way to the wire (R62, R133, R134, R151). -/

namespace Sys2Proof.Machine

/-- Whether the frame arrived with an outer tag. -/
def Frame.tagged (f : Frame) : Bool := f.fm.tags != 0

/-- T of R151: +4 when the egress adds an outer tag, −4 when it removes one. -/
def Frame.tagDelta (f : Frame) (port : Nat) : Int :=
  if bitOf f.untag port then (if f.tagged then -4 else 0) else (if f.tagged then 0 else 4)

/-- An EAPOL frame as it leaves a port takes the uncontrolled port, which MACsec leaves alone (DEDUCED, log entry 93: R354 speaks of
frames for the controlled port, Table 2.5 names the frames of the other). -/
def Frame.uncontrolled (f : Frame) (port : Nat) : Bool :=
  f.fm.etype == 0x888E && decide (f.fm.tags ≤ 1) && bitOf f.untag port

/-- frame_bytes(L) of R151. -/
def State.egressBytes (s : State) (f : Frame) (port len : Nat) : Nat :=
  max 64 (Int.toNat (Int.ofNat len + f.tagDelta port)) + (if f.uncontrolled port then 0 else s.macsecBytes port)

/-- The time that `n` bytes take at a rate in Mb/s, in units of 2^-16 ns; none at rate 0, which is a port without link (log entry 90). -/
def byteTime (rate n : Nat) : Nat :=
  if rate = 0 then 0 else (quot (Int.ofNat (n * 8 * 1000 * 65536)) (Int.ofNat rate)).toNat

/-- Wire time of `n` egress bytes and their 20 overhead bytes at a port, in units of 2^-16 ns. -/
def State.wireTime (s : State) (port n : Nat) : Nat := byteTime (s.linkRate port) (n + 20)

/-- The length L of a copy (R151): final, or declared by the IP header, or unknown. -/
def Frame.copyLen (f : Frame) : Option Nat :=
  if f.complete then some f.bytes
  else if f.fm.slow = 0 then f.implied.map (max 64) else none

/-- QMAXFRAME of a class, the guard band; values outside 64 to 9,216 act as the nearer limit. -/
def State.guardLen (s : State) (port tc : Nat) : Nat :=
  clampNat 64 9216 (s.rd (uSpout port) F.spout_QMAXFRAME_BYTES tc)

/-- An outer tag with TPID 0x8100. -/
def tagBytes (pcp dei vid : Nat) : List Byte := beBytes 4 (0x8100 * 65536 + pcp % 8 * 8192 + dei % 2 * 4096 + vid % 4096)

/-- The bytes without FCS after the tag edit of R62. -/
def Frame.editTags (f : Frame) (port tc : Nat) (b : List Byte) : List Byte :=
  let addr := b.take 12
  let rest := if f.tagged then b.drop 16 else b.drop 12
  if bitOf f.untag port then addr ++ rest
  else if f.tagged then addr ++ tagBytes f.fm.pcpO f.fm.deiO f.vid ++ rest
  else addr ++ tagBytes tc 0 f.vid ++ rest

/-- A frame as it leaves a port, but for MACsec and FCS, from its bytes without their own FCS: tags edited, padded to 60 bytes. -/
def Frame.body (f : Frame) (port tc : Nat) (b : List Byte) : List Byte :=
  let b := f.editTags port tc b
  b ++ List.replicate (60 - b.length) 0#8

/-- A whole frame as it leaves a port that adds no MACsec: its FCS is computed afresh. -/
def Frame.leaving (f : Frame) (port tc : Nat) (b : List Byte) : List Byte :=
  let b := f.body port tc (dropEnd 4 b)
  b ++ fcsBytes b false

/-- The bytes of a copy that have been read in frame order. -/
def Reading.bytes (r : Reading) : List Byte :=
  let n := (List.range (r.cells.length + 1)).find? (fun i => (pmGet r.cells i).isNone)
  (List.range (n.getD 0)).flatMap (fun i => (pmGet r.cells i).getD [])

/-- The copy of a class that an E-port reads is whole, or ends here: what is on its way to the wire, and whether it ends as a stomped
frame (R133, R134). -/
def State.closeTx (s : State) (p tc : Nat) (body : List Byte) (stomp : Bool) : State :=
  let x := s.spoutAt p
  let s := s.setSpout p { x with line := x.line.map (fun e =>
    if e.tc = tc ∧ e.body.isNone then { e with body := some body, known := s.clk.wc, stomp := stomp } else e) }
  if stomp then s.sat uFab F.fab_STOMP p else s

/-- A started copy of an E-port that ends before its frame does: a stomped frame of the bytes read so far (R133, Table 5.4). -/
def State.stompTx (s : State) (p : Nat) (r : Reading) (f : Frame) : State :=
  s.closeTx p r.tc (f.body p f.fm.tc r.bytes) true

end Sys2Proof.Machine
end

