-- ==== Sys2Proof/Machine/Parse.lean ====
section
/-! DEFINITION. The parser of a head (R42 to R45, Table 2.6) and its metadata. -/

namespace Sys2Proof.Machine

/-- What the parser reads from a head beside the metadata record: the fields that only the rule key carries. -/
structure Parsed where
  fm : FrameMeta
  da : Nat := 0
  sa : Nat := 0
  sip : Nat := 0
  dip : Nat := 0
  proto : Nat := 0
  dscp : Nat := 0
  ecn : Nat := 0
  sport : Nat := 0
  dport : Nat := 0
  tcpFlags : Nat := 0
  implied : Option Nat := none
  deriving DecidableEq, Repr

/-- What the parser is told: the head's bytes, whether the frame's length is known (then `len` is it), the third TPID and
the four extraction points as (anchor, offset). -/
structure ParseIn where
  head : List Byte
  lenKnown : Bool
  len : Nat
  altTpid : Nat
  udf : List (Nat × Nat)
  deriving DecidableEq, Repr

/-- A recognised VLAN TPID: 0x8100, 0x88A8 or ALT_TPID unless that is 0 (Tables 2.6, 2.7). -/
def isTpid (alt t : Nat) : Bool := t == 0x8100 || t == 0x88A8 || (alt != 0 && t == alt)

/-- Where the EtherType stands: after the addresses and at most two VLAN tags (Table 2.6). -/
def etypeAt (alt : Nat) (b : List Byte) : Nat :=
  let t1 := isTpid alt (be16 b 12)
  12 + 4 * (b2n t1 + b2n (t1 && isTpid alt (be16 b 16)))

/-- The lowest reason code of a list; 0 for none (R46). -/
def lowestReason (l : List Nat) : Nat := l.foldl (fun a r => if a = 0 then r else if r < a then r else a) 0

/-- What one protocol level adds: reasons, and the fields it found. -/
structure L4Out where
  reasons : List Nat := []
  l4Type : Nat := 0
  l4Off : Nat := 0
  after : Option Nat := none
  sport : Nat := 0
  dport : Nat := 0
  tcpFlags : Nat := 0
  ptpMsg : Nat := 0
  ptpDom : Nat := 0
  deriving DecidableEq, Repr

/-- The upper layer at byte `o`: UDP (17, with PTP on ports 319 and 320) or TCP (6); `pay` is the length of the IP
payload (of IPv6 its payload length), none where R42 makes no UDP length check. -/
def parseL4 (h : List Byte) (proto o : Nat) (pay : Option Nat) : L4Out :=
  if proto = 17 then
    if h.length < o + 8 then { reasons := [1] }
    else
      let lenBad : List Nat := match pay with
        | some n => if n < be16 h (o + 4) then [2] else []
        | none => []
      let dp := be16 h (o + 2)
      if dp = 319 ∨ dp = 320 then
        if h.length < o + 8 + 34 then { reasons := 1 :: lenBad }
        else { reasons := lenBad, l4Type := 3, l4Off := o, after := some (o + 8), sport := be16 h o, dport := dp,
               ptpMsg := byteAt h (o + 8) % 16, ptpDom := byteAt h (o + 12) }
      else { reasons := lenBad, l4Type := 1, l4Off := o, after := some (o + 8), sport := be16 h o, dport := dp }
  else if proto = 6 then
    if h.length < o + 20 then { reasons := [1] }
    else
      let hl := byteAt h (o + 12) / 16 * 4
      if h.length < o + hl then { reasons := [1] }
      else { l4Type := 2, l4Off := o, after := some (o + hl), sport := be16 h o, dport := be16 h (o + 2),
             tcpFlags := byteAt h (o + 13) }
  else {}

/-- The IPv6 extension chain from header value `nh` at byte `o` (Table 2.6, R42): at most two extension headers are
parsed; answers the reasons, the number parsed, the last next-header value and the offset after the chain. -/
def parseV6Ext (h : List Byte) : Nat → Nat → Nat → Nat → List Nat × Nat × Nat × Nat
  | 0, cnt, nh, o =>
    (if nh = 0 ∨ nh = 43 ∨ nh = 44 ∨ nh = 60 ∨ nh = 51 ∨ nh = 135 ∨ nh = 139 ∨ nh = 140 ∨ nh = 253 ∨ nh = 254 then [5]
     else [], cnt, nh, o)
  | fuel + 1, cnt, nh, o =>
    if nh = 51 ∨ nh = 135 ∨ nh = 139 ∨ nh = 140 ∨ nh = 253 ∨ nh = 254 then ([5], cnt, nh, o)
    else if nh = 0 ∨ nh = 43 ∨ nh = 44 ∨ nh = 60 then
      let hl := if nh = 44 then 8 else (byteAt h (o + 1) + 1) * 8
      if h.length < o + 8 ∨ h.length < o + hl then ([1], cnt, nh, o)
      else
        let r := parseV6Ext h fuel (cnt + 1) (byteAt h o) (o + hl)
        ((if nh = 44 then 6 :: r.1 else r.1), r.2)
    else ([], cnt, nh, o)

/-- The check of an implied frame length against the received one (R42): equal to the larger of 64 and the implied
length, or not known yet. -/
def lenAgrees (lenKnown : Bool) (len implied : Nat) : Bool := !lenKnown || len == max 64 implied

/-- The two bytes of an extraction point, if its anchor is present and both lie in the head (R44). -/
def udfAt (h : List Byte) (l3 l4 after : Option Nat) (d : Nat × Nat) : Option Nat :=
  let anchor := if d.1 = 0 then some 0 else if d.1 = 1 then l3 else if d.1 = 2 then l4 else after
  match anchor with
  | none => none
  | some a => if a + d.2 + 2 ≤ h.length then some (be16 h (a + d.2)) else none

/-- The parser: L2 with up to two tags, L3, IPv6 extensions, L4 and the extraction points; the reasons of R42 with the
lowest code recorded (R46), and no L4 fields with any reason (R43). The upper layer of an IPv4 fragment is not parsed, of the first one
neither, nor that behind an IPv6 Fragment header (DESIGN CHOICE, log entry 92: the manual does not say whether its header is still
checked for PARSE and LEN). An IPv4 header with IHL below 5 or another version implies no length, a frame with a reason has no L4 and no
after-L4 anchor, and a frame whose L3_TYPE is 0 has no L3 anchor (DESIGN CHOICES, log entry 92). -/
def parseHead (x : ParseIn) : Parsed :=
  let h := x.head
  let t1 := isTpid x.altTpid (be16 h 12)
  let t2 := t1 && isTpid x.altTpid (be16 h 16)
  let tags := b2n t1 + b2n t2
  let eo := 12 + 4 * tags
  let tag1 := if t1 then be16 h 14 else 0
  let tag2 := if t2 then be16 h 18 else 0
  let et := be16 h eo
  let o := eo + 2
  let base : FrameMeta :=
    { lenKnown := x.lenKnown, length := x.len, tags := tags, etype := et, l3Off := o,
      pcpO := tag1 / 0x2000, deiO := tag1 / 0x1000 % 2, vidO := tag1 % 0x1000,
      pcpI := tag2 / 0x2000, deiI := tag2 / 0x1000 % 2, vidI := tag2 % 0x1000 }
  let r0 : List Nat := if h.length < o then [1] else []
  -- the L3 level: type, reasons, L4 result, the fields of the key
  let out : Nat × List Nat × L4Out × Parsed :=
    if et = 0x0800 then
      if h.length < o + 20 then (1, [1], {}, { fm := base })
      else
        let ihl := byteAt h o % 16
        let ver := byteAt h o / 16
        if ver ≠ 4 ∨ ihl < 5 ∨ h.length < o + ihl * 4 then (1, [1], {}, { fm := base })
        else
          let total := be16 h (o + 2)
          let frag := be16 h (o + 6) % 0x4000
          let implied := o + total + 4
          let rl := if total < ihl * 4 ∨ !lenAgrees x.lenKnown x.len implied then [2] else []
          let ro := if 5 < ihl then [3] else []
          let rf := if frag ≠ 0 then [4] else []
          let l4 := if frag ≠ 0 then ({} : L4Out)
            else parseL4 h (byteAt h (o + 9)) (o + ihl * 4) (some (total - ihl * 4))
          (1, rl ++ ro ++ rf ++ l4.reasons, l4,
            { fm := base, sip := be32 h (o + 12), dip := be32 h (o + 16), proto := byteAt h (o + 9),
              dscp := byteAt h (o + 1) / 4, ecn := byteAt h (o + 1) % 4, implied := some implied })
    else if et = 0x86DD then
      if h.length < o + 40 then (2, [1], {}, { fm := base })
      else
        let plen := be16 h (o + 4)
        let implied := o + 40 + plen + 4
        let rl := if plen ≠ 0 ∧ !lenAgrees x.lenKnown x.len implied then [2] else []
        let e := parseV6Ext h 2 0 (byteAt h (o + 6)) (o + 40)
        let tcl := byteAt h o % 16 * 16 + byteAt h (o + 1) / 16
        let l4 := if e.1.isEmpty then
            parseL4 h e.2.2.1 e.2.2.2 (if plen = 0 then none else some plen)
          else ({} : L4Out)
        (2, rl ++ e.1 ++ l4.reasons, l4,
          { fm := { base with v6Ext := e.2.1 },
            sip := beNat (slice h (o + 8) 16), dip := beNat (slice h (o + 24) 16), proto := e.2.2.1,
            dscp := tcl / 4, ecn := tcl % 4, implied := if plen = 0 then none else some implied })
    else if et = 0x0806 then
      (3, (if h.length < o + 28 then [1] else []), {}, { fm := base, sip := be32 h (o + 14), dip := be32 h (o + 24) })
    else if et = 0x88F7 then
      if h.length < o + 34 then (4, [1], {}, { fm := base })
      else (4, [], {}, { fm := { base with ptpMsg := byteAt h o % 16, ptpDom := byteAt h (o + 4) } })
    else if et = 0x22F0 then
      (5, (if h.length < o + 12 then [1] else []), {}, { fm := base })
    else (0, [], {}, { fm := base })
  let l3t := out.1
  let slow := lowestReason (r0 ++ out.2.1)
  let l4 := if slow = 0 then out.2.2.1 else ({} : L4Out)
  let p := out.2.2.2
  let l3a := if l3t = 0 then none else some o
  let l4a := if l4.l4Type = 0 then none else some l4.l4Off
  let us := x.udf.map (udfAt h l3a l4a l4.after)
  let uv (i : Nat) : Nat := (us.getD i none).getD 0
  let ub (i : Nat) : Nat := b2n (us.getD i none).isSome * 2 ^ i
  { p with
    da := be48 h 0, sa := be48 h 6, sport := l4.sport, dport := l4.dport, tcpFlags := l4.tcpFlags,
    fm := { p.fm with
      slow := slow, l3Type := l3t, l4Type := l4.l4Type, l4Off := if l4.l4Type = 0 then 0 else l4.l4Off,
      ptpMsg := if l4.l4Type = 3 then l4.ptpMsg else p.fm.ptpMsg,
      ptpDom := if l4.l4Type = 3 then l4.ptpDom else p.fm.ptpDom,
      udfValid := ub 0 + ub 1 + ub 2 + ub 3, udf0 := uv 0, udf1 := uv 1, udf2 := uv 2, udf3 := uv 3 } }

end Sys2Proof.Machine
end

