-- ==== Sys2Proof/Machine/Strainer.lean ====
section
/-! DEFINITION. The Strainer: zones, rule keys, the search, the verdict, meters, stream filters, admission, the banks
and their commands, CAN keys (chapter 4). -/

namespace Sys2Proof.Machine

/-! ### Banks and generations (R53 to R57) -/

/-- CUR_GEN: the generation of new first passes. -/
def State.curGen (s : State) : Nat := s.rd (uPipe true) F.pipe_GEN_STATUS_CUR_GEN

/-- The inactive bank pair is DRAINING. -/
def State.draining (s : State) : Bool := s.flag (uPipe true) F.pipe_GEN_STATUS_INACTIVE

/-- Bank `g` of a Strainer. -/
def StrainState.bank (x : StrainState) (g : Nat) : Bank := if g = 0 then x.bank0 else x.bank1

/-- A Strainer with bank `g` replaced. -/
def StrainState.setBank (x : StrainState) (g : Nat) (b : Bank) : StrainState :=
  if g = 0 then { x with bank0 := b } else { x with bank1 := b }

def State.bank (s : State) (w : Bool) (g : Nat) : Bank := (s.strain w).bank g
def State.setBank (s : State) (w : Bool) (g : Nat) (b : Bank) : State := s.setStrain w ((s.strain w).setBank g b)

/-- One frame more in flight in a generation (R54). -/
def State.inflightUp (s : State) (g : Nat) : State := s.inc (uPipe true) F.pipe_GEN_INFLIGHT_COUNT g

/-- One frame less in flight in a generation (R54). -/
def State.inflightDown (s : State) (g : Nat) : State :=
  s.wr (uPipe true) F.pipe_GEN_INFLIGHT_COUNT (s.rd (uPipe true) F.pipe_GEN_INFLIGHT_COUNT g - 1) g

/-! ### Zones (R84 to R86) -/


/-- The zone of an endpoint code in a bank; reserved codes are in zone 0 (Table 4.1). -/
def Bank.zone (b : Bank) (code : Nat) : Nat :=
  if (27 ≤ code ∧ code ≤ 31) ∨ 70 ≤ code then 0 else smGet zero0 b.zmap code

/-- The default of a zone pair: 0 DENY, 1 PERMIT, 2 PUNT, 3 acts as DENY (R86). -/
def Bank.pair (b : Bank) (src dst : Nat) : Nat := smGet zero0 b.zpair (16 * src + dst)

/-- The endpoint code of a source or of a redirect or mirror endpoint: port and sub-source (Table 4.1, R84). -/
def endpointOf (port sub : Nat) : Nat :=
  if port < 12 then port else if port = 12 then 12 + sub else if port = 14 then 20 + sub else if port = 13 then 25 else 26

/-- The destination endpoints of a head (R85). -/
def destEndpoints (dest subS subH : Nat) : List Nat :=
  bitsOf 12 dest ++ (if bitOf dest 12 then (bitsOf 8 subS).map (12 + ·) else [])
    ++ (if bitOf dest 14 then (bitsOf 5 subH).map (20 + ·) else [])
    ++ (if bitOf dest 13 then [25] else []) ++ (if bitOf dest 15 then [26] else [])

/-- The fabric port of an endpoint code and, for P12 and P14, its segment or function. -/
def portOfEndpoint (e : Nat) : Nat × Nat :=
  if e < 12 then (e, 0) else if e < 20 then (12, e - 12) else if e < 25 then (14, e - 20)
  else if e = 25 then (13, 0) else (15, 0)

/-- The set of zones of some endpoints, as a 16-bit mask (DZONES, R85). -/
def Bank.dzones (b : Bank) (es : List Nat) : Nat := maskOf (es.map b.zone)

/-! ### Keys (R87 to R89) -/

/-- A key from its fields, each given as its least significant bit, width and value. -/
def packKey (fs : List (Nat × Nat × Nat)) : Nat := fs.foldl (fun a f => a + f.2.2 % 2 ^ f.2.1 * 2 ^ f.1) 0

/-- The index of the first valid prefix that equals the high 64 bits of an IPv6 address; 63 for none (R89). -/
def Bank.prefixIndex (b : Bank) (addr : Nat) : Nat :=
  match b.pfx.find? (fun e => e.2.2 && e.2.1 == addr / 2 ^ 64) with
  | some e => e.1
  | none => 63

/-- What the common header of a head's key holds beside the metadata record. -/
structure KeyCtx where
  srcZone : Nat
  dzones : Nat
  tc : Nat
  stream : Nat
  deriving DecidableEq, Repr

/-- KIND of an Ethernet key (R88). -/
def keyKind (m : FrameMeta) : Nat := if m.l3Type = 1 then 1 else if m.l3Type = 2 then 2 else 0

/-- The common key header of a head (Table 4.2). -/
def headerFields (m : FrameMeta) (c : KeyCtx) : List (Nat × Nat × Nat) :=
  [(318, 2, keyKind m), (317, 1, b2n m.pass2), (309, 8, m.rtag), (305, 4, c.srcZone), (289, 16, c.dzones),
   (285, 4, m.inPort), (281, 4, m.inSub), (278, 3, c.tc), (277, 1, b2n m.macsec), (272, 5, m.slow), (260, 12, c.stream)]

/-- The key fields of a head of kind 0, 1 or 2 (Table 4.3). -/
def kindFields (b : Bank) (p : Parsed) (m : FrameMeta) : List (Nat × Nat × Nat) :=
  let l4 := m.l4Type ≠ 0
  let sport := if l4 then p.sport else 0
  let dport := if l4 then p.dport else 0
  let flags := if m.l4Type = 2 then p.tcpFlags else 0
  if keyKind m = 1 then
    [(224, 32, p.sip), (192, 32, p.dip), (184, 8, p.proto), (178, 6, p.dscp), (176, 2, p.ecn), (172, 4, m.l4Type),
     (156, 16, sport), (140, 16, dport), (132, 8, flags), (120, 12, m.vidO), (117, 3, m.pcpO), (68, 48, p.sa),
     (52, 16, m.udf0), (36, 16, m.udf1), (35, 1, m.udfValid / 2), (34, 1, m.udfValid)]
  else if keyKind m = 2 then
    [(250, 6, b.prefixIndex p.sip), (186, 64, p.sip), (180, 6, b.prefixIndex p.dip), (116, 64, p.dip),
     (108, 8, p.proto), (102, 6, p.dscp), (100, 2, p.ecn), (96, 4, m.l4Type), (80, 16, sport), (64, 16, dport),
     (56, 8, flags), (54, 2, m.v6Ext), (42, 12, m.vidO), (39, 3, m.pcpO)]
  else
    [(208, 48, p.da), (160, 48, p.sa), (144, 16, m.etype), (141, 3, m.pcpO), (140, 1, m.deiO), (128, 12, m.vidO),
     (125, 3, m.pcpI), (124, 1, m.deiI), (112, 12, m.vidI), (110, 2, m.tags), (106, 4, m.l3Type), (102, 4, m.ptpMsg),
     (94, 8, m.ptpDom), (78, 16, m.udf0), (62, 16, m.udf1), (46, 16, m.udf2), (30, 16, m.udf3), (26, 4, m.udfValid)]

/-- The search key of a head (R87). -/
def headKey (b : Bank) (p : Parsed) (m : FrameMeta) (c : KeyCtx) : Nat :=
  packKey (headerFields m c ++ kindFields b p m)

/-- The search key of a CAN key (R87, 4.8): the zone of its bus, its destination zones, and the pre-meter's colour. Of the eleven DLC bits
of an XL frame the four-bit field holds the lowest four (DESIGN CHOICE, log entry 97). -/
def canKeyBits (k : CanKey) (srcZone rate : Nat) : Nat :=
  packKey [(318, 2, 3), (305, 4, srcZone), (289, 16, k.dzones), (285, 4, 13), (281, 4, k.infuser), (278, 3, k.tc),
    (250, 6, k.bus), (249, 1, b2n k.toBus), (247, 2, k.format), (246, 1, b2n k.ide), (217, 29, k.id), (205, 12, k.len),
    (201, 4, k.dlc), (193, 8, k.sdt), (185, 8, k.vcid), (153, 32, k.af), (151, 2, rate), (87, 64, k.data),
    (81, 6, k.destBus), (80, 1, b2n k.cansec)]

/-! ### Rules (R90, R91) -/

/-- The empty rule row: invalid. -/
def noRow (_ : Nat) : RuleRow := {}

def actVerdict (a : Nat) : Nat := nbits a 61 3
def actScope (a : Nat) : Nat := nbits a 45 16
def actRedirPort (a : Nat) : Nat := nbits a 41 4
def actRedirSub (a : Nat) : Nat := nbits a 38 3
def actMirrorEn (a : Nat) : Bool := nbits a 37 1 != 0
def actMirrorPort (a : Nat) : Nat := nbits a 33 4
def actMirrorSub (a : Nat) : Nat := nbits a 30 3
def actMeterEn (a : Nat) : Bool := nbits a 29 1 != 0
def actMeter (a : Nat) : Nat := nbits a 18 11
def actTcEn (a : Nat) : Bool := nbits a 17 1 != 0
def actTc (a : Nat) : Nat := nbits a 14 3
def actColourEn (a : Nat) : Bool := nbits a 13 1 != 0
/-- COLOUR; 3 acts as one of the three colours (log entry 2). -/
def actColour (a : Nat) : Nat := openField 0 2 (nbits a 11 2)
def actCountEn (a : Nat) : Bool := nbits a 10 1 != 0
def actRtag (a : Nat) : Nat := nbits a 2 8

/-- A row matches a key: it is valid, and the key equals the value in every bit that the mask selects (R90). -/
def RuleRow.hits (r : RuleRow) (key : Nat) : Bool := r.valid && (key &&& r.mask) == (r.value &&& r.mask)

/-- The first match of a search: the valid matching row of lowest index (R90). -/
def Bank.firstMatch (b : Bank) (key : Nat) : Option (Nat × RuleRow) := b.rows.find? (fun e => e.2.hits key)

/-- The ledger memory numbers of a Strainer's staging copies and TCAM (Table 15.8). -/
def memStaging (w : Bool) : Nat := if w then 8 else 7
def memTcam (w : Bool) : Nat := if w then 10 else 9

/-- A parity error in a TCAM row: reported by the rule-memory detector, and the row rewritten from its staging copy
(R102, R103). -/
def State.rowParity (s : State) (w : Bool) (g row : Nat) (inj : Bool) : State :=
  (s.codeFail (uStrain w) 0 { access := 6, addr := memAddr (memTcam w) (4096 * g + row) } inj).clearUpset (memTcam w)
    (4096 * g + row)

/-! ### Meters (R93, R94) -/

def noMeter (_ : Nat) : Meter := {}

def State.meterAt (s : State) (w : Bool) (n : Nat) : Meter := smGet noMeter (s.strain w).meters n

def State.setMeter (s : State) (w : Bool) (n : Nat) (m : Meter) : State :=
  s.setStrain w { s.strain w with meters := smSet noMeter (s.strain w).meters n m }

/-- The meters that a bucket size or a token keeps alive: those with a size written, and those listed. -/
def State.meterIndices (s : State) (w : Bool) : List Nat :=
  let b := baseOf (uStrain w) + 0x10000
  ((s.regs.filter (fun e => decide (b ≤ e.1 ∧ e.1 < b + 0x10000))).map (fun e => (e.1 - b) / 32)
    ++ (s.strain w).meters.map (·.1)).eraseDups

/-- The refill of one meter at a boundary (R93). -/
def State.meterRefill (s : State) (w : Bool) (n : Nat) : State :=
  let u := uStrain w
  let m := s.meterAt w n
  s.setMeter w n
    ⟨min (m.c + s.rd u F.strain_M_CIR_RATE n) (s.rd u F.strain_M_CBS_SIZE n),
     min (m.p + s.rd u F.strain_M_PIR_RATE n) (s.rd u F.strain_M_PBS_SIZE n)⟩

/-- The refill of every meter of a Strainer. -/
def State.meterRefillAll (s : State) (w : Bool) : State :=
  (s.meterIndices w).foldl (fun s n => s.meterRefill w n) s

/-- The tokens of a bucket whose size has changed: filled to the new size while the Strainer counts as disabled, else
clipped to it (R93). -/
def bucketOnSize (enabled : Bool) (tokens size : Nat) : Nat := if enabled then min tokens size else size

/-- The mark of R94 on a bucket pair with input colour `c`: colour and buckets. -/
def meterMark (m : Meter) (aware : Bool) (c : Nat) : Nat × Meter :=
  if m.p < 16 ∨ (aware ∧ c = 2) then (2, m)
  else if aware ∧ c = 1 then (1, { m with p := m.p - 16 })
  else if m.c < 16 then (1, { m with p := m.p - 16 })
  else (0, ⟨m.c - 16, m.p - 16⟩)

/-- A frame or key presented to meter `n` with input colour `c` (R94): whether it is dropped, its colour, the state. With
`honour` false RED_DROP is ignored (a bus pre-meter). -/
def State.applyMeter (s : State) (w : Bool) (n c : Nat) (honour : Bool) : Bool × Nat × State :=
  let u := uStrain w
  let r := meterMark (s.meterAt w n) (s.flag u F.strain_M_MODE_AWARE n) c
  let s := s.setMeter w n r.2
  let drop := honour && r.1 == 2 && s.flag u F.strain_M_MODE_RED_DROP n
  let s := if drop then s.sat u F.strain_DROP_METER else s
  let s := if r.1 = 0 then s.sat u F.strain_M_GREEN n else if r.1 = 1 then s.sat u F.strain_M_YELLOW n
    else s.sat u F.strain_M_RED n
  (drop, max c r.1, s)

/-! ### Stream filters and gates (R95 to R97) -/

def noGate (_ : Nat) : StreamGate := {}

def State.gateAt (s : State) (w : Bool) (g : Nat) : StreamGate := smGet noGate (s.strain w).gates g

def State.setGate (s : State) (w : Bool) (g : Nat) (x : StreamGate) : State :=
  s.setStrain w { s.strain w with gates := smSet noGate (s.strain w).gates g x }

/-- The entry of a running stream gate: its word; none for a gate with no list, which is closed (LIST_LEN 0). -/
def StreamGate.current (x : StreamGate) : Option Nat := x.list[x.entry]?

/-- Whether a gate is open: a disabled gate is, a running one follows its current entry (R97). -/
def StreamGate.isOpen (x : StreamGate) : Bool :=
  !x.running || (match x.current with
    | none => false
    | some e => bitOf e 31)

/-- The class a gate's current entry gives, when it is open and IPV_EN is set (R96). -/
def StreamGate.ipv (x : StreamGate) : Option Nat :=
  if !x.running then none
  else match x.current with
    | none => none
    | some e => if bitOf e 30 then some (nbits e 27 3) else none

/-- What a stream filter did with a head. -/
structure FilterOut where
  drop : Bool := false
  tc : Nat
  colour : Nat
  /-- The size check left to the frame's end (LEN_KNOWN 0): the filter and MAX_SDU. -/
  late : Option Nat := none
  deriving DecidableEq, Repr

/-- The stream filter of a head (R95, R96). A head whose size check is left to the frame's end passes or fails there. -/
def State.streamFilter (s : State) (w : Bool) (h tc colour len : Nat) (lenKnown : Bool) : FilterOut × State :=
  let u := uStrain w
  if h = 0 ∨ !s.flag u F.strain_SF_CFG_VALID h ∨ !bitOf (s.rd u F.strain_SF_CFG_TC_MASK h) tc then
    (⟨false, tc, colour, none⟩, s)
  else
    let sdu := s.rd u F.strain_SF_CFG_MAX_SDU h
    let dropSdu (s : State) : FilterOut × State :=
      (⟨true, tc, colour, none⟩, (s.sat u F.strain_SF_DROP h).sat u F.strain_DROP_SDU)
    if s.flag u F.strain_SF_METER_BLOCKED h then dropSdu s
    else if sdu ≠ 0 ∧ lenKnown ∧ sdu < len then
      let s := if s.flag u F.strain_SF_METER_BLOCK_OVERSIZE h then s.wr u F.strain_SF_METER_BLOCKED 1 h else s
      dropSdu s
    else
      let late := if sdu ≠ 0 ∧ !lenKnown then some h else none
      let gateEn := s.flag u F.strain_SF_CFG_GATE_EN h
      let g := s.rd u F.strain_SF_CFG_GATE h
      let x := s.gateAt w g
      if gateEn ∧ !x.isOpen then
        (⟨true, tc, colour, none⟩,
          ((s.sat u F.strain_SF_DROP h).sat u F.strain_DROP_GATE).sat u F.strain_GATE_DROP g)
      else
        let tc := if gateEn then (x.ipv).getD tc else tc
        if s.flag u F.strain_SF_METER_METER_EN h then
          let r := s.applyMeter w (s.rd u F.strain_SF_METER_METER h) colour true
          if r.1 then (⟨true, tc, r.2.1, none⟩, r.2.2)
          else (⟨false, tc, r.2.1, late⟩, if late.isSome then r.2.2 else r.2.2.inc u F.strain_SF_PASS h)
        else (⟨false, tc, colour, late⟩, if late.isSome then s else s.inc u F.strain_SF_PASS h)

/-! ### The verdict (R92) -/

/-- What the rules decide, before meters and filters. -/
inductive RuleOut where
  | drop
  | punt (reason : Nat)
  | recirc (rtag : Nat)
  | forward (keep : List Nat)
  deriving DecidableEq, Repr

/-- The search of one key in a bank (R90, R103): the matching action word, or a parity drop. -/
inductive Search where
  | none
  | parity
  | hit (row : Nat) (act : Nat)
  deriving DecidableEq, Repr

/-- A search, with the parity check of its first match (R103) and the row's counter (COUNT_EN). -/
def State.search (s : State) (w : Bool) (g key : Nat) : Search × State :=
  let u := uStrain w
  match (s.bank w g).firstMatch key with
  | none => (.none, s)
  | some (row, r) =>
    let (c, inj, s) := s.codeCheck u 0 (s.codeOf (memTcam w) (4096 * g + row))
    if c ≠ .good then (.parity, (s.rowParity w g row inj).sat u F.strain_DROP_PARITY)
    else
      let s := if actCountEn r.act then
          let b := s.bank w g
          s.setBank w g { b with rows := smSet noRow b.rows row { r with count := (r.count + 1) % 2 ^ 32 } }
        else s
      (.hit row r.act, s)

/-- The destinations a verdict keeps: each with its endpoint (or zone, for a CAN key) and its zone (R92). -/
def keepOf (b : Bank) (srcZone verdict act : Nat) (dests : List (Nat × Nat)) : List Nat :=
  (dests.filter (fun e =>
    if verdict ≠ 5 ∧ bitOf (actScope act) e.2 then verdict == 0 else b.pair srcZone e.2 == 1)).map (·.1)

/-- Whether a zone-pair default of PUNT was met. -/
def puntDefault (b : Bank) (srcZone verdict act : Nat) (dests : List (Nat × Nat)) : Bool :=
  dests.any (fun e => !(verdict != 5 && bitOf (actScope act) e.2) && b.pair srcZone e.2 == 2)

/-- Whether a rule's DENY removed an endpoint. -/
def ruleDenied (verdict act : Nat) (dests : List (Nat × Nat)) : Bool :=
  verdict == 1 && dests.any (fun e => bitOf (actScope act) e.2)

/-- The case analysis of R92 on a search's result. Without a match the zone-pair defaults decide (DEFER). -/
def State.ruleVerdict (s : State) (w : Bool) (g srcZone : Nat) (dests : List (Nat × Nat)) (pass2 : Bool)
    (act : Option Nat) : RuleOut × State :=
  let u := uStrain w
  let b := s.bank w g
  let a := act.getD 0
  let v := match act with
    | none => 5
    | some a => actVerdict a
  if v = 0 ∨ v = 1 ∨ v = 5 then
    let keep := keepOf b srcZone v a dests
    if !keep.isEmpty then (.forward keep, s)
    else if puntDefault b srcZone v a dests then (.punt 8, s)
    else (.drop, if ruleDenied v a dests then s.sat u F.strain_DROP_RULE else s.sat u F.strain_DROP_ZONE)
  else if v = 2 then (.forward [endpointOf (actRedirPort a) (actRedirSub a)], s.inc u F.strain_REDIRECTS)
  else if v = 3 then (.punt 7, s)
  else if pass2 then (.punt 9, s) else (.recirc (actRtag a), s)

/-- The verdict on a head. -/
structure HeadVerdict where
  out : RuleOut := .drop
  tc : Nat := 0
  colour : Nat := 0
  mirror : Option (Nat × Nat) := none
  late : Option Nat := none
  deriving DecidableEq, Repr

/-- The rest of a head's verdict once the rule's outcome is known (R92): class, colour, the rule's meter, the stream filter. -/
def State.finishVerdict (s : State) (w : Bool) (a : Nat) (m : FrameMeta) (c : KeyCtx) (mirror : Option (Nat × Nat)) (out : RuleOut) :
    HeadVerdict × State :=
  match out with
  | .forward _ =>
    let tc := if actTcEn a then actTc a else c.tc
    let col := if actColourEn a then actColour a else m.colour
    let mt := if actMeterEn a then s.applyMeter w (actMeter a) col true else (false, col, s)
    if mt.1 then ({ out := .drop, tc := tc, colour := mt.2.1, mirror := mirror }, mt.2.2)
    else
      let (f, s) := mt.2.2.streamFilter w c.stream tc mt.2.1 m.length m.lenKnown
      ({ out := if f.drop then .drop else out, tc := f.tc, colour := f.colour, mirror := mirror, late := f.late }, s)
  | out => ({ out := out, tc := c.tc, colour := m.colour, mirror := mirror }, s)

/-- The verdict on an Ethernet head (R92) in Strainer `w`, by bank `g`, with its destination endpoints. -/
def State.judgeHead (s : State) (w : Bool) (g : Nat) (p : Parsed) (m : FrameMeta) (c : KeyCtx) (es : List Nat) :
    HeadVerdict × State :=
  let u := uStrain w
  let s := s.inc u F.strain_VERDICTS
  let b := s.bank w g
  let (r, s) := s.search w g (headKey b p m c)
  match r with
  | .parity => ({ tc := c.tc, colour := m.colour }, s)
  | r =>
    let act := match r with
      | .hit _ a => some a
      | _ => none
    let a := act.getD 0
    let mirror := if actMirrorEn a then some (actMirrorPort a, actMirrorSub a) else none
    let s := if mirror.isSome then s.inc u F.strain_MIRRORS else s
    let (out, s) := s.ruleVerdict w g c.srcZone (es.map (fun e => (e, b.zone e))) m.pass2 act
    s.finishVerdict w a m c mirror (if 1 ≤ m.slow ∧ m.slow ≤ 6 ∧ out ≠ .drop then .punt m.slow else out)

/-- The verdict on a CAN key (R104): the bus pre-meter, then R92 with the members of DZONES as destinations. A row that matches keys of
every kind can hold what Table 4.6 keeps from rows of kind 3: a redirect then permits, a recirculation denies, a mirror copy is not made
(DESIGN CHOICE, log entry 98). -/
def State.judgeCan (s : State) (k : CanKey) : CanVerdict × State :=
  let w := true
  let u := uStrain w
  let g := s.curGen
  let s := (s.inc u F.strain_VERDICTS).inc u F.strain_CAN_KEYS
  let pre := if k.bus < 38 ∧ s.flag u F.strain_BUS_METER_EN k.bus then
      s.applyMeter w (s.rd u F.strain_BUS_METER_METER k.bus) 0 false
    else (false, 0, s)
  let rate := pre.2.1
  let s := pre.2.2
  let b := s.bank w g
  let src := b.zone (32 + k.bus)
  let (r, s) := s.search w g (canKeyBits k src rate)
  match r with
  | .parity => (⟨1, [], k.tc, rate, k.infuser⟩, s)
  | r =>
    let act := match r with
      | .hit _ a => some a
      | _ => none
    let a := act.getD 0
    let (out, s) := s.ruleVerdict w g src ((bitsOf 16 k.dzones).map (fun z => (z, z))) false act
    match out with
    | .forward keep =>
      let tc := if actTcEn a then actTc a else k.tc
      let col := if actColourEn a then actColour a else rate
      let mt := if actMeterEn a then s.applyMeter w (actMeter a) col true else (false, col, s)
      (⟨if mt.1 then 1 else 0, if mt.1 then [] else keep, tc, mt.2.1, k.infuser⟩, mt.2.2)
    | .punt _ => (⟨2, [], k.tc, rate, k.infuser⟩, s)
    | _ => (⟨1, [], k.tc, rate, k.infuser⟩, s)

/-! ### Admission (R98, R99) -/

/-- The admission of a first-pass head at port `port` (R98): whether it is admitted. -/
def State.admitHead (s : State) (port : Nat) : Bool × State :=
  let w := pipeOf port
  let u := uStrain w
  let x := s.strain w
  let n := smGet zero0 x.admitted port
  if s.flag u F.strain_ADMIT_EN port ∧ s.rd u F.strain_ADMIT_LIMIT port ≤ n then
    (false, (s.setStrain w { x with admitShed := if port ∈ x.admitShed then x.admitShed else port :: x.admitShed }).sat u
      F.strain_ADMIT_DROP)
  else (true, s.setStrain w { x with admitted := smSet zero0 x.admitted port (n + 1) })

/-- A run of ticks with shedding, saturating at 16 (R48, R52, R99). -/
def runNext (shed : Bool) (run : Nat) : Nat := if shed then min (run + 1) 16 else 0

/-- The admission status at a boundary (R99): runs, SUSTAINED and STICKY, the overload detector on a rising edge, and new
counts. -/
def State.admitTick (s : State) (w : Bool) : State :=
  let u := uStrain w
  let x := s.strain w
  let runs := (List.range 16).map (fun p => (p, runNext (decide (p ∈ x.admitShed)) (smGet zero0 x.admitRun p)))
  let sus := maskOf ((runs.filter (fun e => e.2 == 16)).map (·.1))
  let old := s.rd u F.strain_ADMIT_STATUS_SUSTAINED
  let s := s.setStrain w { x with admitted := [], admitShed := [], admitRun := runs.filter (fun e => e.2 != 0) }
  let s := (s.wr u F.strain_ADMIT_STATUS_SUSTAINED sus).wr u F.strain_ADMIT_STATUS_STICKY
    (s.rd u F.strain_ADMIT_STATUS_STICKY ||| sus)
  s.check u 1 ((bitsOf 16 sus).any (fun p => !bitOf old p))

/-! ### Stream gates -/

/-- The interval of a gate entry in nanoseconds; 0 acts as 1 (Table 4.9). -/
def entryNs (e : Nat) : Int := Int.ofNat (8 * max 1 (e % 2 ^ 27))

/-- The first instant at or after `now` that is `base` plus an integer number of cycles (R97, R147). -/
def nextCycle (now base cyc : Int) : Int := if cyc ≤ 0 then now else now + (base - now) % cyc

/-- The committed list of stream gate `g` (R97): the first LIST_LEN words of GCL. -/
def State.gateList (s : State) (w : Bool) (g : Nat) : List Nat :=
  (List.range (openField 0 64 (s.rd (uStrain w) F.strain_GATE_LIST_LEN_LEN g))).map
    (fun i => s.rd (uStrain w) F.strain_GCL g i)

/-- BASE of a stream gate in nanoseconds. The register holds the low 32 bits of the seconds. -/
def State.gateBase (s : State) (w : Bool) (g : Nat) : Int :=
  Int.ofNat (s.rd (uStrain w) F.strain_GATE_BASE_SEC_SEC g * 1000000000 + s.rd (uStrain w) F.strain_GATE_BASE_NS_NS g)

/-- The committed configuration copied at a cycle start: `at0` is the start (R97). -/
def State.gateBegin (s : State) (w : Bool) (g : Nat) (at0 : Int) : State :=
  let u := uStrain w
  let l := s.gateList w g
  s.setGate w g
    { running := true, td := s.rd u F.strain_GATE_CTRL_TD g, cycleNs := s.rd u F.strain_GATE_CYCLE_NS_NS g,
      cycleStart := at0, list := l, entry := 0, entryEnd := at0 + entryNs (l.headD 1) }

/-- A commit enables a stream gate: its first cycle starts at the first instant from now on that is BASE plus an integer number of cycles
(R97). Until then it is open, as a gate that is not running (DESIGN CHOICE, log entry 13). -/
def State.gateEnable (s : State) (w : Bool) (g : Nat) : State :=
  let u := uStrain w
  let td := s.rd u F.strain_GATE_CTRL_TD g
  s.setGate w g { td := td,
                  cycleStart := nextCycle (s.domNs td) (s.gateBase w g) (Int.ofNat (s.rd u F.strain_GATE_CYCLE_NS_NS g)) }

/-- When the next cycle of a stream gate starts, in nanoseconds of its domain. -/
def StreamGate.nextStart (x : StreamGate) : Int := if x.running then x.cycleStart + Int.ofNat x.cycleNs else x.cycleStart

/-- `STREAM_GATE_CYCLE_START`: a gate with EN set whose next cycle is due starts it from its committed configuration; where that names
another domain, at the same instant of it (log entry 94). One that is not due changes nothing (log entry 13). -/
def streamGateCycleStartStep (w : Bool) (g : Nat) (s : State) : State :=
  let x := s.gateAt w g
  if g < 64 ∧ s.flag (uStrain w) F.strain_GATE_CTRL_EN g ∧ x.nextStart ≤ s.domNs x.td then
    s.gateBegin w g (s.acrossDomains x.td (s.rd (uStrain w) F.strain_GATE_CTRL_TD g) x.nextStart)
  else s

/-- `STREAM_GATE_ENTRY_EXPIRY`: when the interval of the current entry has passed, the next entry of the cycle becomes current; the last
one's state holds until the cycle ends, and the end of the cycle cuts the list (R97). -/
def streamGateEntryExpiryStep (w : Bool) (g : Nat) (s : State) : State :=
  let x := s.gateAt w g
  if x.running ∧ x.entry + 1 < x.list.length ∧ x.entryEnd ≤ s.domNs x.td ∧ x.entryEnd < x.nextStart then
    s.setGate w g { x with entry := x.entry + 1, entryEnd := x.entryEnd + entryNs (x.list.getD (x.entry + 1) 1) }
  else s

/-- The entry of a list that is current at `off` nanoseconds after the cycle's start, with its end; the last entry holds
to the end of the cycle. -/
def entryAt (l : List Nat) : Nat → Int → Int → Nat × Int
  | 0, _, acc => (0, acc)
  | fuel + 1, off, acc =>
    match l with
    | [] => (0, acc)
    | e :: t =>
      if t.isEmpty ∨ off < acc + entryNs e then (0, acc + entryNs e)
      else
        let r := entryAt t fuel off (acc + entryNs e)
        (r.1 + 1, r.2)

/-- A stream gate at a step of its domain to the new time (Table 7.4, R149): its cycle and entry become those of the new
time, from the list it already runs; `cyc` is the cycle time a gate that waits for its first cycle will have. -/
def StreamGate.restep (x : StreamGate) (now base cyc : Int) : StreamGate :=
  if x.running ∧ x.cycleNs ≠ 0 then
    let start := now - (now - base) % Int.ofNat x.cycleNs
    let r := entryAt x.list (x.list.length + 1) (now - start) 0
    { x with cycleStart := start, entry := r.1, entryEnd := start + r.2 }
  else if x.running then x
  else { x with cycleStart := nextCycle now base cyc }

/-! ### Rule commands (R100 to R103, Table 4.6) -/

def ruleOk : Nat := 0
def ruleBankBusy : Nat := 1
def ruleBadArg : Nat := 2
def ruleParity : Nat := 3

/-- The operand registers as one number: key or mask in words 0 to 9. -/
def State.ruleOperand (s : State) (w : Bool) (f : Fld) : Nat :=
  (List.range 10).foldl (fun a n => a + s.rd (uStrain w) f n * 2 ^ (32 * n)) 0

def State.putRuleOperand (s : State) (w : Bool) (f : Fld) (v : Nat) : State :=
  (List.range 10).foldl (fun s n => s.wr (uStrain w) f (v / 2 ^ (32 * n)) n) s

/-- The action word in RULE_ACT_HI and RULE_ACT_LO. -/
def State.ruleAct (s : State) (w : Bool) : Nat :=
  s.rd (uStrain w) F.strain_RULE_ACT_HI * 2 ^ 32 + s.rd (uStrain w) F.strain_RULE_ACT_LO

/-- The status the running rule command will report. -/
def State.ruleStatus (s : State) (w : Bool) (st : Nat) : State := s.setStrain w { s.strain w with cmdStatus := st }

def ruleCmdAddr (w : Bool) : Nat := fldAddr (uStrain w) F.strain_RULE_CMD 0 0

/-- A write of RULE_CMD: refused while BUSY is 1, else BUSY is set and the command runs (R100). -/
def State.ruleStart (s : State) (w : Bool) (master : Nat) (run : State → State) : State :=
  if s.flag (uStrain w) F.strain_RULE_CMD_BUSY then s.refuse master (ruleCmdAddr w)
  else run (s.wr (uStrain w) F.strain_RULE_CMD_BUSY 1)

/-- The bank a read addresses: BANK 0 the active one, 1 the inactive one. -/
def State.readBank (s : State) (bankSel : Bool) : Nat := if bankSel then 1 - s.curGen else s.curGen

/-- A write command on an enabled Strainer is refused while the pair is DRAINING (Table 2.12, R100). -/
def State.ruleDraining (s : State) (w : Bool) (master : Nat) (run : State → State) : State :=
  if s.enabled (uStrain w) ∧ s.draining then
    ((s.sat (uPipe true) F.pipe_GEN_STATUS_REJECTS).refuse master (ruleCmdAddr w)).ruleStatus w ruleBankBusy
  else run s

/-- A write command runs on its bank: while the Strainer counts as enabled the inactive one, else the one BANK names (R100, R101). -/
def State.ruleWrite (s : State) (w : Bool) (master : Nat) (bankSel : Bool) (run : Nat → State → State) : State :=
  s.ruleDraining w master (fun s => run (if s.enabled (uStrain w) then 1 - s.curGen else s.readBank bankSel) s)

/-- Whether SUB is in range for a redirect or mirror port: a segment for P12, a function 0 to 4 for P14, else 0. -/
def subOk (port sub : Nat) : Bool := port == 12 || (if port = 14 then sub ≤ 4 else sub == 0)

/-- The operand check of WRITE_RULE (Table 4.6). -/
def ruleBad (key act : Nat) : Bool :=
  decide (6 ≤ actVerdict act) || actRedirPort act == 15 || actMirrorPort act == 15
    || !subOk (actRedirPort act) (actRedirSub act) || !subOk (actMirrorPort act) (actMirrorSub act)
    || (nbits key 318 2 == 3 && (actVerdict act == 2 || actVerdict act == 4 || actMirrorEn act))

/-- A row of bank `g` set: staging copy and TCAM row are written, so both codes are right. A retired row is never written
(R336). -/
def State.putRow (s : State) (w : Bool) (g row : Nat) (r : RuleRow) : State :=
  if s.retiredWord (memTcam w) (4096 * g + row) ∨ s.retiredWord (memStaging w) (4096 * g + row) then s
  else
    let b := s.bank w g
    ((s.setBank w g { b with rows := smSet noRow b.rows row r }).clearUpset (memStaging w) (4096 * g + row)).clearUpset
      (memTcam w) (4096 * g + row)

/-- `WRITE_RULE`. -/
def writeRuleRun (w : Bool) (row : Nat) (g : Nat) (s : State) : State :=
  let key := s.ruleOperand w F.strain_RULE_KEY
  let act := s.ruleAct w
  if ruleBad key act ∨ 4095 < row then s.ruleStatus w ruleBadArg
  else (s.putRow w g row ⟨true, key, s.ruleOperand w F.strain_RULE_MASK, act, 0⟩).ruleStatus w ruleOk

/-- `READ_RULE`: the row into the operand registers, VALID and RULE_COUNT. A staging copy whose code fails is reported by
the rule-memory detector and gives PARITY. -/
def readRuleRun (w : Bool) (row : Nat) (bankSel : Bool) (s : State) : State :=
  if 4095 < row then s.ruleStatus w ruleBadArg
  else
    let g := s.readBank bankSel
    let u := uStrain w
    let r := smGet noRow (s.bank w g).rows row
    let (c, inj, s) := s.codeCheck u 0 (s.codeOf (memStaging w) (4096 * g + row))
    match c with
    | .failed =>
      (s.codeFail u 0 { access := 6, addr := memAddr (memStaging w) (4096 * g + row) } inj).ruleStatus w ruleParity
    | c =>
      let s := if c = .corrected then s.clearUpset (memStaging w) (4096 * g + row) else s
      let s := (s.putRuleOperand w F.strain_RULE_KEY r.value).putRuleOperand w F.strain_RULE_MASK r.mask
      let s := (s.wr u F.strain_RULE_ACT_HI (r.act / 2 ^ 32)).wr u F.strain_RULE_ACT_LO r.act
      ((s.wr u F.strain_RULE_CMD_VALID (b2n r.valid)).wr u F.strain_RULE_COUNT r.count).ruleStatus w ruleOk

/-- `CLEAR_RULE`: the row made invalid, its counter cleared. -/
def clearRuleRun (w : Bool) (row : Nat) (g : Nat) (s : State) : State :=
  if 4095 < row then s.ruleStatus w ruleBadArg
  else
    let r := smGet noRow (s.bank w g).rows row
    (s.putRow w g row { r with valid := false, count := 0 }).ruleStatus w ruleOk

/-- `WRITE_ZPAIR`: INDEX is 16 × source zone + destination zone. -/
def writeZpairRun (w : Bool) (idx : Nat) (g : Nat) (s : State) : State :=
  if 255 < idx then s.ruleStatus w ruleBadArg
  else
    let b := s.bank w g
    (s.setBank w g { b with zpair := smSet zero0 b.zpair idx (s.ruleAct w % 4) }).ruleStatus w ruleOk

/-- `READ_ZPAIR`. -/
def readZpairRun (w : Bool) (idx : Nat) (bankSel : Bool) (s : State) : State :=
  if 255 < idx then s.ruleStatus w ruleBadArg
  else (s.wr (uStrain w) F.strain_RULE_ACT_LO (smGet zero0 (s.bank w (s.readBank bankSel)).zpair idx)).ruleStatus w
    ruleOk

/-- `WRITE_ZMAP`: INDEX is an endpoint code. -/
def writeZmapRun (w : Bool) (idx : Nat) (g : Nat) (s : State) : State :=
  if 127 < idx then s.ruleStatus w ruleBadArg
  else
    let b := s.bank w g
    (s.setBank w g { b with zmap := smSet zero0 b.zmap idx (s.ruleAct w % 16) }).ruleStatus w ruleOk

/-- `READ_ZMAP`. -/
def readZmapRun (w : Bool) (idx : Nat) (bankSel : Bool) (s : State) : State :=
  if 127 < idx then s.ruleStatus w ruleBadArg
  else (s.wr (uStrain w) F.strain_RULE_ACT_LO (smGet zero0 (s.bank w (s.readBank bankSel)).zmap idx)).ruleStatus w
    ruleOk

/-- What an unwritten prefix entry holds: not valid. -/
def noPfx (_ : Nat) : Nat × Bool := (0, false)

/-- `WRITE_PFX`: prefix from RULE_KEY1:RULE_KEY0, valid from RULE_ACT_LO[0]. -/
def writePfxRun (w : Bool) (idx : Nat) (g : Nat) (s : State) : State :=
  if 62 < idx then s.ruleStatus w ruleBadArg
  else
    let b := s.bank w g
    let v := (s.ruleOperand w F.strain_RULE_KEY % 2 ^ 64, bitOf (s.ruleAct w) 0)
    (s.setBank w g { b with pfx := smSet noPfx b.pfx idx v }).ruleStatus w ruleOk

/-- `READ_PFX`. -/
def readPfxRun (w : Bool) (idx : Nat) (bankSel : Bool) (s : State) : State :=
  if 62 < idx then s.ruleStatus w ruleBadArg
  else
    let v := smGet noPfx (s.bank w (s.readBank bankSel)).pfx idx
    let u := uStrain w
    (((s.wr u F.strain_RULE_KEY v.1).wr u F.strain_RULE_KEY (v.1 / 2 ^ 32) 1).wr u F.strain_RULE_ACT_LO
      (b2n v.2)).ruleStatus w ruleOk

/-- `COPY_ACTIVE`: the whole active bank into the inactive one, row counters cleared; BANK is ignored. -/
def copyActiveRun (w : Bool) (s : State) : State :=
  let g := 1 - s.curGen
  let src := s.bank w s.curGen
  let rows := (src.rows.map (fun e => (e.1, { e.2 with count := 0 }))).filter (fun e =>
    e.2 ≠ noRow 0 && !s.retiredWord (memTcam w) (4096 * g + e.1) && !s.retiredWord (memStaging w) (4096 * g + e.1))
  let lo := 4096 * g
  let s := s.setBank w g { src with rows := rows, rescan := (s.bank w g).rescan }
  { s with upsets := s.upsets.filter (fun x =>
      !((x.mem == memTcam w || x.mem == memStaging w) && decide (lo ≤ x.index ∧ x.index < lo + 4096))) }.ruleStatus w
    ruleOk

/-- `RULE_CMD_COMPLETE`: BUSY clears and STATUS becomes valid. -/
def ruleCompleteStep (w : Bool) (s : State) : State :=
  if s.flag (uStrain w) F.strain_RULE_CMD_BUSY then
    (s.wr (uStrain w) F.strain_RULE_CMD_BUSY 0).wr (uStrain w) F.strain_RULE_CMD_STATUS (s.strain w).cmdStatus
  else s

/-- `TCAM_RESCAN`: the rescan of a bank reads its next row and checks its parity; a row in error is counted, reported and
rewritten from its staging copy (R102). -/
def tcamRescanStep (w : Bool) (g : Nat) (s : State) : State :=
  let u := uStrain w
  let b := s.bank w g
  let row := b.rescan
  let (c, inj, s) := s.codeCheck u 0 (s.codeOf (memTcam w) (4096 * g + row))
  let s := if c ≠ .good then (s.rowParity w g row inj).sat u F.strain_TCAM_PARITY else s
  let b := s.bank w g
  s.setBank w g { b with rescan := (row + 1) % 4096 }

end Sys2Proof.Machine
end

