-- ==== Sys2Proof/Machine/Fabric.lean ====
section
/-! DEFINITION. The fabric and the shared buffer: cells, records, queues, release and discard walks, admission, push-out,
back-pressure, pauses, the auditor (chapter 5). -/

namespace Sys2Proof.Machine

/-! ### Memory codes (R115, Table 5.4) -/

/-- A check of a word of a fabric memory: a corrected error is counted and, except in a cell word, rewritten; an
uncorrectable one is counted and reported by the buffer-memory detector. -/
def State.fabCheck (s : State) (mem idx : Nat) (rewrite : Bool) : CodeResult × State :=
  let (c, inj, s) := s.codeCheck uFab 0 (s.codeOf mem idx)
  match c with
  | .good => (.good, s)
  | .corrected => (.corrected, (if rewrite then s.clearUpset mem idx else s).sat uFab F.fab_ECC_CORR)
  | .failed => (.failed, (s.codeFail uFab 0 { access := 6, addr := memAddr mem idx } inj).sat uFab F.fab_ECC_UNCORR)

/-- The ledger memory numbers of the fabric (Table 15.8): buffer slice, link, owner, record, queue entry. -/
def memCell (ptr : Nat) : Nat := 32 + ptr / 8192
def memLink : Nat := 11
def memOwner : Nat := 12
def memRecord : Nat := 13
def memQEntry : Nat := 14

/-! ### Cells (R114, R117, R120) -/

/-- A free count changed, with the lowest value kept (Table 5.10). -/
def State.setFree (s : State) (n : Nat) : State :=
  let s := s.wr uFab F.fab_BUF_FREE_FREE n
  if n < s.rd uFab F.fab_BUF_FREE_MIN_MIN then s.wr uFab F.fab_BUF_FREE_MIN_MIN n else s

/-- A retired cell: by its own entry, or because the row of its link or owner word is retired (R336). -/
def State.cellRetired (s : State) (ptr : Nat) : Bool :=
  s.retiredWord (memCell ptr) (ptr % 8192) || s.retiredWord memLink ptr || s.retiredWord memOwner ptr

/-- A cell is on its slice's free list: neither in use nor retired. -/
def State.cellFree (s : State) (ptr : Nat) : Bool := (pmGet s.fab.cells ptr).isNone && !s.cellRetired ptr

/-- The free cell of a slice that an input takes: which of the free ones the list gives first is open, the first one at or
after a drawn index here (log entry 1). -/
def State.freeCellFrom (s : State) (slice : Nat) : Nat → Nat → Option Nat
  | 0, _ => none
  | fuel + 1, i =>
    if s.cellFree (slice * 8192 + i % 8192) then some (slice * 8192 + i % 8192) else s.freeCellFrom slice fuel (i + 1)

def State.popFree (s : State) (slice : Nat) : Option Nat × State :=
  (s.freeCellFrom slice 8192 (s.drawn 8192), s.draw)

/-- A FREE record: the first one at or after a drawn index (log entry 1). -/
def State.freeRecordFrom (s : State) : Nat → Nat → Option Nat
  | 0, _ => none
  | fuel + 1, i =>
    if (s.frame (i % 131072)).isNone && !s.retiredWord memRecord (i % 131072) then some (i % 131072) else s.freeRecordFrom fuel (i + 1)

/-- A queue entry's place in the pool of 262,144 (log entry 1). -/
def State.freeSlotFrom (s : State) (used : List Nat) : Nat → Nat → Nat
  | 0, i => i % 262144
  | fuel + 1, i =>
    if used.contains (i % 262144) || s.retiredWord memQEntry (i % 262144) then s.freeSlotFrom used fuel (i + 1)
    else i % 262144

/-- A cell returned to its free list. -/
def State.freeCell (s : State) (ptr : Nat) : State :=
  let struck := match pmGet s.fab.cells ptr with
    | some c => c.strike
    | none => false
  let s := { s with fab := { s.fab with cells := pmDel s.fab.cells ptr } }
  let s := if struck then s.wr uFab F.fab_AUDIT_STRIKES (s.rd uFab F.fab_AUDIT_STRIKES - 1) else s
  s.setFree (s.rd uFab F.fab_BUF_FREE_FREE + 1)

/-- One release of a cell (R120): at REF equal to COPIES it is freed, else REF rises. -/
def State.release (s : State) (copies ptr : Nat) : State :=
  match pmGet s.fab.cells ptr with
  | none => s
  | some c =>
    if c.ref = copies then s.freeCell ptr
    else { s with fab := { s.fab with cells := pmSet s.fab.cells ptr { c with ref := c.ref + 1 } } }

/-- A record becomes FREE. The MAC that still receives its frame keeps the record's last content for the end-of-frame checks, and nothing
more of the frame is written. -/
def State.freeRecord (s : State) (r : Nat) (f : Frame) : State :=
  let x := s.input f.fm.inPort
  let s := { s with fab := { s.fab with frames := pmDel s.fab.frames r } }
  if x.rx.any (fun m => m.record == some r) then
    s.setInput f.fm.inPort { x with
      hold := x.hold.filter (fun c => c.record != r)
      rx := x.rx.map (fun m => if m.record = some r then { m with record := none, past := some f } else m) }
  else s

/-- A copy finished: at the last one the record is FREE (R120). -/
def State.copyDone (s : State) (r : Nat) : State :=
  match s.frame r with
  | none => s
  | some f => if f.copies < f.done + 1 then s.freeRecord r f else s.setFrame r { f with done := f.done + 1 }

/-- A discard walk requested for one copy, with the positions its own reads have released (R121). -/
def State.walkFrom (s : State) (r : Nat) (skip : List Nat) : State :=
  { s with fab := { s.fab with walks := s.fab.walks ++ [⟨r, 0, skip⟩] } }
def State.walk (s : State) (r : Nat) : State := s.walkFrom r []

/-- A frame discarded whole before or at its verdict: one copy with a discard walk (R120). -/
def State.discardFrame (s : State) (r : Nat) : State :=
  (s.updFrame r (fun f => { f with copies := 0, plan := [] })).walk r

/-! ### Receiving cells (R116 to R118) -/

/-- Frames being written across the device: inputs whose frame has started and whose last cell is not written. -/
def State.writingCount (s : State) : Nat := (s.fab.frames.filter (fun e => !e.2.complete)).length

/-- A new frame may start: 144 free cells for each frame being written, the new one counted (R116). -/
def State.roomForFrame (s : State) : Bool := decide (144 * (s.writingCount + 1) ≤ s.rd uFab F.fab_BUF_FREE_FREE)

/-- The class of a head at an E-port (R439): PCP_MAP of the outer PCP, or DEF_TC when untagged. -/
def State.portClass (s : State) (port tags pcp : Nat) : Nat :=
  let u := uPipe (pipeOf port)
  if tags = 0 then s.rd u F.pipe_TC_MAP_DEF_TC port else s.rd u F.pipe_TC_MAP_PCP_MAP port / 8 ^ pcp % 8

/-- A record taken for a new frame; its word is written afresh. -/
def State.newFrame (s : State) (fm : FrameMeta) : Option Nat × State :=
  match s.freeRecordFrom 131072 (s.drawn 131072) with
  | none => (none, s.draw)
  | some r => (some r, (s.draw.clearUpset memRecord r).setFrame r { fm := fm })

/-- A cell put into an input's hold. -/
def State.holdCell (s : State) (port : Nat) (c : HeldCell) : State :=
  s.setInput port { s.input port with hold := (s.input port).hold ++ [c] }

/-- Whether the class of a P12 to P15 source is stalled (R129). -/
def State.stalledClass (s : State) (port tc : Nat) : Bool :=
  12 ≤ port && s.flag uFab F.fab_PFC_CFG_EN port && s.fab.pfcOn.contains (8 * port + tc)

def noOffers (_ : Nat) : List Offer := []
def State.offersAt (s : State) (port : Nat) : List Offer := smGet noOffers s.fab.offers port
def State.setOffers (s : State) (port : Nat) (l : List Offer) : State :=
  { s with fab := { s.fab with offers := smSet noOffers s.fab.offers port l } }

/-- A frame that a source of P12 to P15 offers after those it already offers. -/
def State.offer (s : State) (port : Nat) (fm : FrameMeta) (b : List Byte) : State :=
  s.setOffers port (s.offersAt port ++ [⟨fm, b, 0⟩])

/-- The first offer that may start on P13, P14 or P15: its class is not stalled and, on ports other than P13, no stalled frame of its
sub-source stands before it (R129, R211). -/
def State.nextOffer (s : State) (port : Nat) : List Offer → List Nat → Nat → Option (Nat × Offer)
  | [], _, _ => none
  | e :: t, blocked, i =>
    if s.stalledClass port e.fm.tc then s.nextOffer port t (e.fm.inSub :: blocked) (i + 1)
    else if port ≠ 13 ∧ blocked.contains e.fm.inSub then s.nextOffer port t blocked (i + 1)
    else some (i, e)

/-- The frame that may start on P12: the segments take turns, and a segment whose first frame's class is stalled is passed over
(R203). -/
def State.nextSegment (s : State) (l : List Offer) (turn : Nat) : Option (Nat × Offer) :=
  ((List.range 8).map (fun k => (turn + k) % 8)).findSome? (fun g =>
    match findIdx1 (fun (e : Offer) => e.fm.inSub == g) l 0 with
    | some x => if s.stalledClass 12 x.2.fm.tc then none else some x
    | none => none)

/-- The offer that a source brings next: the one in progress, else the next that may start. -/
def State.pickOffer (s : State) (port : Nat) : Option (Nat × Offer) :=
  let l := s.offersAt port
  match findIdx1 (fun (e : Offer) => decide (0 < e.offset)) l 0 with
  | some x => some x
  | none => if port = 12 then s.nextSegment l (s.input 12).turn else s.nextOffer port l [] 0

/-- The next cell of the offer whose turn it is enters the hold; a hold of two cells is full, and the source is stalled. Without
room for a new frame a P12 frame is dropped, another source offers its frame again (R116 to R118). -/
def State.offerNext (s : State) (port : Nat) : State :=
  let x := s.input port
  if 2 ≤ x.hold.length then s
  else
    match s.pickOffer port with
    | none => s
    | some (i, e) =>
      let l := s.offersAt port
      let sof := e.offset == 0
      if sof ∧ !s.roomForFrame then
        (if port = 12 then (s.setOffers 12 (l.eraseIdx i)).sat uFab F.fab_BUF_FULL_DROP else s)
      else
        let (r, s) := if sof then s.newFrame e.fm else (x.writing, s)
        match r with
        | none => s
        | some r =>
          let eof := decide (e.bytes.length ≤ e.offset + 64)
          let s := s.holdCell port ⟨r, slice e.bytes e.offset 64, sof, eof⟩
          if eof then
            let s := (s.setOffers port (l.eraseIdx i)).setInput port { s.input port with
              writing := none, turn := if port = 12 then (e.fm.inSub + 1) % 8 else 0 }
            if port = 12 then s.inc uT1s F.t1s_RX_FRAMES e.fm.inSub else s
          else (s.setOffers port (l.set i { e with offset := e.offset + 64 })).setInput port
            { s.input port with writing := some r }

/-! ### MAC receive (2.2, 2.3) -/

/-- The MAC of an E-port takes no frame that begins now: it counts as disabled, or RX_EN is 0 (Table 2.3). -/
def State.macOff (s : State) (p : Nat) : Bool := !s.enabled (uMac p) || !s.flag (uMac p) F.mac_RX_CFG_RX_EN

/-- The bytes of the largest frame that a port accepts: MAX_LEN, and SecTAG and ICV of a protected one (Table 2.3). -/
def State.maxWire (s : State) (p : Nat) (f : MacFrame) : Nat :=
  clampNat 64 9216 (s.rd (uMac p) F.mac_RX_CFG_MAX_LEN) +
    (match f.sec, secTagOf f.raw with
     | some _, some x => x.len + 16
     | _, _ => 0)

/-- A frame with the next bytes from the wire: its SecTAG is read once it is there, and at MAX_LEN + 1 bytes the frame is ended
(R37). -/
def State.macBytes (s : State) (p : Nat) (f : MacFrame) (b : List Byte) (eof : Bool) : MacFrame :=
  if f.ended then f
  else
    let raw := f.raw ++ b
    let f := { f with raw := raw, sec := if f.sec.isNone ∧ f.cells = 0 ∧ (28 ≤ raw.length ∨ eof) then s.rxSecOf p raw else f.sec }
    let n := s.maxWire p f + 1
    if n ≤ raw.length then { f with raw := raw.take n, cut := true, ended := true } else { f with ended := eof }

/-- Bytes arrive at the MAC of an E-port. -/
def State.macReceive (s : State) (p : Nat) (c : RxIn) : State :=
  let l := (s.input p).rx
  let l := if c.sof then
      l.map (fun f => { f with ended := true }) ++ [{ raw := [], wc := c.wc, ended := false, off := s.macOff p }]
    else l
  match l.getLast? with
  | none => s
  | some f => s.setInput p { s.input p with rx := l.dropLast ++ [s.macBytes p f c.data c.eof] }

/-- A gPTP frame: its address and EtherType, in the frame without SecTAG (R165). -/
def isGptp (b : List Byte) : Bool := be48 b 0 == 0x0180C200000E && be16 b 12 == 0x88F7

/-- An unprotected frame in strict mode, EAPOL apart (Table 2.5). -/
def State.macUnprotected (s : State) (p : Nat) (f : MacFrame) : Bool :=
  decide (2 ≤ s.rd (uMac p) F.mac_MACSEC_RX_VALIDATE) && f.sec.isNone && !isEapol f.raw

/-- Whether cells of a received frame go to the fabric: not those of a runt (R36), of a PAUSE or PFC frame (R38), of a gPTP frame
(R165), of an unprotected frame in strict mode, or of a frame that began while reception was off. -/
def State.macKeeps (s : State) (p : Nat) (f : MacFrame) : Bool :=
  !f.off && !f.lost && decide (64 ≤ f.raw.length) && be16 f.raw 12 != 0x8808 && !isGptp (s.macPlain p f) && !s.macUnprotected p f

/-- A cell of a received frame is complete and not handed on; whether it is the frame's last one is known with the next byte. -/
def State.macOwes (s : State) (p : Nat) (f : MacFrame) : Bool :=
  s.macKeeps p f &&
    (if f.ended then decide (64 * f.cells < (s.macPlain p f).length)
     else decide (64 * (f.cells + 1) < (s.macPlain p f).length))

/-- The metadata that a frame of an E-port brings: source, timestamp of its first bit, MACsec marks (R45, Table 2.1). -/
def firstMeta (p : Nat) (f : MacFrame) : FrameMeta :=
  { inPort := p, inSub := 0, ts := f.wc / 65536 % 2 ^ 32, macsec := f.sec.isSome,
    msAn := (f.sec.map (·.an)).getD 0, msSc := (f.sec.bind (·.channel)).getD 0 }

/-- The MAC hands its oldest complete cell to the hold; a frame that finds no room at its first cell is dropped (R116). -/
def State.macHand (s : State) (p : Nat) : State :=
  let x := s.input p
  match findIdx1 (s.macOwes p) x.rx 0 with
  | none => s
  | some (i, f) =>
    if 2 ≤ x.hold.length then s
    else
      let put (s : State) (f : MacFrame) : State := s.setInput p { s.input p with rx := (s.input p).rx.set i f }
      if f.cells = 0 ∧ !s.roomForFrame then (put s { f with lost := true }).sat uFab F.fab_BUF_FULL_DROP
      else
        let (r, s) := if f.cells = 0 then s.newFrame (firstMeta p f) else (f.record, s)
        match r with
        | none => put s { f with lost := true }
        | some r =>
          let b := s.macPlain p f
          let c : HeldCell := ⟨r, slice b (64 * f.cells) 64, f.cells == 0, f.ended && decide (b.length ≤ 64 * (f.cells + 1))⟩
          (put s { f with cells := f.cells + 1, record := some r }).holdCell p c

/-! ### Writing cells (R34, R35, R117) -/

/-- The head of a frame is due at its pipeline: after 256 bytes, or when the whole frame is written if that comes first,
and only then for P12 to P15 (R34, R35). -/
def headDue (port cells : Nat) (eof : Bool) : Bool :=
  if 12 ≤ port then eof else cells == 4 || (eof && decide (cells < 4))

/-- An input or output has had its cell of this FAB cycle. -/
def State.usePort (s : State) (k : Nat) : State := { s with fab := { s.fab with used := k :: s.fab.used } }

/-- The oldest held cell written into the slice that the rotation presents to this input (R117): cell, link and owner word are
written afresh. An input writes once in a FAB cycle. -/
def State.writeHeld (s : State) (port : Nat) : State :=
  match (s.input port).hold, s.fab.used.contains port with
  | [], _ => s
  | _, true => s
  | c :: t, false =>
    match (s.usePort port).popFree ((port + s.fabCycle) % 16) with
    | (none, s) => s.inc uFab F.fab_SLICE_SKIP
    | (some ptr, s) =>
      let s := ((s.clearUpset (memCell ptr) (ptr % 8192)).clearUpset memLink ptr).clearUpset memOwner ptr
      let s := { s with fab := { s.fab with cells := pmSet s.fab.cells ptr ⟨c.data, c.record, 0, c.sof, c.eof, false, false⟩ } }
      let s := s.setFree (s.rd uFab F.fab_BUF_FREE_FREE - 1)
      let n := match s.frame c.record with
        | some f => f.chain.length + 1
        | none => 0
      let s := s.updFrame c.record (fun f => { f with
        chain := f.chain ++ [ptr], bytes := f.bytes + c.data.length, complete := c.eof, ended := c.eof && 12 ≤ port })
      let x := s.input port
      s.setInput port { x with hold := t, heads := if headDue port n c.eof then x.heads ++ [c.record] else x.heads }

/-- `CELL_WRITE`: one fabric cycle of an input: the bytes that arrive at an E-port's MAC, the cell that the source hands to the
hold, and the write of the oldest held cell. -/
def cellWriteStep (port : Nat) (rx : Option RxIn) (s : State) : State :=
  if port < 12 then
    let s := match rx with
      | some c => s.macReceive port c
      | none => s
    (s.macHand port).writeHeld port
  else if port < 16 then (s.offerNext port).writeHeld port
  else s

/-- The bytes of a frame as its cells hold them. -/
def State.frameBytes (s : State) (f : Frame) : List Byte :=
  f.chain.flatMap (fun p => match pmGet s.fab.cells p with
    | some c => c.data
    | none => [])

/-! ### Accounting (Table 5.5) -/

/-- Reservations not in use, over all queues. -/
def State.resvUnused (s : State) : Nat :=
  (List.range 16).foldl (fun a j =>
    a + (s.rd uFab F.fab_QRESV_RESV (8 * j + 6) - s.resvUsedOf (8 * j + 6))
      + (s.rd uFab F.fab_QRESV_RESV (8 * j + 7) - s.resvUsedOf (8 * j + 7))) 0

/-- LOSSLESS_USED of an ingress port and a class 4 or 5. -/
def losslessFld (c : Nat) : Fld := if c = 4 then F.fab_LOSSLESS_USED_TC4 else F.fab_LOSSLESS_USED_TC5

/-- The priorities mapped to class 4 or 5 (R128). -/
def State.prioMask (s : State) (p c : Nat) : Nat :=
  if c = 4 then s.rd uFab F.fab_PFC_CFG_PRIO_TC4 p else s.rd uFab F.fab_PFC_CFG_PRIO_TC5 p

/-- A PFC frame without FCS (IEEE 802.1Q clause 36; PRESUMED, log entry 58): address 01:80:C2:00:00:01, the port's own address, EtherType
0x8808, opcode 0x0101, the priorities it enables and the quanta of each. -/
def pfcFrame (p mask quanta : Nat) : List Byte :=
  let b := beBytes 6 0x0180C2000001 ++ beBytes 6 (Config.portAddress p) ++ beBytes 2 0x8808 ++ beBytes 2 0x0101 ++
    beBytes 2 mask ++ (List.range 8).flatMap (fun i => beBytes 2 (if bitOf mask i then quanta else 0))
  b ++ List.replicate (60 - b.length) 0#8

/-- A PFC frame of the MAC of an E-port for the priorities of a class (R128): it is sent at the next frame boundary, unprotected, ahead of
everything that waits; its half QUANTA counts from now (DESIGN CHOICE, log entry 107). -/
def State.sendPfc (s : State) (p c quanta : Nat) : State :=
  let x := s.spoutAt p
  let e : Tx := ⟨9, s.clk.wc, none, 0, [], none, 0, 64, some (pfcFrame p (s.prioMask p c) quanta), s.clk.wc, false, none, none, 0, true,
    none⟩
  { s with fab := { s.fab with pfcAt := pmSet s.fab.pfcAt (8 * p + c) s.clk.wc } }.setSpout p { x with line := x.line ++ [e] }

/-- XON; a value at or above XOFF acts as XOFF − 1. -/
def State.xon (s : State) (p : Nat) : Nat :=
  min (s.rd uFab F.fab_PFC_THRESH_XON p) (s.rd uFab F.fab_PFC_THRESH_XOFF p - 1)

/-- The back-pressure of a port and a class as the count now calls for it: raised at XOFF, lifted below XON (R128, R129). -/
def State.pfcLevel (s : State) (p c : Nat) : State :=
  let n := s.rd uFab (losslessFld c) p
  let key := 8 * p + c
  if !s.flag uFab F.fab_PFC_CFG_EN p then
    { s with fab := { s.fab with pfcOn := s.fab.pfcOn.filter (· != key) } }
  else if !s.fab.pfcOn.contains key then
    if s.rd uFab F.fab_PFC_THRESH_XOFF p ≤ n then
      let s := { s with fab := { s.fab with pfcOn := key :: s.fab.pfcOn } }
      if p < 12 then s.sendPfc p c (s.rd uFab F.fab_PFC_HEAD_QUANTA p) else s
    else s
  else if n < s.xon p then
    let s := { s with fab := { s.fab with pfcOn := s.fab.pfcOn.filter (· != key) } }
    if p < 12 then s.sendPfc p c 0 else s
  else s

/-- A change of a lossless count, with the back-pressure it raises or lifts. -/
def State.setLossless (s : State) (p c n : Nat) : State := (s.wr uFab (losslessFld c) n p).pfcLevel p c

/-- Half of the QUANTA that a port sends has passed since the last PFC frame of a class. -/
def State.pfcDue (s : State) (p c : Nat) : Bool :=
  decide (byteTime (s.linkRate p) (32 * s.rd uFab F.fab_PFC_HEAD_QUANTA p) ≤
    (s.clk.wc + 2 ^ 80 - (pmGet s.fab.pfcAt (8 * p + c)).getD 0) % 2 ^ 80)

/-- `PFC_REFRESH`: the PFC frame is sent again each time half of QUANTA has elapsed, while the count stays at or above XON (R128). -/
def pfcRefreshStep (p c : Nat) (s : State) : State :=
  if p < 12 ∧ (c = 4 ∨ c = 5) ∧ s.flag uFab F.fab_PFC_CFG_EN p ∧ s.fab.pfcOn.contains (8 * p + c) ∧ s.pfcDue p c ∧
      s.xon p ≤ s.rd uFab (losslessFld c) p then
    s.sendPfc p c (s.rd uFab F.fab_PFC_HEAD_QUANTA p)
  else s

/-- One more copy of a frame holds its lossless cells of a class; they are counted once per frame. -/
def State.losslessHold (s : State) (r c n : Nat) : State :=
  match s.frame r with
  | none => s
  | some f =>
    match f.lossless.find? (fun e => e.tc == c) with
    | some _ => s.setFrame r { f with lossless := f.lossless.map (fun e =>
        if e.tc = c then { e with holders := e.holders + 1 } else e) }
    | none =>
      (s.setFrame r { f with lossless := f.lossless ++ [⟨c, n, 1⟩] }).setLossless f.fm.inPort c
        (s.rd uFab (losslessFld c) f.fm.inPort + n)

/-- One copy less holds them; the last one returns the cells. -/
def State.losslessDrop (s : State) (r c : Nat) : State :=
  match s.frame r with
  | none => s
  | some f =>
    match f.lossless.find? (fun e => e.tc == c) with
    | none => s
    | some e =>
      if e.holders ≤ 1 then
        (s.setFrame r { f with lossless := f.lossless.filter (fun e => e.tc != c) }).setLossless f.fm.inPort c
          (s.rd uFab (losslessFld c) f.fm.inPort - e.cells)
      else s.setFrame r { f with lossless := f.lossless.map (fun e =>
        if e.tc = c then { e with holders := e.holders - 1 } else e) }

/-- The depth and frame counts of a queue, and PORT_USED, changed by one entry's cells. -/
def State.acctAdd (s : State) (q n : Nat) (resv : Bool) : State :=
  let s := s.wr uFab F.fab_QDEPTH_CELLS (s.rd uFab F.fab_QDEPTH_CELLS q + n) q
  if resv then s.setResvUsed q (s.resvUsedOf q + n)
  else s.wr uFab F.fab_PORT_USED_CELLS (s.rd uFab F.fab_PORT_USED_CELLS (q / 8) + n) (q / 8)

def State.acctSub (s : State) (q n : Nat) (resv : Bool) : State :=
  let s := s.wr uFab F.fab_QDEPTH_CELLS (s.rd uFab F.fab_QDEPTH_CELLS q - n) q
  if resv then s.setResvUsed q (s.resvUsedOf q - n)
  else s.wr uFab F.fab_PORT_USED_CELLS (s.rd uFab F.fab_PORT_USED_CELLS (q / 8) - n) (q / 8)

/-- An entry taken out of its queue with everything accounted for it returned (5.6). -/
def State.removeEntry (s : State) (q : Nat) (e : QEntry) : State :=
  let s := s.setQueue q ((s.queue q).filter (fun x => x.slot != e.slot))
  let s := (s.acctSub q e.acct e.resv).wr uFab F.fab_QFRAMES_COUNT (s.rd uFab F.fab_QFRAMES_COUNT q - 1) q
  let s := s.wr uFab F.fab_QENT_FREE_FREE (s.rd uFab F.fab_QENT_FREE_FREE + 1)
  (if e.lossless then s.losslessDrop e.frame (q % 8) else s).queueLeft q

/-- The marks of a dropped copy: its port dropped in this tick (R131), and a recirculation leaves its generation's
in-flight count (R54). -/
def State.copyLost (s : State) (r : Nat) (c : Copy) : State :=
  let s := { s with fab := { s.fab with dropped := if s.fab.dropped.contains c.port then s.fab.dropped
    else c.port :: s.fab.dropped } }
  match c.recirc, s.frame r with
  | true, some f => s.inflightDown (b2n f.fm.gen)
  | _, _ => s

/-- A copy dropped at its admission: counted in a queue counter and released by a discard walk (R126). -/
def State.dropCopy (s : State) (r : Nat) (c : Copy) (cnt : Fld) : State :=
  ((s.sat uFab cnt c.queue).copyLost r c).walk r

/-! ### Admission (R126, R127) -/

/-- RED (R126): whether profile and colour drop a copy at the queue's depth. Which 8 bits of the LFSR decide is open (log
entry 4). -/
def State.redDrops (s : State) (q colour : Nat) : Bool :=
  let p := s.rd uFab F.fab_QCFG_PROFILE q
  let d := s.rd uFab F.fab_QDEPTH_CELLS q
  let mn := s.rd uFab F.fab_RED_MIN_CELLS p colour
  let mx := s.rd uFab F.fab_RED_MAX_CELLS p colour
  if mx ≤ d then true
  else if d < mn then false
  else decide (Config.lfsrByte s.fab.lfsr % 256 < s.rd uFab F.fab_RED_PMAX_PMAX p colour * (d - mn) / (mx - mn))

/-- The entries that push-out would evict (R127): from the lowest class, newest first, at most 8, no started one; none if
they do not suffice. -/
def State.pushOutList (s : State) (j c need : Nat) : Option (List (Nat × QEntry)) :=
  let cand (k : Nat) : List (Nat × QEntry) :=
    ((s.queue (8 * j + k)).reverse.takeWhile (fun e => !e.started)).map (fun e => (8 * j + k, e))
  let rec pick : List (List (Nat × QEntry)) → Nat → List (Nat × QEntry) → Option (List (Nat × QEntry))
    | [], _, _ => none
    | l :: t, got, acc =>
      let rec take : List (Nat × QEntry) → Nat → List (Nat × QEntry) → Nat × List (Nat × QEntry)
        | [], got, acc => (got, acc)
        | e :: t, got, acc =>
          if acc.length = 8 ∨ need ≤ got then (got, acc) else take t (got + e.2.acct) (acc ++ [e])
      let r := take l got acc
      if need ≤ r.1 then some r.2 else pick t r.1 r.2
  pick ((List.range (min c 4)).map cand) 0 []

/-- The selection of a copy that is lost before it starts: the class's deficit is restored (R143). -/
def State.unselect (s : State) (p tc : Nat) : State :=
  match (s.readingOf p).find? (fun r => r.tc == tc) with
  | none => s
  | some r =>
    let x := s.spoutAt p
    (s.setReading p ((s.readingOf p).filter (fun r => r.tc != tc))).setSpout p
      { x with deficit := if tc ≤ 3 then smSet intZero x.deficit tc r.deficit else x.deficit }

/-- An entry evicted by push-out: out of its queue, counted, released by a discard walk, and unselected (R127, R143). It is a dropped
copy for DROP_STATUS (DESIGN CHOICE, log entry 87: R131 says "any copy is dropped", Table 5.12 counts evictions apart). -/
def State.evict (s : State) (q : Nat) (e : QEntry) : State :=
  let selected := (s.queue q).head? = some e
  let s := if selected then s.unselect (q / 8) (q % 8) else s
  let s := (((s.removeEntry q e).copyLost e.frame e.copy).walkFrom e.frame []).sat uFab F.fab_QEVICTED q
  s.sat uFab F.fab_PUSHOUT (q / 8)

/-- What admission decides. -/
inductive Admission where
  | reserved
  | lossless
  | normal (evict : List (Nat × QEntry))
  | dropLimit
  | dropLossless
  | dropRed
  deriving DecidableEq, Repr

/-- R126 for `n` cells of a copy of class `c` at port `j`, from a frame of ingress port `inPort` and colour `colour`. -/
def State.admission (s : State) (q n inPort colour : Nat) : Admission :=
  let j := q / 8
  let c := q % 8
  if 6 ≤ c ∧ s.resvUsedOf q + n ≤ s.rd uFab F.fab_QRESV_RESV q then .reserved
  else if s.rd uFab F.fab_BUF_FREE_FREE < max 2304 (s.rd uFab F.fab_BUF_CFG_START_RESERVE) + s.resvUnused then .dropLimit
  else if c = 4 ∨ c = 5 then
    if s.rd uFab F.fab_PFC_THRESH_XOFF inPort + s.rd uFab F.fab_PFC_HEAD_HEADROOM inPort
        ≤ s.rd uFab (losslessFld c) inPort then .dropLossless
    else .lossless
  else if c ≤ 3 ∧ s.redDrops q colour then .dropRed
  else if s.rd uFab F.fab_QCFG_LIMIT q < s.rd uFab F.fab_QDEPTH_CELLS q - s.resvUsedOf q + n then .dropLimit
  else
    let used := s.rd uFab F.fab_PORT_USED_CELLS j + n
    let lim := s.rd uFab F.fab_PORT_CFG_LIMIT j
    if lim < used then
      match s.pushOutList j c (used - lim) with
      | some l => .normal l
      | none => .dropLimit
    else .normal []

/-- Whether an admission admits. -/
def Admission.admits : Admission → Bool
  | .reserved => true
  | .lossless => true
  | .normal _ => true
  | _ => false

/-- ACCT of a copy (R124): CELLS, or for a cut-through copy of a frame that has not ended the cells of the largest frame
its ingress port accepts. -/
def State.acctOf (s : State) (f : Frame) (c : Copy) : Nat :=
  if c.ct ∧ !f.ended then
    (clampNat 64 9216 (s.rd (uMac f.fm.inPort) F.mac_RX_CFG_MAX_LEN) + 63) / 64
  else f.chain.length

/-- A copy put at the tail of its queue. -/
def State.enqueue (s : State) (r : Nat) (c : Copy) (n : Nat) (resv lossless : Bool) : State :=
  let q := c.queue
  let used := (s.fab.queues.map (fun e => e.2.map (·.slot))).flatten
  let slot := s.freeSlotFrom used 262144 (s.drawn 262144)
  let s := s.draw.clearUpset memQEntry slot
  let e : QEntry := ⟨slot, r, c, false, n, resv, lossless, false⟩
  let s := (s.setQueue q (s.queue q ++ [e])).acctAdd q n resv
  let s := (s.wr uFab F.fab_QFRAMES_COUNT (s.rd uFab F.fab_QFRAMES_COUNT q + 1) q).inc uFab F.fab_QENQ q
  let s := s.wr uFab F.fab_QENT_FREE_FREE (s.rd uFab F.fab_QENT_FREE_FREE - 1)
  let s := if c.ct then s.inc uFab F.fab_CT_FRAMES c.port else s
  if lossless then s.losslessHold r (q % 8) n else s

/-- A queued copy of a lost frame ended: stomped if an E-port has started it, else dropped (Table 5.4). -/
def State.loseEntry (s : State) (f : Frame) (q : Nat) (e : QEntry) : State :=
  let p := q / 8
  let s := if (s.queue q).head? = some e then
      match (s.readingOf p).find? (fun x => x.tc == q % 8) with
      | some r =>
        let s := s.setReading p ((s.readingOf p).filter (fun x => x.tc != q % 8))
        if p < 12 ∧ e.started then s.stompTx p r f else s
      | none => s
    else s
  let s := s.removeEntry q e
  if p < 12 ∧ e.started then s else s.copyLost e.frame e.copy

/-- Every copy of a frame ended because its record cannot be read, be it queued, on its way to a queue or waiting for the frame's
end; its cells are left to the auditor (Table 5.4). -/
def State.loseFrame (s : State) (r : Nat) : State :=
  match s.frame r with
  | none => s
  | some f =>
    let s := (List.range 128).foldl (fun s q =>
      (s.queue q).foldl (fun s e => if e.frame = r then s.loseEntry f q e else s) s) s
    let s := (f.plan ++ (s.fab.toEnqueue.filter (fun x => x.1 == r)).map (·.2)).foldl (fun s c => s.copyLost r c) s
    { s with fab := { s.fab with toEnqueue := s.fab.toEnqueue.filter (fun x => x.1 != r) } }.freeRecord r f

/-- One copy at its admission (R122, R126, R132). A cut-through copy of a frame still arriving that the admission does not
take becomes store-and-forward, and waits for the frame's end. -/
def State.enqueueCopy (s : State) (r : Nat) (c : Copy) : State :=
  match s.fabCheck memRecord r true with
  | (.failed, s) => (s.copyLost r c).loseFrame r
  | (_, s) =>
    match s.frame r with
    | none => s
    | some f =>
      let q := c.queue
      let n := s.acctOf f c
      let a := s.admission q n f.fm.inPort f.fm.colour
      if c.ct ∧ !f.ended ∧ !a.admits then s.setFrame r { f with plan := f.plan ++ [{ c with ct := false }] }
      else if s.rd uFab F.fab_QENT_FREE_FREE = 0 then ((s.sat uFab F.fab_QENT_DROP).copyLost r c).walk r
      else
        match a with
        | .reserved => s.enqueue r c n true false
        | .lossless => s.enqueue r c n false true
        | .normal l => (l.foldl (fun s e => s.evict e.1 e.2) s).enqueue r c n false false
        | .dropRed => s.dropCopy r c F.fab_QDROP_RED
        | .dropLimit => s.dropCopy r c F.fab_QDROP_LIMIT
        | .dropLossless => (s.sat uFab F.fab_LOSSLESS_DROP f.fm.inPort).dropCopy r c F.fab_QDROP_LIMIT

/-- `COPY_ENQUEUE`: the next copy whose moment of R119 has come. -/
def copyEnqueueStep (s : State) : State :=
  match s.fab.toEnqueue with
  | [] => s
  | (r, c) :: t => { s with fab := { s.fab with toEnqueue := t } }.enqueueCopy r c

/-- Copies whose moment has come, in order. -/
def State.pushCopies (s : State) (r : Nat) (l : List Copy) : State :=
  { s with fab := { s.fab with toEnqueue := s.fab.toEnqueue ++ l.map (fun c => (r, c)) } }

/-! ### Discard walks (R121) -/

/-- One cell of one walk; answers the walk's continuation. A broken link leaves the rest of the chain to the auditor. -/
def State.walkStep (s : State) (k : Walk) : Option Walk × State :=
  match s.frame k.frame with
  | none => (none, s)
  | some f =>
    match f.chain[k.pos]? with
    | none => if f.complete then (none, s.copyDone k.frame) else (some k, s)
    | some ptr =>
      let s := if k.skip.contains k.pos then s else s.release f.copies ptr
      match s.fabCheck memLink ptr true with
      | (.failed, s) => (none, s.copyDone k.frame)
      | (_, s) =>
        if f.complete ∧ k.pos + 1 = f.chain.length then (none, s.copyDone k.frame)
        else (some { k with pos := k.pos + 1 }, s)

/-- `DISCARD_WALK`: one cycle of the first four walks. -/
def discardWalkStep (s : State) : State :=
  let now := s.fab.walks.take 4
  let later := s.fab.walks.drop 4
  let r := now.foldl (fun (a : List Walk × State) k =>
    match a.2.walkStep k with
    | (some k, s) => (a.1 ++ [k], s)
    | (none, s) => (a.1, s)) ([], s)
  { r.2 with fab := { r.2.fab with walks := r.1 ++ later } }

/-! ### Pauses (R130) -/

def noPause (_ : Nat) : PauseTimers := {}
def State.pauseOf (s : State) (p : Nat) : PauseTimers := smGet noPause s.fab.pause p

/-- PAUSE_STATE from the timers: TC4 or TC5 while a priority mapped to it is paused, TC0 to TC5 by PAUSE. -/
def State.showPause (s : State) (p : Nat) : State :=
  let x := s.pauseOf p
  let by4 := x.prio.any (fun e => bitOf (s.prioMask p 4) e.1)
  let by5 := x.prio.any (fun e => bitOf (s.prioMask p 5) e.1)
  let m := if x.all.isSome then 0x3F else (if by4 then 16 else 0) + (if by5 then 32 else 0)
  s.wr uFab F.fab_PAUSE_STATE_TC m p

def State.setPause (s : State) (p : Nat) (x : PauseTimers) : State :=
  { s with fab := { s.fab with pause := smSet noPause s.fab.pause p x } }.showPause p

/-- The end of a pause of `quanta` × 512 bit times at the port's speed, as WC in units of 2^-16 ns. -/
def State.pauseEnd (s : State) (p quanta : Nat) : Nat :=
  if s.linkRate p = 0 then s.clk.wc
  else s.clk.wc + (quot (Int.ofNat (quanta * 512 * 1000 * 65536)) (Int.ofNat (s.linkRate p))).toNat

/-- The timers after a PFC frame that names priorities with their quanta: 0 stops a priority's timer. -/
def State.applyPfc (s : State) (p : Nat) (l : List (Nat × Nat)) : PauseTimers :=
  l.foldl (fun x e =>
    if e.2 = 0 then { x with prio := pmDel x.prio e.1 }
    else { x with prio := pmSet x.prio e.1 (s.pauseEnd p e.2) }) (s.pauseOf p)

/-- The priorities of a PFC frame that it enables, with their quanta (IEEE 802.1Q clause 36; PRESUMED, log entry 58). -/
def pfcQuanta (b : List Byte) : List (Nat × Nat) := (bitsOf 8 (byteAt b 17)).map (fun i => (i, be16 b (18 + 2 * i)))

/-- What a good PAUSE or PFC frame does (R130): opcode 0x0101 is PFC, 0x0001 PAUSE. -/
def State.takePause (s : State) (p : Nat) (b : List Byte) : State :=
  if be16 b 14 = 0x0101 ∧ s.flag uFab F.fab_PFC_CFG_RX_EN p then s.setPause p (s.applyPfc p (pfcQuanta b))
  else if be16 b 14 = 0x0001 ∧ s.flag uFab F.fab_PFC_CFG_RX_PAUSE_EN p then
    s.setPause p { s.pauseOf p with all := if be16 b 16 = 0 then none else some (s.pauseEnd p (be16 b 16)) }
  else s

/-- The oldest frame of an E-port's MAC, if it has ended. -/
def State.macFirst (s : State) (p : Nat) : Option MacFrame :=
  match (s.input p).rx with
  | f :: _ => if f.ended then some f else none
  | [] => none

/-- The MAC is done with its oldest frame. -/
def State.macDone (s : State) (p : Nat) : State := s.setInput p { s.input p with rx := (s.input p).rx.tail }

/-- `PAUSE_FRAME_RECEIVE` (R38, R130): the oldest frame that the MAC has received is one of EtherType 0x8808. A frame that ends with
an FCS error or truncated is counted as such and has no effect. -/
def pauseFrameReceiveStep (p : Nat) (s : State) : State :=
  match s.macFirst p with
  | none => s
  | some f =>
    if p < 12 ∧ !f.off ∧ 64 ≤ f.raw.length ∧ be16 f.raw 12 = 0x8808 then
      let u := uMac p
      let s := s.macDone p
      if f.cut then s.sat u F.mac_RX_OVERSIZE
      else if !fcsGood f.raw then s.sat u F.mac_RX_FCS_ERR
      else (s.sat u F.mac_RX_PAUSE).takePause p f.raw
    else s

/-- A pause timer that has run out. -/
def State.pauseOver (s : State) : Option Nat → Bool
  | some e => decide (e ≤ s.clk.wc)
  | none => false

/-- `PAUSE_TIMER_EXPIRY`: the timer of one priority, or of PAUSE, has run out. -/
def pauseTimerExpiryStep (p : Nat) (prio : Option Nat) (s : State) : State :=
  let x := s.pauseOf p
  if p < 12 then
    match prio with
    | some k => if s.pauseOver (pmGet x.prio k) then s.setPause p { x with prio := pmDel x.prio k } else s
    | none => if s.pauseOver x.all then s.setPause p { x with all := none } else s
  else s

/-! ### Boundary work (R131, R135) -/

/-- DROP_STATUS at a boundary (R131). -/
def State.dropTick (s : State) : State :=
  let runs := (List.range 16).map (fun p => (p, runNext (s.fab.dropped.contains p) (smGet zero0 s.fab.dropRun p)))
  let sus := maskOf ((runs.filter (fun e => e.2 == 16)).map (·.1))
  let s := { s with fab := { s.fab with dropped := [], dropRun := runs.filter (fun e => e.2 != 0) } }
  (s.wr uFab F.fab_DROP_STATUS_SUSTAINED sus).wr uFab F.fab_DROP_STATUS_STICKY
    (s.rd uFab F.fab_DROP_STATUS_STICKY ||| sus)

/-- The auditor's check of one cell that is not on a free list (R135): a cell whose owner's record is FREE, or whose owner
word cannot be read, gains a strike, and is reclaimed on the second one. -/
def State.auditCell (s : State) (ptr : Nat) : State :=
  match pmGet s.fab.cells ptr with
  | none => s
  | some c =>
    let (k, s) := s.fabCheck memOwner ptr true
    let ok := k ≠ .failed ∧ (s.frame c.owner).isSome
    let put (s : State) (b : Bool) : State :=
      { s with fab := { s.fab with cells := pmSet s.fab.cells ptr { c with strike := b } } }
    let n := s.rd uFab F.fab_AUDIT_STRIKES
    if ok then (if c.strike then (put s false).wr uFab F.fab_AUDIT_STRIKES (n - 1) else s)
    else if !c.strike then (put s true).wr uFab F.fab_AUDIT_STRIKES (n + 1)
    else
      ((s.freeCell ptr).sat uFab F.fab_AUDIT_RECLAIMED).fire uFab 1 { addr := memAddr (memCell ptr) (ptr % 8192) }

/-- The auditor's next `k` cells, in logical order; the last one of the 131,072 ends a pass (R135). The owner word of a cell that is
not in use is read too, and its code checked. -/
def State.auditSome (s : State) (k : Nat) : State :=
  let pos := s.rd uFab F.fab_AUDIT_STATUS_POSITION
  let here := fun p : Nat => pos ≤ p && p < pos + k
  let idle := ((s.upsets.filter (fun e => e.mem == memOwner && here e.index)).map (·.index)).filter
    (fun p => (pmGet s.fab.cells p).isNone)
  if k = 0 then s
  else
    let s := ((s.fab.cells.map (·.1)).filter here).foldl (fun s p => s.auditCell p) s
    let s := idle.foldl (fun s p => (s.fabCheck memOwner p true).2) s
    let s := s.check uFab 1 false
    if 131072 ≤ pos + k then (s.wr uFab F.fab_AUDIT_STATUS_POSITION 0).inc uFab F.fab_AUDIT_STATUS_PASSES
    else s.wr uFab F.fab_AUDIT_STATUS_POSITION (pos + k)

/-- `INGRESS_UNDERRUN` (R133): the ingress of a started cut-through copy stops before the frame ends; the copy at output `p` of
class `tc` is ended as a stomped frame, and the rest of its cells are released by a walk. -/
def ingressUnderrunStep (p tc : Nat) (s : State) : State :=
  match (s.readingOf p).find? (fun r => r.tc == tc), s.queue (8 * p + tc) with
  | some r, e :: _ =>
    match s.frame e.frame with
    | none => s
    | some f =>
      if p < 12 ∧ e.started ∧ e.copy.ct ∧ !f.complete then
        let s := (s.setReading p ((s.readingOf p).filter (fun r => r.tc != tc))).removeEntry (8 * p + tc) e
        let s := (s.stompTx p r f).walkFrom e.frame (r.cells.map (·.1))
        s.sat uFab F.fab_UNDERRUN p
      else s
  | _, _ => s

end Sys2Proof.Machine
end

