-- ==== Sys2Proof/Machine/Gptp.lean ====
section
/-! DEFINITION. gPTP messages as bytes (7.3 to 7.6; IEEE 802.1AS-2020, which R164 names): what the time engine writes and reads. The
manual names the standard and gives no layout; the offsets, flags and fixed fields here are the standard's. PRESUMED (log entry 88). -/

namespace Sys2Proof.Machine

/-- messageType. -/
def ptpType : PtpKind → Nat
  | .sync => 0
  | .pdelayReq => 2
  | .pdelayResp => 3
  | .followUp => 8
  | .pdelayRespFollowUp => 10
  | .announce => 11
  | .signaling => 12

def ptpKinds : List PtpKind := [.sync, .pdelayReq, .pdelayResp, .followUp, .pdelayRespFollowUp, .announce, .signaling]

/-- Bytes `i` on replaced by others. -/
def setSlice (b : List Byte) (i : Nat) (n : List Byte) : List Byte := b.take i ++ n ++ b.drop (i + n.length)

/-! ### Written -/

/-- The identity of a port of this device: clockIdentity and port number. -/
def portIdentity (p : Nat) : Nat := Config.clockIdentity % 2 ^ 64 * 2 ^ 16 + (p + 1)

/-- A timestamp of 48 bits of seconds and 32 of nanoseconds. -/
def ptpTime (ns : Int) : List Byte := beBytes 6 (ofSigned 48 (ns / 1000000000)) ++ beBytes 4 (ns % 1000000000).toNat

/-- A frame without FCS around a message: address 01:80:C2:00:00:0E, the port's own address, EtherType 0x88F7 (R165). -/
def ptpFrame (p : Nat) (m : List Byte) : List Byte :=
  beBytes 6 0x0180C200000E ++ beBytes 6 (Config.portAddress p) ++ beBytes 2 0x88F7 ++ m

/-- A message: the common header of 34 bytes, then the rest. `major` is majorSdoId, 2 for the common link delay service and 1
otherwise; `log` is logMessageInterval. -/
def ptpMessage (k : PtpKind) (major num flags p seq log : Nat) (rest : List Byte) : List Byte :=
  beBytes 1 (major * 16 + ptpType k) ++ beBytes 1 0x12 ++ beBytes 2 (34 + rest.length) ++ beBytes 1 num ++ beBytes 1 0 ++
    beBytes 2 flags ++ beBytes 8 0 ++ beBytes 4 0 ++ beBytes 10 (portIdentity p) ++ beBytes 2 seq ++
    beBytes 1 (match k with
      | .sync => 0
      | .followUp => 2
      | _ => 5) ++ beBytes 1 log ++ rest

/-- The flags: twoStepFlag, and ptpTimescale, which gPTP always sets. -/
def ptpFlags (twoStep : Bool) : Nat := (if twoStep then 0x0200 else 0) + 0x0008

/-- The Follow_Up information TLV: cumulativeScaledRateOffset (a rate − 1 with 48 fractional bits cut to 41), and the grandmaster's
last changes. -/
def followUpTlv (rate : Int) (change : List Byte) : List Byte :=
  beBytes 4 0x0003001C ++ beBytes 6 0x0080C2000001 ++ beBytes 4 (ofSigned 32 (quot rate 128)) ++
    (change ++ List.replicate (18 - change.length) 0#8)

/-- The message interval request TLV of this device: no change of the partner's intervals, and oneStepReceiveCapable. -/
def intervalTlv : List Byte :=
  beBytes 4 0x0003000C ++ beBytes 6 0x0080C2000002 ++ beBytes 3 0x808080 ++ beBytes 1 7 ++ beBytes 2 0

/-- A written frame with another correctionField (units of 2^-16 ns). -/
def withCorrection (b : List Byte) (c : Int) : List Byte := setSlice b 22 (beBytes 8 (ofSigned 64 c))

/-- The correctionField of a written frame. -/
def correctionIn (b : List Byte) : Int := toSigned 64 (beNat (slice b 22 8))

/-- A written frame with another timestamp after its header. -/
def withTime (b : List Byte) (ns : Int) : List Byte := setSlice b 48 (ptpTime ns)

/-! ### Read -/

/-- The type of a received message; none if the device supports no such message. -/
def ptpKindOf (m : List Byte) : Option PtpKind :=
  if byteAt m 1 % 16 = 2 ∧ 34 ≤ m.length then ptpKinds.find? (fun k => ptpType k == byteAt m 0 % 16) else none

def PtpRx.kind (x : PtpRx) : Option PtpKind := ptpKindOf x.data

/-- domainNumber, sourcePortIdentity, sequenceId, twoStepFlag, correctionField, logMessageInterval. -/
def PtpRx.num (x : PtpRx) : Nat := byteAt x.data 4
def PtpRx.source (x : PtpRx) : Nat := beNat (slice x.data 20 10)
def PtpRx.seq (x : PtpRx) : Nat := be16 x.data 30
def PtpRx.twoStep (x : PtpRx) : Bool := bitOf (byteAt x.data 6) 1
def PtpRx.correction (x : PtpRx) : Int := toSigned 64 (beNat (slice x.data 8 8))
def PtpRx.log (x : PtpRx) : Int := toSigned 8 (byteAt x.data 33)

/-- The timestamp after the header, in nanoseconds. -/
def PtpRx.time (x : PtpRx) : Nat := be48 x.data 34 * 1000000000 + be32 x.data 40

/-- The rate − 1, in units of 2^-41, and the rest of the Follow_Up information TLV; none without it. -/
def PtpRx.followUp (x : PtpRx) : Option (Int × List Byte) :=
  if be32 x.data 44 = 0x0003001C ∧ be48 x.data 48 = 0x0080C2000001 ∧ 76 ≤ x.data.length then
    some (toSigned 32 (be32 x.data 54), slice x.data 58 18)
  else none

/-- requestingPortIdentity of a Pdelay_Resp or its follow-up. -/
def PtpRx.requester (x : PtpRx) : Nat := beNat (slice x.data 44 10)

/-- systemIdentity and stepsRemoved of an Announce, and its path trace. -/
def PtpRx.system (x : PtpRx) : Nat := beNat (slice x.data 47 14)
def PtpRx.steps (x : PtpRx) : Nat := be16 x.data 61
def PtpRx.path (x : PtpRx) : List Byte := if be16 x.data 64 = 8 then slice x.data 68 (be16 x.data 66) else []

/-- Eight-byte identities of a path trace. -/
def pathIds : Nat → List Byte → List Nat
  | 0, _ => []
  | n + 1, b => if b.length < 8 then [] else beNat (b.take 8) :: pathIds n (b.drop 8)

/-- An Announce that this device sent, or that has passed through it. -/
def PtpRx.own (x : PtpRx) : Bool :=
  let me := Config.clockIdentity % 2 ^ 64
  x.source / 2 ^ 16 == me || (pathIds 179 x.path).contains me

/-- The message interval request TLV of a Signaling message: oneStepReceiveCapable, and the link delay, sync and announce
intervals. -/
def PtpRx.request (x : PtpRx) : Option (Bool × Int × Int × Int) :=
  if be32 x.data 44 = 0x0003000C ∧ be48 x.data 48 = 0x0080C2000002 then
    some (bitOf (byteAt x.data 57) 2, toSigned 8 (byteAt x.data 54), toSigned 8 (byteAt x.data 55), toSigned 8 (byteAt x.data 56))
  else none

end Sys2Proof.Machine
end

