-- ==== Sys2Proof/Machine/HeadPath.lean ====
section
/-! DEFINITION. From the head to the verdict's copies, and the end of a frame: resolution (R63), slow path and
recirculation admission (R48, R52), cut-through (R132), end-of-frame checks (R41), generations (R55). -/

namespace Sys2Proof.Machine

/-! ### Slow path and recirculation (R48, R52) -/

/-- The frames of the slow-path queue: those in it, and those admitted whose moment to enter it has not come (DESIGN CHOICE, log entry
89: R48 has the frame enqueued at its verdict, R119 at its end). -/
def State.slowFrames (s : State) : Nat :=
  s.rd uFab F.fab_QFRAMES_COUNT 120 + (s.fab.toEnqueue.filter (fun e => e.2.slow)).length +
    (s.fab.frames.filter (fun e => e.2.plan.any (·.slow))).length

/-- The run-time admission of a frame with slow-path reason `r` (R48): whether it is admitted. A frame admitted and not yet queued
counts among the 512 (DESIGN CHOICE, log entry 89: R48 tests the frames "in the queue", and the queue is not to exceed them). -/
def State.slowAdmit (s : State) (w : Bool) (r : Nat) : Bool × State :=
  let u := uPipe w
  let p := s.pipe w
  let n := smGet zero0 p.puntAdmitted r
  if n < s.rd u F.pipe_PUNT_LIMIT_LIMIT (r - 1) then
    if s.slowFrames < 512 then
      (true, (s.setPipe w { p with puntAdmitted := smSet zero0 p.puntAdmitted r (n + 1) }).inc u F.pipe_PUNT_COUNT (r - 1))
    else (false, s.sat u F.pipe_PUNT_QFULL)
  else
    (false, (s.setPipe w { p with puntShed := if p.puntShed.contains r then p.puntShed else r :: p.puntShed }).sat u
      F.pipe_PUNT_DROP (r - 1))

/-- The slow-path status at a boundary (R48, R49). -/
def State.slowTick (s : State) (w : Bool) : State :=
  let u := uPipe w
  let p := s.pipe w
  let runs := (List.range 9).map (fun i => (i + 1, runNext (p.puntShed.contains (i + 1)) (smGet zero0 p.puntRun (i + 1))))
  let sus := maskOf ((runs.filter (fun e => e.2 == 16)).map (fun e => e.1 - 1))
  let old := s.rd u F.pipe_PUNT_STATUS_SUSTAINED
  let s := s.setPipe w { p with puntAdmitted := [], puntShed := [], puntRun := runs.filter (fun e => e.2 != 0) }
  let s := (s.wr u F.pipe_PUNT_STATUS_SUSTAINED sus).wr u F.pipe_PUNT_STATUS_STICKY
    (s.rd u F.pipe_PUNT_STATUS_STICKY ||| sus)
  let rc := runNext s.gen.shed s.gen.run
  let rcOld := s.flag (uPipe true) F.pipe_GEN_STATUS_RC_SUSTAINED
  let s := if w then
      { s with gen := { s.gen with admitted := 0, shed := false, run := rc } }.wr u F.pipe_GEN_STATUS_RC_SUSTAINED
        (b2n (rc == 16))
    else s
  s.check u 2 ((bitsOf 9 sus).any (fun i => !bitOf old i) || (w && rc == 16 && !rcOld))

/-- First-pass recirculation admission (R52). -/
def State.recircAdmit (s : State) (g : Nat) : Bool × State :=
  let u := uPipe true
  if s.gen.admitted < s.rd u F.pipe_RECIRC_LIMIT_LIMIT then
    (true, { s with gen := { s.gen with admitted := s.gen.admitted + 1 } }.inflightUp g)
  else (false, { s with gen := { s.gen with shed := true } }.sat u F.pipe_RECIRC_DROP)

/-! ### Resolution (R63) -/

/-- The VLAN entry of a VID as a head reads it: a word whose code fails is reported and acts as an entry with VALID 0, as one of a
retired row does (R336). -/
def State.vlanEntry (s : State) (w : Bool) (vid : Nat) : Nat × State :=
  if s.retiredWord (memVlan w) vid then (0, s)
  else match s.codeOf (memVlan w) vid with
  | .good => (smGet noVlan (s.pipe w).vlan vid, s)
  | .corrected => (smGet noVlan (s.pipe w).vlan vid, (s.clearUpset (memVlan w) vid).sat (uPipe w) F.pipe_ECC_CORR)
  | .failed => (0, s.reportWord w (memVlan w) vid)

def vlanValid (v : Nat) : Bool := bitOf v 63
def vlanLearn (v : Nat) : Bool := bitOf v 62
def vlanUucDrop (v : Nat) : Bool := bitOf v 61
def vlanUmcDrop (v : Nat) : Bool := bitOf v 60
def vlanFid (v : Nat) : Nat := nbits v 48 12
def vlanMember (v : Nat) : Nat := nbits v 32 16
def vlanUntag (v : Nat) : Nat := nbits v 16 16
def vlanFloodS (v : Nat) : Nat := nbits v 8 8
def vlanFloodH (v : Nat) : Nat := nbits v 3 5

/-- What the lookups decide: discard, or destinations with the class and the stream handle. -/
structure Resolved where
  dest : Nat
  subS : Nat
  subH : Nat
  tc : Nat
  stream : Nat
  deriving DecidableEq, Repr

/-- A head that Fallback mode does not discard for where it entered: on E0, from PF0, from the triad (R283). -/
def fallbackFrom (inPort inSub : Nat) : Bool := inPort == 0 || (inPort == 14 && inSub == 0) || inPort == 15

/-- The destinations that Fallback mode leaves (R283): none for a discard. -/
def fallbackDest (inPort inSub : Nat) (d : Resolved) : Option Resolved :=
  let other := bitsOf 16 d.dest |>.any (fun p => !(p == 0 || p == 14 || p == 15))
  if other ∨ !fallbackFrom inPort inSub then none
  else
    let d := if inPort = 14 then { d with dest := d.dest &&& 1 }
      else if inPort = 0 then { d with dest := d.dest &&& 2 ^ 14, subH := d.subH &&& 1 } else d
    if d.dest = 0 ∨ (d.dest = 2 ^ 14 ∧ d.subH = 0) then none else some d

/-- The lookups and the destination set of R63 after the VLAN is known: none for a discard, which is counted. -/
def State.resolve (s : State) (w : Bool) (p : Parsed) (m : FrameMeta) (v : Nat) : Option Resolved × State :=
  let u := uPipe w
  let fid := vlanFid v
  let (d, s) := s.headLookup w (fdbKey p.da fid)
  let (sa, s) := s.headLookup w (fdbKey p.sa fid)
  let fdbDrop (s : State) : Option Resolved × State := (none, s.sat u F.pipe_FDB_DROP)
  let saDrop := match sa with
    | some e => e.action == 2
    | none => false
  let moved := match sa with
    | some e => e.static && !e.sourceIs m.inPort m.inSub
    | none => false
  if saDrop then fdbDrop s
  else
    let s := if moved then s.sat u F.pipe_STATIC_MOVE else s
    if moved ∧ s.flag u F.pipe_FDB_CFG_DROP_STATIC_MOVE then fdbDrop s
    else
      let group := bitOf p.da 40
      let bcast := p.da == 0xFFFFFFFFFFFF
      let member := vlanMember v
      let r : Option Resolved × State := match d with
        | some e =>
          if e.action = 1 then fdbDrop s
          else (some ⟨e.destMask &&& member, e.subS, e.subH, if e.tcOvr then e.tc else m.tc, e.stream⟩, s)
        | none =>
          if !bcast ∧ group ∧ vlanUmcDrop v then fdbDrop s
          else if !bcast ∧ !group ∧ vlanUucDrop v then fdbDrop s
          else
            let s := if group then s else s.inc u F.pipe_DA_MISS
            (some ⟨clearBit member 15, vlanFloodS v, vlanFloodH v, m.tc, 0⟩, s)
      match r with
      | (none, s) => (none, s)
      | (some d, s) =>
        let d := if m.inPort = 12 then { d with subS := clearBit d.subS m.inSub }
          else if m.inPort = 14 then { d with subH := clearBit d.subH m.inSub }
          else { d with dest := clearBit d.dest m.inPort }
        let d := if d.subS = 0 then { d with dest := clearBit d.dest 12 } else d
        let d := if d.subH = 0 then { d with dest := clearBit d.dest 14 } else d
        if d.dest = 0 then (none, s.sat u F.pipe_SAME_PORT)
        else if s.fallback then
          match fallbackDest m.inPort m.inSub d with
          | none => fdbDrop s
          | some d => (some d, s)
        else (some d, s)

/-! ### Copies (R119, R120, R132) -/

/-- The copies of a forward verdict: one for each port, with the segments or functions it selects. -/
def forwardCopies (keep : List Nat) (tc : Nat) : List Copy :=
  let ps := (keep.map (fun e => (portOfEndpoint e).1)).eraseDups
  ps.map (fun port =>
    let subs := maskOf ((keep.filter (fun e => (portOfEndpoint e).1 == port)).map (fun e => (portOfEndpoint e).2))
    ⟨port, tc, false, false, if port = 12 then subs else 0, if port = 14 then subs else 0, false, false⟩)

/-- The mirror copy. -/
def mirrorCopy (m : Option (Nat × Nat)) (tc : Nat) : List Copy :=
  match m with
  | none => []
  | some (port, sub) =>
    [⟨port, tc, false, true, if port = 12 then 2 ^ sub else 0, if port = 14 then 2 ^ sub else 0, false, false⟩]

/-- Whether a copy is cut-through at its verdict (R132). A port without link has rate 0 here, so its data rate exceeds no other's
(DESIGN CHOICE, log entry 90: the manual gives such a port no data rate). -/
def State.cutThrough (s : State) (f : Frame) (recirc : Bool) (c : Copy) : Bool :=
  f.fm.inPort < 12 && !f.fm.pass2 && c.port < 12 && s.flag uFab F.fab_PORT_CFG_CT_EN c.port
    && decide (s.linkRate c.port ≤ s.linkRate f.fm.inPort) && !recirc && (s.queue c.queue).isEmpty
    && (s.admission c.queue (s.acctOf f { c with ct := true }) f.fm.inPort f.fm.colour).admits

/-- The copies of a judged frame take their way (R119): cut-through ones at once; the others at once for P12 to P15 and for
E-port frames that have ended well, else at the frame's end; for a bad frame each is discarded. -/
def State.planCopies (s : State) (r : Nat) (l : List Copy) : State :=
  match s.frame r with
  | none => s
  | some f =>
    if l.isEmpty then s.discardFrame r
    else
      let recirc := l.any (·.recirc)
      let l := l.map (fun c => { c with ct := s.cutThrough f recirc c })
      let now := l.filter (fun c => c.ct && !f.bad)
      let later := l.filter (fun c => !c.ct || f.bad)
      let s := s.setFrame r { f with copies := l.length - 1, plan := if f.ended then [] else later }
      let s := s.pushCopies r now
      if !f.ended then s
      else if f.bad then later.foldl (fun s c => (if c.recirc then s.inflightDown (b2n f.fm.gen) else s).walk r) s
      else s.pushCopies r later

/-! ### The head (R34, R43 to R63, R84 to R92, R98) -/

/-- The bytes of a head: the first four cells (R34). -/
def State.headBytes (s : State) (f : Frame) : List Byte := s.frameBytes { f with chain := f.chain.take 4 }

/-- The parser's configuration in one pipeline. -/
def State.parseIn (s : State) (w : Bool) (head : List Byte) (known : Bool) (len : Nat) : ParseIn :=
  { head := head, lenKnown := known, len := len, altTpid := s.rd (uPipe w) F.pipe_PARSE_CFG_ALT_TPID,
    udf := (List.range 4).map (fun i =>
      (s.rd (uPipe w) F.pipe_UDF_DEF_ANCHOR i, s.rd (uPipe w) F.pipe_UDF_DEF_OFFSET i)) }

/-- The fields of a record that its source fixes, put over a parsed record: on a second pass those that R50 keeps. -/
def keepMeta (old new : FrameMeta) : FrameMeta :=
  { new with inPort := old.inPort, inSub := old.inSub, ts := old.ts, gen := old.gen, macsec := old.macsec,
             msAn := old.msAn, msSc := old.msSc, zone := old.zone, tc := old.tc, colour := old.colour,
             pass2 := old.pass2, rtag := old.rtag }

/-- The words W0 to W7 of the metadata record (R45, Table 2.9). -/
def FrameMeta.words (m : FrameMeta) : List Nat :=
  [m.inPort % 16 * 2 ^ 28 + m.inSub % 16 * 2 ^ 24 + b2n m.pass2 * 2 ^ 23 + b2n m.gen * 2 ^ 22 + b2n m.lenKnown * 2 ^ 21 +
     b2n m.macsec * 2 ^ 20 + m.length % 2 ^ 14 * 2 ^ 6 + m.slow % 32 * 2,
   m.ts % 2 ^ 32,
   m.pcpO % 8 * 2 ^ 29 + m.deiO % 2 * 2 ^ 28 + m.vidO % 4096 * 2 ^ 16 + m.pcpI % 8 * 2 ^ 13 + m.deiI % 2 * 2 ^ 12 + m.vidI % 4096,
   m.tags % 4 * 2 ^ 30 + m.l3Type % 16 * 2 ^ 26 + m.l4Type % 16 * 2 ^ 22 + m.l3Off % 256 * 2 ^ 14 + m.l4Off % 256 * 2 ^ 6 +
     m.v6Ext % 4 * 2 ^ 4 + m.msAn % 4 * 2 ^ 2,
   m.etype % 2 ^ 16 * 2 ^ 16 + m.ptpMsg % 16 * 2 ^ 12 + m.ptpDom % 256 * 2 ^ 4 + m.udfValid % 16,
   m.udf0 % 2 ^ 16 * 2 ^ 16 + m.udf1 % 2 ^ 16,
   m.udf2 % 2 ^ 16 * 2 ^ 16 + m.udf3 % 2 ^ 16,
   m.fid % 4096 * 2 ^ 20 + m.zone % 16 * 2 ^ 16 + m.tc % 8 * 2 ^ 13 + m.colour % 4 * 2 ^ 11 + m.msSc % 8 * 2 ^ 8 + m.rtag % 256]

/-- A frame's source event is due: at its end, or at once when it has ended (R73). -/
def State.holdEvent (s : State) (r : Nat) (e : Option SourceEvent) : State :=
  match e, s.frame r with
  | some e, some f => if f.ended then (if f.bad then s else s.sourceEvent e) else s.setFrame r { f with srcEvent := some e }
  | _, _ => s

/-- The stream filter's size check that was left to the frame's end (R96): whether the frame fails it; one that passes has passed every
check of its stream filter. -/
def State.sduFails (s : State) (f : Frame) : Bool × State :=
  match f.sduLimit with
  | none => (false, s)
  | some h =>
    let u := uStrain (pipeOf f.fm.inPort)
    let sdu := s.rd u F.strain_SF_CFG_MAX_SDU h
    if sdu ≠ 0 ∧ sdu < f.bytes then
      let s := ((s.sat u F.strain_SF_DROP h).sat u F.strain_DROP_SDU).sat (uMac f.fm.inPort) F.mac_RX_OVERSIZE
      (true, if s.flag u F.strain_SF_METER_BLOCK_OVERSIZE h then s.wr u F.strain_SF_METER_BLOCKED 1 h else s)
    else (false, s.inc u F.strain_SF_PASS h)

/-- The size check of a head that is judged after its frame has ended: a frame that fails it is bad from here on (R96). A frame that was
bad before counts in its filter too, unless it was ended at MAX_LEN + 1. -/
def State.sduNow (s : State) (r : Nat) : State :=
  match s.frame r with
  | none => s
  | some f =>
    if !f.ended ∨ f.truncated then s
    else
      match s.sduFails f with
      | (big, s) => s.updFrame r (fun f => { f with bad := f.bad || big, sduLimit := none })

/-- The verdict of a resolved head turned into copies (R48, R51, R52, R92). -/
def State.applyVerdict (s : State) (w : Bool) (r : Nat) (v : HeadVerdict) : State :=
  match s.frame r with
  | none => s
  | some f =>
    let s := (s.setFrame r { f with fm := { f.fm with tc := v.tc, colour := v.colour }, sduLimit := v.late }).sduNow r
    let mir := mirrorCopy v.mirror v.tc
    match v.out with
    | .drop => s.planCopies r mir
    | .forward keep => s.planCopies r (forwardCopies keep v.tc ++ mir)
    | .punt reason =>
      let (ok, s) := s.slowAdmit w reason
      let s := s.updFrame r (fun f => { f with fm := { f.fm with slow := reason } })
      s.planCopies r ((if ok then [⟨15, 0, false, false, 0, 0, false, true⟩] else []) ++ mir)
    | .recirc rtag =>
      let (ok, s) := s.recircAdmit (b2n f.fm.gen)
      let s := s.updFrame r (fun f => { f with fm := { f.fm with rtag := rtag } })
      s.planCopies r ((if ok then [⟨15, v.tc, false, false, 0, 0, true, false⟩] else []) ++ mir)

/-- A head in its pipeline after admission (R42 to R63, R92). -/
def State.judgeFrame (s : State) (w : Bool) (r : Nat) (f : Frame) : State :=
  let u := uPipe w
  let s := s.inc u F.pipe_HEADS
  let known := f.complete && (12 ≤ f.fm.inPort || f.fm.pass2 || decide (f.chain.length ≤ 4))
  let p := parseHead (s.parseIn w (s.headBytes f) known (if known then f.bytes else 256))
  let m := keepMeta f.fm p.fm
  let m := if m.pass2 ∨ 12 ≤ m.inPort then m else { m with tc := s.portClass m.inPort m.tags m.pcpO }
  let vid := if m.tags ≠ 0 ∧ m.vidO ≠ 0 then m.vidO else s.rd (uPipe (pipeOf m.inPort)) F.pipe_PVID m.inPort
  let (v, s) := s.vlanEntry w vid
  let f := { f with fm := m, implied := p.implied, vid := vid, untag := vlanUntag v }
  let s := s.setFrame r f
  if !vlanValid v ∨ !bitOf (vlanMember v) m.inPort then (s.sat u F.pipe_VLAN_DROP).discardFrame r
  else
    let m := { m with fid := vlanFid v }
    let learn := !m.pass2 && bitOf (s.rd u F.pipe_LEARN_EN_PORT_MASK) m.inPort && vlanLearn v
      && !bitOf p.sa 40 && p.sa != 0
    let ev := if learn then some ⟨p.sa, m.fid, m.inPort, m.inSub⟩ else none
    let (d, s) : Option Resolved × State :=
      if m.slow ≠ 0 then
        (if s.fallback ∧ !fallbackFrom m.inPort m.inSub then (none, s.sat u F.pipe_FDB_DROP)
         else (some ⟨2 ^ 15, 0, 0, m.tc, 0⟩, s))
      else s.resolve w p m v
    match d with
    | none => (s.setFrame r { f with fm := m }).discardFrame r
    | some d =>
      let g := b2n m.gen
      let b := s.bank w g
      let zone := if m.pass2 then m.zone else b.zone (endpointOf m.inPort m.inSub)
      let m := { m with zone := zone }
      let es := destEndpoints d.dest d.subS d.subH
      let s := s.setFrame r { f with fm := m }
      let (out, s) := s.judgeHead w g p m ⟨zone, b.dzones es, d.tc, d.stream⟩ es
      let s := s.applyVerdict w r out
      if out.out = .drop then s else s.holdEvent r ev

/-- The second pass's generation pair is FREE (R56). -/
def State.stale (s : State) (g : Nat) : Bool := g != s.curGen && !s.draining

/-- `HEAD_DELIVER`: the oldest head waiting at a port enters its pipeline (R15, R34). A disabled pipeline discards it
(R438); a first pass is stamped with the generation and admitted (R53, R98); a stale second pass is dropped (R56). -/
def headDeliverStep (port : Nat) (s : State) : State :=
  match (s.input port).heads with
  | [] => s
  | r :: t =>
    let s := s.setInput port { s.input port with heads := t }
    let w := pipeOf port
    match s.frame r with
    | none => s
    | some f =>
      let g := b2n f.fm.gen
      let stale := f.fm.pass2 && s.stale g
      let s := if f.fm.pass2 then s.inflightDown g else s
      if !s.enabled (uPipe w) then s.discardFrame r
      else if f.fm.pass2 then
        if stale then (s.sat (uPipe true) F.pipe_RECIRC_STALE).discardFrame r else s.judgeFrame w r f
      else
        let (ok, s) := s.admitHead port
        if !ok then s.discardFrame r
        else s.judgeFrame w r { f with fm := { f.fm with gen := s.curGen != 0 } }

/-! ### The end of a frame (R36 to R41, R165) -/

/-- What ingress MACsec says of a frame: its check passed or was not due, failed with the frame kept, failed with the frame dropped. -/
inductive MacsecOut where
  | pass
  | failed
  | dropped
  deriving DecidableEq, Repr

/-- A failed MACsec check: with VALIDATE 1 the frame is dropped only if it was encrypted (Table 2.5). -/
def State.macsecFail (s : State) (p : Nat) (f : MacFrame) : MacsecOut × State :=
  let encrypted : Bool := match secTagOf f.raw with
    | some x => x.encrypted
    | none => false
  (if 2 ≤ s.rd (uMac p) F.mac_MACSEC_RX_VALIDATE ∨ encrypted then .dropped else .failed, s.sat (uMac p) F.mac_RX_MACSEC_FAIL)

/-- The MACsec check of a frame at its end (Table 2.5, R354, R356), with its counters and the lowest acceptable packet number
advanced. -/
def State.macsecCheck (s : State) (p : Nat) (f : MacFrame) : MacsecOut × State :=
  let u := uMac p
  match f.sec with
  | none => if s.macUnprotected p f then (.dropped, s.sat u F.mac_RX_UNPROTECTED) else (.pass, s)
  | some x =>
    let (forced, s) := s.cipherCheck u 0
    if forced then (.dropped, s.sat u F.mac_RX_MACSEC_FAIL)
    else match x.channel with
      | none => (s.sat u F.mac_RX_NO_SA).macsecFail p f
      | some c =>
        if !s.flag u F.mac_RXSA_CTRL_VALID c x.an then (s.sat u F.mac_RX_NO_SA).macsecFail p f
        else
          let low := s.lowPn p c x.an
          if s.flag u F.mac_RX_SC_CFG_REPLAY c ∧ x.pn + s.rd u F.mac_REPLAY_WINDOW c < low then
            (.dropped, (s.sat u F.mac_RX_LATE).sat u F.mac_RX_MACSEC_FAIL)
          else if !s.icvOk p x f.raw then s.macsecFail p f
          else
            let n := max low (x.pn + 1)
            (.pass, (s.wr u F.mac_RXSA_PN_HI (n / 2 ^ 32) c x.an).wr u F.mac_RXSA_PN_LO n c x.an)

/-- A gPTP frame goes to the time engine's receive queue of 128, its timestamp corrected by RX_LAT (R165 to R167). A message of a type
that the device does not support means nothing to the engine, which takes it at once. -/
def State.divertPtp (s : State) (p wc : Nat) (b : List Byte) : State :=
  let m := (dropEnd 4 b).drop 14
  if !s.flag uTime F.time_PORT_CFG_PTP_EN p then s.sat uTime F.time_RX_DISCARD p
  else if 128 ≤ s.time.rxQ.length then s.sat uTime F.time_RXQ_DROP
  else if (ptpKindOf m).isNone then s
  else
    { s with time := { s.time with
        rxQ := s.time.rxQ ++ [⟨p, (wc + 2 ^ 80 - s.rd uTime F.time_PORT_LAT_RX_LAT p * 4096) % 2 ^ 80, m⟩] } }

/-- One cut-through copy's queue entry corrected to the frame's final cells (R124). -/
def State.correctEntry (s : State) (q n : Nat) (e : QEntry) : State :=
  let s := (s.acctSub q e.acct e.resv).acctAdd q n e.resv
  s.setQueue q ((s.queue q).map (fun x => if x.slot = e.slot then { x with acct := n } else x))

/-- The lossless cells of a frame corrected to its final cells, once in each class (R124, Table 5.5). -/
def State.correctLossless (s : State) (r n : Nat) : State :=
  match s.frame r with
  | none => s
  | some f =>
    let s := s.setFrame r { f with lossless := f.lossless.map (fun x => { x with cells := n }) }
    f.lossless.foldl (fun s x =>
      if x.cells = n then s
      else s.setLossless f.fm.inPort x.tc (s.rd uFab (losslessFld x.tc) f.fm.inPort + n - x.cells)) s

/-- The deficit of a class whose copy of unknown length was selected under its guard band (R142). -/
def State.correctDeficit (s : State) (p c : Nat) (f : Frame) : State :=
  let x := s.spoutAt p
  match pmGet x.guardPaid c with
  | none => s
  | some g =>
    let d := smGet intZero x.deficit c + Int.ofNat g - Int.ofNat (s.egressBytes f p f.bytes)
    s.setSpout p { x with deficit := smSet intZero x.deficit c d, guardPaid := pmDel x.guardPaid c }

/-- What the end of a frame makes known, its final cells and its length, reaches the accounting of its cut-through copies. -/
def State.correctAcct (s : State) (r : Nat) : State :=
  match s.frame r with
  | none => s
  | some f =>
    let n := f.chain.length
    let s := (List.range 96).foldl (fun s q =>
      (s.queue q).foldl (fun s e =>
        if e.frame = r ∧ e.copy.ct then (s.correctEntry q n e).correctDeficit (q / 8) (q % 8) f else s) s) s
    s.correctLossless r n

/-- A bad frame of which a cut-through copy has left (R41). -/
def State.cutBad (s : State) (p : Nat) (f : Frame) : State := if f.cutLeft then s.sat (uMac p) F.mac_RX_CUT_BAD else s

/-- A frame found bad at its end (R41, R134): BAD in its last link word and its record; copies not enqueued are discarded;
queued copies that are not started are discarded when selected, started ones end stomped. -/
def State.frameBad (s : State) (p r : Nat) (cut : Bool) (f : Frame) : State :=
  let s := s.cutBad p f
  let s := match f.chain.getLast? with
    | some ptr => (match pmGet s.fab.cells ptr with
      | some c => { s with fab := { s.fab with cells := pmSet s.fab.cells ptr { c with bad := true } } }
      | none => s)
    | none => s
  let s := s.updFrame r (fun f => { f with
    bad := true, ended := true, truncated := cut, plan := [], srcEvent := none, sduLimit := none })
  f.plan.foldl (fun s c => (if c.recirc then s.inflightDown (b2n f.fm.gen) else s).walk r) s

/-- The source event that a frame holds until its end. -/
def State.issueEvent (s : State) (e : Option SourceEvent) : State :=
  match e with
  | some e => s.sourceEvent e
  | none => s

/-- A frame that ends well: its store-and-forward copies reach their moment, its source event is issued (R73, R119). -/
def State.frameGood (s : State) (r : Nat) (f : Frame) : State :=
  let s := s.updFrame r (fun f => { f with ended := true, plan := [], srcEvent := none, sduLimit := none })
  (s.pushCopies r f.plan).issueEvent f.srcEvent

/-- The length rule of R42 at the end of a frame whose length was not known at its head, with the pipeline's PARSE_CFG also where a disabled
pipeline did not parse it (DESIGN CHOICE, log entry 108: R438 does not say). -/
def State.lenBadAtEnd (s : State) (p : Nat) (b : List Byte) : Bool :=
  decide (256 < b.length) &&
    (match (parseHead (s.parseIn (pipeOf p) (b.take 256) false 256)).implied with
     | some n => !lenAgrees true b.length n
     | none => false)

/-- The reassembly counters of a preempted frame (Table 6.7). -/
def State.countAssembly (s : State) (p a : Nat) : State :=
  if a = 1 then s.inc (uMac p) F.mac_RX_ASSY_OK else if a = 2 then s.sat (uMac p) F.mac_RX_ASSY_ERR else s

/-- Octets counted on one side of a MAC: 64 bits, the low word shown. Received ones are counted without SecTAG and ICV (DESIGN CHOICE, log
entry 108: R39 does not say of a protected frame). -/
def State.countRxOctets (s : State) (p n : Nat) : State :=
  let v := (smGet zero0 s.fab.rxOctets p + n) % 2 ^ 64
  { s with fab := { s.fab with rxOctets := smSet zero0 s.fab.rxOctets p v } }.wr (uMac p) F.mac_RX_OCTETS_LO v

def State.countTxOctets (s : State) (p n : Nat) : State :=
  let v := (smGet zero0 s.fab.txOctets p + n) % 2 ^ 64
  { s with fab := { s.fab with txOctets := smSet zero0 s.fab.txOctets p v } }.wr (uMac p) F.mac_TX_OCTETS_LO v

/-- The end-of-frame checks in the order truncation, FCS, MACsec, length; the first that fails decides (R41). The stream filter's late
size check stands with truncation, as which R96 has it handled (DEDUCED, log entry 91). A reassembly error is an FCS error (Table 6.7).
`b` are the frame's plain bytes, `x` is its record if it was written. -/
def State.endChecks (s : State) (p a : Nat) (f : MacFrame) (b : List Byte) (x : Option Frame) : MacsecOut × State :=
  let u := uMac p
  if f.cut then (.dropped, s.sat u F.mac_RX_OVERSIZE)
  else
    let (big, s) := match x with
      | some y => s.sduFails y
      | none => (false, s)
    if big then (.dropped, s)
    else if !fcsGood f.raw ∨ a = 2 then (.dropped, s.sat u F.mac_RX_FCS_ERR)
    else
      match s.macsecCheck p f with
      | (.pass, s) => if s.lenBadAtEnd p b then (.dropped, s.sat u F.mac_RX_LEN_BAD) else (.pass, s)
      | r => r

/-- Every cell that a received frame gives has been written. -/
def State.macReady (s : State) (p : Nat) (f : MacFrame) : Bool :=
  !s.macOwes p f && !(s.input p).hold.any (fun c => f.record == some c.record)

/-- The end of a received frame, its cells written: a frame in the buffer, or one whose record has become FREE before, is counted and
meets its checks; a gPTP frame that passes
them is diverted; of another frame that was not written nothing remains but its error. -/
def State.endFrame (s : State) (p a : Nat) (f : MacFrame) : State :=
  let b := s.macPlain p f
  match f.record with
  | some r =>
    let s := ((s.inc (uMac p) F.mac_RX_FRAMES).countRxOctets p b.length).correctAcct r
    match s.endChecks p a f b (s.frame r) with
    | (v, s) =>
      match s.frame r with
      | none => s
      | some x => if v = .dropped then s.frameBad p r f.cut x else s.frameGood r x
  | none =>
    match f.past with
    | some x =>
      (match ((s.inc (uMac p) F.mac_RX_FRAMES).countRxOctets p b.length).endChecks p a f b (some { x with bytes := b.length }) with
       | (.dropped, s) => s.cutBad p x
       | (_, s) => s.issueEvent x.srcEvent)
    | none =>
      (match s.endChecks p a f b none with
       | (.pass, s) => if isGptp b then s.divertPtp p f.wc b else s
       | (_, s) => s)

/-- `FRAME_END`: the end of the oldest frame that an E-port receives. A frame that began while reception was off leaves nothing, a runt
its count (R36; the 64 bytes counted as on the wire, SecTAG and ICV among them: DESIGN CHOICE, log entry 108); PAUSE and PFC frames are consumed apart (R38). With an unknown SMD or fragment count no frame ends (Table 6.7). -/
def frameEndStep (p assembly : Nat) (s : State) : State :=
  if p < 12 then
    if assembly = 3 then s.sat (uMac p) F.mac_RX_SMD_ERR
    else
      match s.macFirst p with
      | none => s
      | some f =>
        if f.off then s.macDone p
        else if f.raw.length < 64 then ((s.macDone p).countAssembly p assembly).sat (uMac p) F.mac_RX_RUNT
        else if be16 f.raw 12 = 0x8808 ∨ !s.macReady p f then s
        else ((s.macDone p).countAssembly p assembly).endFrame p assembly f
  else s

/-- The bytes that end a message as its event brings them, if it does: received and ended as by CELL_WRITE and FRAME_END (DESIGN CHOICE,
log entry 106). -/
def State.arrive (s : State) (p : Nat) : Option RxIn → State
  | none => s
  | some c => frameEndStep p 0 (cellWriteStep p (some c) s)

/-! ### Generations (R55) -/

/-- `BANK_RELEASE`: the inactive pair is released when nothing of its generation is in flight, no earlier than 64 FAB
cycles after the swap. -/
def bankReleaseStep (s : State) : State :=
  let g := 1 - s.curGen
  if s.draining ∧ s.rd (uPipe true) F.pipe_GEN_INFLIGHT_COUNT g = 0 ∧ 64 ≤ (s.fabCycle + 2 ^ 32 - s.gen.swapCycle) % 2 ^ 32
  then s.wr (uPipe true) F.pipe_GEN_STATUS_INACTIVE 0
  else s

/-- `RELEASE_TIMEOUT`: RELEASE_TIMEOUT boundaries have passed without release; the count is forced to 0, the pair is FREE
and the generation detector fires. -/
def releaseTimeoutStep (s : State) : State :=
  let u := uPipe true
  if s.draining ∧ max 1 (s.rd u F.pipe_GEN_STATUS_RELEASE_TIMEOUT) ≤ s.gen.drainTicks then
    ((s.wr u F.pipe_GEN_INFLIGHT_COUNT 0 (1 - s.curGen)).wr u F.pipe_GEN_STATUS_INACTIVE 0).check u 3 true
  else s

/-- A committed SWAP (R55): CUR_GEN toggles and the former active pair is DRAINING; while DRAINING it is refused. -/
def State.genSwap (s : State) (master : Nat) : State :=
  let u := uPipe true
  if s.draining then
    (s.sat u F.pipe_GEN_STATUS_REJECTS).refuse master (fldAddr u F.pipe_GEN_CTRL 0 0)
  else
    let s := (s.wr u F.pipe_GEN_STATUS_CUR_GEN (1 - s.curGen)).wr u F.pipe_GEN_STATUS_INACTIVE 1
    { s with gen := { s.gen with drainTicks := 0, swapCycle := s.fabCycle } }

/-- One boundary in DRAINING. -/
def State.drainTick (s : State) : State :=
  if s.draining then { s with gen := { s.gen with drainTicks := s.gen.drainTicks + 1 } } else s

end Sys2Proof.Machine
end

