-- ==== Sys2Proof/Machine/Line.lean ====
section
/-! DEFINITION. The wire of an E-port: what its MAC sends, in time. Frames that the Spout has started wait for their first bit, leave whole
or in fragments, and end (R134, R144, R154, R156, R159); time-engine messages are stamped and rewritten as they leave (R166, R168, R170
to R172). -/

namespace Sys2Proof.Machine

/-! ### The messages of the time engine (R170 to R172) -/

/-- The egress timestamp of a message whose first bit leaves at `wc`: the fixed latency of the port's mode and TX_LAT added (R166,
R170). -/
def State.egressWc (s : State) (p wc : Nat) : Nat :=
  wc + Config.txLatency (s.rd (uMac p) F.mac_MODE_IF_MODE) + s.rd uTime F.time_PORT_LAT_TX_LAT p * 4096

/-- A Sync rewritten for the egress timestamp `te` (R170): of a grandmaster the domain time and its fraction, of a relay the correction
grown by the residence time. -/
def State.syncBytes (s : State) (m : PtpMsg) (te : Nat) : List Byte :=
  match m.upWc with
  | none =>
    let t := s.domAt m.domain (Int.ofNat te)
    withCorrection (withTime m.data (t / 2 ^ 47)) (correctionIn m.data + t % 2 ^ 47 / 2 ^ 31)
  | some ti =>
    let d := Int.ofNat te - Int.ofNat ti
    withCorrection m.data (correctionIn m.data + d + quot (d * m.rate) (2 ^ 48))

/-- A written frame as another type of message with other flags. -/
def retype (b : List Byte) (k : PtpKind) (flags control : Nat) : List Byte :=
  setSlice (setSlice (setSlice b 14 (beBytes 1 (byteAt b 14 / 16 * 16 + ptpType k))) 20 (beBytes 2 flags)) 46 (beBytes 1 control)

/-- The two-step form of a Sync: no timestamp, no correction, no TLV (R171). -/
def twoStepSync (b : List Byte) : List Byte :=
  setSlice (withCorrection (withTime (retype (b.take 58) .sync (ptpFlags true) 0) 0) 0) 16 (beBytes 2 44)

/-- The transmit queue of a port for the time engine: 4 frames (R167). -/
def noTx (_ : Nat) : List PtpMsg := []
def State.txQueue (s : State) (p : Nat) : List PtpMsg := smGet noTx s.time.txQ p
def State.setTxQueue (s : State) (p : Nat) (l : List PtpMsg) : State :=
  { s with time := { s.time with txQ := smSet noTx s.time.txQ p l } }

/-- The messages that the time engine holds while a port's queue is full, oldest first. -/
def State.txWaiting (s : State) (p : Nat) : List PtpMsg := smGet noTx s.time.waiting p
def State.setTxWaiting (s : State) (p : Nat) (l : List PtpMsg) : State :=
  { s with time := { s.time with waiting := smSet noTx s.time.waiting p l } }

/-- A port's queue takes a message: it has room, and the engine holds none for it. -/
def State.txRoom (s : State) (p : Nat) : Bool := decide ((s.txQueue p).length < 4) && (s.txWaiting p).isEmpty

/-- A message from the engine: into its port's queue, or held until the queue has room (R167). -/
def State.ptpPut (s : State) (m : PtpMsg) : State :=
  if s.txRoom m.port then s.setTxQueue m.port (s.txQueue m.port ++ [m]) else s.setTxWaiting m.port (s.txWaiting m.port ++ [m])

/-- The oldest message of a port's queue has been taken; the first one that the engine holds moves up. -/
def State.ptpTaken (s : State) (p : Nat) : State :=
  let l := (s.txQueue p).tail
  match s.txWaiting p with
  | [] => s.setTxQueue p l
  | m :: t => (s.setTxQueue p (l ++ [m])).setTxWaiting p t

/-- The bytes of a message that leave its port: of a two-step Sync the short form. -/
def PtpMsg.leaving (m : PtpMsg) : List Byte := if m.kind = .sync ∧ !m.oneStep then twoStepSync m.data else m.data

def noPd (_ : Nat) : PdelayState := {}
def State.pdelayAt (s : State) (p : Nat) : PdelayState := smGet noPd s.time.ports p
def State.setPdelay (s : State) (p : Nat) (x : PdelayState) : State :=
  { s with time := { s.time with ports := smSet noPd s.time.ports p x } }

/-- A time-engine message begins to leave its port (R166, R169 to R172); answers its bytes. A Sync counts in SYNC_TX and, when two-step,
is followed by its Follow_Up (no Sync of its domain stands between, `syncTransmitStep`); a Pdelay_Req records t1; a Pdelay_Resp is
followed by its second step with t3. -/
def State.ptpLeave (s : State) (m : PtpMsg) (te : Nat) : List Byte × State :=
  let p := m.port
  match m.kind with
  | .sync =>
    let s := s.inc uTime F.time_SYNC_TX p
    let full := s.syncBytes m te
    if m.oneStep then (full, s)
    else (m.leaving, s.ptpPut { m with kind := .followUp, data := retype full .followUp (ptpFlags false) 2 })
  | .pdelayReq => (m.data, s.setPdelay p { s.pdelayAt p with sent := some te })
  | .pdelayResp =>
    let b := withCorrection (withTime (retype m.data .pdelayRespFollowUp (ptpFlags false) 5) (Int.ofNat (te / 65536)))
      (Int.ofNat (te % 65536))
    (m.data, s.ptpPut { m with kind := .pdelayRespFollowUp, data := b })
  | _ => (m.data, s)

/-! ### Frames on the wire -/

/-- Whether preemption is active on a port (R155). -/
def State.preemptActive (s : State) (p : Nat) : Bool :=
  p < 12 && s.flag (uMac p) F.mac_PREEMPT_CFG_EN &&
    (s.flag (uMac p) F.mac_PREEMPT_CFG_VERIFY_DIS || s.rd (uMac p) F.mac_PREEMPT_STATUS_VERIFY == 3)

/-- What is sent as express traffic: TC6 and TC7, time-engine messages, and everything while preemption is not active (R155, R168). -/
def State.express (s : State) (p tc : Nat) : Bool := decide (6 ≤ tc) || !s.preemptActive p

/-- A HOLD is in effect: it acts only while preemption is active (R150). -/
def State.held (s : State) (p : Nat) : Bool := s.preemptActive p && (s.spoutAt p).gate.hold

/-- The bytes of a frame on the wire, DA to FCS; none while its copy is still being read. -/
def State.txWire (s : State) (p : Nat) (e : Tx) : Option (List Byte) :=
  e.body.map (fun b => s.sealed p e.sec b ++ fcsBytes (s.sealed p e.sec b) e.stomp)

/-- The egress bytes of a frame as far as they are known. -/
def State.txBytes (s : State) (p : Nat) (e : Tx) : Nat :=
  match s.txWire p e with
  | some w => w.length
  | none => e.guess

/-- When the fragment on the wire that began at `st` ends, its gap counted: one that is cut, or the last one of a frame whose bytes are
all there. -/
def State.txEnd (s : State) (p : Nat) (e : Tx) (st : Nat) : Option Nat :=
  match e.cut with
  | some n => some (st + byteTime e.rate (n + 24))
  | none => (s.txWire p e).map (fun w => max (st + byteTime e.rate (w.length - e.pos + 20)) e.known)

/-- The fragments of a frame that are not its last: their lengths and starts from byte `i` on. -/
def fragments (p : Nat) (w : List Byte) : List (Nat × Nat) → Nat → List WireOut
  | [], _ => []
  | (n, st) :: t, i => ⟨p, st, 1, slice w i n ++ mcrcBytes (w.take (i + n))⟩ :: fragments p w t (i + n)

/-- A frame as it stood on the wire, its last part begun at `st`. -/
def wireParts (p : Nat) (e : Tx) (st : Nat) (w : List Byte) : List WireOut :=
  if e.cuts.isEmpty then [⟨p, st, 0, w⟩] else fragments p w e.cuts 0 ++ [⟨p, st, 2, w.drop e.pos⟩]

/-- The last bit of a frame and its gap: counted in TX_FRAMES and TX_OCTETS, a PFC frame in PFC_TX (R128), and in GATE_OVERRUN when its gate closed before (R154,
R159). A cipher mismatch found now stomps the frame (R356). -/
def State.finishTx (s : State) (p : Nat) (e : Tx) (st en : Nat) : State :=
  let s := s.cbsTo p en
  let (forced, s) := if e.sec.isSome then s.cipherCheck (uMac p) 0 else (false, s)
  let s := if forced ∧ !e.stomp then s.sat uFab F.fab_STOMP p else s
  let w := (s.txWire p { e with stomp := e.stomp || forced }).getD []
  let s := { s with fab := { s.fab with wire := s.fab.wire ++ wireParts p e st w } }
  let s := (s.inc (uMac p) F.mac_TX_FRAMES).countTxOctets p w.length
  let s := if e.tc = 9 then s.inc uFab F.fab_PFC_TX p else s
  let isOver : Bool := match e.close with
    | some c => decide (c + byteTime e.rate 12 < en)
    | none => false
  let s := if isOver then s.sat (uSpout p) F.spout_GATE_OVERRUN else s
  s.setSpout p { s.spoutAt p with line := (s.spoutAt p).line.filter (fun x => x.start.isNone), free := en }

/-- The end of a fragment that is not the last: the rest of the frame waits (R156). -/
def State.cutTx (s : State) (p : Nat) (e : Tx) (st en n : Nat) : State :=
  let s := s.cbsTo p en
  (s.setSpout p { s.spoutAt p with
    line := (s.spoutAt p).line.map (fun x =>
      if x.start.isSome then { e with start := none, pos := e.pos + n, cuts := e.cuts ++ [(n, st)], cut := none } else x)
    free := en }).inc (uMac p) F.mac_TX_FRAGMENTS

/-- Element `i` of a port's line replaced, or taken out. -/
def State.setTx (s : State) (p i : Nat) (e : Tx) : State :=
  s.setSpout p { s.spoutAt p with line := (s.spoutAt p).line.set i e }
def State.dropTx (s : State) (p i : Nat) : State :=
  s.setSpout p { s.spoutAt p with line := (s.spoutAt p).line.eraseIdx i }

/-- A frame that begins, with its association if it is protected: at the port's rate of now, a time-engine message stamped now. -/
def State.beginTx (s : State) (p i : Nat) (e : Tx) (st : Nat) : State :=
  let e := { e with start := some st, rate := s.linkRate p }
  match e.msg with
  | none => s.setTx p i e
  | some m =>
    match s.ptpLeave m (s.egressWc p st) with
    | (b, s) => s.setTx p i { e with body := some (b ++ List.replicate (60 - b.length) 0#8), known := st }

/-- The first bit of a frame or of the rest of one, at the instant `st`. A protected frame takes its packet number first; without one, or
when the two ciphers differ, it is dropped (R354, R356). -/
def State.startTx (s : State) (p i : Nat) (e : Tx) (st : Nat) : State :=
  let s := s.cbsTo p st
  if e.pos ≠ 0 then s.setTx p i { e with start := some st }
  else if s.macsecOn p ∧ !e.clear then
    match s.cipherCheck (uMac p) 0 with
    | (true, s) => s.dropTx p i
    | (false, s) =>
      match s.takePn p with
      | (none, s) => s.dropTx p i
      | (some k, s) => s.beginTx p i { e with sec := some k } st
  else s.beginTx p i e st

/-- The instant from which the first waiting frame that meets a test can start, with its place in the line. -/
def State.firstTx (s : State) (p : Nat) (t : Tx → Bool) : Option (Nat × Nat × Tx) :=
  let x := s.spoutAt p
  (findIdx1 (fun e => e.start.isNone && t e) x.line 0).map (fun e => (max (max e.2.ready x.free) x.since, e))

/-- What starts next on a free wire, and when: the earliest of the first PFC frame, the first time-engine message, the first express frame
and the first preemptable one, in this order where they meet (R128, R168). Nothing preemptable starts during a HOLD, and a preempted
frame goes on when no express frame is ready (R150, R156). In the Safe state nothing starts (Table 15.6); once an activation has fired
nothing but the rest of a frame does (R292); with TX_EN 0 no PFC frame does. -/
def State.nextTx (s : State) (p : Nat) : Option (Nat × Nat × Tx) :=
  if s.safe then none
  else
  let first (t : Tx → Bool) := s.firstTx p (fun e => t e && (!s.txStopped || e.pos != 0))
  let pfc := first (fun e => e.tc == 9 && s.flag (uMac p) F.mac_TX_CFG_TX_EN)
  let ptp := first (fun e => e.tc == 8)
  let exp := first (fun e => decide (e.tc < 8) && s.express p e.tc)
  let pre := match first (fun e => !s.express p e.tc) with
    | none => none
    | some e => if s.held p ∨ (e.2.2.pos ≠ 0 ∧ (ptp.isSome ∨ exp.isSome)) then none else some e
  [pfc, ptp, exp, pre].foldl (fun b e =>
    match b, e with
    | none, e => e
    | b, none => b
    | some b, some e => if e.1 < b.1 then some e else some b) none

/-- The wire of a port up to the instant `t`: what ends by then ends, what can start by then starts. -/
def State.lineRun (p t : Nat) : Nat → State → State
  | 0, s => s.cbsTo p t
  | n + 1, s =>
    match (s.spoutAt p).line.find? (fun e => e.start.isSome) with
    | some e =>
      let st := e.start.getD 0
      (match s.txEnd p e st with
       | some en =>
         if t < en then s.cbsTo p t
         else match e.cut with
           | some k => State.lineRun p t n (s.cutTx p e st en k)
           | none => State.lineRun p t n (s.finishTx p e st en)
       | none => s.cbsTo p t)
    | none =>
      match s.nextTx p with
      | some (st, i, e) => if t < st then s.cbsTo p t else State.lineRun p t n (s.startTx p i e st)
      | none => s.cbsTo p t

/-- A credit-based shaper of a port is on. -/
def State.cbsOn (s : State) (p : Nat) : Bool := [4, 5, 6, 7].any (fun c => s.flag (uSpout p) F.spout_CBS_CFG_EN (c - 4))

/-- The wire and the shapers of a port brought up to the present. With nothing to send and no shaper on, nothing of them changes. -/
def State.lineTo (s : State) (p : Nat) : State :=
  if (s.spoutAt p).line.isEmpty ∧ !s.cbsOn p then s
  else State.lineRun p s.clk.wc (3 * (s.spoutAt p).line.length + 3) s

/-! ### What is on its way (R123, R152, R156) -/

/-- The bytes of a fragment that began at `st` which have left. -/
def State.txSent (s : State) (e : Tx) (st : Nat) : Nat := (s.clk.wc - st) * e.rate / (8 * 1000 * 65536) - 8

/-- The bytes of a fragment at which a frame can next be preempted: enough of it sent, and 64 bytes of the frame left (R156). -/
def State.nextPoint (s : State) (p : Nat) (e : Tx) (st : Nat) : Option Nat :=
  let n := max ((1 + s.rd (uMac p) F.mac_PREEMPT_CFG_ADD_FRAG) * 64 - 4) (s.txSent e st)
  if n + 64 ≤ s.txBytes p e - e.pos then some n else none

/-- The wire time that a waiting frame, or the rest of one, will take. -/
def State.waitTime (s : State) (p : Nat) (e : Tx) : Nat := s.wireTime p (s.txBytes p e - e.pos)

/-- The wire time of a time-engine message (R168). -/
def State.msgTime (s : State) (p : Nat) (m : PtpMsg) : Nat := s.wireTime p (max 64 (m.leaving.length + 4) + s.macsecBytes p)

/-- *free* of R152, in WC: the end of what is on the wire and of what leaves before a copy of class `tc`, time-engine messages that wait
among it (R168). An express copy waits for the next point at which a preemptable frame can be preempted, another one for the whole of a
frame that is being cut, whose cut adds 24 bytes (R156). -/
def State.freeAt (s : State) (p tc : Nat) : Nat :=
  let x := s.spoutAt p
  let fast : Bool := s.preemptActive p && decide (6 ≤ tc)
  let ends := match s.onWire p with
    | none => max s.clk.wc x.free
    | some e =>
      let st := e.start.getD 0
      match (if fast && decide (e.tc < 6) && e.cut.isNone then s.nextPoint p e st else e.cut) with
      | some n => st + byteTime e.rate (if fast then n + 24 else s.txBytes p e - e.pos + 44)
      | none => st + byteTime e.rate (s.txBytes p e - e.pos + 20)
  let line := x.line.filter (fun e => e.start.isNone && (!fast || decide (6 ≤ e.tc)))
  let msgs := (s.txQueue p).map (s.msgTime p)
  max s.clk.wc ends + ((line.map (s.waitTime p)) ++ msgs).foldl (· + ·) 0

/-- The cells of a frame that its port has taken from the read buffer. -/
def State.handed (s : State) (e : Tx) : Nat :=
  match e.start with
  | some st => min e.cells ((e.pos + s.txSent e st) / 64 + 1)
  | none => min e.cells (if e.pos = 0 then 0 else e.pos / 64 + 1)

/-- The cells that a port's read buffer holds: of an E-port those the wire has not taken, of another output, which takes a cell as soon
as its turn comes, those read ahead of their turn (DESIGN CHOICE, log entry 95). -/
def State.readBuffer (s : State) (p : Nat) : Nat :=
  if p < 12 then ((s.spoutAt p).line.map (fun e => e.cells - s.handed e)).foldl (· + ·) 0
  else ((s.readingOf p).map (fun r =>
    r.cells.length - ((List.range r.cells.length).find? (fun i => (pmGet r.cells i).isNone)).getD r.cells.length)).foldl (· + ·) 0

end Sys2Proof.Machine
end

