-- ==== Sys2Proof/Machine/Spout.lean ====
section
/-! DEFINITION. The Spout: selection, gates, the fit rule, preemption, reading a copy, latency observation (5.6, 5.8 and chapter 6). -/

namespace Sys2Proof.Machine

/-! ### Gates (R147 to R150, R153) -/

/-- The list in use, and the administrative list. -/
def GateState.operList (x : GateState) : List (Nat × Nat) := if x.oper1 then x.list1 else x.list0
def GateState.adminList (x : GateState) : List (Nat × Nat) := if x.oper1 then x.list0 else x.list1

/-- The administrative list with one entry written. -/
def GateState.putAdmin (x : GateState) (i v : Nat) : GateState :=
  if x.oper1 then { x with list0 := smSet zero0 x.list0 i v } else { x with list1 := smSet zero0 x.list1 i v }

/-- The entries 0 to LEN − 1 of the operational list. -/
def GateState.entries (x : GateState) : List Nat :=
  match x.oper with
  | none => []
  | some c => (List.range c.len).map (fun i => smGet zero0 x.operList i)

/-- The gate states of an entry. -/
def gatesOf (e : Nat) : Nat := nbits e 48 8

/-- A port's gates replaced, with their status registers. -/
def State.setGates (s : State) (p : Nat) (x : GateState) : State :=
  let u := uSpout p
  let s := s.setSpout p { s.spoutAt p with gate := x }
  let s := (s.wr u F.spout_SCHED_STATUS_GATES x.gates).wr u F.spout_SCHED_STATUS_HOLD (b2n x.hold)
  let s := (s.wr u F.spout_GATE_STATUS_PENDING (b2n x.pending.isSome)).wr u F.spout_GATE_STATUS_OPER_VALID
    (b2n x.oper.isSome)
  (s.wr u F.spout_GATE_STATUS_ENTRY x.entry).wr u F.spout_GATE_OPER_LEN_LEN ((x.oper.map (·.len)).getD 0)

/-- The gate states, and the hold, when entry `i` becomes current (R150). HOLD and RELEASE act only while preemption is
active. -/
def GateState.enter (x : GateState) (preempt : Bool) (i : Nat) (ends : Int) : GateState :=
  match x.entries[i]? with
  | none => { x with entry := 0, entryEnd := ends, gates := if x.oper.isSome then 0 else 255 }
  | some e =>
    let op := nbits e 62 2
    { x with entry := i, entryEnd := ends, gates := gatesOf e,
             hold := if !preempt then false else if op = 1 then true else if op = 2 then false else x.hold }

/-- The administrative configuration as committed (R148). -/
def State.adminCfg (s : State) (p : Nat) : GateCfg :=
  let u := uSpout p
  { base := Int.ofNat (s.rd u F.spout_GATE_BASE_SEC * 1000000000 + s.rd u F.spout_GATE_BASE_NS_NS),
    cycle := s.rd u F.spout_GATE_CYCLE_NS_NS, td := s.rd u F.spout_SCHED_CFG_GATE_TD,
    len := min 512 (s.rd u F.spout_GATE_LIST_LEN_LEN) }

/-- The administrative configuration becomes pending; its swap instant is the first cycle start at or after now. -/
def State.gatePend (s : State) (p : Nat) : State :=
  let c := s.adminCfg p
  let x := (s.spoutAt p).gate
  s.setGates p { x with pending := some c, swapAt := nextCycle (s.domNs c.td) c.base (Int.ofNat c.cycle) }

/-- A cycle that starts at `t` (R147). -/
def State.gateCycle (s : State) (p : Nat) (x : GateState) (t : Int) : State :=
  let x := { x with cycleStart := t }
  s.setGates p (x.enter (s.preemptActive p) 0 (t + entryNs (x.entries.headD 1)))

/-- The swap (Table 6.3): the list memories change roles and the pending configuration becomes operational. -/
def GateState.swap (x : GateState) : GateState :=
  { x with oper1 := !x.oper1, oper := x.pending, pending := none }

/-- The swap instant of a pending change has come, in the pending configuration's own domain. -/
def State.swapDue (s : State) (x : GateState) : Bool :=
  match x.pending with
  | some c => decide (x.swapAt ≤ s.domNs c.td)
  | none => false

/-- `GATE_CYCLE_START`: the swap instant of a pending configuration has come, which ends a running cycle, or the running cycle has ended
and the next one starts. One that is not due changes nothing (log entry 13). -/
def gateCycleStartStep (p : Nat) (s : State) : State :=
  if p < 12 then
    let x := (s.spoutAt p).gate
    if s.swapDue x then s.gateCycle p x.swap x.swapAt
    else match x.oper with
      | some c =>
        let t := x.cycleStart + Int.ofNat c.cycle
        if t ≤ s.domNs c.td then s.gateCycle p x t else s
      | none => s
  else s

/-- `GATE_ENTRY_EXPIRY`: the time of the current entry is over; the next entry of the cycle; the last one's states hold to the cycle's
end (R147). -/
def gateEntryExpiryStep (p : Nat) (s : State) : State :=
  let x := (s.spoutAt p).gate
  match x.oper with
  | some c =>
    if p < 12 ∧ x.entry + 1 < x.entries.length ∧ x.entryEnd ≤ s.domNs c.td then
      s.setGates p (x.enter (s.preemptActive p) (x.entry + 1) (x.entryEnd + entryNs (x.entries.getD (x.entry + 1) 1)))
    else s
  | none => s

/-- Gates off: all open, nothing operational or pending, no transmission past a close (Table 6.3). -/
def State.gateOff (s : State) (p : Nat) : State :=
  let y := s.spoutAt p
  (s.setSpout p { y with line := y.line.map (fun e => { e with close := none }) }).setGates p
    { y.gate with oper := none, pending := none, gates := 255, entry := 0, hold := false }

/-- The spans of a list within a cycle: start, end and word of each entry, the last one held to the cycle's end. -/
def spans (cyc : Int) : List Nat → Int → List (Int × Int × Nat)
  | [], _ => []
  | e :: t, a =>
    if cyc ≤ a then []
    else if t.isEmpty then [(a, cyc, e)]
    else (a, min cyc (a + entryNs e), e) :: spans cyc t (a + entryNs e)

/-- close(c) of R153 in nanoseconds of the operational domain, in which a pending change swaps at `swap`; none for a gate that does not
close. -/
def GateState.close (x : GateState) (c : Nat) (now swap : Int) : Option Int :=
  match x.oper with
  | none => none
  | some cfg =>
    let cyc := Int.ofNat cfg.cycle
    let cEnd := x.cycleStart + cyc
    let lim := if x.pending.isSome then min cEnd swap else cEnd
    let sp := spans cyc x.entries 0
    let closed (e : Int × Int × Nat) : Bool := !bitOf (gatesOf e.2.2) c
    let rest := sp.filter (fun e => decide (now - x.cycleStart < e.2.1))
    match rest.find? closed with
    | some e => some (if x.pending.isSome then min lim (x.cycleStart + e.1) else x.cycleStart + e.1)
    | none =>
      if x.pending.isSome then some lim
      else match sp.find? closed with
        | none => none
        | some e => some (cEnd + e.1)

/-- Whether the gates constrain a port: GATE_EN set and an operational list (R152). -/
def State.gatesRun (s : State) (p : Nat) : Bool :=
  p < 12 && s.flag (uSpout p) F.spout_SCHED_CFG_GATE_EN && (s.spoutAt p).gate.oper.isSome

/-- The domain of a port's operational list. -/
def State.operTd (s : State) (p : Nat) : Nat := ((s.spoutAt p).gate.oper.map (·.td)).getD 0

/-- close(c) of a port now, in nanoseconds of the operational domain. -/
def State.closeNs (s : State) (p c : Nat) : Option Int :=
  let x := (s.spoutAt p).gate
  let td := s.operTd p
  let swap := match x.pending with
    | some cfg => s.acrossDomains cfg.td td x.swapAt
    | none => 0
  if s.gatesRun p then x.close c (s.domNs td) swap else none

/-- close(c) of a port now, in WC. -/
def State.closeWc (s : State) (p c : Nat) : Option Nat := (s.closeNs p c).map (fun t => (s.domToWc (s.operTd p) t).toNat)

/-- A port's gates after a step of their domain to its present time (R149): the cycle and entry of the new time; a pending
change whose cycle start the step passed takes effect; GATE_STEP counts. A transmission has the close of the new time from here on, at
once if its class is closed then (R154). -/
def State.gateStep (s : State) (p td : Nat) : State :=
  let x := (s.spoutAt p).gate
  let now := s.domNs td
  let pendHere := match x.pending with
    | some c => c.td == td && decide (x.swapAt ≤ now)
    | none => false
  let operHere := match x.oper with
    | some c => c.td == td
    | none => false
  if !pendHere ∧ !operHere then s
  else
    let x := if pendHere then x.swap else x
    match x.oper with
    | none => s
    | some c =>
      let cyc := Int.ofNat c.cycle
      let start := if c.cycle = 0 then now else now - (now - c.base) % cyc
      let x := { x with cycleStart := start }
      let r := entryAt x.entries (x.entries.length + 1) (now - start) 0
      let s := s.setGates p (x.enter (s.preemptActive p) r.1 (start + r.2))
      let s := s.sat (uSpout p) F.spout_GATE_STEP
      let y := s.spoutAt p
      s.setSpout p { y with line := y.line.map (fun e =>
        if e.tc < 8 then { e with close := if bitOf y.gate.gates e.tc then s.closeWc p e.tc else some s.clk.wc } else e) }

/-! ### The gate control list (R147, Table 6.3) -/

/-- The address of GCL_DATA_LO of a port. -/
def gclAddr (p : Nat) : Nat := fldAddr (uSpout p) F.spout_GCL_DATA_LO 0 0

/-- INDEX of GCL_ADDR advanced, wrapping from 511 to 0. -/
def State.gclNext (s : State) (p : Nat) : State := s.inc (uSpout p) F.spout_GCL_ADDR_INDEX

/-- `GCL_DATA_WRITE`: a write of GCL_DATA_LO stores the entry; refused on the operational list and while a change is
pending. -/
def gclDataWriteStep (p : Nat) (v : Word) (master : Nat) (s : State) : State :=
  if p < 12 then
    let u := uSpout p
    let x := (s.spoutAt p).gate
    if s.flag u F.spout_GCL_ADDR_OPER ∨ x.pending.isSome then
      (s.sat u F.spout_GATE_STATUS_GCL_REJECTS).refuse master (gclAddr p)
    else
      let e := s.rd u F.spout_GCL_DATA_HI * 2 ^ 32 + v.toNat
      let s := s.setSpout p { s.spoutAt p with gate := x.putAdmin (s.rd u F.spout_GCL_ADDR_INDEX) e }
      (s.wr u F.spout_GCL_DATA_LO v.toNat).gclNext p
  else s

/-- `GCL_DATA_READ`: a read of GCL_DATA_LO returns the entry's low word and loads the high one. -/
def gclDataReadStep (p : Nat) (s : State) : State :=
  if p < 12 then
    let u := uSpout p
    let x := (s.spoutAt p).gate
    let e := smGet zero0 (if s.flag u F.spout_GCL_ADDR_OPER then x.operList else x.adminList)
      (s.rd u F.spout_GCL_ADDR_INDEX)
    let s := (s.wr u F.spout_GCL_DATA_HI (e / 2 ^ 32)).wr u F.spout_GCL_DATA_LO e
    { s with readData := BitVec.ofNat 32 e }.gclNext p
  else { s with readData := 0#32 }

/-! ### Fit or wait (R151, R152) -/

/-- LEAD of a port in hundredths of a nanosecond (R152). -/
def State.lead (s : State) (p : Nat) : Nat :=
  (if p < 4 then 6560 else 13560) + (if s.macsecOn p then (if p < 4 then 3188 else 5120) else 0)

/-- The bytes a copy is checked with: its length, or the guard band when the length is unknown. -/
def State.fitBytes (s : State) (f : Frame) (p tc : Nat) : Nat := s.egressBytes f p (f.copyLen.getD (s.guardLen p tc))

/-- The fit rule (R152): start + wire(L) ≤ close(c), in units of 2^-16 / 100 ns scaled by the link rate. -/
def State.fits (s : State) (p tc : Nat) (f : Frame) : Bool :=
  match s.closeNs p tc with
  | none => true
  | some cl =>
    let td := s.operTd p
    let now : Int := (s.dom td).time / 2 ^ 31
    let free := now + (s.dom td).span (Int.ofNat (s.freeAt p tc - s.clk.wc)) / 2 ^ 31
    let start := max (now * 100 + Int.ofNat (s.lead p * 65536)) (free * 100)
    decide (start * Int.ofNat (s.linkRate p) + Int.ofNat ((s.fitBytes f p tc + 20) * 8 * 1000 * 65536 * 100)
      ≤ cl * 65536 * 100 * Int.ofNat (s.linkRate p))

/-! ### Selection (R140 to R143) -/

/-- The head copy of a class that can be selected: not being read. -/
def State.headCopy (s : State) (p c : Nat) : Option QEntry :=
  match s.queue (8 * p + c) with
  | [] => none
  | e :: _ => if e.started ∨ (s.readingOf p).any (fun r => r.tc == c) then none else some e

/-- Whether a shaper permits a class. -/
def State.shaperPermits (s : State) (p c : Nat) : Bool :=
  if p < 12 ∧ 4 ≤ c then !s.flag (uSpout p) F.spout_CBS_CFG_EN (c - 4) || decide (0 ≤ s.cbsAt p c)
  else if p = 13 ∧ s.flag (uSpout 13) F.spout_PCS_CFG_EN c then decide (0 ≤ s.pcsAt c)
  else true

/-- Whether a class is paused at a port (R130). -/
def State.paused (s : State) (p c : Nat) : Bool := bitOf (s.rd uFab F.fab_PAUSE_STATE_TC p) c

/-- What the copies being read leave to select (R140, R156): anything after the last cell of the present copy; while preemption is
active, express traffic past a preemptable copy. No preemptable copy starts during a HOLD (R150). -/
def State.mayStart (s : State) (p c : Nat) : Bool :=
  let l := s.readingOf p
  (l.isEmpty || (s.preemptActive p && decide (6 ≤ c) && l.all (fun r => decide (r.tc < 6)))) && (s.express p c || !s.held p)

/-- One class under R141: whether it is eligible, with FIT_WAIT counted the first time its head copy fails the fit check
while its gate is open (R154). -/
def State.eligible (s : State) (p c : Nat) : Bool × State :=
  match s.headCopy p c with
  | none => (false, s)
  | some e =>
    match s.frame e.frame with
    | none => (true, s)
    | some f =>
      let open_ := !s.gatesRun p || bitOf (s.spoutAt p).gate.gates c
      let fit := s.fits p c f
      let s' := if open_ && !fit && !e.fitFailed then
          (s.setQueue (8 * p + c) ((s.queue (8 * p + c)).map (fun x =>
            if x.slot = e.slot then { x with fitFailed := true } else x))).inc (uSpout p) F.spout_FIT_WAIT c
        else s
      (!s.paused p c && s.shaperPermits p c && open_ && fit, s')

/-- The classes of a port that are eligible, as a mask; ELIGIBLE shows it. -/
def State.eligibleMask (s : State) (p : Nat) : Nat × State :=
  let r := (List.range 8).foldl (fun (a : List Nat × State) c =>
    let e := a.2.eligible p c
    (if e.1 then c :: a.1 else a.1, e.2)) ([], s)
  let m := maskOf r.1
  (m, r.2.wr (uSpout p) F.spout_SCHED_STATUS_ELIGIBLE m)

/-- The bytes a copy costs under DWRR, and whether they are the guard band's (R142). -/
def State.dwrrCost (s : State) (p c : Nat) (e : QEntry) : Nat × Bool :=
  match s.frame e.frame with
  | none => (64, false)
  | some f => (s.fitBytes f p c, f.copyLen.isNone)

/-- QUANTUM of a class; 0 acts as 64. -/
def State.quantum (s : State) (p c : Nat) : Nat :=
  let q := s.rd (uSpout p) F.spout_QUANTUM_BYTES c
  if q = 0 then 64 else q

/-- The deficit of a class whose queue is empty: 0. -/
def State.noDeficit (s : State) (p c : Nat) : State :=
  let x := s.spoutAt p
  s.setSpout p { x with deficit := smSet intZero x.deficit c 0, guardPaid := pmDel x.guardPaid c }

/-- One class in dwrr_select of R142: chosen, or passed with its visit ended. -/
def State.dwrrVisit (s : State) (p c : Nat) : Bool × State :=
  let x := s.spoutAt p
  match s.headCopy p c with
  | none => (false, s)
  | some e =>
    let seen := x.visited.contains c
    let d := smGet intZero x.deficit c + (if seen then 0 else Int.ofNat (s.quantum p c))
    let (b, guard) := s.dwrrCost p c e
    if Int.ofNat b ≤ d then
      (true, s.setSpout p { x with
        deficit := smSet intZero x.deficit c (d - Int.ofNat b), visited := if seen then x.visited else c :: x.visited,
        guardPaid := if guard then pmSet x.guardPaid c b else pmDel x.guardPaid c })
    else
      (false, s.setSpout p { x with
        deficit := smSet intZero x.deficit c d, visited := x.visited.filter (· != c), rr := (c + 1) % 4 })

/-- dwrr_select of R142 from turn `n` on, at most `left` turns: the class chosen, and the state. -/
def State.dwrrTurn (s : State) (p mask : Nat) : Nat → Nat → Option Nat × State
  | 0, _ => (none, s)
  | left + 1, n =>
    let c := ((s.spoutAt p).rr + n) % 4
    if (s.queue (8 * p + c)).isEmpty then (s.noDeficit p c).dwrrTurn p mask left (n + 1)
    else if !bitOf mask c then s.dwrrTurn p mask left (n + 1)
    else
      match s.dwrrVisit p c with
      | (true, s) => (some c, s)
      | (false, s) => s.dwrrTurn p mask left (n + 1)

/-- The pseudocode of R141 over the classes that may start: strict priority above, DWRR or strict priority for TC0 to TC3. -/
def State.pick (s : State) (p mask : Nat) : Option Nat × State :=
  let mask := maskOf ((bitsOf 8 mask).filter (s.mayStart p))
  match [7, 6, 5, 4].find? (bitOf mask) with
  | some c => (some c, s)
  | none =>
    if s.flag (uSpout p) F.spout_SCHED_CFG_WRR_EN then (if s.mayStart p 0 then s.dwrrTurn p mask 4 0 else (none, s))
    else ([3, 2, 1, 0].find? (bitOf mask), s)

/-- A copy selected: it is read next. A cut-through copy found bad before it starts is discarded instead, and the class's
deficit restored (R134, R143). -/
def State.select (s : State) (p c : Nat) (before : Int) : State :=
  match s.headCopy p c with
  | none => s
  | some e =>
    let s := s.setReading p (s.readingOf p ++ [⟨c, [], before, 1⟩])
    match s.frame e.frame with
    | none => (s.unselect p c).removeEntry (8 * p + c) e
    | some f =>
      if f.bad ∧ e.copy.ct then ((s.unselect p c).removeEntry (8 * p + c) e).walk e.frame else s

/-- A time-engine message goes to the wire of its port (R168). -/
def State.sendMsg (s : State) (p : Nat) (m : PtpMsg) : State :=
  let x := s.spoutAt p
  let n := max 64 (m.leaving.length + 4) + s.macsecBytes p
  s.setSpout p { x with line := x.line ++
    [⟨8, s.clk.wc, none, 0, [], none, 0, n, none, 0, false, none, none, 0, false, some m⟩] }

/-- `SPOUT_SELECT`: one selection of a port (R140): a time-engine message goes first (R168), then R141. A disabled instance
and a MAC with TX_EN 0 select nothing. -/
def spoutSelectStep (p : Nat) (s : State) : State :=
  if p < 16 then
    if !s.enabled (uSpout p) ∨ (p < 12 ∧ (s.txStopped ∨ !s.flag (uMac p) F.mac_TX_CFG_TX_EN)) then s
    else if p < 12 ∧ !(s.txQueue p).isEmpty ∧ s.mayStart p 8 then
      match s.txQueue p with
      | m :: _ => (s.ptpTaken p).sendMsg p m
      | [] => s
    else if !(List.range 8).any (s.mayStart p) then s
    else
      let (mask, s) := s.eligibleMask p
      let old := (s.spoutAt p).deficit
      match s.pick p mask with
      | (none, s) => s
      | (some c, s) => s.select p c (smGet intZero old c)
  else s

/-! ### Preemption (R155, R156) -/

/-- `FRAME_PREEMPT`: the preemptable frame on the wire is preempted at its next permitted point: express traffic has been selected, or a
HOLD is in effect (R150, R156). -/
def framePreemptStep (p age : Nat) (s : State) : State :=
  if p < 12 ∧ s.preemptActive p then
    let x := s.spoutAt p
    let wanted := (s.readingOf p).any (fun r => decide (6 ≤ r.tc)) || x.line.any (fun e => decide (6 ≤ e.tc) && e.tc != 9) || s.held p
    match s.onWire p with
    | none => s
    | some e =>
      match s.nextPoint p e (e.start.getD 0 + age) with
      | none => s
      | some n =>
        if wanted ∧ e.tc < 6 ∧ e.cut.isNone then
          s.setSpout p { x with line := x.line.map (fun y => if y.start.isSome then { y with cut := some n } else y) }
        else s
  else s

/-- The end of a HOLD with preemption, without which HOLD acts as SET (R150). -/
def State.holdEnd (s : State) (p : Nat) : State :=
  let x := (s.spoutAt p).gate
  if x.hold ∧ !s.preemptActive p then s.setGates p { x with hold := false } else s

/-- `PREEMPT_VERIFY`: the verification of IEEE 802.3br on a port: an attempt begins, succeeds, fails, or the last one
fails. -/
def preemptVerifyStep (p outcome : Nat) (s : State) : State :=
  let u := uMac p
  if p < 12 then
    if !s.flag u F.mac_PREEMPT_CFG_EN ∨ s.flag u F.mac_PREEMPT_CFG_VERIFY_DIS then s.wr u F.mac_PREEMPT_STATUS_VERIFY 0
    else if outcome = 0 then (s.wr u F.mac_PREEMPT_STATUS_VERIFY 2).holdEnd p
    else if outcome = 1 then s.wr u F.mac_PREEMPT_STATUS_VERIFY 3
    else
      ((s.sat u F.mac_VERIFY_FAIL).wr u F.mac_PREEMPT_STATUS_VERIFY (if outcome = 2 then 2 else 4)).holdEnd p
  else s

/-- VERIFY after a write of PREEMPT_CFG: INITIAL while verification is to run, DISABLED otherwise. -/
def State.preemptCfg (s : State) (p : Nat) : State :=
  let u := uMac p
  s.wr u F.mac_PREEMPT_STATUS_VERIFY
    (if s.flag u F.mac_PREEMPT_CFG_EN ∧ !s.flag u F.mac_PREEMPT_CFG_VERIFY_DIS then 1 else 0)

/-- `E_PORT_LINK_CHANGE`: the current rate of an E-port changes, for frames that begin from now on (R144); a link-down returns
verification to INITIAL. -/
def ePortLinkChangeStep (p mbps : Nat) (s : State) : State :=
  if p < 12 then
    let s := { s with fab := { s.fab with links := smSet zero0 s.fab.links p mbps } }
    if mbps = 0 then (s.preemptCfg p).holdEnd p else s
  else s

/-- Whether the sum of the enabled idle slopes exceeds the port's current rate (R145). -/
def State.overcommit (s : State) (p : Nat) : Bool :=
  let sum := [4, 5, 6, 7].foldl (fun a c =>
    a + (if s.flag (uSpout p) F.spout_CBS_CFG_EN (c - 4) then s.idleSlope p c else 0)) 0
  p < 12 && s.linkRate p != 0 && decide (s.linkRate p * 1000 < sum)

/-! ### Reading a copy (R112, R123, R133, R134) -/

/-- A copy that cannot be read on ends here: stomped on an E-port, dropped elsewhere; the cells it has not read are released by a walk
(Table 5.4). -/
def State.endCopy (s : State) (p : Nat) (r : Reading) (e : QEntry) (f : Frame) : State :=
  let s := (s.setReading p ((s.readingOf p).filter (fun x => x.tc != r.tc))).removeEntry (8 * p + r.tc) e
  let s := if p < 12 then s.stompTx p r f else s.copyLost e.frame e.copy
  s.walkFrom e.frame (r.cells.map (·.1))

/-- Every frame of a queue dropped because an entry cannot be read (Table 5.4): counted in QDROP_LIMIT, cells left to the
auditor. -/
def State.loseQueue (s : State) (q : Nat) : State :=
  (s.queue q).foldl (fun s e =>
    (((s.removeEntry q e).sat uFab F.fab_QDROP_LIMIT q).copyLost e.frame e.copy).copyDone e.frame) (s.unselect (q / 8) (q % 8))

/-- A copy that an E-port has started comes to the line. How long before its first bit leaves, up to LEAD, is open (log entry 9). -/
def State.lineUp (s : State) (p c : Nat) (f : Frame) : State :=
  let x := s.spoutAt p
  let lead := s.drawn (s.lead p * 65536 / 100 + 1)
  let e : Tx := ⟨c, s.clk.wc + lead, none, 0, [], none, 0, s.fitBytes f p c, none, 0, false, none, s.closeWc p c, 0,
    f.uncontrolled p, none⟩
  s.draw.setSpout p { x with line := x.line ++ [e] }

/-- The start of a copy (R123): STARTED, TX_SEL, the packet shaper's cost, and on an E-port its place in the line. -/
def State.startCopy (s : State) (p c : Nat) (e : QEntry) (f : Frame) : State :=
  let q := 8 * p + c
  let s := s.setQueue q ((s.queue q).map (fun x => if x.slot = e.slot then { x with started := true } else x))
  let s := s.inc (uSpout p) F.spout_TX_SEL c
  let s := if p = 13 ∧ s.pcsOn c then (s.setPcs c (s.pcsAt c - 16)).pcsSettle c else s
  let s := if e.copy.ct then s.updFrame e.frame (fun f => { f with cutLeft := true }) else s
  if p < 12 then s.lineUp p c f else s

/-- A copy of P12 put into the transmit buffer (4 KiB) of every segment it selects; a segment without room drops its own
copy (R202). -/
def noT1s (_ : Nat) : T1sState := {}
def State.t1sAt (s : State) (g : Nat) : T1sState := smGet noT1s s.edge.t1s g
def State.setT1s (s : State) (g : Nat) (x : T1sState) : State :=
  { s with edge := { s.edge with t1s := smSet noT1s s.edge.t1s g x } }
def State.toSegments (s : State) (mask : Nat) (b : List Byte) : State :=
  (bitsOf 8 mask).foldl (fun s g =>
    let x := s.t1sAt g
    if b.length < 64 ∨ 1522 < b.length ∨ 4096 < (x.tx.map List.length).foldl (· + ·) 0 + b.length then s.sat uT1s F.t1s_TX_DROP g
    else s.setT1s g { x with tx := x.tx ++ [b] }) s

/-- A whole copy handed on (5.5): to the T1S unit, P13, the host or the triad, or back as a P15 input for its second pass (R50). -/
def State.handOver (s : State) (p : Nat) (f : Frame) (copy : Copy) (b : List Byte) : State :=
  let b := f.leaving p f.fm.tc b
  if p = 12 then s.toSegments copy.subS b
  else if copy.recirc then s.offer 15 { f.fm with pass2 := true } b
  else { s with fab := { s.fab with delivered := s.fab.delivered ++ [⟨p, f.fm, b, copy⟩] } }

/-- The last cell of a copy has been read: its accounting is returned, its record may be FREE; on an E-port the frame is now whole, to
be stomped if it was found bad (R134), another output hands it on. -/
def State.finishCopy (s : State) (p : Nat) (r : Reading) (e : QEntry) (f : Frame) : State :=
  let s := (s.setReading p ((s.readingOf p).filter (fun x => x.tc != r.tc))).removeEntry (8 * p + r.tc) e
  let s := s.copyDone e.frame
  let s := if p < 12 then s.closeTx p r.tc (f.body p f.fm.tc (dropEnd 4 r.bytes)) f.bad else s.handOver p f e.copy r.bytes
  let x := s.spoutAt p
  s.setSpout p { x with guardPaid := pmDel x.guardPaid r.tc }

/-- One cell of a copy's window of the next 16 unread written cells: the first one that lies in the presented slice, of those whose link
words the output has followed, one in a cycle and never more than 16 unread (`State.fabPass`). The last cell of an E-port frame is readable once the end-of-frame checks have been made (R123, R134). -/
def windowCell (f : Frame) (r : Reading) (slice : Nat) : Option (Nat × Nat) :=
  let avail := if f.complete ∧ !f.ended then f.chain.length - 1 else f.chain.length
  let unread := (List.range (min avail r.seen)).filter (fun i => (pmGet r.cells i).isNone)
  (unread.filterMap (fun i => (f.chain[i]?).map (fun ptr => (i, ptr)))).find? (fun e => e.2 / 8192 == slice)

/-- A copy that may read a cell now: its first cell neither during a HOLD that bars it, nor past the read buffer's 32 cells (R123,
R150). -/
def State.mayRead (s : State) (p : Nat) (r : Reading) : Bool :=
  (!r.cells.isEmpty || s.express p r.tc || !s.held p) && decide (s.readBuffer p < 32)

/-- One more cell of a copy that an E-port reads lies in the read buffer. -/
def State.bufferCell (s : State) (p tc : Nat) : State :=
  let x := s.spoutAt p
  s.setSpout p { x with line := x.line.map (fun e => if e.tc = tc ∧ e.body.isNone then { e with cells := e.cells + 1 } else e) }

/-- Cell `i` of a copy, in cell `ptr`: its two code checks, its release, and its place in the copy being read; the last one
ends the copy. -/
def State.takeCell (s : State) (p : Nat) (r : Reading) (e : QEntry) (f : Frame) (i ptr : Nat) : State :=
  let (kc, s) := s.fabCheck (memCell ptr) (ptr % 8192) false
  let (kl, s) := s.fabCheck memLink ptr true
  if kc = .failed ∨ kl = .failed then s.endCopy p r e f
  else
    let data := match pmGet s.fab.cells ptr with
      | some c => c.data
      | none => []
    let s := s.release f.copies ptr
    let r' := { r with cells := pmSet r.cells i data }
    let s := s.setReading p ((s.readingOf p).map (fun x => if x.tc = r.tc then r' else x))
    let s := if p < 12 then s.bufferCell p r.tc else s
    if f.complete ∧ r'.cells.length = f.chain.length then s.finishCopy p r' e f else s

/-- The read of cell `i` of the copy at the head of queue `q`: at its first cell the queue entry and the frame record are
checked, and a bad cut-through copy or a lost one goes. -/
def State.readHead (s : State) (p q : Nat) (r : Reading) (e : QEntry) (f : Frame) (i ptr : Nat) : Option State :=
  let (k, s) := if e.started then (CodeResult.good, s) else s.fabCheck memQEntry e.slot true
  if !e.started ∧ (p < 12 ∧ s.txStopped ∨ p = 14 ∧ s.safe) then none
  else if k = .failed then some (s.loseQueue q)
  else if !e.started ∧ f.bad ∧ e.copy.ct then
    some (((s.unselect p r.tc).removeEntry q e).walk e.frame)
  else
    let (kr, s) := if e.started then (CodeResult.good, s) else s.fabCheck memRecord e.frame true
    if kr = .failed then some (s.loseFrame e.frame)
    else some ((if e.started then s else s.startCopy p r.tc e f).takeCell p r { e with started := true } f i ptr)

/-- One reading in one cycle: none when no cell of its window lies in the presented slice. -/
def State.readOne (s : State) (p : Nat) (r : Reading) : Option State :=
  let q := 8 * p + r.tc
  match s.queue q with
  | [] => none
  | e :: _ =>
    match s.frame e.frame with
    | none => some ((s.unselect p r.tc).removeEntry q e)
    | some f =>
      match windowCell f r ((p + s.fabCycle) % 16) with
      | none => none
      | some (i, ptr) => s.readHead p q r e f i ptr

/-- `CELL_READ`: one fabric cycle of an output: express copies first, then the preemptable one; one cell in a cycle (R123). -/
def cellReadStep (p : Nat) (s : State) : State :=
  if p < 16 ∧ !s.fab.used.contains (16 + p) then
    let l := s.readingOf p
    let l := (l.filter (fun r => decide (6 ≤ r.tc)) ++ l.filter (fun r => decide (r.tc < 6))).filter (s.mayRead p)
    match l.filterMap (fun r => (s.usePort (16 + p)).readOne p r) with
    | [] => s
    | s :: _ => s
  else s

/-! ### Latency observation (R157) -/

/-- The bin of a sample with shift `sh`. -/
def histBin (sh v : Nat) : Nat :=
  if v < 2 ^ sh then 0
  else match (List.range 14).find? (fun b => decide (v < 2 ^ (sh + b + 1))) with
    | some b => b + 1
    | none => 15

/-- One bin of a histogram counted: two 16-bit saturating bins to a register. -/
def State.binUp (s : State) (u : UnitNo) (lo hi : Fld) (c b : Nat) : State :=
  if b % 2 = 0 then s.sat u lo c (b / 2) else s.sat u hi c (b / 2)

/-- One depth sample. -/
def State.depthSample (s : State) (p c v : Nat) : State :=
  let u := uSpout p
  let sh := min 17 (s.rd u F.spout_HIST_CFG_DEPTH_SHIFT)
  let s := s.binUp u F.spout_H_DEPTH_BIN_LO F.spout_H_DEPTH_BIN_HI c (histBin sh v)
  let s := if v < s.rd u F.spout_H_DEPTH_MIN_MIN c then s.wr u F.spout_H_DEPTH_MIN_MIN v c else s
  let s := if s.rd u F.spout_H_DEPTH_MAX_MAX c < v then s.wr u F.spout_H_DEPTH_MAX_MAX v c else s
  (s.sat u F.spout_H_DEPTH_SUM_SUM c 0 (v / 2 ^ sh)).sat u F.spout_H_SAMPLES_DEPTH c

/-- One sojourn sample. -/
def State.sojournSample (s : State) (p c v : Nat) : State :=
  let u := uSpout p
  let sh := s.rd u F.spout_HIST_CFG_SOJ_SHIFT
  let s := s.binUp u F.spout_H_SOJ_BIN_LO F.spout_H_SOJ_BIN_HI c (histBin sh v)
  let s := if v < s.rd u F.spout_H_SOJ_MIN_MIN c then s.wr u F.spout_H_SOJ_MIN_MIN v c else s
  let s := if s.rd u F.spout_H_SOJ_MAX_MAX c < v then s.wr u F.spout_H_SOJ_MAX_MAX v c else s
  (s.sat u F.spout_H_SOJ_SUM_SUM c 0 (v / 2 ^ sh)).sat u F.spout_H_SAMPLES_SOJ c

/-- The sample of one queue of a port. -/
def State.sampleQueue (s : State) (p c : Nat) : State :=
  let q := 8 * p + c
  let s := s.depthSample p c (s.rd uFab F.fab_QDEPTH_CELLS q)
  match s.queue q with
  | [] => s
  | e :: _ =>
    match s.frame e.frame with
    | none => s
    | some f => s.sojournSample p c ((s.wcNs % 2 ^ 32 + 2 ^ 32 - f.fm.ts) % 2 ^ 32)

/-- The next `k` samples of the Spout's tick job, which samples each of the port's eight queues once, from queue `c` on. -/
def State.spoutSome (s : State) (p c k : Nat) : State :=
  (List.range k).foldl (fun s i => s.sampleQueue p (c + i)) s

/-- Every histogram of a port cleared (HIST_CFG.CLEAR). -/
def State.histClear (s : State) (p : Nat) : State :=
  let b := baseOf (uSpout p) + 0x800
  { s with regs := s.regs.filter (fun e => !(decide (b ≤ e.1 ∧ e.1 < b + 0x400))) }

end Sys2Proof.Machine
end

