-- ==== Sys2Proof/Machine/Time.lean ====
section
/-! DEFINITION. Time domains, the tick's placement, gPTP, the jump guard, captures and time outputs (1.4, chapter 7 and
18.5). The time engine works only while TIME counts as enabled. -/

namespace Sys2Proof.Machine

/-- Until boot complete, a register write from PCIe or MSPI to any unit other than SYS, SAUCER, KETTLE, PCIE (with its
functions, whose blocks lie in its window), MSPI and COSY has no effect (R267); in Fallback mode none is refused so (R283). -/
def State.preBootBarred (s : State) (u : UnitNo) (master : Nat) : Bool :=
  ((1 ≤ master && master ≤ 5) || master == 8) && !s.bootDone && !s.fallback && kindOf u != .fn && !(u == uSys || u == uSaucer || u == uKettle || u == uPcie || u == uMspi || u == uCosy)

/-- A unit to which a write with CHECKED 0 has no effect (R305); master 0x11 is the triad without agreement. -/
def uncheckedBarred (u : UnitNo) (master : Nat) : Bool := master == 0x11 && (u == uSaucer || u == uCaddy || u == uKettle)

/-- A virtual function in Fallback mode, in which only PF0 and MSPI of the host's masters have register access (R283). -/
def State.vfBarred (s : State) (master : Nat) : Bool := s.fallback && decide (2 ≤ master) && decide (master ≤ 5)

/-- A write that a unit does not take: it is held in reset (R399), or the write comes from a host before boot complete (R267),
from a virtual function in Fallback mode (R283), or without agreement (R305). -/
def State.barred (s : State) (u : UnitNo) (master : Nat) : Bool :=
  s.resetting u || s.preBootBarred u master || s.vfBarred master || uncheckedBarred u master

/-- A register write that starts a command. -/
def State.command (s : State) (u : UnitNo) (master addr : Nat) (run : State → State) : State :=
  if s.deaf then s else if s.barred u master then s.refuse master addr else run s

/-! ### Registers of a domain -/

/-- A signed value in a 32-bit register; the manual states no content for a value outside it (log entry 2). -/
def word32 (z : Int) : Nat :=
  if -(2 ^ 31) ≤ z ∧ z < 2 ^ 31 then ofSigned 32 z else Config.openNat (ofSigned 128 z) % 2 ^ 32

/-- A signed value that saturates at ±(2^31 − 1). -/
def sat32 (z : Int) : Nat := ofSigned 32 (clampInt (-(2 ^ 31 - 1)) (2 ^ 31 - 1) z)

/-- Table 7.2: 0 DISABLED, 1 FREE, 2 LOCKED, 3 HOLDOVER, 4 GM. -/
def domDisabled : Nat := 0
def domFree : Nat := 1
def domLocked : Nat := 2
def domHoldover : Nat := 3
def domGm : Nat := 4

def State.domState (s : State) (n : Nat) : Nat := s.rd uTime F.time_DOM_STATUS_STATE n

/-- A domain is synchronised while it is LOCKED or GM (R163). -/
def State.synced (s : State) (n : Nat) : Bool := s.domState n == domLocked || s.domState n == domGm

/-- The grandmasterIdentity of a domain (R435). -/
def State.gmId (s : State) (n : Nat) : Nat :=
  s.rd uTime F.time_GM_ID_HI_ID n * 2 ^ 32 + s.rd uTime F.time_GM_ID_LO_ID n

/-- GM_ID set; a change counts in GM_CHANGES (R435). -/
def State.setGm (s : State) (n id : Nat) : State :=
  if s.gmId n = id then s
  else ((s.wr uTime F.time_GM_ID_HI_ID (id / 2 ^ 32) n).wr uTime F.time_GM_ID_LO_ID id n).inc uTime
    F.time_GM_CHANGES_COUNT n

/-! ### The tick's placement (R21 to R24, Table 18.11) -/

/-- The tick period P in nanoseconds (R21). The manual gives PERIOD_K 0 to 5; each of the two other codes of the field acts as one of
these, left open. DESIGN CHOICE (log entry 2). -/
def State.tickNs (s : State) : Nat := 31250 * 2 ^ openField 0 5 (s.rd uTick F.tick_CFG_PERIOD_K)

/-- P in the units of the tick's own time, 2^-64 ns. -/
def State.tickP (s : State) : Int := Int.ofNat s.tickNs * 2 ^ 64

def State.setTick (s : State) (x : TickPlan) : State := { s with time := { s.time with tick := x } }

/-- TICK follows TD0: SLEWING or LOCKED. -/
def State.tickFollows (s : State) : Bool := s.rd uTick F.tick_STATUS_STATE != 0

/-- The rate of the tick's own time relative to WC − 1: TD0's while it follows TD0, else the rate kept (R22, R24). -/
def State.tickRate (s : State) : Int := if s.tickFollows then (s.dom 0).rate else s.time.tick.rate

/-- The tick's own time left to the next boundary, now (units of 2^-64 ns; negative when the boundary is behind). -/
def State.tickLeft (s : State) : Int :=
  s.time.tick.left - Int.ofNat ((s.clk.wc + 2 ^ 80 - s.time.tick.since) % 2 ^ 80) * (2 ^ 48 + s.tickRate)

/-- The placement settled up to now, before the tick's rate changes. -/
def State.tickSettle (s : State) : State := s.setTick { s.time.tick with since := s.clk.wc, left := s.tickLeft }

/-- How far a boundary that comes when TD0's time has moved on by `ahead` (units of 2^-64 ns) lies behind the nearest multiple of P
in TD0 (R23). -/
def State.tickBehind (s : State) (ahead : Int) : Int :=
  let r := ((s.dom 0).time * 2 ^ 17 + ahead) % s.tickP
  if s.tickP < 2 * r then r - s.tickP else r

/-- Aligned within one TIME cycle of 2 ns. -/
def aligned (z : Int) : Bool := decide (-(2 ^ 65) ≤ z ∧ z ≤ 2 ^ 65)

/-- By how much a tick that would end `z` behind is shortened: all of it, at most P/64 (R23). -/
def State.tickAdj (s : State) (z : Int) : Int := clampInt (-(s.tickP / 64)) (s.tickP / 64) z

/-- TICK begins to follow TD0 (R23): the running tick is shortened or lengthened toward alignment, by at most P/64 in all, and shortened
by no more than what is left of it; LOCKED when it is aligned and no step of TD0 was the cause, SLEWING otherwise. -/
def State.tickFollow (s : State) (stepped : Bool) : State :=
  let s := s.tickSettle
  let plain := s.time.tick.left + s.time.tick.adj
  let z := s.tickBehind plain
  let d := min (s.tickAdj z) (max 0 plain)
  let s := s.setTick { s.time.tick with left := plain - d, adj := d, seen := true }
  s.wr uTick F.tick_STATUS_STATE (if aligned z && !stepped then 2 else 1)

/-- TICK runs on at the rate that TD0 has now, without a phase change (R24); at the WC rate while TD0 is DISABLED (R22). -/
def State.tickFree (s : State) : State :=
  let s := s.tickSettle
  let s := s.setTick { s.time.tick with rate := if s.domState 0 = domDisabled then 0 else (s.dom 0).rate }
  (s.wr uTick F.tick_STATUS_STATE 0).wr uTick F.tick_ALIGN_NS 0

/-- The consequence for TICK of a change in TD0: `was` tells whether it was synchronised before. Until TD0 has been synchronised once
since the release of TICK, the tick stays at the WC rate (R22). -/
def State.tickAfter (s : State) (n : Nat) (was refused stepped : Bool) : State :=
  if n ≠ 0 then s
  else if !s.synced 0 then
    (if (s.time.tick.seen ∧ (was ∨ refused)) ∨ s.domState 0 = domDisabled then s.tickFree else s)
  else if !was then s.tickFollow false
  else if stepped then s.tickFollow true else s

/-- TIME cycles until the next boundary. -/
def State.tickWait (s : State) : Nat :=
  let per := 131072 * (2 ^ 48 + s.tickRate)
  ((s.tickLeft + per - 1) / per).toNat

/-- The boundary of TICK itself: COUNT, the WC of the boundary, ALIGN, the state (R407), and the next tick: P, in SLEWING and LOCKED
shortened or lengthened toward alignment. -/
def State.tickTick (s : State) : State :=
  let free := !s.tickFollows
  let s := s.tickSettle
  let z := if free then 0 else s.tickBehind s.time.tick.left
  let d := s.tickAdj z
  let s := s.setTick { s.time.tick with last := s.clk.wc, left := s.time.tick.left + s.tickP - d, adj := d }
  let s := (s.inc uTick F.tick_COUNT_COUNT).wr uTick F.tick_LAST_WC_LO_NS (s.wcNs % 2 ^ 32)
  let s := s.wr uTick F.tick_ALIGN_NS (sat32 (quot z (2 ^ 64)))
  if free then s else if aligned z then s.wr uTick F.tick_STATUS_STATE 2 else s

/-! ### Time outputs (R179) -/

/-- The time of the clock that CLOCK selects, in units of 2^-47 ns (0 to 3 TD0 to TD3, 4 WC; 5 to 7 act as 4). -/
def State.clockTime (s : State) (c : Nat) : Int := if c < 4 then (s.dom c).time else Int.ofNat s.clk.wc * 2 ^ 31

/-- A pin that carries its time function (PIN_FUNC). -/
def State.timePin (s : State) (g : Nat) : Bool := bitOf (s.rd uTsio F.tsio_PIN_FUNC_TIME_FN) g

/-- START of an output, and the time of its clock, in nanoseconds. -/
def State.tsStart (s : State) (m : Nat) : Int :=
  Int.ofNat (s.rd uTsio F.tsio_START_HI_NS m * 2 ^ 32 + s.rd uTsio F.tsio_START_LO_NS m)
def State.tsNow (s : State) (m : Nat) : Int := s.clockTime (s.rd uTsio F.tsio_TSOUT_CFG_CLOCK m) / 2 ^ 47

/-- PERIOD of an output: 16 to 4,294,967,294 ns, odd values act as the next lower even value. -/
def State.tsPeriod (s : State) (m : Nat) : Nat :=
  let p := s.rd uTsio F.tsio_PERIOD_NS m
  openField 16 4294967294 (p / 2 * 2) / 2 * 2

/-- Whether R179 calls for the active level of an output now. -/
def State.tsActive (s : State) (m : Nat) : Bool :=
  let t := s.tsNow m
  let a := s.tsStart m
  let w := Int.ofNat (s.rd uTsio F.tsio_WIDTH_NS m)
  s.enabled uTsio && s.flag uTsio F.tsio_TSOUT_CFG_EN m && decide (a ≤ t) &&
    (if s.flag uTsio F.tsio_TSOUT_CFG_PERIODIC m then decide ((t - a) % Int.ofNat (s.tsPeriod m) < w)
     else decide (t < a + w) && !s.time.fired.contains m)

/-- The level of an output brought to what R179 says now; a single pulse that ends does not fire again (R179). -/
def State.tsEval (s : State) (m : Nat) : State :=
  let was := s.flag uTsio F.tsio_TSOUT_STATUS_ACTIVE m
  let act := s.tsActive m
  let s := s.wr uTsio F.tsio_TSOUT_STATUS_ACTIVE (b2n act) m
  if was ∧ !act ∧ !s.flag uTsio F.tsio_TSOUT_CFG_PERIODIC m then
    { s with time := { s.time with fired := if s.time.fired.contains m then s.time.fired else m :: s.time.fired } }
  else s

/-- The level that an output drives: its active level or the other one (R179). -/
def State.tsLevel (s : State) (m : Nat) : Bool :=
  s.flag uTsio F.tsio_TSOUT_STATUS_ACTIVE m != s.flag uTsio F.tsio_TSOUT_CFG_ACTIVE_LOW m

/-! ### Consumers of a domain's time (R176, Table 7.4) -/

/-- Stream gates of one Strainer that run on a domain, at a step of it. -/
def State.restepGates (s : State) (w : Bool) (n : Nat) : State :=
  let x := s.strain w
  s.setStrain w { x with gates := x.gates.map (fun e =>
    if e.2.td = n then (e.1, e.2.restep (s.domNs n) (s.gateBase w e.1) (Int.ofNat (s.rd (uStrain w) F.strain_GATE_CYCLE_NS_NS e.1))) else e) }

/-- A step of a domain: every consumer takes the new time in the same TIME cycle. The tick follows where TD0's state is known
(`State.tickAfter`). -/
def State.stepConsumers (s : State) (n : Nat) : State :=
  let s := (List.range 12).foldl (fun s p => s.gateStep p n) s
  let s := (s.restepGates false n).restepGates true n
  let s := (List.range 8).foldl (fun s m => if s.rd uTsio F.tsio_TSOUT_CFG_CLOCK m = n then s.tsEval m else s) s
  if n = 0 then activationFireStep s else s

/-- RATE of a domain, with its register; a tick that follows TD0 goes on at its new rate. -/
def State.setRate (s : State) (n : Nat) (r : Int) : State :=
  let s := if n = 0 then s.tickSettle else s
  (s.setDom n { s.dom n with rate := r }).wr uTime F.time_DOM_RATE_RATE (word32 (quot r 128)) n

/-- STATE of a domain with SYNCED; the WC at which HOLDOVER begins is kept. -/
def State.setDomState (s : State) (n st : Nat) : State :=
  let s := if st = domHoldover ∧ s.domState n ≠ domHoldover then s.setDom n { s.dom n with holdWc := s.clk.wc } else s
  let s := s.wr uTime F.time_DOM_STATUS_STATE st n
  s.wr uTime F.time_DOM_STATUS_SYNCED (b2n (s.synced n)) n

/-- HOLDOVER at the rate of the last accepted Sync, without the phase term (R174). -/
def State.enterHoldover (s : State) (n : Nat) : State :=
  (s.setRate n (s.dom n).lastRate).setDomState n domHoldover

/-- The domain's offset (units of 2^-47 ns) as DOM_OFFSET shows it. -/
def State.showOffset (s : State) (n : Nat) (o : Int) : State :=
  s.wr uTime F.time_DOM_OFFSET_NS (sat32 (quot o (2 ^ 47))) n

/-- The domain's time moved by an offset, with its consumers. -/
def State.stepBy (s : State) (n : Nat) (o : Int) : State :=
  (s.setDom n { s.dom n with time := wrapTime ((s.dom n).time + o) }).stepConsumers n

/-- REFUSED and HOLD_EXPIRED cleared: the refusal is no longer open. -/
def State.closeRefusal (s : State) (n : Nat) : State :=
  (s.wr uTime F.time_DOM_STATUS_REFUSED 0 n).wr uTime F.time_DOM_STATUS_HOLD_EXPIRED 0 n

/-! ### Ports and port state selection (R163, R435; IEEE 802.1AS-2020 10.3) -/

/-- A port takes part in a domain: PTP_EN, DOM_MASK and asCapable (R172). -/
def State.takesPart (s : State) (n p : Nat) : Bool :=
  s.flag uTime F.time_PORT_CFG_PTP_EN p && bitOf (s.rd uTime F.time_PORT_CFG_DOM_MASK p) n
    && s.flag uTime F.time_PORT_STATUS_AS_CAPABLE p

/-- The role of a port in a domain: 0 disabled, 1 master, 2 slave, 3 passive. -/
def State.role (s : State) (n p : Nat) : Nat := s.rd uTime F.time_PORT_ROLE_ROLE_STATE p / 4 ^ n % 4

def State.setRole (s : State) (n p r : Nat) : State :=
  let w := s.rd uTime F.time_PORT_ROLE_ROLE_STATE p
  s.wr uTime F.time_PORT_ROLE_ROLE_STATE (w - w / 4 ^ n % 4 * 4 ^ n + r * 4 ^ n) p

/-- The device's own systemIdentity in a domain (Table 7.3): priority1 is 255 while GM_CAPABLE is clear. -/
def State.ownSystem (s : State) (n : Nat) : Nat :=
  let p1 := if s.flag uTime F.time_DOM_CFG_GM_CAPABLE n then s.rd uTime F.time_DOM_PRIO_PRIORITY1 n else 255
  p1 * 2 ^ 104 + s.rd uTime F.time_DOM_PRIO_CLOCK_CLASS n * 2 ^ 96 + 0xFE * 2 ^ 88 + 0x436A * 2 ^ 72
    + s.rd uTime F.time_DOM_PRIO_PRIORITY2 n * 2 ^ 64 + Config.clockIdentity % 2 ^ 64

/-- A priority vector as one number: systemIdentity, stepsRemoved, source port identity. -/
def vectorOf (system steps source : Nat) : Nat := system * 2 ^ 96 + steps % 2 ^ 16 * 2 ^ 80 + source % 2 ^ 80

/-- A vector as it reaches the device: one step further. -/
def pathVector (v : Nat) : Nat := v + 2 ^ 80

/-- The vector that a port sends: the grandmaster's system and steps, with this port as the source. -/
def sendVector (gm p : Nat) : Nat := gm / 2 ^ 80 * 2 ^ 80 + (Config.clockIdentity % 2 ^ 64) * 2 ^ 16 + (p + 1)

/-- The best Announce of a domain's participating ports: its path vector with the port, and the Announce. -/
def State.bestAnnounce (s : State) (n : Nat) : Option (Nat × Announced) :=
  ((s.dom n).announced.filter (fun e => s.takesPart n e.1)).foldl (fun b e =>
    match b with
    | none => some e
    | some c => if pathVector e.2.vector * 256 + e.1 < pathVector c.2.vector * 256 + c.1 then some e else b) none

/-- The grandmaster vector of a domain as selection stands: of the slave port, else the device's own. -/
def State.gmVector (s : State) (n : Nat) : Nat :=
  let sp := s.rd uTime F.time_DOM_STATUS_SLAVE_PORT n
  match pmGet (s.dom n).announced sp with
  | some a => if sp < 12 then pathVector a.vector else vectorOf (s.ownSystem n) 0 0
  | none => vectorOf (s.ownSystem n) 0 0

/-- The slave port that selection gives: by ROLE_CFG under EXT_CFG, else the port of the best Announce where it beats the
device's own vector (BMCA). -/
def State.selectSlave (s : State) (n : Nat) : Option Nat :=
  if s.flag uTime F.time_DOM_CFG_EXT_CFG n then
    (List.range 12).find? (fun p => s.takesPart n p && s.rd uTime F.time_PORT_ROLE_ROLE_CFG p / 4 ^ n % 4 == 2)
  else
    match s.bestAnnounce n with
    | none => none
    | some e =>
      if pathVector e.2.vector < vectorOf (s.ownSystem n) 0 ((Config.clockIdentity % 2 ^ 64) * 2 ^ 16) then some e.1
      else none

/-- The role that selection gives a port. -/
def State.roleOf (s : State) (n : Nat) (slave : Option Nat) (gm p : Nat) : Nat :=
  if !s.takesPart n p then 0
  else if s.flag uTime F.time_DOM_CFG_EXT_CFG n then s.rd uTime F.time_PORT_ROLE_ROLE_CFG p / 4 ^ n % 4
  else if slave = some p then 2
  else match pmGet (s.dom n).announced p with
    | none => 1
    | some a => if sendVector gm p < a.vector then 1 else 3

/-- Port state selection of a domain (R435, Table 7.2): roles, slave port, grandmasterIdentity, and the transitions that a
won or lost slave port makes. -/
def State.selectStates (s : State) (n : Nat) : State :=
  if s.domState n = domDisabled then s
  else
    let was := s.synced n
    let sl := s.selectSlave n
    let s := s.wr uTime F.time_DOM_STATUS_SLAVE_PORT (sl.getD 15) n
    let gm := s.gmVector n
    let s := (List.range 12).foldl (fun s p => s.setRole n p (s.roleOf n sl gm p)) s
    match sl with
    | some p =>
      let s := match pmGet (s.dom n).announced p with
        | some a => s.setGm n a.gm
        | none => s
      if s.domState n = domGm then (s.setDomState n domHoldover).tickAfter n was false false else s
    | none =>
      if s.flag uTime F.time_DOM_CFG_GM_CAPABLE n then
        if s.domState n = domGm then s
        else ((s.setDomState n domGm).setGm n (Config.clockIdentity % 2 ^ 64)).tickAfter n was false false
      else if s.domState n = domLocked then (s.enterHoldover n).tickAfter n was false false
      else if s.domState n = domGm then (s.setDomState n domHoldover).tickAfter n was false false
      else s

/-- Selection for every domain. -/
def State.selectAll (s : State) : State := [0, 1, 2, 3].foldl (fun s n => s.selectStates n) s

/-! ### Message intervals (Table 7.3) -/

def noIntervals (_ : Nat) : Intervals := {}
def State.intervalsAt (s : State) (p : Nat) : Intervals := smGet noIntervals s.time.intervals p

/-- The logarithms of a port's intervals: what its partner has asked for, else LOG_SYNC, LOG_PDELAY and LOG_ANNOUNCE, of which values
outside the range act as the nearer limit. -/
def State.logSync (s : State) (p : Nat) : Int :=
  (s.intervalsAt p).sync.getD (clampInt (-7) 0 (toSigned 4 (s.rd uTime F.time_PORT_CFG_LOG_SYNC p)))
def State.logPdelay (s : State) (p : Nat) : Int :=
  (s.intervalsAt p).pdelay.getD (clampInt (-3) 3 (toSigned 4 (s.rd uTime F.time_PORT_CFG_LOG_PDELAY p)))
def State.logAnnounce (s : State) (p : Nat) : Int :=
  (s.intervalsAt p).announce.getD (clampInt (-3) 3 (toSigned 4 (s.rd uTime F.time_PORT_CFG_LOG_ANNOUNCE p)))

/-- `n` intervals of 2^log seconds in units of 2^-16 ns. -/
def intervalWc (n : Nat) (log : Int) : Nat := n * 1000000000 * 65536 * 2 ^ log.toNat / 2 ^ (-log).toNat

/-- The WC that has passed since an instant; none since one that is still to come. -/
def State.wcSince (s : State) (w : Nat) : Nat :=
  let d := (s.clk.wc + 2 ^ 80 - w) % 2 ^ 80
  if d < 2 ^ 79 then d else 0

/-! ### The queues of the time engine (R167) -/

/-- The next sequenceId of a message type, domainNumber and port. -/
def State.nextSeq (s : State) (k : PtpKind) (num p : Nat) : Nat × State :=
  let i := (ptpType k * 128 + num) * 16 + p
  let n := (smGet zero0 s.time.seqs i + 1) % 2 ^ 16
  (n, { s with time := { s.time with seqs := smSet zero0 s.time.seqs i n } })

/-- A message put in a port's transmit queue, or held for it, if the engine works and the port speaks gPTP. -/
def State.ptpQueue (s : State) (m : PtpMsg) : State :=
  if s.enabled uTime ∧ m.port < 12 ∧ s.flag uTime F.time_PORT_CFG_PTP_EN m.port then s.ptpPut m else s

/-- A Sync of a domain, or its Follow_Up, that has not left its port. -/
def State.syncUnsent (s : State) (n p : Nat) : Bool :=
  let mine (m : PtpMsg) : Bool := m.domain == n && (m.kind == .sync || m.kind == .followUp)
  (s.txQueue p).any mine || (s.txWaiting p).any mine || (s.spoutAt p).line.any (fun e => (e.msg.map mine).getD false)

/-- The first received message of a kind from a port that meets a test. -/
def State.rxFind (s : State) (p : Nat) (k : PtpKind) (t : PtpRx → Bool) : Option PtpRx :=
  s.time.rxQ.find? (fun m => m.port == p && m.kind == some k && t m)

/-- A message taken out of the receive queue. -/
def State.rxTake (s : State) (m : PtpRx) : State := { s with time := { s.time with rxQ := s.time.rxQ.erase m } }

/-- The domain with a domainNumber, if it is not DISABLED. -/
def State.domOf (s : State) (num : Nat) : Option Nat :=
  [0, 1, 2, 3].find? (fun n => s.domState n != domDisabled && s.rd uTime F.time_DOM_CFG_DOMAIN_NUMBER n == num)

/-! ### Sync processing (R173, R174) -/

/-- r − 1 with 48 fractional bits (R173): the cumulative rateRatio times the nrr of the slave port. -/
def syncRateOf (cum nrr : Int) : Int := quot ((2 ^ 48 + cum * 128) * (2 ^ 48 + nrr)) (2 ^ 48) - 2 ^ 48

/-- (mean_delay − asym) × r in units of 2^-16 ns. -/
def State.linkDelay (s : State) (p : Nat) (r : Int) : Int :=
  let d := (s.pdelayAt p).delay.getD 0 - toSigned 32 (s.rd uTime F.time_PORT_ASYM_ASYM p) * 4096
  d + quot (d * r) (2 ^ 48)

/-- refuse(o) of R174. -/
def State.refuseSync (s : State) (n : Nat) (o : Int) (wc : Nat) : State :=
  let ofs := ofSigned 64 (quot o (2 ^ 47))
  let ns := wc / 65536
  let s := s.inc uTime F.time_REC_SEQ_SEQ n
  let s := (s.wr uTime F.time_REC_OFS_HI_NS (ofs / 2 ^ 32) n).wr uTime F.time_REC_OFS_LO_NS ofs n
  let s := (s.wr uTime F.time_REC_WC_HI_NS (ns / 2 ^ 32) n).wr uTime F.time_REC_WC_LO_NS ns n
  let s := (s.wr uTime F.time_REC_GM_HI_ID (s.gmId n / 2 ^ 32) n).wr uTime F.time_REC_GM_LO_ID (s.gmId n) n
  let s := (s.wr uTime F.time_DOM_STATUS_REFUSED 1 n).wr uTime F.time_DOM_STATUS_REFUSED_STICKY 1 n
  let s := s.sat uTime F.time_REFUSALS_COUNT n
  let s := if s.domState n ≠ domFree then s.enterHoldover n else s
  s.event uTime

/-- The phase term s with 48 fractional bits: o / (4 × sync_interval), limited by MAX_SLEW ppm (R174). -/
def phaseTerm (o log : Int) (slew : Nat) : Int :=
  let m := quot (Int.ofNat slew * 2 ^ 48) 1000000
  clampInt (-m) m (quot (o * 2 ^ (1 - log).toNat) 4000000000)

/-- The guard and the servo of R174 on a processed Sync: `o` in units of 2^-47 ns, `r` as r − 1. -/
def State.guardSync (s : State) (n : Nat) (o r log : Int) (wc : Nat) : State :=
  let was := s.synced n
  if s.domState n = domFree then
    if s.flag uTime F.time_DOM_CFG_GUARD_INITIAL n then (s.refuseSync n o wc).tickAfter n was true false
    else
      let s := ((s.stepBy n o).setRate n r).setDomState n domLocked
      let s := s.setDom n { s.dom n with lastRate := r }
      (s.showOffset n o).tickAfter n was false true
  else
    let thr := Int.ofNat (clampNat 100 1000000 (s.rd uTime F.time_DOM_GUARD_JUMP_THRESH n)) * 2 ^ 47
    if o < -thr ∨ thr < o then (s.refuseSync n o wc).tickAfter n was true false
    else
      let ph := phaseTerm o log (clampNat 1 500 (s.rd uTime F.time_DOM_SERVO_MAX_SLEW n))
      let s := s.setRate n (r + ph + quot (r * ph) (2 ^ 48))
      let s := s.setDom n { s.dom n with lastRate := r }
      let s := ((s.closeRefusal n).setDomState n domLocked).showOffset n o
      s.tickAfter n was false false

/-- A Sync of domain `n` processed on its slave port: `x` is the Sync, `fu` the message that carries its origin timestamp and the
Follow_Up information TLV, its Follow_Up when it is two-step and itself when it is one-step. -/
def State.runSync (s : State) (n p : Nat) (x fu : PtpRx) : State :=
  let s := s.inc uTime F.time_SYNC_RX_COUNT n
  let tlv := fu.followUp.getD (0, [])
  let r := syncRateOf tlv.1 ((s.pdelayAt p).nrr.getD 0)
  let corr := x.correction + (if x.twoStep then fu.correction else 0) + s.linkDelay p r
  let o := Int.ofNat fu.time * 2 ^ 47 + corr * 2 ^ 31 - s.domAt n (Int.ofNat x.wc)
  let log := clampInt (-7) 0 x.log
  let s := s.setDom n { s.dom n with
    syncRate := r, logInterval := log, syncWc := s.clk.wc, up := some ⟨Int.ofNat fu.time, corr, x.wc, tlv.2⟩ }
  s.guardSync n o r log x.wc

/-- The message that completes a Sync: the Sync itself when one-step, else its Follow_Up. -/
def State.syncRest (s : State) (p : Nat) (x : PtpRx) : Option PtpRx :=
  if x.twoStep then s.rxFind p .followUp (fun f => f.num == x.num && f.source == x.source && f.seq == x.seq) else some x

/-- Messages of a Sync's domain and port that nothing can complete any more: a two-step Sync before a later one, a Follow_Up whose Sync is
not waiting. -/
def State.rxStale (s : State) (p num : Nat) : State :=
  let mine (k : PtpKind) (m : PtpRx) : Bool := m.port == p && m.kind == some k && m.num == num
  let syncs := s.time.rxQ.filter (mine .sync)
  let lost := (syncs.dropLast).filter (fun x => (s.syncRest p x).isNone) ++
    (s.time.rxQ.filter (mine .followUp)).filter (fun f => !syncs.any (fun x => x.source == f.source && x.seq == f.seq))
  { s with time := { s.time with rxQ := s.time.rxQ.filter (fun m => !lost.contains m) } }

/-- The Sync of a domain and port that is complete is taken, and processed if its port is the slave port of its domain. -/
def State.takeSync (s : State) (p num : Nat) : State :=
  let s := s.rxStale p num
  match s.rxFind p .sync (fun m => m.num == num) with
  | none => s
  | some x =>
    match s.syncRest p x with
    | none => s
    | some f =>
      let s := (s.rxTake x).rxTake f
      match s.domOf num with
      | none => s
      | some n => if s.domState n ≠ domGm ∧ s.role n p = 2 ∧ s.takesPart n p then s.runSync n p x f else s

/-- The log and port of a Sync's message, from its domain's number, its sequenceId, its origin, correction, rate and TLV. -/
def State.syncData (s : State) (n p seq : Nat) (origin corr rate : Int) (change : List Byte) : List Byte :=
  withCorrection (ptpFrame p (ptpMessage .sync 1 (s.rd uTime F.time_DOM_CFG_DOMAIN_NUMBER n) (ptpFlags false) p seq
    (ofSigned 8 (s.logSync p)) (ptpTime origin ++ followUpTlv rate change))) corr

/-- `SYNC_TRANSMIT`: a master port of a domain that has a time to send puts a Sync in its transmit queue; the engine waits while the
queue is full, and while a Sync or Follow_Up of that domain has not left (R167, R169 to R171). -/
def syncTransmitStep (n p : Nat) (s : State) : State :=
  if !(n < 4 && p < 12 && s.enabled uTime && s.role n p == 1 && s.takesPart n p) ∨ !s.txRoom p ∨ s.syncUnsent n p then s
  else
    let d := s.dom n
    let one := s.flag uTime F.time_PORT_CFG_ONE_STEP p && s.flag uTime F.time_PORT_STATUS_PARTNER_1STEP p
    let (seq, s') := s.nextSeq .sync (s.rd uTime F.time_DOM_CFG_DOMAIN_NUMBER n) p
    if s.domState n = domGm then
      s'.ptpQueue { port := p, kind := .sync, domain := n, data := s.syncData n p seq 0 0 d.rate [], oneStep := one, rate := d.rate }
    else
      match d.up with
      | none => s
      | some u =>
        let b := s.syncData n p seq u.origin u.correction d.syncRate u.change
        s'.ptpQueue { port := p, kind := .sync, domain := n, data := b, oneStep := one, upWc := some u.wc, rate := d.syncRate }

/-! ### Path delay (R172) -/

/-- The domainNumber of a port's Pdelay messages: 0 for the common service, TD0's for the instance-specific delay. -/
def State.pdelayNum (s : State) (p : Nat) : Nat :=
  if s.flag uTime F.time_PORT_CFG_CMLDS p then 0 else s.rd uTime F.time_DOM_CFG_DOMAIN_NUMBER 0

/-- majorSdoId of a port's Pdelay messages: 2 of the common service, else 1. -/
def State.pdelayMajor (s : State) (p : Nat) : Nat := if s.flag uTime F.time_PORT_CFG_CMLDS p then 2 else 1

/-- `PDELAY_REQ_SEND`: a request, whose response from now on counts. -/
def pdelayReqSendStep (p : Nat) (s : State) : State :=
  let (seq, t) := s.nextSeq .pdelayReq (s.pdelayNum p) p
  let m := ptpMessage .pdelayReq (s.pdelayMajor p) (s.pdelayNum p) (ptpFlags false) p seq (ofSigned 8 (s.logPdelay p))
    (List.replicate 20 0#8)
  if s.enabled uTime ∧ p < 12 ∧ s.txRoom p then
    (t.setPdelay p { t.pdelayAt p with sent := none, seq := seq }).ptpQueue
      { port := p, kind := .pdelayReq, domain := 0, data := ptpFrame p m }
  else s

/-- The message interval request TLV of the device, sent to a partner (Table 7.3). -/
def State.sendIntervals (s : State) (p : Nat) : State :=
  let num := s.rd uTime F.time_DOM_CFG_DOMAIN_NUMBER 0
  let (seq, t) := s.nextSeq .signaling num p
  let m := ptpMessage .signaling 1 num (ptpFlags false) p seq 0x7F (List.replicate 10 0xFF#8 ++ intervalTlv)
  t.ptpQueue { port := p, kind := .signaling, domain := 0, data := ptpFrame p m }

/-- A slave port that loses asCapable takes its LOCKED domains to HOLDOVER, whatever selection then makes of them (Table 7.2). -/
def State.slaveLost (s : State) (p : Nat) : State :=
  [0, 1, 2, 3].foldl (fun s n =>
    if s.domState n = domLocked ∧ s.rd uTime F.time_DOM_STATUS_SLAVE_PORT n = p then
      (s.enterHoldover n).tickAfter n true false false
    else s) s

/-- AS_CAPABLE of a port; a change makes port state selection run again. A port that becomes asCapable tells its partner the intervals
and the one-step reception that the device asks for (DESIGN CHOICE, log entry 96: Table 7.3 has the TLV sent and names no time). -/
def State.setAsCapable (s : State) (p : Nat) (b : Bool) : State :=
  if s.flag uTime F.time_PORT_STATUS_AS_CAPABLE p = b then s
  else
    let s := s.wr uTime F.time_PORT_STATUS_AS_CAPABLE (b2n b) p
    (if b then s.sendIntervals p else s.slaveLost p).selectAll

/-- The new measurement after a completed exchange (R172): nrr_s from the previous one, then nrr and d averaged. -/
def pdelayNext (x : PdelayState) (a : Nat) (t1 t2 t3 t4 : Int) : PdelayState :=
  let nrr := match x.prev with
    | none => x.nrr
    | some (p3, p4) =>
      let ns := quot ((t3 - p3 - (t4 - p4)) * 2 ^ 48) (t4 - p4)
      let old := x.nrr.getD 0
      some (old + quot (ns - old) (2 ^ a))
  let span := t4 - t1
  let ds := quot (span + quot (span * nrr.getD 0) (2 ^ 48) - (t3 - t2)) 2
  let d := match x.delay with
    | none => ds
    | some d => d + quot (ds - d) (2 ^ a)
  { x with prev := some (t3, t4), nrr := nrr, delay := some d, lost := 0, sent := none }

/-- A response or its second step that answers the last request of its port. -/
def State.answers (s : State) (p : Nat) (m : PtpRx) : Bool :=
  m.requester == portIdentity p && m.seq == (s.pdelayAt p).seq && (s.pdelayAt p).sent.isSome

/-- Responses of a port that answer no outstanding request leave the queue. -/
def State.rxUnasked (s : State) (p : Nat) : State :=
  { s with time := { s.time with rxQ := s.time.rxQ.filter (fun m =>
    !(m.port == p && (m.kind == some .pdelayResp || m.kind == some .pdelayRespFollowUp) && !s.answers p m)) } }

/-- A received timestamp with its correction, in units of 2^-16 ns. -/
def PtpRx.stamp (m : PtpRx) : Int := Int.ofNat m.time * 65536 + m.correction

/-- `PDELAY_EXCHANGE`: the response to the outstanding request, with its second step, completes an exchange (R172). -/
def pdelayExchangeStep (p : Nat) (s : State) : State :=
  if !(s.enabled uTime && p < 12) then s
  else
    let s := s.rxUnasked p
    match s.rxFind p .pdelayResp (fun _ => true), s.rxFind p .pdelayRespFollowUp (fun _ => true), (s.pdelayAt p).sent with
    | some r, some f, some t1 =>
      let x := pdelayNext (s.pdelayAt p) (s.rd uTime F.time_PDELAY_CFG_AVG_SHIFT p) (Int.ofNat t1) r.stamp f.stamp (Int.ofNat r.wc)
      let s := ((s.rxTake r).rxTake f).setPdelay p x
      let d := x.delay.getD 0
      let s := s.wr uTime F.time_MEAN_DELAY_DELAY (word32 (quot d 4096)) p
      let s := s.wr uTime F.time_PORT_NRR_RATE (word32 (quot (x.nrr.getD 0) 128)) p
      s.setAsCapable p (decide (d ≤ Int.ofNat (s.rd uTime F.time_PDELAY_CFG_THRESH p) * 65536) && x.nrr.isSome)
    | _, _, _ => s

/-- `PDELAY_RESP_TIMEOUT`: the response to an outstanding request is missing after the request interval. -/
def pdelayRespTimeoutStep (p : Nat) (s : State) : State :=
  let x := s.pdelayAt p
  match x.sent with
  | none => s
  | some t1 =>
    if s.enabled uTime ∧ p < 12 ∧ intervalWc 1 (s.logPdelay p) ≤ s.wcSince t1 then
      let x := { x with lost := x.lost + 1, sent := none }
      if s.rd uTime F.time_PDELAY_CFG_ALLOWED_LOST p < x.lost then
        ((s.setPdelay p { x with prev := none }).sat uTime F.time_PDELAY_LOST_COUNT p).setAsCapable p false
      else s.setPdelay p x
    else s

/-- `PDELAY_RESP_SEND`: a received Pdelay_Req is answered two-step with its receive time t2; the engine waits while the
transmit queue is full. -/
def pdelayRespSendStep (p : Nat) (s : State) : State :=
  match s.rxFind p .pdelayReq (fun _ => true) with
  | none => s
  | some m =>
    if s.enabled uTime ∧ p < 12 ∧ s.txRoom p then
      let b := ptpFrame p (ptpMessage .pdelayResp (byteAt m.data 0 / 16) m.num (ptpFlags true) p m.seq 0x7F
        (ptpTime (Int.ofNat (m.wc / 65536)) ++ beBytes 10 m.source))
      (s.rxTake m).ptpQueue { port := p, kind := .pdelayResp, domain := 0, data := withCorrection b (Int.ofNat (m.wc % 65536)) }
    else s

/-! ### Announce and Signaling -/

/-- `ANNOUNCE_RECEIVE`: port state selection takes an Announce on a port that takes part; one of this device, one that has passed
through it, and one with 255 or more steps behind it do not qualify. -/
def announceReceiveStep (p num : Nat) (s : State) : State :=
  match s.rxFind p .announce (fun m => m.num == num) with
  | none => s
  | some m =>
    if !s.enabled uTime then s
    else
      let s := s.rxTake m
      match s.domOf num with
      | none => s
      | some n =>
        if m.own ∨ 255 ≤ m.steps ∨ !s.takesPart n p then s
        else
          let e : Announced := ⟨vectorOf m.system m.steps m.source, m.system % 2 ^ 64, byteAt m.data 7, be16 m.data 44,
            byteAt m.data 63, m.path⟩
          (s.setDom n { s.dom n with announced := pmSet (s.dom n).announced p e }).selectStates n

/-- The message of an Announce after its header: the grandmaster that a domain stands for, this device's own clock with timeSource 0xA0
or the one its slave port announces, and the path to here (Table 7.3). -/
def State.announceBody (s : State) (n : Nat) : List Byte :=
  let v := s.gmVector n
  let sp := s.rd uTime F.time_DOM_STATUS_SLAVE_PORT n
  let a : Announced := match pmGet (s.dom n).announced sp with
    | some a => if sp < 12 then a else ⟨0, 0, 8, 0, 0xA0, []⟩
    | none => ⟨0, 0, 8, 0, 0xA0, []⟩
  let path := a.path ++ beBytes 8 (Config.clockIdentity % 2 ^ 64)
  List.replicate 10 0#8 ++ beBytes 2 a.utc ++ beBytes 1 0 ++ beBytes 14 (v / 2 ^ 96) ++ beBytes 2 (v / 2 ^ 80) ++
    beBytes 1 a.source ++ beBytes 2 8 ++ beBytes 2 path.length ++ path

/-- The flags of an Announce: those of the grandmaster's Announce, or ptpTimescale alone. -/
def State.announceFlags (s : State) (n : Nat) : Nat :=
  let sp := s.rd uTime F.time_DOM_STATUS_SLAVE_PORT n
  match pmGet (s.dom n).announced sp with
  | some a => if sp < 12 then a.flags else 8
  | none => 8

/-- `ANNOUNCE_TRANSMIT`: a master port of a domain announces the grandmaster it stands for. -/
def announceTransmitStep (n p : Nat) (s : State) : State :=
  if s.enabled uTime ∧ n < 4 ∧ p < 12 ∧ s.role n p = 1 ∧ s.takesPart n p ∧ s.txRoom p then
    let num := s.rd uTime F.time_DOM_CFG_DOMAIN_NUMBER n
    let (seq, t) := s.nextSeq .announce num p
    let m := ptpMessage .announce 1 num (s.announceFlags n) p seq (ofSigned 8 (s.logAnnounce p)) (s.announceBody n)
    t.ptpQueue { port := p, kind := .announce, domain := n, data := ptpFrame p m }
  else s

/-- `ANNOUNCE_RECEIPT_TIMEOUT`: what a port has announced for a domain is dropped and selection runs again. -/
def announceReceiptTimeoutStep (n p : Nat) (s : State) : State :=
  if s.enabled uTime ∧ n < 4 then
    (s.setDom n { s.dom n with announced := pmDel (s.dom n).announced p }).selectStates n
  else s

/-- A requested interval that lies in its range is honoured (Table 7.3); 126 asks for the port's own interval again; another request
changes nothing. -/
def honour (lo hi v : Int) (old : Option Int) : Option Int :=
  if v = 126 then none else if lo ≤ v ∧ v ≤ hi then some v else old

/-- `SIGNALING_RECEIVE`: a Signaling message of the link partner, of which the message interval request TLV counts. -/
def signalingReceiveStep (p : Nat) (s : State) : State :=
  match s.rxFind p .signaling (fun _ => true) with
  | none => s
  | some m =>
    if s.enabled uTime ∧ p < 12 then
      let s := s.rxTake m
      match m.request with
      | none => s
      | some (one, pd, sy, an) =>
        let s := s.wr uTime F.time_PORT_STATUS_PARTNER_1STEP (b2n one) p
        let i := s.intervalsAt p
        let i := { i with sync := honour (-7) 0 sy i.sync, pdelay := honour (-3) 3 pd i.pdelay,
                          announce := honour (-3) 3 an i.announce }
        { s with time := { s.time with intervals := smSet noIntervals s.time.intervals p i } }
    else s

/-! ### Domain states (R163, Table 7.2) and DOM_CMD (R175) -/

/-- No Sync has been processed for SYNC_TIMEOUT intervals of the last one (R174); 0 acts as 1. -/
def State.syncLate (s : State) (n : Nat) : Bool :=
  decide (intervalWc (max 1 (s.rd uTime F.time_DOM_SERVO_SYNC_TIMEOUT n)) (s.dom n).logInterval ≤ s.wcSince (s.dom n).syncWc)

/-- `SYNC_TIMEOUT` (Table 7.2). -/
def syncTimeoutStep (n : Nat) (s : State) : State :=
  if s.enabled uTime ∧ n < 4 ∧ s.domState n = domLocked ∧ s.syncLate n then (s.enterHoldover n).tickAfter n true false false else s

/-- LIMIT seconds have passed in HOLDOVER; with LIMIT 0 they never do. -/
def State.holdLate (s : State) (n : Nat) : Bool :=
  s.rd uTime F.time_DOM_HOLD_LIMIT n != 0 &&
    decide (intervalWc (s.rd uTime F.time_DOM_HOLD_LIMIT n) 0 ≤ s.wcSince (s.dom n).holdWc)

/-- `HOLD_EXPIRY` (Table 7.2). -/
def holdExpiryStep (n : Nat) (s : State) : State :=
  if s.enabled uTime ∧ n < 4 ∧ s.domState n = domHoldover ∧ s.holdLate n ∧ !s.flag uTime F.time_DOM_STATUS_HOLD_EXPIRED n then
    (s.wr uTime F.time_DOM_STATUS_HOLD_EXPIRED 1 n).event uTime
  else s

/-- A commit of DOM_CFG.EN (Table 7.2): the domain starts in FREE at time 0 and RATE 0, or stops where it is and its ports leave it. -/
def State.domEnable (s : State) (n : Nat) (en : Bool) : State :=
  let was := s.synced n
  if en then
    if s.domState n = domDisabled then ((s.setDom n {}).setRate n 0).setDomState n domFree else s
  else if s.domState n = domDisabled then s
  else
    let s := s.setDom n { s.dom n with announced := [], up := none }
    let s := (List.range 12).foldl (fun s p => s.setRole n p 0) s
    let s := s.wr uTime F.time_DOM_STATUS_SLAVE_PORT 15 n
    (s.setDomState n domDisabled).tickAfter n was false false

/-- The result of a DOM_CMD command: BUSY is clear again and STATUS valid. -/
def State.domStatus (s : State) (n st : Nat) : State :=
  (s.wr uTime F.time_DOM_CMD_STATUS st n).wr uTime F.time_DOM_CMD_BUSY 0 n

def domCmdAddr (n : Nat) : Nat := fldAddr uTime F.time_DOM_CMD n 0

/-- The recorded offset in nanoseconds. -/
def State.recOfs (s : State) (n : Nat) : Int :=
  toSigned 64 (s.rd uTime F.time_REC_OFS_HI_NS n * 2 ^ 32 + s.rd uTime F.time_REC_OFS_LO_NS n)

/-- `DOM_ACCEPT`. -/
def domAcceptStep (n seq : Nat) (s : State) : State :=
  let was := s.synced n
  let st := s.domState n
  if (st = domFree ∨ st = domHoldover) ∧ s.flag uTime F.time_DOM_STATUS_REFUSED n then
    if s.rd uTime F.time_REC_SEQ_SEQ n = seq then
      let o := s.recOfs n * 2 ^ 47
      let r := (s.dom n).syncRate
      let s := (s.stepBy n o).setRate n r
      let s := (s.setDom n { s.dom n with lastRate := r }).inc uTime F.time_STEPS_COUNT n
      let s := ((s.closeRefusal n).setDomState n domLocked).showOffset n o
      (s.domStatus n 0).tickAfter n was false true
    else s.domStatus n 1
  else s.domStatus n 2

/-- `DOM_SET`: the domain time becomes SET_HI:SET_LO nanoseconds. -/
def domSetStep (n : Nat) (s : State) : State :=
  let was := s.synced n
  let st := s.domState n
  if st = domFree ∨ st = domGm then
    let t := Int.ofNat (s.rd uTime F.time_SET_HI_NS n * 2 ^ 32 + s.rd uTime F.time_SET_LO_NS n) * 2 ^ 47
    let s := (s.setDom n { s.dom n with time := t }).stepConsumers n
    ((s.inc uTime F.time_STEPS_COUNT n).domStatus n 0).tickAfter n was false true
  else s.domStatus n 2

/-- `DOM_RESET_GUARD`: the record's content is cleared, REC_SEQ counts on, and the domain returns to FREE at its present
time and rate, whatever its state was. -/
def domResetGuardStep (n : Nat) (s : State) : State :=
  let was := s.synced n
  let s := (s.wr uTime F.time_REC_OFS_HI_NS 0 n).wr uTime F.time_REC_OFS_LO_NS 0 n
  let s := (s.wr uTime F.time_REC_WC_HI_NS 0 n).wr uTime F.time_REC_WC_LO_NS 0 n
  let s := (s.wr uTime F.time_REC_GM_HI_ID 0 n).wr uTime F.time_REC_GM_LO_ID 0 n
  let s := s.wr uTime F.time_DOM_STATUS_REFUSED 0 n
  let s := (s.setDomState n domFree).tickAfter n was false false
  s.domStatus n 0

/-- The command that a domain is BUSY with is executed: 1 ACCEPT, 2 SET, 3 RESET_GUARD; another opcode gives BAD_STATE (Table 7.6). -/
def State.runDomCmd (s : State) (n : Nat) : State :=
  match pmGet s.time.cmds n with
  | none => s
  | some (op, seq) =>
    let s := { s with time := { s.time with cmds := pmDel s.time.cmds n } }
    if op = 1 then domAcceptStep n seq s else if op = 2 then domSetStep n s else if op = 3 then domResetGuardStep n s
    else s.domStatus n 2

/-- The commands of all four domains executed. -/
def State.runDomCmds (s : State) : State := [0, 1, 2, 3].foldl (fun s n => s.runDomCmd n) s

/-- A write of DOM_CMD (R175): BUSY until the time engine executes the command, before it processes the next Sync of that domain and
before time passes (log entry 12). While BUSY the write has no effect and is an access error. -/
def State.domCommand (s : State) (n op seq master : Nat) : State :=
  if n < 4 then
    s.command uTime master (domCmdAddr n) (fun s =>
      if (pmGet s.time.cmds n).isSome then s.refuse master (domCmdAddr n)
      else { s with time := { s.time with cmds := pmSet s.time.cmds n (op, seq) } }.wr uTime F.time_DOM_CMD_BUSY 1 n)
  else s

/-- `SYNC_PROCESS`: the engine takes a Sync of a port and domainNumber, after the command that its domain is BUSY with. -/
def syncProcessStep (p num : Nat) (s : State) : State :=
  if !s.enabled uTime then s
  else
    (match s.domOf num with
     | some n => s.runDomCmd n
     | none => s).takeSync p num

/-! ### Snapshot, captures, time outputs -/

/-- One clock of a snapshot: `t` in units of 2^-16 ns. -/
def State.snapOne (s : State) (k : Nat) (t : Nat) : State :=
  let s := s.wr uTime F.time_SNAP_HI_VALUE (t / 2 ^ 48) k
  (s.wr uTime F.time_SNAP_LO_VALUE (t / 2 ^ 16) k).wr uTime F.time_SNAP_FRAC_VALUE (t % 2 ^ 16) k

/-- `SNAPSHOT_TAKE`: WC and the four domain times of one TIME cycle. -/
def snapshotTakeStep (s : State) : State :=
  [0, 1, 2, 3].foldl (fun s n => s.snapOne (n + 1) ((s.dom n).time / 2 ^ 31 % 2 ^ 80).toNat) (s.snapOne 0 s.clk.wc)

def noCaptures (_ : Nat) : List Capture := []
def State.captures (s : State) (i : Nat) : List Capture := smGet noCaptures s.time.captures i
def State.setCaptures (s : State) (i : Nat) (l : List Capture) : State :=
  let s := { s with time := { s.time with captures := smSet noCaptures s.time.captures i l } }
  s.wr uTsio F.tsio_TSIN_STATUS_LEVEL l.length i

/-- `TSIN_CAPTURE`: an edge on an enabled input, stamped to half a nanosecond; an edge less than 8 ns after the last
captured one, or at a full FIFO of 16, is lost (R177, R178). -/
def tsinCaptureStep (i : Nat) (rising : Bool) (phase : Nat) (s : State) : State :=
  let e := s.rd uTsio F.tsio_TSIN_CFG_EDGE i
  if i < 16 ∧ s.enabled uTsio ∧ s.flag uTsio F.tsio_TSIN_CFG_EN i ∧ s.timePin i ∧ bitOf e (if rising then 0 else 1) then
    let c := if s.rd uTsio F.tsio_TSIN_CFG_CLOCK i < 4 then s.rd uTsio F.tsio_TSIN_CFG_CLOCK i else 4
    let now := s.clk.wc / 32768 + phase % 4
    let close : Bool := match pmGet s.time.lastEdge i with
      | some l => decide (now < l + 16)
      | none => false
    if close ∨ 16 ≤ (s.captures i).length then s.sat uTsio F.tsio_TSIN_STATUS_LOST i
    else
      let half := ((s.clockTime c / 2 ^ 46 + Int.ofNat (phase % 4)) % 2 ^ 65).toNat
      let s := { s with time := { s.time with lastEdge := pmSet s.time.lastEdge i now } }
      s.setCaptures i (s.captures i ++ [⟨half, rising, c⟩])
  else s

/-- `TSIN_POP`: a read of TSIN_DATA_X. -/
def tsinPopStep (i : Nat) (s : State) : State :=
  if i < 16 then
    match s.captures i with
    | [] =>
      { ((s.wr uTsio F.tsio_TSIN_DATA_HI_NS 0 i).wr uTsio F.tsio_TSIN_DATA_LO_NS 0 i).wr uTsio F.tsio_TSIN_DATA_X 0 i with
        readData := 0#32 }
    | c :: t =>
      let ns := c.half / 2
      let w := 2 ^ 31 + b2n c.rising * 2 ^ 30 + c.clock * 2 ^ 27 + c.half % 2
      let s := (s.setCaptures i t).wr uTsio F.tsio_TSIN_DATA_HI_NS (ns / 2 ^ 32) i
      { (s.wr uTsio F.tsio_TSIN_DATA_LO_NS ns i).wr uTsio F.tsio_TSIN_DATA_X w i with readData := BitVec.ofNat 32 w }
  else { s with readData := 0#32 }

/-- `TSOUT_EDGE`. -/
def tsoutEdgeStep (m : Nat) (s : State) : State := if m < 8 then s.tsEval m else s

/-- A commit of EN of an output (R179): the single pulse may fire again; one whose end has passed sets MISSED and never
fires. -/
def State.tsCommitEn (s : State) (m : Nat) : State :=
  let s := { s with time := { s.time with fired := s.time.fired.filter (· != m) } }
  let s := s.wr uTsio F.tsio_TSOUT_STATUS_MISSED 0 m
  if s.flag uTsio F.tsio_TSOUT_CFG_EN m ∧ !s.flag uTsio F.tsio_TSOUT_CFG_PERIODIC m ∧
      s.tsStart m + Int.ofNat (s.rd uTsio F.tsio_WIDTH_NS m) ≤ s.tsNow m then
    let s := s.wr uTsio F.tsio_TSOUT_STATUS_MISSED 1 m
    { s with time := { s.time with fired := m :: s.time.fired } }
  else s

/-! ### The commands -/

/-- `SYNC_PROCESS`. -/
def execSyncProcess (port num : Nat) (rx : Option RxIn) (s : State) : Host.Outcome State Fault Refusal :=
  .next (syncProcessStep port num (s.arrive port rx))
/-- `SYNC_TRANSMIT`. -/
def execSyncTransmit (dom port : Nat) (s : State) : Host.Outcome State Fault Refusal := .next (syncTransmitStep dom port s)
/-- `PDELAY_REQ_SEND`. -/
def execPdelayReqSend (port : Nat) (s : State) : Host.Outcome State Fault Refusal := .next (pdelayReqSendStep port s)
/-- `PDELAY_EXCHANGE`. -/
def execPdelayExchange (port : Nat) (resp followUp : Option RxIn) (s : State) : Host.Outcome State Fault Refusal :=
  .next (pdelayExchangeStep port ((s.arrive port resp).arrive port followUp))
/-- `PDELAY_RESP_TIMEOUT`. -/
def execPdelayRespTimeout (port : Nat) (s : State) : Host.Outcome State Fault Refusal :=
  .next (pdelayRespTimeoutStep port s)
/-- `PDELAY_RESP_SEND`. -/
def execPdelayRespSend (port : Nat) (s : State) : Host.Outcome State Fault Refusal := .next (pdelayRespSendStep port s)
/-- `ANNOUNCE_RECEIVE`. -/
def execAnnounceReceive (port num : Nat) (rx : Option RxIn) (s : State) : Host.Outcome State Fault Refusal :=
  .next (announceReceiveStep port num (s.arrive port rx))
/-- `ANNOUNCE_TRANSMIT`. -/
def execAnnounceTransmit (dom port : Nat) (s : State) : Host.Outcome State Fault Refusal :=
  .next (announceTransmitStep dom port s)
/-- `ANNOUNCE_RECEIPT_TIMEOUT`. -/
def execAnnounceReceiptTimeout (dom port : Nat) (s : State) : Host.Outcome State Fault Refusal :=
  .next (announceReceiptTimeoutStep dom port s)
/-- `SIGNALING_RECEIVE`. -/
def execSignalingReceive (port : Nat) (rx : Option RxIn) (s : State) : Host.Outcome State Fault Refusal :=
  .next (signalingReceiveStep port (s.arrive port rx))
/-- `SYNC_TIMEOUT`. -/
def execSyncTimeout (dom : Nat) (s : State) : Host.Outcome State Fault Refusal := .next (syncTimeoutStep dom s)
/-- `HOLD_EXPIRY`. -/
def execHoldExpiry (dom : Nat) (s : State) : Host.Outcome State Fault Refusal := .next (holdExpiryStep dom s)
/-- `DOM_ACCEPT`. -/
def execDomAccept (dom seq master : Nat) (s : State) : Host.Outcome State Fault Refusal :=
  .next (s.domCommand dom 1 seq master)
/-- `DOM_SET`. -/
def execDomSet (dom master : Nat) (s : State) : Host.Outcome State Fault Refusal :=
  .next (s.domCommand dom 2 0 master)
/-- `DOM_RESET_GUARD`. -/
def execDomResetGuard (dom master : Nat) (s : State) : Host.Outcome State Fault Refusal :=
  .next (s.domCommand dom 3 0 master)
/-- `DOM_CMD_INVALID`: another opcode gives BAD_STATE. -/
def execDomCmdInvalid (dom master : Nat) (s : State) : Host.Outcome State Fault Refusal :=
  .next (s.domCommand dom 0 0 master)
/-- `SNAPSHOT_TAKE`. -/
def execSnapshotTake (master : Nat) (s : State) : Host.Outcome State Fault Refusal :=
  .next (s.command uTime master (fldAddr uTime F.time_SNAP_CTRL 0 0) snapshotTakeStep)
/-- `TSIN_CAPTURE`. -/
def execTsinCapture (input : Nat) (rising : Bool) (phase : Nat) (s : State) : Host.Outcome State Fault Refusal :=
  .next (tsinCaptureStep input rising phase s)
/-- `TSIN_POP`. -/
def execTsinPop (input : Nat) (s : State) : Host.Outcome State Fault Refusal := .next (tsinPopStep input s)
/-- `TSOUT_EDGE`. -/
def execTsoutEdge (output : Nat) (s : State) : Host.Outcome State Fault Refusal := .next (tsoutEdgeStep output s)

end Sys2Proof.Machine
end

