-- ==== Sys2Proof/Machine/GwBuf.lean ====
section
/-! DEFINITION. Gateway buffers and the hand-off from a controller to the infuser that owns its bus (9.1, 9.3, 9.8). -/

namespace Sys2Proof.Machine

/-- Slots of 64 data bytes that a frame occupies (R185). -/
def frameSlots (f : BusFrame) : Nat := max 1 ((f.data.length + 63) / 64)

/-- Slots that a list of frames occupies. -/
def slotsOf (l : List BusFrame) : Nat := l.foldl (fun a f => a + frameSlots f) 0

/-- The GW window that the model reads the shared block through; every instance shows the same (R229). -/
def uGwAny : UnitNo := uGw 0

def noFrames (_ : Nat) : List BusFrame := []

/-- The inbound and the outbound frame buffer of a bus (Table 9.1). -/
def State.inQ (s : State) (b : Nat) : List BusFrame := smGet noFrames s.gw.inQ b
def State.setInQ (s : State) (b : Nat) (l : List BusFrame) : State :=
  { s with gw := { s.gw with inQ := smSet noFrames s.gw.inQ b l } }
def State.outQ (s : State) (b : Nat) : List BusFrame := smGet noFrames s.gw.outQ b
def State.setOutQ (s : State) (b : Nat) (l : List BusFrame) : State :=
  { s with gw := { s.gw with outQ := smSet noFrames s.gw.outQ b l } }

/-- The logical infuser that owns a bus; 15 for none (R206). -/
def State.owner (s : State) (b : Nat) : Nat := s.rd uGwAny F.gw_BUS_OWNER_OWNER b

/-- A frame of bus `b` handed to its owner: without an owner, or at a full inbound buffer, it counts in IN_FULL; beyond
LIMIT in a tick, in ADMIT_DROP (R206, R210, R228). -/
def State.handOff (s : State) (b : Nat) (f : BusFrame) : State :=
  let u := uGwAny
  if s.owner b = 15 then s.sat u F.gw_IN_FULL b
  else
    let n := smGet zero0 s.gw.admitted b
    if s.flag u F.gw_BUS_ADMIT_EN b ∧ s.rd u F.gw_BUS_ADMIT_LIMIT b ≤ n then
      { s with gw := { s.gw with admitShed := if s.gw.admitShed.contains b then s.gw.admitShed
        else b :: s.gw.admitShed } }.sat u F.gw_ADMIT_DROP b
    else
      let s := { s with gw := { s.gw with admitted := smSet zero0 s.gw.admitted b (n + 1) } }
      let s := s.inc u F.gw_IN_FRAMES b
      if 64 < slotsOf (s.inQ b) + frameSlots f then s.sat u F.gw_IN_FULL b else s.setInQ b (s.inQ b ++ [f])

/-- A frame put into the outbound buffer of a bus: the newest is discarded when there is no room or no owner (R210). -/
def State.putOut (s : State) (b : Nat) (f : BusFrame) : State :=
  if s.owner b = 15 ∨ 64 < slotsOf (s.outQ b) + frameSlots f then s.sat uGwAny F.gw_OUT_FULL b
  else s.setOutQ b (s.outQ b ++ [f])

/-- The hand-off admission status of the buses at a boundary (R228), with the overload detector of the engine that runs a
bus's owner on a rising edge of SUSTAINED. -/
def State.busAdmitTick (s : State) (engineOf : State → Nat → Option Nat) : State :=
  let x := s.gw
  let runs := (List.range 38).map (fun b => (b, runNext (x.admitShed.contains b) (smGet zero0 x.admitRun b)))
  let s := { s with gw := { x with
    admitted := [], admitShed := [], punted := 0, admitRun := runs.filter (fun e => e.2 != 0) } }
  runs.foldl (fun s e =>
    let b := e.1
    let sus := e.2 == 16
    let was := s.flag uGwAny F.gw_BUS_ADMIT_SUSTAINED b
    let s := if was = sus then s else s.wr uGwAny F.gw_BUS_ADMIT_SUSTAINED (b2n sus) b
    let s := if sus then s.wr uGwAny F.gw_BUS_ADMIT_STICKY 1 b else s
    match engineOf s (s.owner b) with
    | none => s
    | some n => if sus ∧ !was then s.fire (uGw n) 2 { addr := b } else s) s

end Sys2Proof.Machine
end

