-- ==== Sys2Proof/Machine/EdgeCan.lean ====
section
/-! DEFINITION. CAN controllers, their bus guards and egress shapers, and the integrated transceivers (4.8, 6.4, 8.2 to 8.7,
16.5). -/

namespace Sys2Proof.Machine

/-! ### Integrated transceivers (R181 to R184, Table 8.2) -/

/-- The current state of a transceiver, by its position in Table 8.3 (C0 to C7 0 to 7, L0 to L3 8 to 11, S0 to S7 16 to
23): 0 NORMAL, 1 LISTEN, 2 STANDBY, 3 SLEEP. -/
def State.xcvr (s : State) (x : Nat) : Nat := s.rd uCosy F.cosy_XCVR_STATE x

/-- The transceiver of an integrated CAN or LIN channel can drive its bus: NORMAL, no undervoltage, no TXD time-out. -/
def State.xcvrDrives (s : State) (x : Nat) : Bool :=
  s.xcvr x == 0 && !s.flag uCosy F.cosy_XCVR_VBAT_UV x && !s.edge.txdOff.contains x

def xcvrAddr (x : Nat) : Nat := fldAddr uCosy F.cosy_XCVR x 0

/-- Positions of Table 8.3 that name a transceiver. -/
def xcvrExists (x : Nat) : Bool := decide (x < 12) || (decide (16 ≤ x) && decide (x < 24))

/-- A number added to a list, or taken from it. -/
def withNat (l : List Nat) (x : Nat) : List Nat := if l.contains x then l else x :: l
def withoutNat (l : List Nat) (x : Nat) : List Nat := l.filter (· != x)

/-- `XCVR_MODE_WRITE`: MODE requests a state and the written flags clear; in the Safe state the write is refused. -/
def xcvrModeWriteStep (x : Nat) (v : Word) (master : Nat) (s : State) : State :=
  if xcvrExists x then
    s.cosyWrite master (xcvrAddr x) (!s.safe) (fun s =>
      let s := { s with edge := { s.edge with xcvrReq := withNat s.edge.xcvrReq x } }
      let s := s.wr uCosy F.cosy_XCVR_MODE (getBits v 0 2) x
      let s := if getBits v 11 1 = 1 then s.wr uCosy F.cosy_XCVR_TXD_DOM 0 x else s
      if getBits v 10 1 = 1 then s.wr uCosy F.cosy_XCVR_BUS_DOM 0 x else s)
  else s

/-- `TXD_DOMINANT_TIMEOUT`: the transmitter turns off; an error of the transceiver detector. While the Brew die is held, TXD counts as
recessive (R181). -/
def txdDominantTimeoutStep (x : Nat) (s : State) : State :=
  if x < 12 ∧ s.xcvr x = 0 ∧ s.cosy.brewRun then
    let s := s.wr uCosy F.cosy_XCVR_TXD_DOM 1 x
    let s := { s with edge := { s.edge with txdOff := withNat s.edge.txdOff x } }
    s.check uCosy 0 true { addr := x }
  else s

/-- `TXD_RECESSIVE_RETURN`: TXD recessive for one bit turns the transmitter on again. -/
def txdRecessiveReturnStep (x : Nat) (s : State) : State :=
  { s with edge := { s.edge with txdOff := withoutNat s.edge.txdOff x } }

/-- `BUS_DOMINANT_TIMEOUT`: the receiver output is held recessive. -/
def busDominantTimeoutStep (x : Nat) (s : State) : State :=
  if x < 12 ∧ s.xcvr x ≤ 1 then
    let s := s.wr uCosy F.cosy_XCVR_BUS_DOM 1 x
    { s with edge := { s.edge with rxHeld := withNat s.edge.rxHeld x } }
  else s

/-- `BUS_RECESSIVE_RETURN`: the receiver output follows the bus again. -/
def busRecessiveReturnStep (x : Nat) (s : State) : State :=
  { s with edge := { s.edge with rxHeld := withoutNat s.edge.rxHeld x } }

/-- The undervoltage flag of every transceiver and of the power status. -/
def State.vbatUv (s : State) (b : Bool) : State :=
  let s := s.wr uCosy F.cosy_PWR_STATUS_VBAT_UV (b2n b)
  ((List.range 24).filter xcvrExists).foldl (fun s x => s.wr uCosy F.cosy_XCVR_VBAT_UV (b2n b) x) s

/-! ### CAN controllers: state (R185, R188, R190) -/

def noCan (_ : Nat) : CanState := {}
def State.canAt (s : State) (n : Nat) : CanState := smGet noCan s.edge.can n

/-- A channel's state replaced, with the fields that show its queue, its receive buffer and its transmission. -/
def State.setCan (s : State) (n : Nat) (x : CanState) : State :=
  let x := { x with credit := fit24 x.credit }
  let s := { s with edge := { s.edge with can := smSet noCan s.edge.can n x } }
  let u := uCan n
  let s := (s.wr u F.can_CAN_QUEUE_TXQ_FRAMES x.txq.length).wr u F.can_CAN_QUEUE_TXQ_SLOTS (slotsOf x.txq)
  let s := s.wr u F.can_CAN_QUEUE_RXB_SLOTS (slotsOf x.rxb)
  (s.wr u F.can_CAN_STATUS_TX_ACTIVE (b2n x.active.isSome)).wr u F.can_TX_PCS_CREDIT_CREDIT (ofSigned 32 x.credit)

/-- Table 8.5: 0 OFF, 1 INTEGRATING, 2 ERROR_ACTIVE, 3 ERROR_PASSIVE, 4 BUS_OFF, 5 RECOVERING. -/
def State.canState (s : State) (n : Nat) : Nat := s.rd (uCan n) F.can_CAN_STATUS_STATE
def State.setCanState (s : State) (n st : Nat) : State := s.wr (uCan n) F.can_CAN_STATUS_STATE st

/-- The bus of a channel is idle: a written OPMODE takes effect (Table 8.7). The model sees the bus busy while the channel's own
controller sends; a frame it receives begins and ends at one command (DESIGN CHOICE, log entry 99). -/
def State.canIdle (s : State) (n : Nat) : State :=
  let x := s.canAt n
  let m := s.rd (uCan n) F.can_CAN_CTRL_OPMODE
  if s.canState n ≠ 0 ∧ x.active.isNone ∧ m ≠ 0 ∧ x.mode ≠ m then s.setCan n { x with mode := m } else s

/-- A transceiver in another state. A controller on C0 to C7 whose transceiver leaves NORMAL does not transmit: a frame in progress is
abandoned and stays in the queue, and no counter changes (R182). -/
def State.setXcvr (s : State) (x v : Nat) : State :=
  let s := s.wr uCosy F.cosy_XCVR_STATE v x
  if x < 8 ∧ v ≠ 0 ∧ (s.canAt x).active.isSome then (s.setCan x { s.canAt x with active := none }).canIdle x else s

/-- `XCVR_MODE_CHANGE`: the state that a write of MODE requested takes effect; for a T1S PHY 1 and 2 act as 3. -/
def xcvrModeChangeStep (x : Nat) (s : State) : State :=
  if xcvrExists x ∧ !s.safe ∧ s.edge.xcvrReq.contains x then
    let m := s.rd uCosy F.cosy_XCVR_MODE x
    ({ s with edge := { s.edge with xcvrReq := withoutNat s.edge.xcvrReq x } }).setXcvr x (if 16 ≤ x ∧ m ≠ 0 then 3 else m)
  else s

/-- Error active or passive: the controller takes part on its bus. -/
def State.canOn (s : State) (n : Nat) : Bool := s.canState n == 2 || s.canState n == 3

/-- One bit-timing set meets R188: 8 CAN cycles per bit, 2 quanta in TSEG2, SJW no larger than TSEG2. A TSEG2 of 0 is one quantum, and
fails; a data-phase value above its range acts as one of the range (log entry 2). -/
def bitTimingOk (w : Word) (data : Bool) : Bool :=
  let brp := if data then min 31 (getBits w 24 8) else getBits w 24 8
  let t1 := if data then openField 1 63 (getBits w 16 8) else getBits w 16 8
  let t2 := if data ∧ getBits w 9 7 ≠ 0 then openField 1 31 (getBits w 9 7) else getBits w 9 7
  let sjw := getBits w 2 7
  decide (8 ≤ (brp + 1) * (1 + (t1 + 1) + (t2 + 1))) && decide (1 ≤ t2) && decide (sjw ≤ t2)

/-- Every bit-timing set that a channel uses meets R188. -/
def State.canTimingOk (s : State) (n : Nat) : Bool :=
  let u := uCan n
  bitTimingOk (s.word (fldAddr u F.can_CAN_NBT 0 0)) false &&
    (!s.flag u F.can_CAN_CFG_FD_EN || bitTimingOk (s.word (fldAddr u F.can_CAN_DBT 0 0)) true) &&
    (!s.flag u F.can_CAN_CFG_XL_EN || bitTimingOk (s.word (fldAddr u F.can_CAN_XBT 0 0)) true)

/-- OFF to INTEGRATING: the unit is enabled, OPMODE is not OFF and R188 is met. -/
def State.canSwitchOn (s : State) (n : Nat) : State :=
  let u := uCan n
  if s.enabled u ∧ s.canState n = 0 ∧ s.rd u F.can_CAN_CTRL_OPMODE ≠ 0 ∧ !s.flag u F.can_CAN_STATUS_CFG_ERR then
    let s := s.setCan n { s.canAt n with mode := s.rd u F.can_CAN_CTRL_OPMODE }
    ((s.wr u F.can_CAN_STATUS_TEC 0).wr u F.can_CAN_STATUS_REC 0).setCanState n 1
  else s

/-- The unit of a channel is enabled: R188 is checked, and the controller may switch on. -/
def State.canEnable (s : State) (n : Nat) : State :=
  (s.wr (uCan n) F.can_CAN_STATUS_CFG_ERR (b2n (!s.canTimingOk n))).canSwitchOn n

/-- OFF at once: a frame in progress is abandoned and the queue held. -/
def State.canSwitchOff (s : State) (n : Nat) : State := (s.setCan n { s.canAt n with active := none }).setCanState n 0

/-- Fault confinement from the counters. -/
def State.canConfine (s : State) (n : Nat) : State :=
  let u := uCan n
  if s.canOn n then
    s.setCanState n (if 127 < s.rd u F.can_CAN_STATUS_TEC ∨ 127 < s.rd u F.can_CAN_STATUS_REC then 3 else 2)
  else s

/-- A frame leaves the transmit queue. -/
def State.canDequeue (s : State) (n i : Nat) : State :=
  let x := s.canAt n
  (s.setCan n { x with txq := x.txq.eraseIdx i, active := none }).canIdle n

/-- The attempt in progress has failed: the frame stays for another attempt, or with ONE_SHOT is removed and counted (R187). -/
def State.canAttemptFailed (s : State) (n : Nat) : State :=
  match (s.canAt n).active with
  | none => s
  | some i =>
    if s.flag (uCan n) F.can_CAN_CFG_ONE_SHOT then (s.canDequeue n i).sat (uCan n) F.can_TX_ABORT
    else (s.setCan n { s.canAt n with active := none }).canIdle n

/-- TEC raised; above 255 the controller is BUS_OFF: TXD recessive, queue held, BUSOFF counts, interrupt; an attempt in progress has
failed. -/
def State.canTecUp (s : State) (n k : Nat) : State :=
  let u := uCan n
  let t := s.rd u F.can_CAN_STATUS_TEC + k
  if 255 < t then
    let s := (s.wr u F.can_CAN_STATUS_TEC 255).canAttemptFailed n
    ((s.setCanState n 4).inc u F.can_BUSOFF).event u
  else (s.wr u F.can_CAN_STATUS_TEC t).canConfine n

/-- REC raised, saturating at 255. -/
def State.canRecUp (s : State) (n k : Nat) : State :=
  let u := uCan n
  (s.wr u F.can_CAN_STATUS_REC (min 255 (s.rd u F.can_CAN_STATUS_REC + k))).canConfine n

/-- OPMODE 3: restricted operation, in which the error counters stand still (PRESUMED, ISO 11898-1, log entry 31). -/
def State.canFrozen (s : State) (n : Nat) : Bool := (s.canAt n).mode == 3

/-- A protocol error counted by kind, LEC, and in the error counters (ISO 11898-1). -/
def State.canErrorCount (s : State) (n : Nat) (e : CanErrIn) : State :=
  let u := uCan n
  let s := s.wr u F.can_CAN_STATUS_LEC e.kind
  let s := match e.kind with
    | 1 => s.sat u F.can_STUFF_ERR
    | 2 => s.sat u F.can_FORM_ERR
    | 3 => s.sat u F.can_ACK_ERR
    | 4 => s.sat u F.can_BIT_ERR
    | 5 => s.sat u F.can_BIT_ERR
    | 6 => s.sat u F.can_CRC_ERR
    | _ => (s.sat u F.can_TDC_FAIL).sat u F.can_BIT_ERR
  if s.canFrozen n then s
  else if e.transmitter then (if e.exempt then s else s.canTecUp n 8)
  else s.canRecUp n (if e.late then 8 else 1)

/-- `CAN_ERROR`. -/
def canErrorStep (n : Nat) (e : CanErrIn) (s : State) : State :=
  if n < 16 ∧ s.canOn n ∧ 1 ≤ e.kind ∧ e.kind ≤ 7 then s.canErrorCount n e else s

/-- `CAN_INTEGRATED`. -/
def canIntegratedStep (n : Nat) (s : State) : State := if n < 16 ∧ s.canState n = 1 then (s.canIdle n).setCanState n 2 else s

/-- `CAN_RECOVER`: RECOVER written, or BUSOFF_AUTO, starts recovery; in any other state than BUS_OFF it has no effect. -/
def canRecoverStep (n : Nat) (auto : Bool) (s : State) : State :=
  if n < 16 ∧ s.canState n = 4 ∧ (!auto ∨ s.flag (uCan n) F.can_CAN_CFG_BUSOFF_AUTO) then s.setCanState n 5 else s

/-- `CAN_RECOVERY_DONE`. -/
def canRecoveryDoneStep (n : Nat) (s : State) : State :=
  let u := uCan n
  if n < 16 ∧ s.canState n = 5 then
    (((s.canIdle n).wr u F.can_CAN_STATUS_TEC 0).wr u F.can_CAN_STATUS_REC 0).setCanState n 2
  else s

/-- `CAN_OPMODE`: OFF at once; another mode switches a controller on that is OFF, and takes effect on another one at the next bus
idle. -/
def canOpmodeStep (n mode : Nat) (s : State) : State :=
  if n < 16 then
    let s := s.wr (uCan n) F.can_CAN_CTRL_OPMODE mode
    if mode % 4 = 0 then s.canSwitchOff n else (s.canSwitchOn n).canIdle n
  else s

/-! ### Transmission (R182, R187, R189, R191) -/

/-- The arbitration value of a frame: identifier bits as they follow one another on the bus. -/
def frameArb (f : BusFrame) : Nat :=
  let base := f.id / 2 ^ 18 % 2 ^ 11
  if f.ide then base * 2 ^ 21 + 3 * 2 ^ 19 + f.id % 2 ^ 18 * 2 + b2n f.remote
  else base * 2 ^ 21 + b2n (f.remote && f.format == 0) * 2 ^ 20

/-- The position of the frame with the lowest arbitration value, the first of equals. -/
def lowestArb : List BusFrame → Nat → Option (Nat × Nat) → Option Nat
  | [], _, b => b.map (·.1)
  | f :: t, i, none => lowestArb t (i + 1) (some (i, frameArb f))
  | f :: t, i, some (j, a) => lowestArb t (i + 1) (if frameArb f < a then some (i, frameArb f) else some (j, a))

/-- Whether the controller of a channel can send: OPMODE NORMAL, error active or passive, its transceiver NORMAL on C0 to C7
(R182), and transmitters not stopped. -/
def State.canMaySend (s : State) (n : Nat) : Bool :=
  s.enabled (uCan n) && s.canOn n && (s.canAt n).mode == 1 &&
    (if n < 8 then s.xcvrDrives n else true)

/-- The engine-key number of a CANsec channel: c = 0 to 3 receive, 4 transmit (log entry 10). -/
def canKeyNo (n c : Nat) : Nat := 1024 + n * 8 + c

/-- Whether frames of a channel are protected on transmission (R215, R355). -/
def State.canProtects (s : State) (n : Nat) (f : BusFrame) : Bool :=
  f.format == 2 && s.flag (uCan n) F.can_CS_CFG_EN && s.flag (uCan n) F.can_CS_CFG_TX_EN

/-- The loop delay measured in a frame, if it has been, and whether TDCV + TDCO exceeds 255 in a data phase (R189). -/
def State.canTdc (s : State) (n : Nat) (f : BusFrame) : Option Nat → Bool × State
  | none => (false, s)
  | some tdcv =>
    let u := uCan n
    if f.format = 1 ∧ f.brs ∧ s.flag u F.can_CAN_TDC_TDC_FD then
      (decide (255 < tdcv + s.rd u F.can_CAN_TDC_TDCO_FD), s.wr u F.can_CAN_TDC_TDCV tdcv)
    else if f.format = 2 ∧ s.flag u F.can_CAN_TDC_TDC_XL then
      (decide (255 < tdcv + s.rd u F.can_CAN_TDC_TDCO_XL), s.wr u F.can_CAN_TDC_TDCV tdcv)
    else (false, s)

/-- A frame has been sent: counted, TEC lowered by 1, protected by CANsec with the next freshness value where it applies. A
mismatch of the two cipher instances drops it. -/
def State.canSent (s : State) (n i : Nat) (f : BusFrame) : State :=
  let u := uCan n
  let prot := s.canProtects n f
  let (forced, s) := if prot then s.cipherCheck u 1 else (false, s)
  let s := s.canDequeue n i
  if forced then s
  else
    let fv := s.rd u F.can_CS_TX_FV
    let s := if prot then s.wr u F.can_CS_TX_FV (fv + 1) else s
    let f := if prot then { f with
        sec := true, data := Config.cansec (s.flag u F.can_CS_CFG_CONF) ((pmGet s.sec.engineKeys (canKeyNo n 4)).getD 0) fv f.data } else f
    let s := s.inc u F.can_TX_FRAMES
    let t := s.rd u F.can_CAN_STATUS_TEC
    let s := if s.canFrozen n then s else (s.wr u F.can_CAN_STATUS_TEC (t - 1)).canConfine n
    { s with edge := { s.edge with busSent := s.edge.busSent ++ [(n, f)] } }

/-- The start of a transmission at bus idle: the lowest-value frame, unless its key has not been fetched (log entry 32). -/
def State.canStart (s : State) (n : Nat) : State :=
  let s := s.canIdle n
  let x := s.canAt n
  match lowestArb x.txq 0 none with
  | none => s
  | some i =>
    match x.txq[i]? with
    | none => s
    | some f =>
      if !s.canMaySend n ∨ s.txStopped ∨ (s.canProtects n f ∧ (pmGet s.sec.engineKeys (canKeyNo n 4)).isNone) then s
      else s.setCan n { x with active := some i }

/-- `CAN_FRAME_TRANSMIT`: a transmission starts with the lowest-value frame, completes, loses arbitration, or meets an
error; it cannot complete while its transceiver does not drive the bus. A frame whose loop delay is too long ends at its first
data-phase bit (R189). -/
def canFrameTransmitStep (n phase : Nat) (tdcv : Option Nat) (s : State) : State :=
  if n < 16 ∧ !(8 ≤ n ∧ s.safe) then
    let x := s.canAt n
    match x.active with
    | none => if phase = 0 then s.canStart n else s
    | some i =>
      match x.txq[i]? with
      | none => s
      | some f =>
        if phase = 2 then s.canAttemptFailed n
        else if phase = 3 ∨ (phase = 1 ∧ s.canMaySend n) then
          let (bad, s) := s.canTdc n f tdcv
          if bad then (s.canErrorCount n ⟨7, true, false, false⟩).canAttemptFailed n
          else if phase = 1 then s.canSent n i f else s.canAttemptFailed n
        else s
  else s

/-! ### Reception (R186, R190, R192, R355) -/

/-- TD0 time in nanoseconds, `age` units of 2^-16 ns ago, if TD0 is synchronised (Table 9.5). -/
def State.td0Stamp (s : State) (age : Nat) : Option Nat :=
  if s.synced 0 then some (s.domAt 0 (Int.ofNat s.clk.wc - Int.ofNat age) / 2 ^ 47 % 2 ^ 64).toNat else none

/-- CANsec on a received frame: whether it is kept, and whether it is verified. -/
def State.canSecCheck (s : State) (n : Nat) (f : BusFrame) (x : Option CanSecIn) : Bool × Bool × State :=
  let u := uCan n
  if f.format ≠ 2 ∨ !f.sec ∨ !s.flag u F.can_CS_CFG_EN then (true, false, s)
  else
    match x with
    | none => (false, false, s.sat u F.can_CANSEC_FAIL)
    | some c =>
      match [0, 1, 2, 3].find? (fun k => s.flag u F.can_CS_RX_VALID k && s.rd u F.can_CS_RX_SC_ID k == c.scId) with
      | none => (false, false, s.sat u F.can_CANSEC_FAIL)
      | some k =>
        let (forced, s) := s.cipherCheck u 1
        if forced then (false, false, s)
        else if !c.tagOk ∨ c.fv ≤ s.rd u F.can_CS_RX_FV k ∨ (pmGet s.sec.engineKeys (canKeyNo n k)).isNone then
          (false, false, s.sat u F.can_CANSEC_FAIL)
        else (true, true, s.wr u F.can_CS_RX_FV c.fv k)

/-- REC after a frame received without error: lowered by 1, or from above 127 to a value between 119 and 127 (ISO 11898-1;
which one is open, log entry 1). -/
def State.canRecDown (s : State) (n : Nat) : State :=
  let u := uCan n
  let r := s.rd u F.can_CAN_STATUS_REC
  if s.canFrozen n ∨ r = 0 then s
  else if r ≤ 127 then (s.wr u F.can_CAN_STATUS_REC (r - 1)).canConfine n
  else ((s.wr u F.can_CAN_STATUS_REC (119 + s.drawn 9)).draw).canConfine n

/-- A frame of a format the channel has enabled is received, verified, counted and put into the receive buffer of 64 slots; one without
room there is discarded and counted (R185, R186). Answers whether it is kept. -/
def State.canReceive (s : State) (n : Nat) (f : BusFrame) (sec : Option CanSecIn) (age : Nat) : Bool × State :=
  let u := uCan n
  if s.canOn n ∧ f.format < 3 ∧
      (f.format ≠ 1 ∨ s.flag u F.can_CAN_CFG_FD_EN) ∧ (f.format ≠ 2 ∨ s.flag u F.can_CAN_CFG_XL_EN) then
    let s := (s.canRecDown n).canIdle n
    if 64 < slotsOf (s.canAt n).rxb + frameSlots f then (false, s.sat u F.can_RX_OVF)
    else
      let (keep, ver, s) := s.canSecCheck n f sec
      if !keep then (false, s)
      else
        let x := s.canAt n
        let g : BusFrame := { f with cansec := ver, td0 := s.td0Stamp age }
        (true, (s.setCan n { x with rxb := x.rxb ++ [g] }).inc u F.can_RX_FRAMES)
  else (false, s)

/-- What the receive buffer holds is handed to the owner of the bus, in order. -/
def State.canPass (s : State) (n : Nat) : State :=
  let x := s.canAt n
  x.rxb.foldl (fun s f => s.handOff n f) (s.setCan n { x with rxb := [] })

/-! ### Egress shaper (R146, R160, R225) -/

/-- The signal slots that wait for a bus, in PDU index order. -/
def State.busSlots (s : State) (b : Nat) : List (Nat × BusFrame) :=
  (s.gw.slots.filter (fun e => e.2.1 == b)).map (fun e => (e.1, e.2.2))

/-- Whether the shaper of a channel has a frame to release. -/
def State.canWaiting (s : State) (n : Nat) : Bool := !(s.outQ n).isEmpty || !(s.busSlots n).isEmpty

/-- Credit does not stay above 0 without a waiting frame. -/
def State.canSettle (s : State) (n : Nat) : State :=
  let x := s.canAt n
  if !s.canWaiting n ∧ 0 < x.credit then s.setCan n { x with credit := 0 } else s

/-- The frame that the shaper takes next: the outbound buffer and the signal slots in alternation; the PDU of a slot. -/
def State.canNext (s : State) (n : Nat) : Option (Option Nat × BusFrame) :=
  let sl := (s.busSlots n).head?.map (fun e => (some e.1, e.2))
  let fr := (s.outQ n).head?.map (fun f => ((none : Option Nat), f))
  if (s.canAt n).lastSig then fr.or sl else sl.or fr

/-- `CAN_SHAPER_RELEASE`: one frame to the transmit queue (16 frames in 128 slots), if credit permits and there is room. -/
def canShaperReleaseStep (n : Nat) (s : State) : State :=
  let u := uCan n
  if n < 16 ∧ s.enabled u then
    let s := s.canSettle n
    match s.canNext n with
    | none => s
    | some (pdu, f) =>
      let x := s.canAt n
      let en := s.flag u F.can_TX_PCS_CFG_EN
      if en ∧ x.credit < 0 then
        if x.held then s else (s.setCan n { x with held := true }).inc u F.can_TX_PCS_HELD
      else if 16 ≤ x.txq.length ∨ 128 < slotsOf x.txq + frameSlots f then s
      else
        let s := match pdu with
          | some p => { s with gw := { s.gw with slots := pmDel s.gw.slots p } }
          | none => s.setOutQ n (s.outQ n).tail
        let s := s.inc uGwAny F.gw_OUT_FRAMES n
        (s.setCan n { x with txq := x.txq ++ [f], credit := if en then x.credit - 16 else x.credit,
                             lastSig := pdu.isSome, held := false }).canSettle n
  else s

/-- A boundary at a CAN unit: the shaper's credit after the commit, and the guard's allowance (R107, R146). -/
def State.canTick (s : State) (n : Nat) : State :=
  let u := uCan n
  let x := s.canAt n
  let c := if s.flag u F.can_TX_PCS_CFG_EN then
      pcsNext (s.canWaiting n) (s.rd u F.can_TX_PCS_CFG_RATE) (s.rd u F.can_TX_PCS_MAX_CREDIT) x.credit
    else x.credit
  s.setCan n { x with credit := c, guardUsed := 0 }

/-! ### Bus guard (R105 to R108, R440) -/

/-- Whether the guard of a channel can drive its bus (R440). -/
def State.guardDrives (s : State) (n : Nat) : Bool :=
  !s.safe && (if n < 8 then s.xcvr n == 0 else s.canState n != 0 && s.canState n != 4)

/-- The guard list of a channel as it stands, entry by entry as far as entries hold anything. -/
def State.guardList (s : State) (n : Nat) : List (Nat × Word) :=
  let b := fldAddr (uCan n) F.can_GUARD_LIST_VALID 0 0
  s.regs.filter (fun e => decide (b ≤ e.1) && decide (e.1 < b + 0x400))

/-- The guard list as committed at an instant of WC: what the oldest commit after it has replaced, else the list that stands (R106). -/
def State.guardListAt (s : State) (n wc : Nat) : List (Nat × Word) :=
  match ((s.canAt n).guardOld.filter (fun e => decide (wc < e.1))).getLast? with
  | some e => e.2
  | none => s.guardList n

/-- Whether a valid entry of a guard list matches: IDE 0 entries on the base identifier, IDE 1 entries on all 29 bits (R105). -/
def guardHit (l : List (Nat × Word)) (mask id : Nat) (full : Bool) : Bool :=
  let mask := mask &&& (if full then 2 ^ 29 - 1 else 0x1FFC0000)
  l.any (fun e => getBits e.2 31 1 == 1 && (getBits e.2 30 1 == 1) == full && (getBits e.2 0 29 &&& mask) == (id &&& mask))

/-- `GUARD_MATCH`: the decision after the last base-ID bit, or after the last bit of the extension, by the list as committed at the
frame's start, `age` units of 2^-16 ns ago; a frame of the channel's own controller is left alone. -/
def guardMatchStep (n id : Nat) (full own : Bool) (age : Nat) (s : State) : State :=
  let u := uCan n
  if n < 16 ∧ s.enabled u ∧ s.flag u F.can_GUARD_CTRL_EN ∧ !own ∧ s.guardDrives n ∧
      guardHit (s.guardListAt n (s.clk.wc - age)) (s.rd u F.can_GUARD_MASK_MASK) id full then
    let x := s.canAt n
    if max 1 (s.rd u F.can_GUARD_CTRL_MAX_PER_TICK) ≤ x.guardUsed then s.sat u F.can_GUARD_CAPPED
    else (s.inc u F.can_GUARD_HITS).setCan n { x with guardUsed := x.guardUsed + 1, guardFlag := true }
  else s

/-- `GUARD_FLAG_END`: six dominant bits were driven and seen; the drive is released. -/
def guardFlagEndStep (n : Nat) (s : State) : State :=
  if n < 16 ∧ (s.canAt n).guardFlag then
    (s.setCan n { s.canAt n with guardFlag := false }).check (uCan n) 0 false
  else s

/-- `GUARD_DRIVE_FAULT`: RXD recessive during the flag: the guard stops driving and reports (R108). -/
def guardDriveFaultStep (n : Nat) (s : State) : State :=
  if n < 16 ∧ (s.canAt n).guardFlag then
    (s.setCan n { s.canAt n with guardFlag := false }).check (uCan n) 0 true
  else s

/-! ### The commands -/

/-- `XCVR_MODE_CHANGE`. -/
def execXcvrModeChange (xcvr : Nat) (s : State) : Host.Outcome State Fault Refusal := .next (xcvrModeChangeStep xcvr s)
/-- `TXD_DOMINANT_TIMEOUT`. -/
def execTxdDominantTimeout (xcvr : Nat) (s : State) : Host.Outcome State Fault Refusal :=
  .next (txdDominantTimeoutStep xcvr s)
/-- `TXD_RECESSIVE_RETURN`. -/
def execTxdRecessiveReturn (xcvr : Nat) (s : State) : Host.Outcome State Fault Refusal :=
  .next (txdRecessiveReturnStep xcvr s)
/-- `BUS_DOMINANT_TIMEOUT`. -/
def execBusDominantTimeout (xcvr : Nat) (s : State) : Host.Outcome State Fault Refusal :=
  .next (busDominantTimeoutStep xcvr s)
/-- `BUS_RECESSIVE_RETURN`. -/
def execBusRecessiveReturn (xcvr : Nat) (s : State) : Host.Outcome State Fault Refusal :=
  .next (busRecessiveReturnStep xcvr s)
/-- `VBAT_UNDERVOLTAGE`. -/
def execVbatUndervoltage (s : State) : Host.Outcome State Fault Refusal := .next (s.vbatUv true)
/-- `VBAT_UV_RECOVERY`. -/
def execVbatUvRecovery (s : State) : Host.Outcome State Fault Refusal := .next (s.vbatUv false)
/-- `CAN_FRAME_TRANSMIT`. -/
def execCanFrameTransmit (ch phase : Nat) (tdcv : Option Nat) (s : State) : Host.Outcome State Fault Refusal :=
  .next (canFrameTransmitStep ch phase tdcv s)
/-- `CAN_ERROR`. -/
def execCanError (ch : Nat) (err : CanErrIn) (s : State) : Host.Outcome State Fault Refusal :=
  .next (canErrorStep ch err s)
/-- `CAN_INTEGRATED`. -/
def execCanIntegrated (ch : Nat) (s : State) : Host.Outcome State Fault Refusal := .next (canIntegratedStep ch s)
/-- `CAN_RECOVER`: written by a master, or started by BUSOFF_AUTO. -/
def execCanRecover (ch : Nat) (master : Option Nat) (s : State) : Host.Outcome State Fault Refusal :=
  match master with
  | none => .next (canRecoverStep ch true s)
  | some m => .next (s.command (uCan ch) m (fldAddr (uCan ch) F.can_CAN_CTRL 0 0) (canRecoverStep ch false))
/-- `CAN_RECOVERY_DONE`. -/
def execCanRecoveryDone (ch : Nat) (s : State) : Host.Outcome State Fault Refusal := .next (canRecoveryDoneStep ch s)
/-- `CAN_OPMODE`. -/
def execCanOpmode (ch mode master : Nat) (s : State) : Host.Outcome State Fault Refusal :=
  .next (s.command (uCan ch) master (fldAddr (uCan ch) F.can_CAN_CTRL 0 0) (canOpmodeStep ch mode))
/-- `CAN_SHAPER_RELEASE`. -/
def execCanShaperRelease (ch : Nat) (s : State) : Host.Outcome State Fault Refusal := .next (canShaperReleaseStep ch s)
/-- `GUARD_MATCH`. -/
def execGuardMatch (ch id : Nat) (seen : GuardIn) (own : Bool) (s : State) : Host.Outcome State Fault Refusal :=
  .next (guardMatchStep ch id seen.full own seen.age s)
/-- `GUARD_FLAG_END`. -/
def execGuardFlagEnd (ch : Nat) (s : State) : Host.Outcome State Fault Refusal := .next (guardFlagEndStep ch s)
/-- `GUARD_DRIVE_FAULT`. -/
def execGuardDriveFault (ch : Nat) (s : State) : Host.Outcome State Fault Refusal := .next (guardDriveFaultStep ch s)

end Sys2Proof.Machine
end

