-- ==== Sys2Proof/Machine/EdgeBus.lean ====
section
/-! DEFINITION. LIN, SENT, sensor SPI, FlexRay and 10BASE-T1S controllers (8.8 to 8.11). -/

namespace Sys2Proof.Machine

/-! ### LIN (R182, R194 to R196) -/

def noLin (_ : Nat) : LinState := {}
def State.linAt (s : State) (n : Nat) : LinState := smGet noLin s.edge.lin n
def State.setLin (s : State) (n : Nat) (x : LinState) : State :=
  { s with edge := { s.edge with lin := smSet noLin s.edge.lin n x } }

/-- Channels L0 to L3 hold their transmitter while their transceiver is not NORMAL (R182). -/
def State.linHold (s : State) (n : Nat) : Bool := n < 4 && s.xcvr (8 + n) != 0

/-- The transmitter of a LIN channel can drive its bus. -/
def State.linDrives (s : State) (n : Nat) : Bool := n ≥ 4 || s.xcvrDrives (8 + n)

/-- EN of a channel and of its unit. -/
def State.linOn (s : State) (n : Nat) : Bool := s.enabled uLin && s.flag uLin F.lin_LIN_CFG_EN n

/-- STATE of a channel brought up to date: off, running, or stopped by the Safe state, which ends its slot. -/
def State.linSync (s : State) (n : Nat) : State :=
  if !s.linOn n then (s.setLin n { s.linAt n with slot := none, next := 0 }).wr uLin F.lin_LIN_STATUS_STATE 0 n
  else if s.safe then (s.setLin n { s.linAt n with slot := none, next := 0 }).wr uLin F.lin_LIN_STATUS_STATE 2 n
  else s.wr uLin F.lin_LIN_STATUS_STATE 1 n

/-- A schedule entry of table `t`, position `e`. -/
def State.linEntry (s : State) (n t e : Nat) : Word := s.word (fldAddr uLin F.lin_SCHED_ENTRY n (32 * t + e))

/-- TYPE of an entry (4 to 7 act as 0), and its identifier: fixed for TYPE 2 and 3. -/
def linType (w : Word) : Nat := if getBits w 28 3 < 4 then getBits w 28 3 else 0
def linId (w : Word) : Nat := if linType w = 2 then 0x3C else if linType w = 3 then 0x3D else getBits w 16 6

/-- The slot that an entry makes. -/
def State.linSlotOf (s : State) (n : Nat) (w : Word) : LinSlot :=
  { id := linId w, type := linType w, pub := getBits w 7 1 == 1, len := getBits w 0 3 + 1,
    resp := if getBits w 7 1 = 1 then pmGet (s.linAt n).resp (linId w) else none }

/-- The next valid entry of a table from position `e` on, wrapping after entry 31. -/
def State.linNext (s : State) (n t e : Nat) : Option Nat :=
  ((List.range 32).map (fun i => (e + i) % 32)).find? (fun i => getBits (s.linEntry n t i) 31 1 == 1)

/-- `LIN_SLOT_START`: a running master starts the slot of the next valid entry with its header; a requested table takes over
first (R194). -/
def linSlotStartStep (n : Nat) (s : State) : State :=
  if n < 8 ∧ s.linOn n ∧ s.rd uLin F.lin_LIN_CFG_ROLE n = 0 ∧ !s.txStopped ∧ s.linDrives n ∧ !(s.linAt n).stopped then
    let req := s.rd uLin F.lin_LIN_SCHED_REQ n
    let act := s.rd uLin F.lin_LIN_SCHED_ACTIVE n
    let s := s.wr uLin F.lin_LIN_SCHED_ACTIVE req n
    match s.linNext n req (if req = act then (s.linAt n).next else 0) with
    | none => s.setLin n { s.linAt n with slot := none }
    | some e =>
      let s := s.setLin n { s.linAt n with next := (e + 1) % 32, slot := some (s.linSlotOf n (s.linEntry n req e)) }
      (s.wr uLin F.lin_LIN_STATUS_ENTRY e n).inc uLin F.lin_HEADERS n
  else s

/-- BAUD of a channel; values outside 1,000 to 20,000 act as the nearer limit. -/
def State.linBaud (s : State) (n : Nat) : Nat := clampNat 1000 20000 (s.rd uLin F.lin_LIN_CFG_BAUD n)

/-- A valid header: the slot of its entry `hit` opens, or none does. -/
def State.linOpenSlot (s : State) (n : Nat) (hit : Option Nat) : State :=
  match hit with
  | none => s.setLin n { s.linAt n with slot := none }
  | some e =>
    let sl := s.linSlotOf n (s.linEntry n 0 e)
    let sl := if s.safe ∨ !s.linDrives n ∨ s.txStopped then { sl with resp := none } else sl
    (s.setLin n { s.linAt n with slot := some sl }).wr uLin F.lin_LIN_STATUS_ENTRY e n

/-- The entry of table 0 for an identifier. -/
def State.linFind (s : State) (n id : Nat) : Option Nat :=
  (List.range 32).find? (fun e => getBits (s.linEntry n 0 e) 31 1 == 1 && linId (s.linEntry n 0 e) == id)

/-- `LIN_HEADER_RECEIVE`: a slave has measured the sync field; within 15 % of BAUD it answers or listens as table 0 lists
(R195). -/
def linHeaderReceiveStep (n id baud : Nat) (s : State) : State :=
  if n < 8 ∧ s.linOn n ∧ s.rd uLin F.lin_LIN_CFG_ROLE n = 1 then
    let b := s.linBaud n
    if 115 * b < 100 * baud ∨ 100 * baud < 85 * b then
      (s.sat uLin F.lin_SYNC_ERR n).wr uLin F.lin_LIN_STATUS_LAST_ERR 4 n
    else (s.inc uLin F.lin_HEADERS n).linOpenSlot n (s.linFind n id)
  else s

/-- The LIN checksum of bytes: the inverted sum with carries added back (PRESUMED, ISO 17987-3, log entry 33). -/
def linSum (l : List Nat) : Nat := 255 - l.foldl (fun a b => let t := a + b; if 256 ≤ t then t - 255 else t) 0

/-- The protected identifier: parity bits P0 and P1 above the six identifier bits (PRESUMED, ISO 17987-3, log entry 33). -/
def linPid (id : Nat) : Nat :=
  let b (i : Nat) : Nat := id / 2 ^ i % 2
  id + (b 0 + b 1 + b 2 + b 4) % 2 * 64 + (1 - (b 1 + b 3 + b 4 + b 5) % 2) * 128

/-- The checksum a channel expects: classic for identifiers 60 to 63, else as ENHANCED selects. -/
def State.linChecksum (s : State) (n id : Nat) (data : List Byte) : Nat :=
  let d := data.map (·.toNat)
  if id < 60 ∧ s.flag uLin F.lin_LIN_CFG_ENHANCED n then linSum (linPid id :: d) else linSum d

/-- `LIN_RESPONSE_COMPLETE`: the response of the slot in progress ends: sent with or without a read-back mismatch, or
received, checked and handed to the owner; a collision in an event-triggered slot is counted and reported (R195). A response that the
hold of the transceiver stops ends uncounted (R182). -/
def linResponseCompleteStep (n : Nat) (data : List Byte) (chk : Nat) (bitErr collision : Bool) (age : Nat) (s : State) :
    State :=
  match (s.linAt n).slot with
  | none => s
  | some sl =>
    if !(n < 8) ∨ !s.linOn n then s
    else
      let done (s : State) : State := s.setLin n { s.linAt n with slot := none }
      let err (s : State) (f : Fld) (e : Nat) : State := ((done s).sat uLin f n).wr uLin F.lin_LIN_STATUS_LAST_ERR e n
      if collision ∧ sl.type = 1 then
        let s := err s F.lin_ET_COLL 5
        { s with gw := { s.gw with collisions := s.gw.collisions ++ [16 + n] } }
      else if sl.pub then
        match sl.resp with
        | none => s
        | some d =>
          if s.linHold n ∨ s.safe then done s
          else if bitErr ∨ !s.linDrives n then err s F.lin_BIT_ERR 3
          else
            let s := (done s).inc uLin F.lin_RESP_OK n
            { s with edge := { s.edge with
              busSent := s.edge.busSent ++ [(16 + n, { format := 3, id := sl.id * 2 ^ 18, data := d })] } }
      else if data.length ≠ sl.len then s
      else if chk ≠ s.linChecksum n sl.id data then err s F.lin_CHK_ERR 2
      else
        ((done s).inc uLin F.lin_RESP_OK n).handOff (16 + n)
          { format := 3, id := sl.id * 2 ^ 18, data := data, td0 := s.td0Stamp age }

/-- `LIN_RESPONSE_TIMEOUT`: the response is not complete within 1.4 times its nominal length (R195). -/
def linResponseTimeoutStep (n : Nat) (s : State) : State :=
  match (s.linAt n).slot with
  | none => s
  | some sl =>
    if n < 8 ∧ s.linOn n ∧ sl.pub ∧ (s.linHold n ∨ s.safe) then s.setLin n { s.linAt n with slot := none }
    else if n < 8 ∧ s.linOn n then
      ((s.setLin n { s.linAt n with slot := none }).sat uLin F.lin_NO_RESP n).wr uLin F.lin_LIN_STATUS_LAST_ERR 1 n
    else s

/-- `LIN_GO_TO_SLEEP`: a master sends the go-to-sleep command (a master request frame of 0x00 and seven 0xFF) at the end of
its slot and stops its schedule, once NETM is Committed (R235). -/
def linGoToSleepStep (n : Nat) (s : State) : State :=
  if n < 8 ∧ s.linOn n ∧ s.rd uLin F.lin_LIN_CFG_ROLE n = 0 ∧ s.linDrives n ∧ !s.txStopped ∧
      s.rd uNetm F.netm_NETM_STATUS_PHASE = 3 ∧ !(s.linAt n).stopped then
    let s := (s.setLin n { s.linAt n with slot := none, stopped := true }).inc uLin F.lin_HEADERS n
    { s with edge := { s.edge with busSent := s.edge.busSent ++
      [(16 + n, { format := 3, id := 0x3C * 2 ^ 18, data := 0#8 :: List.replicate 7 0xFF#8 })] } }
  else s

/-! ### SENT (R197) -/

def noSent (_ : Nat) : SentState := {}
def State.sentAt (s : State) (n : Nat) : SentState := smGet noSent s.edge.sent n
def State.setSent (s : State) (n : Nat) (x : SentState) : State :=
  { s with edge := { s.edge with sent := smSet noSent s.edge.sent n x } }

/-- A length in measured ticks (sync/56), to the nearest. -/
def sentTicks (sync len : Nat) : Nat := if sync = 0 then 0 else (2 * 56 * len + sync) / (2 * sync)

/-- One step of the four-bit SENT checksum (x^4 + x^3 + x^2 + 1; PRESUMED, SAE J2716, log entry 33). -/
def crc4Step (c : Nat) : Nat := [0, 13, 7, 10, 14, 3, 9, 4, 1, 12, 6, 11, 15, 2, 8, 5].getD (c % 16) 0

/-- The checksum over nibbles with seed 5; the recommended form appends a zero nibble. -/
def crc4 (recommended : Bool) (l : List Nat) : Nat :=
  let c := l.foldl (fun c n => crc4Step c ^^^ (n % 16)) 5
  if recommended then crc4Step c else c

/-- The six-bit checksum of an enhanced serial message (x^6 + x^4 + x^3 + 1, seed 0x15; PRESUMED, log entry 33), over bits,
most significant first, with six zero bits appended. -/
def crc6 (bits : List Bool) : Nat :=
  (bits ++ List.replicate 6 false).foldl (fun c b =>
    let t := c * 2 + b2n b
    if 64 ≤ t then (t - 64) ^^^ 0x19 else t) 0x15

/-- Bits as a number, first bit most significant. -/
def bitsNat (l : List Bool) : Nat := l.foldl (fun a b => 2 * a + b2n b) 0

/-- A short serial message of 16 frames: identifier, data, and whether its checksum holds. -/
def slowShort (crcMode : Bool) (h : List (Bool × Bool)) : Option (Nat × Nat × Bool) :=
  if h.length = 16 ∧ (h.map (·.1)) = true :: List.replicate 15 false then
    let d := h.map (·.2)
    let id := bitsNat (d.take 4)
    let data := bitsNat ((d.drop 4).take 8)
    some (id, data, crc4 crcMode [id, data / 16, data % 16] == bitsNat (d.drop 12))
  else none

/-- An enhanced serial message of 18 frames: identifier, data, and whether its checksum holds. Status bit 3 of frames 1 to 6
is 1 and of frames 7, 13 and 18 is 0; frame 8 gives the configuration. -/
def slowEnhanced (h : List (Bool × Bool)) : Option (Nat × Nat × Bool) :=
  let s3 := h.map (·.1)
  let s2 := h.map (·.2)
  let at3 (i : Nat) : Bool := s3.getD i false
  if h.length = 18 ∧ s3.take 6 = List.replicate 6 true ∧ !at3 6 ∧ !at3 12 ∧ !at3 17 then
    let crc := bitsNat (s2.take 6)
    let d12 := bitsNat (s2.drop 6)
    let a := bitsNat ((s3.drop 8).take 4)
    let b := bitsNat ((s3.drop 13).take 4)
    let msg := ((h.drop 6).map (fun e => [e.2, e.1])).flatten
    let ok := crc6 msg == crc
    if at3 7 then some (a, b * 2 ^ 12 + d12, ok) else some (a * 16 + b, d12, ok)
  else none

/-- A SENT channel that becomes enabled: nothing has been accepted since. -/
def State.sentStart (s : State) (n : Nat) : State := (s.setSent n {}).wr uSent F.sent_SENT_SLOW_VALID 0 n

/-- The slow channel after an accepted fast message: a complete message with a good checksum replaces SENT_SLOW and goes to
the owner with the time of that message; one with a bad checksum is counted. -/
def State.sentSlow (s : State) (n : Nat) (status : Nat) (td0 : Option Nat) : State :=
  let u := uSent
  let mode := s.rd u F.sent_SENT_CFG_SLOW n
  if mode = 0 then s
  else
    let x := s.sentAt n
    let len := if mode = 1 then 16 else 18
    let h := x.slow ++ [(bitOf status 3, bitOf status 2)]
    let h := h.drop (h.length - len)
    let r := if mode = 1 then slowShort (s.flag u F.sent_SENT_CFG_CRC_MODE n) h else slowEnhanced h
    match r with
    | none => s.setSent n { x with slow := h }
    | some (id, data, ok) =>
      let s := s.setSent n { x with slow := [] }
      if !ok then (s.sat u F.sent_SENT_ERR n 4).wr u F.sent_SENT_STATUS_LAST_ERR 5 n
      else
        let s := (s.wr u F.sent_SENT_SLOW_VALID 1 n).wr u F.sent_SENT_SLOW_ENHANCED (b2n (mode != 1)) n
        let s := (s.wr u F.sent_SENT_SLOW_ID id n).wr u F.sent_SENT_SLOW_DATA data n
        s.handOff (24 + n)
          { format := 3, id := 2 ^ 18, data := beBytes 4 (s.word (fldAddr u F.sent_SENT_SLOW n 0)).toNat, td0 := td0 }

/-- A rejected SENT message: its first failing check is counted and shown; the slow message being assembled is lost. -/
def State.sentReject (s : State) (n k : Nat) : State :=
  let s := s.setSent n { s.sentAt n with slow := [] }
  (s.sat uSent F.sent_SENT_ERR n k).wr uSent F.sent_SENT_STATUS_LAST_ERR (k + 1) n

/-- `SENT_MESSAGE`. -/
def sentMessageStep (n : Nat) (m : SentIn) (s : State) : State :=
  let u := uSent
  if n < 8 ∧ s.enabled u ∧ s.flag u F.sent_SENT_CFG_EN n then
    let nominal := 56 * 16 * clampNat 120 3600 (s.rd u F.sent_SENT_CFG_TICK n)
    let far (a b lim : Nat) : Bool := decide (lim < (a - b) + (b - a))
    let nn := s.rd u F.sent_SENT_CFG_NIBBLES n
    let cnt := if 1 ≤ nn ∧ nn ≤ 6 then nn else 6
    let bad (v : Nat) : Bool := decide (v < 12) || decide (27 < v)
    let st := sentTicks m.sync m.status
    let ns := m.nibbles.map (sentTicks m.sync)
    let cr := sentTicks m.sync m.crc
    let syncBad := far (5 * m.sync) (5 * nominal) nominal || (match (s.sentAt n).lastSync with
      | some p => far (64 * m.sync) (64 * p) p
      | none => false)
    if syncBad then s.sentReject n 0
    else if ns.length ≠ cnt ∨ bad st ∨ bad cr ∨ ns.any bad then s.sentReject n 1
    else
      let vals := ns.map (· - 12)
      if crc4 (s.flag u F.sent_SENT_CFG_CRC_MODE n) vals ≠ cr - 12 then s.sentReject n 2
      else if s.flag u F.sent_SENT_CFG_PAUSE n ∧
          (sentTicks m.sync m.pause < 12 ∨ 768 < sentTicks m.sync m.pause) then s.sentReject n 3
      else
        let data := (List.range 6).foldl (fun a i => a * 16 + vals.getD i 0) 0
        let s := s.setSent n { s.sentAt n with lastSync := some m.sync }
        let s := (s.wr u F.sent_SENT_FAST_STAT (st - 12) n).wr u F.sent_SENT_FAST_DATA data n
        let s := (s.wr u F.sent_SENT_FAST_TS_NS m.wcNs n).wr u F.sent_SENT_STATUS_MEAS_TICK (m.sync / 56) n
        let td0 := s.td0Stamp (s.clk.wc - m.wcNs * 65536)
        let s := (s.inc u F.sent_MSG_OK n).handOff (24 + n)
          { format := 3, data := beBytes 4 (s.word (fldAddr u F.sent_SENT_FAST n 0)).toNat, td0 := td0 }
        s.sentSlow n (st - 12) td0
  else s

/-- `QSPI_TRANSFER`: one word transfer of a sensor SPI master; the word received goes back to the owner. -/
def qspiTransferStep (q rx : Nat) (s : State) : State :=
  let u := uSent
  if q < 4 ∧ s.enabled u ∧ s.flag u F.sent_QSPI_CFG_EN q ∧ !s.safe then
    let bits := max 7 (s.rd u F.sent_QSPI_CFG_WORD q) + 1
    let s := s.inc u F.sent_QSPI_COUNT q
    { s with edge := { s.edge with spi := pmSet s.edge.spi q (rx % 2 ^ bits) } }
  else s

/-! ### FlexRay (R199 to R201) -/

def State.poc (s : State) : Nat := s.rd uFlx F.flx_FLX_STATUS_POC_STATE

/-- A POC command that the present state accepts leads to its next state; one that it does not accept has no effect and sets
CMD_ERR (R200; the accepting states are PRESUMED from ISO 17458-2, log entry 34). -/
def State.pocCommand (s : State) (accepts : List Nat) (next : Option Nat) : State :=
  if s.enabled uFlx ∧ accepts.contains s.poc then
    let s := s.wr uFlx F.flx_FLX_STATUS_CMD_ERR 0
    match next with
    | some p => s.wr uFlx F.flx_FLX_STATUS_POC_STATE p
    | none => s
  else s.wr uFlx F.flx_FLX_STATUS_CMD_ERR 1

def flxCtrlAddr : Nat := fldAddr uFlx F.flx_FLX_CTRL 0 0

/-- Whether a message buffer matches a slot and cycle on a channel (0 A, 1 B): VALID, SLOT, CH, BASE and REP (7 acts as 6). -/
def State.mbMatches (s : State) (b slot cycle ch : Nat) (tx : Bool) : Bool :=
  let u := uFlx
  let r := 2 ^ min 6 (s.rd u F.flx_MB_HDR_REP b)
  s.flag u F.flx_MB_HDR_VALID b && s.flag u F.flx_MB_HDR_TX b == tx && s.rd u F.flx_MB_HDR_SLOT b == slot &&
    bitOf (s.rd u F.flx_MB_HDR_CH b) ch && cycle % r == s.rd u F.flx_MB_HDR_BASE b % r

/-- The bytes of a message buffer: PAYLOAD words of two bytes; byte k lies in bits [8(k mod 4) + 7:8(k mod 4)] of data word
k / 4 (PRESUMED, log entry 35). -/
def State.mbBytes (s : State) (b : Nat) : List Byte :=
  (List.range (2 * s.rd uFlx F.flx_MB_HDR_PAYLOAD b)).map (fun k =>
    BitVec.ofNat 8 (getBits (s.word (fldAddr uFlx F.flx_MB_DATA (64 * b + k / 4) 0)) (8 * (k % 4)) 8))

/-- A message buffer written whole (R199): as many bytes as its payload, zeros where there are too few (DESIGN CHOICE, log entry 101). -/
def State.putMb (s : State) (b : Nat) (data : List Byte) : State :=
  let n := 2 * s.rd uFlx F.flx_MB_HDR_PAYLOAD b
  let d := data.take n ++ List.replicate (n - data.length) 0#8
  (List.range ((d.length + 3) / 4)).foldl (fun s w =>
    let v := (List.range 4).foldl (fun a j => a + (d.getD (4 * w + j) 0#8).toNat * 2 ^ (8 * j)) 0
    s.setWord (fldAddr uFlx F.flx_MB_DATA (64 * b + w) 0) (BitVec.ofNat 32 v)) s

/-- Sending in a slot on one channel: a static buffer in every matching cycle, a dynamic one once per update (R199). -/
def State.flxSend (s : State) (slot cycle ch : Nat) : State :=
  match (List.range 128).find? (fun b => s.mbMatches b slot cycle ch true) with
  | none => s
  | some b =>
    if s.rd uFlx F.flx_FLX_CLUSTER_STATIC_SLOTS < slot ∧ !s.edge.flxUpdated.contains b then s
    else { s with edge := { s.edge with busSent := s.edge.busSent ++
      [(32 + ch, { format := 3, id := slot * 2 ^ 18, cycle := cycle, data := s.mbBytes b })] } }

/-- Receiving in a slot on one channel: the matching receive buffer is filled and the frame handed to the owner. -/
def State.flxReceive (s : State) (slot cycle ch age : Nat) (rx : Option FlxRx) : State :=
  match rx, (List.range 128).find? (fun b => s.mbMatches b slot cycle ch false) with
  | some r, some b =>
    let s := s.wr uFlx F.flx_MB_STAT_RX_CYCLE cycle b
    if r.null then s.wr uFlx F.flx_MB_STAT_NULL 1 b
    else
      let s := ((s.putMb b r.data).wr uFlx F.flx_MB_STAT_NULL 0 b).wr uFlx F.flx_MB_STAT_NEW 1 b
      s.handOff (32 + ch)
        { format := 3, id := slot * 2 ^ 18, cycle := cycle, data := s.mbBytes b, td0 := s.td0Stamp age }
  | _, _ => s

/-- `FLX_SLOT`: a slot of the cluster's schedule, with the cycle counter, whether it begins a cycle, whether the node is
normal active or passive, and what each channel receives. From STARTUP the first slot shows that startup is complete. -/
def flxSlotStep (slot cycle : Nat) (first passive : Bool) (rxA rxB : Option FlxRx) (age : Nat) (s : State) : State :=
  let u := uFlx
  if s.enabled u ∧ 4 ≤ s.poc ∧ s.poc ≤ 6 then
    let s := s.wr u F.flx_FLX_STATUS_POC_STATE (if passive then 6 else 5)
    let s := s.wr u F.flx_FLX_STATUS_CYCLE cycle
    let s := if first then s.wr u F.flx_FLX_CYCLE_TS s.wcNs else s
    let chans := (List.range 2).filter (bitOf (s.rd u F.flx_FLX_NODE_CHANNELS))
    let s := if passive ∨ s.txStopped then s
      else
        let s' := chans.foldl (fun s ch => s.flxSend slot cycle ch) s
        { s' with edge := { s'.edge with flxUpdated := s'.edge.flxUpdated.filter (fun b =>
          !(s.rd u F.flx_FLX_CLUSTER_STATIC_SLOTS < slot &&
            chans.any (fun ch => (List.range 128).find? (fun b => s.mbMatches b slot cycle ch true) == some b))) } }
    chans.foldl (fun s ch => s.flxReceive slot cycle ch age (if ch = 0 then rxA else rxB)) s
  else s

/-- A write to a message buffer, its data or its header (R199): a host write to a transmit buffer whose VALID is 1 has no effect and is
an access error; a write of its data is an update. -/
def State.mbWrite (s : State) (b a master : Nat) (w : Word) (hdr : Bool) : State :=
  let u := uFlx
  if s.flag u F.flx_MB_HDR_VALID b ∧ s.flag u F.flx_MB_HDR_TX b then s.refuse master a
  else if hdr then s.setWord a (w &&& 0xFFFFFF7F#32)
  else
    let s := s.setWord a w
    { s with edge := { s.edge with
      flxUpdated := if s.edge.flxUpdated.contains b then s.edge.flxUpdated else b :: s.edge.flxUpdated } }

/-- The FLX unit no longer counts as enabled: DEFAULT_CONFIG. -/
def State.flxDisable (s : State) : State := s.wr uFlx F.flx_FLX_STATUS_POC_STATE 0

/-! ### 10BASE-T1S (R202 to R205) -/

/-- A segment works: EN, its unit, and its PHY NORMAL. -/
def State.segOn (s : State) (g : Nat) : Bool :=
  s.enabled uT1s && s.flag uT1s F.t1s_T1S_CFG_EN g && s.xcvr (16 + g) == 0

/-- The class of a received frame before the verdict (R203). -/
def State.segClass (s : State) (g : Nat) (b : List Byte) : Nat :=
  if isTpid (s.rd (uPipe (pipeOf 12)) F.pipe_PARSE_CFG_ALT_TPID) (be16 b 12) then
    s.rd uT1s F.t1s_T1S_TC_PCP_MAP g / 8 ^ (byteAt b 14 / 32) % 8
  else s.rd uT1s F.t1s_T1S_TC_DEF_TC g

/-- Bytes of a segment's receive buffer in use: the frames it still offers to P12. -/
def State.segRxUsed (s : State) (g : Nat) : Nat :=
  ((s.offersAt 12).filter (fun o => o.fm.inSub == g)).foldl (fun a o => a + o.bytes.length) 0

/-- `T1S_FRAME_RECEIVE`: a good frame of 64 to 1,522 bytes with room for it is offered to P12; any other is discarded and
counted (R202, R203). -/
def t1sFrameReceiveStep (g : Nat) (b : List Byte) (fcsBad : Bool) (s : State) : State :=
  if g < 8 ∧ s.segOn g then
    if fcsBad ∨ b.length < 64 ∨ 1522 < b.length ∨ 4096 < s.segRxUsed g + b.length then s.sat uT1s F.t1s_RX_DROP g
    else s.offer 12 { inPort := 12, inSub := g, tc := s.segClass g b, ts := s.wcNs % 2 ^ 32 } b
  else s

/-- The transmitter of a segment's PHY works: not stopped, and no undervoltage (Table 8.2). -/
def State.segDrives (s : State) (g : Nat) : Bool := !s.txStopped && s.xcvrDrives (16 + g)

/-- Frames sent from the front of a segment's transmit buffer, at most `k`. -/
def State.segSend (s : State) (g k : Nat) : State :=
  let x := s.t1sAt g
  let out := x.tx.take k
  let s := (s.setT1s g { x with tx := x.tx.drop k }).inc uT1s F.t1s_TX_FRAMES g 0 out.length
  { s with edge := { s.edge with segSent := s.edge.segSent ++ out.map (fun b => (g, b)) } }

/-- PLCA runs on a segment: PLCA_EN, and a NODE_ID other than 255. -/
def State.plca (s : State) (g : Nat) : Bool :=
  s.flag uT1s F.t1s_T1S_CFG_PLCA_EN g && s.rd uT1s F.t1s_T1S_CFG_NODE_ID g != 255

/-- A beacon sent or seen: PLCA is active from node 0 on. -/
def State.segBeacon (s : State) (g : Nat) : State :=
  (s.wr uT1s F.t1s_T1S_STATUS_PLCA_ACTIVE 1 g).wr uT1s F.t1s_T1S_STATUS_CUR_ID 0 g

/-- `T1S_TX_OPPORTUNITY`: kind 0, the opportunity of node `node` (or, without PLCA, an idle medium): the segment's own one
sends a frame and BURST_COUNT more, and a coordinator whose PLCA has restarted sends its beacon first (R204); kind 1, a collision; kind 2,
an expected beacon not seen; kind 3, a beacon. -/
def t1sTxOpportunityStep (g kind node : Nat) (s : State) : State :=
  let u := uT1s
  if g < 8 ∧ s.segOn g then
    if kind = 1 then (if s.plca g then s else s.sat u F.t1s_COLLISIONS g)
    else if kind = 2 then
      if s.plca g then (s.sat u F.t1s_BEACON_LOSS g).wr u F.t1s_T1S_STATUS_PLCA_ACTIVE 0 g else s
    else if kind = 3 then
      if s.plca g ∧ (s.segDrives g ∨ s.rd u F.t1s_T1S_CFG_NODE_ID g ≠ 0) then s.segBeacon g else s
    else if !s.plca g then (if s.segDrives g then s.segSend g 1 else s)
    else if s.rd u F.t1s_T1S_CFG_NODE_ID g = 0 ∧ !s.flag u F.t1s_T1S_STATUS_PLCA_ACTIVE g then
      (if s.segDrives g then s.segBeacon g else s)
    else
      let s := s.wr u F.t1s_T1S_STATUS_CUR_ID node g
      if node = s.rd u F.t1s_T1S_CFG_NODE_ID g ∧ s.flag u F.t1s_T1S_STATUS_PLCA_ACTIVE g ∧ s.segDrives g then
        s.segSend g (1 + s.rd u F.t1s_T1S_BURST_BURST_COUNT g)
      else s
  else s

/-- A committed change of a segment's PLCA fields restarts its PLCA (R204). -/
def State.plcaRestart (s : State) (g : Nat) : State :=
  (s.wr uT1s F.t1s_T1S_STATUS_PLCA_ACTIVE 0 g).wr uT1s F.t1s_T1S_STATUS_CUR_ID 0 g

/-! ### The commands -/

/-- `LIN_SLOT_START`. -/
def execLinSlotStart (ch : Nat) (s : State) : Host.Outcome State Fault Refusal := .next (linSlotStartStep ch s)
/-- `LIN_HEADER_RECEIVE`. -/
def execLinHeaderReceive (ch id baud : Nat) (s : State) : Host.Outcome State Fault Refusal :=
  .next (linHeaderReceiveStep ch id baud s)
/-- `LIN_RESPONSE_COMPLETE`. -/
def execLinResponseComplete (ch : Nat) (data : List Byte) (checksum : Nat) (bitErr collision : Bool) (age : Nat)
    (s : State) : Host.Outcome State Fault Refusal :=
  .next (linResponseCompleteStep ch data checksum bitErr collision age s)
/-- `LIN_RESPONSE_TIMEOUT`. -/
def execLinResponseTimeout (ch : Nat) (s : State) : Host.Outcome State Fault Refusal :=
  .next (linResponseTimeoutStep ch s)
/-- `LIN_GO_TO_SLEEP`. -/
def execLinGoToSleep (ch : Nat) (s : State) : Host.Outcome State Fault Refusal := .next (linGoToSleepStep ch s)
/-- `SENT_MESSAGE`. -/
def execSentMessage (ch : Nat) (msg : SentIn) (s : State) : Host.Outcome State Fault Refusal :=
  .next (sentMessageStep ch msg s)
/-- `QSPI_TRANSFER`. -/
def execQspiTransfer (spi rx : Nat) (s : State) : Host.Outcome State Fault Refusal := .next (qspiTransferStep spi rx s)
/-- `FLX_CONFIG`: from DEFAULT_CONFIG or READY. -/
def execFlxConfig (master : Nat) (s : State) : Host.Outcome State Fault Refusal :=
  .next (s.command uFlx master flxCtrlAddr (fun s => s.pocCommand [0, 2] (some 1)))
/-- `FLX_READY`: from CONFIG, WAKEUP, STARTUP, NORMAL_ACTIVE or NORMAL_PASSIVE. -/
def execFlxReady (master : Nat) (s : State) : Host.Outcome State Fault Refusal :=
  .next (s.command uFlx master flxCtrlAddr (fun s => s.pocCommand [1, 3, 4, 5, 6] (some 2)))
/-- `FLX_WAKEUP`: from READY. -/
def execFlxWakeup (master : Nat) (s : State) : Host.Outcome State Fault Refusal :=
  .next (s.command uFlx master flxCtrlAddr (fun s => s.pocCommand [2] (some 3)))
/-- `FLX_RUN`: from READY. -/
def execFlxRun (master : Nat) (s : State) : Host.Outcome State Fault Refusal :=
  .next (s.command uFlx master flxCtrlAddr (fun s => s.pocCommand [2] (some 4)))
/-- `FLX_ALL_SLOTS`: in NORMAL_ACTIVE or NORMAL_PASSIVE, without a change of state. -/
def execFlxAllSlots (master : Nat) (s : State) : Host.Outcome State Fault Refusal :=
  .next (s.command uFlx master flxCtrlAddr (fun s => s.pocCommand [5, 6] none))
/-- `FLX_HALT`: from NORMAL_ACTIVE or NORMAL_PASSIVE. -/
def execFlxHalt (master : Nat) (s : State) : Host.Outcome State Fault Refusal :=
  .next (s.command uFlx master flxCtrlAddr (fun s => s.pocCommand [5, 6] (some 7)))
/-- `FLX_FREEZE`: from any state. -/
def execFlxFreeze (master : Nat) (s : State) : Host.Outcome State Fault Refusal :=
  .next (s.command uFlx master flxCtrlAddr (fun s => s.pocCommand [0, 1, 2, 3, 4, 5, 6, 7] (some 7)))
/-- `FLX_SLOT`. -/
def execFlxSlot (slot cycle : Nat) (first passive : Bool) (rxA rxB : Option FlxRx) (age : Nat) (s : State) :
    Host.Outcome State Fault Refusal := .next (flxSlotStep slot cycle first passive rxA rxB age s)
/-- `T1S_FRAME_RECEIVE`. -/
def execT1sFrameReceive (seg : Nat) (data : List Byte) (fcsBad : Bool) (s : State) : Host.Outcome State Fault Refusal :=
  .next (t1sFrameReceiveStep seg data fcsBad s)
/-- `T1S_TX_OPPORTUNITY`. -/
def execT1sTxOpportunity (seg kind node : Nat) (s : State) : Host.Outcome State Fault Refusal :=
  .next (t1sTxOpportunityStep seg kind node s)

end Sys2Proof.Machine
end

