-- ==== Sys2Proof/Machine/Gateway.lean ====
section
/-! DEFINITION. Infusers: engines and their items, routing, conversion, tunnels, signals, shared tables (chapter 9). The
layout of IEEE 1722-2016 headers is PRESUMED from that standard (log entry 36). -/

namespace Sys2Proof.Machine

/-! ### Engines (R206 to R209) -/

def noEngine (_ : Nat) : EngineState := {}
def State.engine (s : State) (n : Nat) : EngineState := smGet noEngine s.gw.engines n
def State.setEngine (s : State) (n : Nat) (x : EngineState) : State :=
  { s with gw := { s.gw with engines := smSet noEngine s.gw.engines n x } }

/-- LOGICAL of a physical engine; 15 for the idle spare. -/
def State.logicalOf (s : State) (n : Nat) : Nat := s.rd (uGw n) F.gw_ENG_MAP_LOGICAL

/-- A physical engine runs a logical infuser (R207). -/
def State.engActive (s : State) (n : Nat) : Bool := s.flag (uGw n) F.gw_ENG_MAP_ACTIVE && decide (s.logicalOf n < 12)

/-- The physical engine that runs a logical infuser. -/
def State.engineOf (s : State) (l : Nat) : Option Nat :=
  if l < 12 then (List.range 13).find? (fun n => s.engActive n && s.logicalOf n == l) else none

/-- An engine does work: it is enabled and runs a logical infuser. -/
def State.engRuns (s : State) (n : Nat) : Bool := decide (n < 13) && s.enabled (uGw n) && s.engActive n

/-- The buses that an engine owns. -/
def State.ownedBuses (s : State) (n : Nat) : List Nat :=
  (List.range 38).filter (fun b => s.owner b == s.logicalOf n && s.owner b != 15)

/-- Unfinished signal work that may run in this tick. -/
def State.sigReady (s : State) (n : Nat) : Bool :=
  !(s.engine n).job.isEmpty && s.flag (uGw n) F.unit_TICKJOB_RUNNING && !(s.tickJob (uGw n)).stopped

/-- What an engine picks next. Source 38 is the Ethernet inbound buffer. -/
inductive Pick where
  | sb | sig (turn : Bool) | src (i : Nat) | mgmt | idle
  deriving DecidableEq, Repr

/-- The next source in round robin after the last one served, over owned buses with a waiting frame and the Ethernet
buffer. -/
def State.nextSource (s : State) (n : Nat) : Option Nat :=
  let owned := s.ownedBuses n
  let ready (i : Nat) : Bool :=
    if i = 38 then !(s.engine n).ethIn.isEmpty else owned.contains i && !(s.inQ i).isEmpty
  ((List.range 39).map (fun k => ((s.engine n).rr + 1 + k) % 39)).find? ready

/-- The choice of R208, once the engine's core is free. -/
def State.nextItem (s : State) (n : Nat) (mgmt : Bool) : Pick :=
  let x := s.engine n
  if !x.work.isEmpty then .idle
  else if !x.sb.isEmpty then .sb
  else if s.sigReady n && !x.lastSig then .sig true
  else match s.nextSource n with
    | some i => .src i
    | none => if mgmt then .mgmt else if s.sigReady n then .sig false else .idle

/-- An item is run: counted, the engine checked, and last_was_sig as R208 leaves it. -/
def State.item (s : State) (n : Nat) (lastSig : Bool) : State :=
  let s := (s.inc (uGw n) F.gw_ITEMS).check (uGw n) 1 false
  s.setEngine n { s.engine n with lastSig := lastSig }

/-! ### Shared tables (Tables 9.2, 9.6 to 9.8) -/

def memRoute : Nat := 15
def memGw : Nat := 16

/-- The word of a table entry in its ledger memory (Table 15.8): tables 0 route, 1 tunnel, 2 PDU, 3 signal. -/
def tblWord (table i : Nat) : Nat × Nat :=
  if table = 0 then (memRoute, i) else if table = 1 then (memGw, i) else if table = 2 then (memGw, 256 + i)
  else (memGw, 4352 + i)

def tblSize (table : Nat) : Nat := if table = 0 then 16384 else if table = 1 then 256 else if table = 2 then 4096 else 8192

/-- An entry of a shared table; one whose row is retired or whose word fails its check reads as an invalid one (R337,
log entry 37). -/
def State.tblAt (s : State) (table i : Nat) : Nat :=
  let m := tblWord table i
  if s.retiredWord m.1 m.2 || s.codeOf m.1 m.2 == .failed then 0
  else
    let t := if table = 0 then s.gw.route else if table = 1 then s.gw.tunnel else if table = 2 then s.gw.pdu else s.gw.sig
    smGet zero0 t i

/-- An entry written whole. -/
def State.putTbl (s : State) (table i v : Nat) : State :=
  let m := tblWord table i
  if s.retiredWord m.1 m.2 then s
  else
    let s := s.clearUpset m.1 m.2
    let g := s.gw
    { s with gw :=
      if table = 0 then { g with route := smSet zero0 g.route i v }
      else if table = 1 then { g with tunnel := smSet zero0 g.tunnel i v }
      else if table = 2 then { g with pdu := smSet zero0 g.pdu i v }
      else { g with sig := smSet zero0 g.sig i v } }

/-- A shared-table word in use fails its check. -/
def State.tblFailed (s : State) (table i : Nat) : Bool :=
  let m := tblWord table i
  !s.retiredWord m.1 m.2 && s.codeOf m.1 m.2 == .failed

/-- The report of a failing shared-table word by the engine that reads it. -/
def State.tblFault (s : State) (n table i : Nat) (inj : Bool := false) : State :=
  let m := tblWord table i
  s.codeFail (uGw n) 0 { access := 6, master := 0x20 + n, addr := memAddr m.1 m.2 } inj

/-- The check of the word that engine `n` reads next in a shared table, as an injection alters it (R334): whether it fails, and the state
with the injection spent and the failure reported. -/
def State.tblCheck (s : State) (n table i : Nat) : Bool × State :=
  let (c, inj, s) := s.codeCheck (uGw n) 0 (if s.tblFailed table i then .failed else .good)
  if c = .failed then (true, s.tblFault n table i inj) else (false, s)

/-- (IDE, identifier) as one number in the order of R214. -/
def keyRank (ide id : Nat) : Nat := ide * 2 ^ 29 + id
def routeLow (e : Nat) : Nat := keyRank (nbits e 126 1) (nbits e 97 29)
def routeHigh (e : Nat) : Nat := keyRank (nbits e 126 1) (nbits e 68 29)

/-- What a route search ends on: an entry that matches, an entry whose word fails its check, or nothing. -/
inductive RouteHit where
  | hit (i : Nat) | failed (i : Nat) | miss
  deriving DecidableEq, Repr

/-- The search of R214 over entries `lo` to `hi - 1`, with `fuel` probes left. -/
def State.routeSearch (s : State) (key : Nat) : Nat → Nat → Nat → RouteHit
  | 0, _, _ => .miss
  | fuel + 1, lo, hi =>
    if hi ≤ lo then .miss
    else
      let m := (lo + hi - 1) / 2
      let e := s.tblAt 0 m
      if s.tblFailed 0 m then .failed m
      else if key < routeLow e then s.routeSearch key fuel lo m
      else if routeHigh e < key then s.routeSearch key fuel (m + 1) hi
      else if nbits e 127 1 = 1 then .hit m else .miss

/-- Route entries in use: 256 in Fallback mode (R283), 2,048 under the essential microcode (Table 12.8), else all; they are the lowest
ones (DESIGN CHOICE, log entry 116: the manual gives the number and not the places). -/
def State.routeLimit (s : State) : Nat := if s.fallback then 256 else if s.gw.essential then 2048 else 16384

/-- The route search for a frame from bus `b` (R214). -/
def State.routeOf (s : State) (b : Nat) (f : BusFrame) : RouteHit :=
  let base := s.rd uGwAny F.gw_BUS_ROUTE_BASE b
  s.routeSearch (keyRank (b2n f.ide) f.id) 15 base (min s.routeLimit (base + s.rd uGwAny F.gw_BUS_ROUTE_COUNT b))

/-- The bus that bit `i` of a DEST_MASK names: C0 to C15, L0 to L7, FlexRay A and B. -/
def maskBus (i : Nat) : Nat := if i < 24 then i else i + 8

/-- The bit of DEST_MASK of a bus; none for a bus that no mask names. -/
def busMask (b : Nat) : Option Nat := if b < 24 then some b else if b = 32 then some 24 else if b = 33 then some 25 else none

/-! ### Keys and verdicts (4.8) -/

/-- The key of a frame: received from bus `b` (DIR 0) or to be sent on it (DIR 1), by physical engine `n`. -/
def busKey (n b : Nat) (toBus : Bool) (f : BusFrame) (destBus dzones : Nat) : CanKey :=
  { infuser := n, bus := b, toBus := toBus, format := f.format, ide := f.ide, id := f.id, len := f.data.length, dlc := f.dlc,
    sdt := f.sdt, vcid := f.vcid, af := f.af,
    data := beNat (f.data.take 8 ++ List.replicate (8 - f.data.length) 0#8), destBus := destBus, cansec := f.cansec,
    tc := 0, dzones := dzones }

/-- The zone of a bus in the bank of the current generation. -/
def State.busZone (s : State) (b : Nat) : Nat := (s.bank true s.curGen).zone (32 + b)

/-- The zone of P13. -/
def State.p13Zone (s : State) : Nat := (s.bank true s.curGen).zone 25

/-- A frame for the triad: the queue holds 64, PUNT_LIMIT frames enter in a tick (R228). -/
def State.gwPunt (s : State) (b : Nat) (f : BusFrame) : State :=
  if 64 ≤ s.gw.puntQ.length ∨ s.rd uGwAny F.gw_PUNT_LIMIT_LIMIT ≤ s.gw.punted then s.sat uGwAny F.gw_PUNT_DROP_COUNT
  else { s with gw := { s.gw with puntQ := s.gw.puntQ ++ [(b, f)], punted := s.gw.punted + 1 } }

/-! ### Conversion toward a destination (R216) -/

/-- The length of a CAN FD frame that holds `n` bytes, and its DLC. -/
def fdLength (n : Nat) : Nat × Nat :=
  if n ≤ 8 then (n, n) else if n ≤ 12 then (12, 9) else if n ≤ 16 then (16, 10) else if n ≤ 20 then (20, 11)
  else if n ≤ 24 then (24, 12) else if n ≤ 32 then (32, 13) else if n ≤ 48 then (48, 14) else (64, 15)

/-- A frame on a CAN destination by OUT_FMT, with its identifier already chosen. -/
def State.convertCan (s : State) (d outFmt : Nat) (f : BusFrame) : Option BusFrame :=
  let u := uCan d
  let fd := s.flag u F.can_CAN_CFG_FD_EN
  let xl := s.flag u F.can_CAN_CFG_XL_EN
  let n := f.data.length
  let plain : BusFrame := { format := 0, ide := f.ide, id := f.id, data := f.data }
  if outFmt = 1 then
    if 8 < n then none
    else some { plain with remote := f.remote, dlc := if f.remote then f.dlc else n }
  else if outFmt = 2 ∨ outFmt = 3 then
    if f.remote ∨ 64 < n ∨ !fd then none
    else
      let (m, dlc) := fdLength n
      some { plain with format := 1, brs := outFmt == 3, dlc := dlc, data := f.data ++ List.replicate (m - n) 0#8 }
  else if outFmt = 4 then
    if f.remote ∨ f.ide ∨ n = 0 ∨ 2048 < n ∨ !xl then none
    else
      let x := f.format == 2
      some { plain with
        format := 2, dlc := n - 1, sdt := if x then f.sdt else 0, vcid := if x then f.vcid else 0,
        af := if x then f.af else 0 }
  else if f.format = 0 ∨ (f.format = 1 ∧ fd) ∨ (f.format = 2 ∧ xl) then
    some { f with sec := false, cansec := false, td0 := none }
  else none

/-- The identifier of a routed frame on a CAN destination: kept for OUT_ID 0, OUT_ID − 1 as an 11-bit one for 1 to 2,048. -/
def outIdent (outId : Nat) (f : BusFrame) : Option BusFrame :=
  if outId = 0 then some f
  else if outId ≤ 2048 then some { f with ide := false, id := (outId - 1) * 2 ^ 18 }
  else none

/-- A LIN destination: the identifier is 0 to 63 and the length fits the schedule entries that publish it. -/
def State.linFits (s : State) (n id len : Nat) : Bool :=
  let es := (List.range 128).filterMap (fun i =>
    let w := s.linEntry n (i / 32) (i % 32)
    if getBits w 31 1 = 1 ∧ getBits w 7 1 = 1 ∧ linId w = id then some (getBits w 0 3 + 1) else none)
  es.isEmpty || es.contains len

/-- The transmit buffer of a slot on a FlexRay channel. -/
def State.flxTxBuf (s : State) (ch slot : Nat) : Option Nat :=
  (List.range 128).find? (fun b => s.flag uFlx F.flx_MB_HDR_VALID b && s.flag uFlx F.flx_MB_HDR_TX b &&
    s.rd uFlx F.flx_MB_HDR_SLOT b == slot && bitOf (s.rd uFlx F.flx_MB_HDR_CH b) ch)

/-- A frame whose identifier is that of its destination, on a LIN or FlexRay destination. -/
def State.placeIdent (s : State) (d id : Nat) (f : BusFrame) : Option Placed :=
  if d < 24 then
    if id < 64 ∧ s.linFits (d - 16) id f.data.length then some (.lin id f.data) else none
  else match s.flxTxBuf (d - 32) id with
    | some b => if f.data.length ≤ 2 * s.rd uFlx F.flx_MB_HDR_PAYLOAD b then some (.flx b f.data) else none
    | none => none

/-- Table 9.4 for a routed frame on destination bus `d`. -/
def State.convert (s : State) (d outFmt outId : Nat) (f : BusFrame) : Option Placed :=
  if d < 16 then ((outIdent outId f).bind (s.convertCan d outFmt)).map .can
  else if outId = 0 ∨ 2048 < outId then none
  else s.placeIdent d (outId - 1) f

/-- A frame on the key and buffers of its destination: what a CAN destination sends, else the frame itself. -/
def Placed.frame (f : BusFrame) : Placed → BusFrame
  | .can g => g
  | _ => f

/-- A converted frame placed; a bus without an owner has no buffer (Table 9.1). -/
def State.place (s : State) (d : Nat) : Placed → State
  | .can g => s.putOut d g
  | .lin id data =>
    if s.owner d = 15 then s.sat uGwAny F.gw_OUT_FULL d
    else
      let x := s.linAt (d - 16)
      (s.setLin (d - 16) { x with resp := pmSet x.resp id data }).inc uGwAny F.gw_OUT_FRAMES d
  | .flx b data =>
    if s.owner d = 15 then s.sat uGwAny F.gw_OUT_FULL d
    else
      let s := (s.putMb b data).inc uGwAny F.gw_OUT_FRAMES d
      { s with edge := { s.edge with
        flxUpdated := if s.edge.flxUpdated.contains b then s.edge.flxUpdated else b :: s.edge.flxUpdated } }

/-! ### Outbound tunnels (R218 to R220) -/

def tunValid (e : Nat) : Bool := nbits e 255 1 == 1
def tunInbound (e : Nat) : Bool := nbits e 254 1 == 1
def tunTscf (e : Nat) : Bool := nbits e 253 1 == 1
def tunBatch (e : Nat) : Bool := nbits e 252 1 == 1
def tunBrief (e : Nat) : Bool := nbits e 251 1 == 1
def tunOwner (e : Nat) : Nat := nbits e 247 4
def tunStream (e : Nat) : Nat := nbits e 183 64

/-- An ACF message: type and length in quadlets, the rest of its first quadlet, its other bytes padded to quadlets. -/
def acfMessage (type first : Nat) (body : List Byte) : List Byte :=
  let pad := (4 - body.length % 4) % 4
  let q := 1 + (body.length + pad) / 4
  beBytes 4 (type * 2 ^ 25 + q % 512 * 2 ^ 16 + first % 2 ^ 16) ++ body ++ List.replicate pad 0#8

/-- Bytes of padding of a payload, as the pad field of a message gives them. -/
def acfPad (n : Nat) : Nat := (4 - n % 4) % 4

/-- A message's timestamp: mtv and 8 bytes. -/
def acfStamp (t : Option Nat) : Nat × List Byte := (b2n t.isSome, beBytes 8 (t.getD 0))

/-- An ACF CAN or ACF CAN Brief message of a frame of channel `bus` (31 for a signal PDU). -/
def acfCan (brief : Bool) (bus : Nat) (f : BusFrame) : List Byte :=
  let (mtv, ts) := acfStamp f.td0
  let id := if f.ide then f.id else f.id / 2 ^ 18
  let flags := acfPad f.data.length * 2 ^ 14 + (if brief then 0 else mtv) * 2 ^ 13 + b2n f.remote * 2 ^ 12 + b2n f.ide * 2 ^ 11
    + b2n f.brs * 2 ^ 10 + b2n (f.format == 1) * 2 ^ 9 + b2n f.esi * 2 ^ 8 + bus
  acfMessage (if brief then 2 else 1) flags ((if brief then [] else ts) ++ beBytes 4 id ++ f.data)

/-- The message of a frame of bus `b` (Table 9.5); a CAN XL frame has none. -/
def acfOf (brief : Bool) (b : Nat) (f : BusFrame) : Option (List Byte) :=
  let (mtv, ts) := acfStamp f.td0
  let pad := acfPad f.data.length * 2 ^ 14
  let id := f.id / 2 ^ 18
  if b < 16 then (if f.format = 2 then none else some (acfCan brief b f))
  else if b < 24 then some (acfMessage 3 (pad + mtv * 2 ^ 13 + (b - 16) * 2 ^ 8 + id) (ts ++ f.data))
  else if b < 32 then
    let first (t : Nat) : Nat := t * 2 ^ 15 + 1 * 2 ^ 8 + 2 * 2 ^ 6 + (b - 24)
    some (if brief then acfMessage 9 (first 0) f.data else acfMessage 8 (first mtv) (ts ++ f.data))
  else if b < 34 then
    some (acfMessage 0 (pad + mtv * 2 ^ 13 + (b - 31) * 2 ^ 4 + 1)
      (ts ++ beBytes 4 (id * 2 ^ 21 + f.cycle % 64) ++ f.data))
  else none

/-- Bytes of a PDU around its messages: addresses, tag, EtherType, AVTP header, FCS. -/
def pduOverhead (e : Nat) : Nat := 12 + (if nbits e 123 12 = 0 then 0 else 4) + 2 + (if tunTscf e then 24 else 12) + 4

/-- The AVTP header of a PDU (IEEE 1722-2016, log entry 36). -/
def avtpHeader (e seq ts len : Nat) : List Byte :=
  if tunTscf e then
    beBytes 4 (0x05 * 2 ^ 24 + 0x81 * 2 ^ 16 + seq % 256 * 2 ^ 8) ++ beBytes 8 (tunStream e) ++ beBytes 4 ts ++ beBytes 4 0
      ++ beBytes 4 (len * 2 ^ 16)
  else beBytes 4 (0x82 * 2 ^ 24 + 0x80 * 2 ^ 16 + len % 2048 * 2 ^ 8 + seq % 256) ++ beBytes 8 (tunStream e)

/-- A PDU of some messages as it enters P13: header, tag, AVTP header, messages, padding to 64 bytes with the FCS. -/
def State.buildPdu (s : State) (e seq : Nat) (msgs : List Byte) : List Byte :=
  let sa := s.rd uGwAny F.gw_GW_SA_HI_SA * 2 ^ 32 + s.rd uGwAny F.gw_GW_SA_LO_SA
  let vid := nbits e 123 12
  let tag := if vid = 0 then [] else tagBytes (nbits e 120 3) 0 vid
  let ts := ((s.domNs 0 + Int.ofNat (nbits e 48 32)) % 2 ^ 32).toNat
  let b := beBytes 6 (nbits e 135 48) ++ beBytes 6 sa ++ tag ++ beBytes 2 0x22F0 ++ avtpHeader e seq ts msgs.length ++ msgs
  let b := b ++ List.replicate (60 - b.length) 0#8
  b ++ fcsBytes b false

/-- A PDU of tunnel `t` completed: its sequence number advances, and it enters the P13 outbound buffer of the engine, which
holds 16 PDUs, 8 of one class, those offered to P13 and not yet taken included (R210, R211). -/
def State.sendPdu (s : State) (n t e : Nat) (msgs : List Byte) : State :=
  let u := uGw n
  let seq := smGet zero0 s.gw.seqOut t
  let b := s.buildPdu e seq msgs
  let s := { s with gw := { s.gw with seqOut := smSet zero0 s.gw.seqOut t ((seq + 1) % 256) } }
  let tc := nbits e 117 3
  let x := s.engine n
  let held : List Nat := x.p13Out.map (·.1) ++ ((s.offersAt 13).filter (fun o => o.fm.inSub == n)).map (·.fm.tc)
  if 16 ≤ held.length ∨ 8 ≤ (held.filter (· == tc)).length then s.sat u F.gw_P13_OUT_DROP
  else (s.setEngine n { x with p13Out := x.p13Out ++ [(tc, b)] }).inc u F.gw_TUN_PDU_OUT

/-- The open PDU of a tunnel closed and sent. -/
def State.closePdu (s : State) (n t e : Nat) (msgs : List Byte) : State :=
  { s with gw := { s.gw with openPdu := pmDel s.gw.openPdu t } }.sendPdu n t e msgs

/-- A message appended to tunnel `t`, in the engine that runs the entry's OWNER (R220). -/
def State.appendTunnel (s : State) (t : Nat) (msg : List Byte) : State :=
  let e := s.tblAt 1 t
  match s.engineOf (tunOwner e) with
  | none => s
  | some n =>
    if !tunValid e ∨ tunInbound e then s
    else if !tunBatch e then s.sendPdu n t e msg
    else
      let old := (pmGet s.gw.openPdu t).getD []
      let s := if !old.isEmpty ∧ clampNat 64 1522 (nbits e 106 11) < pduOverhead e + old.length + msg.length then
          s.closePdu n t e old else s
      { s with gw := { s.gw with openPdu := pmSet s.gw.openPdu t ((pmGet s.gw.openPdu t).getD [] ++ msg) } }

/-- A frame of bus `b` tunnelled through `t` by engine `n`; one that no message carries counts in TUN_FMT. -/
def State.tunnelFrame (s : State) (n t b : Nat) (f : BusFrame) : State :=
  match acfOf (tunBrief (s.tblAt 1 t)) b f with
  | none => s.sat (uGw n) F.gw_TUN_FMT
  | some m => s.appendTunnel t m

/-- The open PDUs of an engine closed and sent, in tunnel order. -/
def State.closeTunnels (s : State) (n : Nat) : State :=
  s.gw.openPdu.foldl (fun s p =>
    let e := s.tblAt 1 p.1
    if s.engineOf (tunOwner e) = some n ∧ !p.2.isEmpty then s.closePdu n p.1 e p.2 else s) s

/-! ### Signals (R222 to R225) -/

def pduValid (e : Nat) : Bool := nbits e 127 1 == 1
def pduDest (e : Nat) : Bool := nbits e 126 1 == 1
def pduOwner (e : Nat) : Nat := nbits e 20 4
def sigValid (e : Nat) : Bool := nbits e 127 1 == 1
def sigLen (e : Nat) : Nat := nbits e 100 6 + 1
def sigBig (e : Nat) : Bool := nbits e 99 1 == 1

/-- The bit positions of a field from its least significant bit for a little-endian one, from its most significant bit for
a big-endian one. -/
def fieldBits (big : Bool) (start : Nat) : Nat → List Nat
  | 0 => []
  | n + 1 => start :: fieldBits big (if big then (if start % 8 = 0 then start + 15 else start - 1) else start + 1) n

/-- The value of a field in bits held as a number, and a field of such a number replaced. -/
def readField (big : Bool) (start len img : Nat) : Nat :=
  let ps := fieldBits big start len
  (if big then ps else ps.reverse).foldl (fun a p => 2 * a + b2n (bitOf img p)) 0
def writeField (big : Bool) (start len v img : Nat) : Nat :=
  let ps := fieldBits big start len
  ((if big then ps.reverse else ps).foldl
    (fun (a : Nat × Nat) p => (if p < 512 then (if bitOf a.2 0 then setBit a.1 p else clearBit a.1 p) else a.1, a.2 / 2))
    (img, v)).1

/-- Data bytes as a number whose bit 8k + j is bit j of byte k, and the other way. -/
def leNat (l : List Byte) : Nat := l.foldr (fun b a => b.toNat + 256 * a) 0
def leBytes (n v : Nat) : List Byte := (beBytes n (v % 256 ^ n)).reverse

/-- A value written into the destination image of a signal. -/
def putSignal (e v img : Nat) : Nat := writeField (sigBig e) (nbits e 78 9) (sigLen e) v img

/-- The image of a destination PDU before any source has been received: bits 0 and every signal at INIT (R223). -/
def State.initImage (s : State) (p : Nat) : Nat :=
  s.gw.sig.foldl (fun img e =>
    let x := s.tblAt 3 e.1
    if sigValid x ∧ nbits x 87 12 = p then putSignal x (nbits x 0 64) img else img) 0

/-- The image of a destination PDU. -/
def State.image (s : State) (p : Nat) : Nat := (pmGet s.gw.images p).getD (s.initImage p)

/-- A value written into the image of a signal's destination. -/
def State.setSignal (s : State) (e v : Nat) : State :=
  let p := nbits e 87 12
  { s with gw := { s.gw with images := pmSet s.gw.images p (putSignal e v (s.image p)) } }

/-- The valid signal entries of a source PDU. -/
def State.signalsOf (s : State) (pdu : Nat) : List Nat :=
  ((List.range (nbits pdu 0 7)).map (fun k => s.tblAt 3 (nbits pdu 7 13 + k))).filter sigValid

/-- A source PDU received: its last reception, and its signals extracted; one that runs past the received length keeps its
previous value (R223). -/
def State.updateSource (s : State) (p : Nat) (f : BusFrame) : State :=
  let e := s.tblAt 2 p
  if !pduValid e ∨ pduDest e then s
  else
    let s := { s with gw := { s.gw with lastRx := smSet zero0 s.gw.lastRx p (s.rd uTick F.tick_COUNT_COUNT) } }
    let img := leNat f.data
    (s.signalsOf e).foldl (fun s x =>
      let start := nbits x 106 9
      if (fieldBits (sigBig x) start (sigLen x)).any (fun b => 8 * f.data.length ≤ b) then s
      else s.setSignal x (readField (sigBig x) start (sigLen x) img)) s

/-- The signals of a source PDU that has been silent for TIMEOUT ticks revert to INIT (R224). -/
def State.revertSource (s : State) (n tick p : Nat) : State :=
  let e := s.tblAt 2 p
  if pduValid e ∧ !pduDest e ∧ nbits e 32 16 ≠ 0 ∧
      (tick + 2 ^ 32 - smGet zero0 s.gw.lastRx p) % 2 ^ 32 = nbits e 32 16 then
    ((s.signalsOf e).foldl (fun s x => s.setSignal x (nbits x 0 64)) s).sat (uGw n) F.gw_SIG_STALE 0 0 (nbits e 0 7)
  else s

/-- The frame of a destination PDU: a copy of its image; classical up to 8 bytes, FD beyond, before Table 9.4 (log entry
38). -/
def State.pduFrame (s : State) (p e : Nat) : BusFrame :=
  let n := nbits e 83 7 + 1
  { format := if n ≤ 8 then 0 else 1, ide := nbits e 119 1 == 1, id := nbits e 90 29, dlc := (fdLength n).2,
    data := leBytes n (s.image p) }

/-- A signal PDU on its bus: into the outbound signal slot on CAN, as Table 9.4 on LIN and FlexRay. -/
def State.slotPdu (s : State) (n p d : Nat) (x : Placed) : State :=
  match x with
  | .can g =>
    if s.owner d = 15 then s.sat uGwAny F.gw_OUT_FULL d
    else
      let s := if (pmGet s.gw.slots p).isSome then s.sat (uGw n) F.gw_SIG_OVERWRITE else s
      { s with gw := { s.gw with slots := pmSet s.gw.slots p (d, g) } }
  | x => s.place d x

/-- From the start of Draining on, no destination PDU is sent (R235). -/
def State.pdusHeld (s : State) : Bool := decide (2 ≤ s.rd uNetm F.netm_NETM_STATUS_PHASE)

/-- One destination PDU due (R224): sent in its tunnel at once, or asked for on its bus. -/
def State.sendDest (s : State) (n p : Nat) : List GwWork × State :=
  let u := uGw n
  let e := s.tblAt 2 p
  if !pduValid e ∨ !pduDest e ∨ s.pdusHeld then ([], s)
  else
    let d := nbits e 120 6
    let f := s.pduFrame p e
    if d = 63 then ([], (s.appendTunnel (nbits e 24 8) (acfCan true 31 f)).inc u F.gw_SIG_SENT)
    else
      let x : Option Placed :=
        if d < 16 then (s.convertCan d (nbits e 80 3) f).map .can
        else if (busMask d).isSome then s.placeIdent d (f.id / 2 ^ 18) f
        else none
      match x with
      | none => ([], (if d < 38 then s.sat uGwAny F.gw_FMT_DROP d else s).inc u F.gw_SIG_SENT)
      | some g => ([.ask d (g.frame f) g (some p)], s)

/-- The work of an engine's signal job for a tick (R224), in order: kind 0 closes tunnels, 1 a silent source PDU, 2 a due
destination PDU. -/
def State.sigWork (s : State) (n : Nat) : List (Nat × Nat × Nat) :=
  let tick := s.rd uTick F.tick_COUNT_COUNT
  let mine (i : Nat) : Bool := pduValid (s.tblAt 2 i) && pduOwner (s.tblAt 2 i) == s.logicalOf n
  let idx := (s.gw.pdu.map (·.1)).filter mine
  let late := idx.filter (fun i =>
    let e := s.tblAt 2 i
    !pduDest e && nbits e 32 16 != 0 && (tick + 2 ^ 32 - smGet zero0 s.gw.lastRx i) % 2 ^ 32 == nbits e 32 16)
  let due := idx.filter (fun i =>
    let e := s.tblAt 2 i
    pduDest e && !s.pdusHeld && nbits e 64 16 != 0 && (Int.ofNat tick - Int.ofNat (nbits e 48 16)) % Int.ofNat (nbits e 64 16) == 0)
  (tick, 0, 0) :: late.map (fun i => (tick, 1, i)) ++ due.map (fun i => (tick, 2, i))

/-- A tick's signal work added to what an overrun left (R28); the essential microcode has none (Table 12.8). -/
def State.sigBoundary (s : State) (n : Nat) : State :=
  if s.engRuns n ∧ !s.gw.essential then s.setEngine n { s.engine n with job := (s.engine n).job ++ s.sigWork n } else s

/-! ### Frame items (R215, R221) -/

/-- The destinations that a route entry names for a frame of bus `b`: under the essential microcode CAN channels only (Table 12.8). -/
def State.routeDests (s : State) (b r : Nat) : List Nat :=
  ((bitsOf (if s.gw.essential then 16 else 26) (nbits r 42 26)).map maskBus).filter (· != b)

/-- A route entry's TUNNEL and SIGNAL, which the essential microcode ignores (Table 12.8). -/
def State.routeTunnel (s : State) (r : Nat) : Bool := nbits r 41 1 == 1 && !s.gw.essential
def State.routeSignal (s : State) (r : Nat) : Bool := nbits r 40 1 == 1 && !s.gw.essential

/-- The key of a frame received from bus `b` with its route entry (R215). -/
def State.routeKey (s : State) (n b : Nat) (f : BusFrame) (r : Nat) : CanKey :=
  let ds := s.routeDests b r
  let p13 := s.routeTunnel r || s.routeSignal r
  let single := match ds with
    | [d] => if s.routeTunnel r then 63 else d
    | _ => 63
  busKey n b false f single (maskOf (ds.map s.busZone ++ (if p13 then [s.p13Zone] else [])))

/-- The verdict on a frame received from bus `b` (R215): denied, punted, or its signals and its tunnel served and its destinations
still permitted to come. -/
def State.routed (s : State) (n b : Nat) (f : BusFrame) (r : Nat) (v : CanVerdict) : List GwWork × State :=
  if v.verdict = 1 then ([], s.sat uGwAny F.gw_DENIED b)
  else if v.verdict = 2 then ([], s.gwPunt b f)
  else
    let ds := (s.routeDests b r).filter (fun d => v.keep.contains (s.busZone d))
    let p13 := v.keep.contains s.p13Zone
    let t := if s.routeSignal r ∧ p13 then s.updateSource (nbits r 5 12) f else s
    let t := if s.routeTunnel r ∧ p13 then t.tunnelFrame n (nbits r 32 8) b f else t
    (ds.map (fun d => .dest d f r), t)

/-- One destination of a routed frame: converted, and placed, or asked for once more where the channel adds CANsec (R215). -/
def State.toDest (s : State) (d : Nat) (f : BusFrame) (r : Nat) : Option GwWork × State :=
  match s.convert d (nbits r 29 3) (nbits r 17 12) f with
  | none => (none, s.sat uGwAny F.gw_FMT_DROP d)
  | some g =>
    if d < 16 ∧ s.flag (uCan d) F.can_CS_CFG_EN ∧ s.flag (uCan d) F.can_CS_CFG_TX_EN then
      (some (.ask d (g.frame f) g none), s)
    else (none, s.place d g)

/-- The verdict on a frame about to be sent on bus `d`: placed, or counted in DENIED. -/
def State.asked (s : State) (n d : Nat) (g : Placed) (pdu : Option Nat) (v : CanVerdict) : State :=
  let ok := v.verdict == 0 && v.keep.contains (s.busZone d)
  let s := if !ok then s.sat uGwAny F.gw_DENIED d else match pdu with
    | none => s.place d g
    | some p => s.slotPdu n p d g
  if pdu.isSome then s.inc (uGw n) F.gw_SIG_SENT else s

/-- The bus and frame that a message addresses; none for a message type that is not supported. -/
def acfDecode (m : List Byte) : Option (Nat × BusFrame) :=
  let type := byteAt m 0 / 2
  let b2 := byteAt m 2
  let b3 := byteAt m 3
  let pad := b2 / 64
  let rest (h : Nat) : List Byte := (m.drop h).take (m.length - h - pad)
  if type = 1 ∨ type = 2 then
    let h := if type = 1 then 16 else 8
    let eff := b2 / 8 % 2
    let id := be32 m (h - 4) % 2 ^ 29
    let d := rest h
    let fdf := b2 / 2 % 2 == 1
    let bus := b3 % 32
    if m.length < h + pad ∨ 16 ≤ bus then none
    else some (bus, { format := b2n fdf, ide := eff == 1, id := if eff = 1 then id else id % 2 ^ 11 * 2 ^ 18,
                      remote := b2 / 16 % 2 == 1, brs := b2 / 4 % 2 == 1, esi := b2 % 2 == 1,
                      dlc := (fdLength d.length).2, data := d })
  else if type = 3 then
    if m.length < 12 + pad ∨ 8 ≤ b2 % 32 then none
    else some (16 + b2 % 32, { format := 3, id := b3 % 64 * 2 ^ 18, data := rest 12 })
  else if type = 0 then
    if m.length < 16 + pad ∨ b2 % 32 ≠ 0 ∨ b3 / 16 % 4 = 0 then none
    else some (if b3 / 16 % 4 = 2 then 33 else 32,
      { format := 3, id := be32 m 12 / 2 ^ 21 * 2 ^ 18, cycle := byteAt m 15 % 64, data := rest 16 })
  else none

/-- The messages of a PDU's data, each by its length in quadlets; a length that does not fit ends the data. -/
def acfSplit : Nat → List Byte → List (List Byte)
  | 0, _ => []
  | fuel + 1, l =>
    let q := be16 l 0 % 512 * 4
    if l.length < 4 then [] else if q = 0 ∨ l.length < q then [l] else l.take q :: acfSplit fuel (l.drop q)

/-- One inbound message (R221): skipped, or asked for on its bus. -/
def State.inboundMessage (s : State) (n e : Nat) (m : List Byte) : Option GwWork × State :=
  let skip := (none, s.sat (uGw n) F.gw_TUN_FMT)
  if m.length ≠ be16 m 0 % 512 * 4 then skip
  else match acfDecode m with
    | none => skip
    | some (d, f) =>
      let listed : Bool := match busMask d with
        | some i => bitOf (nbits e 80 26) i
        | none => false
      if !listed ∨ s.owner d ≠ s.logicalOf n then skip
      else
        let g : Option Placed := if d < 16 then some (.can f) else s.placeIdent d (f.id / 2 ^ 18) f
        match g with
        | none => (none, s.sat uGwAny F.gw_FMT_DROP d)
        | some g => (some (.ask d f g none), s)

/-! ### Items and their keys (R104, R209) -/

/-- The key that an item waits for, if it waits for one. -/
def State.keyOf (s : State) (n : Nat) : GwWork → Option CanKey
  | .route b f r => some (s.routeKey n b f r)
  | .ask d f _ _ => some (busKey n d true f d (2 ^ s.busZone d))
  | _ => none

/-- The core of an engine becomes free and finds nothing to run: last_was_sig is cleared (R208). -/
def State.idlePass (s : State) (n : Nat) : State :=
  if s.nextItem n false = .idle then s.setEngine n { s.engine n with lastSig := false } else s

/-- The engine's item is a signal step of a job that is stopped: it goes no further (R432). -/
def State.sigStopped (s : State) (n : Nat) : Bool := (s.engine n).inSig && !s.flag (uGw n) F.unit_TICKJOB_RUNNING

/-- An item is over; a signal step that was the job's last ends the job. -/
def State.endItem (s : State) (n : Nat) : State :=
  let x := s.engine n
  let s := (s.setEngine n { x with work := [], asked := false, inSig := false }).idlePass n
  if x.inSig ∧ x.job.isEmpty then s.jobDone (uGw n) else s

/-- An item runs on until it waits for a verdict, or is over. -/
def State.runWork (s : State) (n : Nat) : List GwWork → State
  | [] => s.endItem n
  | .dest d f r :: t =>
    match s.toDest d f r with
    | (none, s) => s.runWork n t
    | (some a, s) => s.setEngine n { s.engine n with work := a :: t, asked := false }
  | .message e m :: t =>
    match s.inboundMessage n e m with
    | (none, s) => s.runWork n t
    | (some a, s) => s.setEngine n { s.engine n with work := a :: t, asked := false }
  | a :: t => s.setEngine n { s.engine n with work := a :: t, asked := false }

/-- `CAN_KEY_SUBMIT`: the key that an engine waits for enters the FIFO of 64; with the FIFO full the infuser waits. -/
def canKeySubmitStep (n : Nat) (s : State) : State :=
  let x := s.strain true
  let e := s.engine n
  match e.work.head?.bind (s.keyOf n) with
  | none => s
  | some k =>
    if e.asked ∨ 64 ≤ x.canFifo.length ∨ s.sigStopped n then s
    else (s.setStrain true { x with canFifo := x.canFifo ++ [k] }).setEngine n { e with asked := true }

/-- A verdict returned to engine `n`, which goes on with its item, a signal step of a stopped job once the job runs again. -/
def State.giveVerdict (s : State) (n : Nat) (v : CanVerdict) : State :=
  let x := s.engine n
  if !x.asked then s
  else if s.sigStopped n then s.setEngine n { x with verdict := some v }
  else match x.work with
    | .route b f r :: t =>
      let (more, s) := s.routed n b f r v
      s.runWork n (more ++ t)
    | .ask d _ g pdu :: t => (s.asked n d g pdu v).runWork n t
    | _ => s

/-- A signal job that runs again takes the verdict that came while it was stopped (R432). -/
def State.resumeVerdict (s : State) (n : Nat) : State :=
  match (s.engine n).verdict with
  | none => s
  | some v => (s.setEngine n { s.engine n with verdict := none }).giveVerdict n v

/-- `CAN_KEY_JUDGE`: the oldest key is judged, and the verdict returned to its infuser. -/
def canKeyJudgeStep (s : State) : State :=
  let x := s.strain true
  match x.canFifo with
  | [] => s
  | k :: t =>
    let (v, s) := (s.setStrain true { x with canFifo := t }).judgeCan k
    s.giveVerdict k.infuser v

/-- The next step of the signal job run: it leaves the job's list. -/
def State.sigStep (s : State) (n : Nat) : State :=
  let x := s.engine n
  match x.job with
  | [] => s
  | (tick, kind, i) :: t =>
    let s := s.setEngine n { x with job := t, inSig := true }
    let r := if kind = 0 then ([], s.closeTunnels n) else if kind = 1 then ([], s.revertSource n tick i) else s.sendDest n i
    r.2.runWork n r.1

/-- A signal step is what the engine picks: `want` says which steps the command runs. -/
def sigItem (n : Nat) (want : Nat × Nat × Nat → Bool) (s : State) : State :=
  if s.engRuns n then
    match s.nextItem n false, (s.engine n).job with
    | .sig turn, j :: _ => if want j then (s.item n turn).sigStep n else s
    | _, _ => s
  else s

/-- A frame of bus `b` taken by engine `n`: its route is searched (R214), and its key is next. An armed injection alters the first word
that the search reads. -/
def State.routeFrame (s : State) (n b : Nat) (f : BusFrame) : State :=
  let count := s.rd uGwAny F.gw_BUS_ROUTE_COUNT b
  let first := s.rd uGwAny F.gw_BUS_ROUTE_BASE b + (count - 1) / 2
  let (bad, s) := if s.armed (uGw n) 0 ∧ 0 < count then s.tblCheck n 0 first else (false, s)
  match (if bad then .miss else s.routeOf b f) with
  | .miss => s.sat uGwAny F.gw_NO_ROUTE b
  | .failed m => (s.tblFault n 0 m).sat uGwAny F.gw_NO_ROUTE b
  | .hit m => s.runWork n [.route b f (s.tblAt 0 m)]

/-- `INFUSER_RX_ITEM`. -/
def rxItemStep (n : Nat) (s : State) : State :=
  if s.engRuns n then
    match s.nextItem n false with
    | .src b =>
      match s.inQ b with
      | f :: t =>
        if b = 38 then s
        else
          let s := (s.item n false).setInQ b t
          (s.setEngine n { s.engine n with rr := b }).routeFrame n b f
      | [] => s
    | _ => s
  else s

/-- The AVTP part of a frame at P13: after its addresses, up to two tags that PIPE_W recognises and EtherType 0x22F0. -/
def State.avtpOf (s : State) (b : List Byte) : Option (List Byte) :=
  let o := etypeAt (s.rd (uPipe true) F.pipe_PARSE_CFG_ALT_TPID) b
  if be16 b o = 0x22F0 then some (b.drop (o + 2)) else none

/-- The inbound tunnel that an AVTP PDU belongs to (R212): version 0 with sv 1 (Table 9.5). -/
def State.inboundTunnel (s : State) (a : List Byte) : Option Nat :=
  if (byteAt a 0 = 0x82 ∨ byteAt a 0 = 0x05) ∧ byteAt a 1 / 16 = 8 then
    let id := be32 a 4 * 2 ^ 32 + be32 a 8
    (s.gw.tunnel.map (·.1)).find? (fun t =>
      tunValid (s.tblAt 1 t) && tunInbound (s.tblAt 1 t) && tunStream (s.tblAt 1 t) == id)
  else none

/-- An inbound PDU unpacked in message order; a gap in its sequence number counts. -/
def State.unpack (s : State) (n t : Nat) (a : List Byte) : State :=
  let u := uGw n
  let tscf := byteAt a 0 == 0x05
  let seq := if tscf then byteAt a 2 else byteAt a 3
  let len := if tscf then be16 a 20 else be16 a 1 % 2048
  let s := match pmGet s.gw.seqIn t with
    | some q => if seq = (q + 1) % 256 then s else s.sat u F.gw_SEQ_GAP
    | none => s
  let s := { s with gw := { s.gw with seqIn := pmSet s.gw.seqIn t seq } }
  let s := s.inc u F.gw_TUN_PDU_IN
  let data := (a.drop (if tscf then 24 else 12)).take len
  s.runWork n ((acfSplit data.length data).map (.message (s.tblAt 1 t)))

/-- `INFUSER_ETH_ITEM`. -/
def ethItemStep (n : Nat) (s : State) : State :=
  if s.engRuns n ∧ s.nextItem n false = .src 38 then
    match (s.engine n).ethIn with
    | (_, b) :: t =>
      let s := s.item n false
      let s := s.setEngine n { s.engine n with ethIn := t, rr := 38 }
      match (s.avtpOf b).bind (fun a => (s.inboundTunnel a).map (fun k => (k, a))) with
      | some (k, a) => s.unpack n k a
      | none => s
    | [] => s
  else s

/-- `INFUSER_SB_ITEM`: the oldest side-band change is taken; its reaction is defined by the image's mapping, which the
manual does not give (R226); last_was_sig stays (R208). -/
def sbItemStep (n : Nat) (s : State) : State :=
  if s.engRuns n ∧ s.nextItem n false = .sb then
    let s := s.item n (s.engine n).lastSig
    (s.setEngine n { s.engine n with sb := (s.engine n).sb.tail }).idlePass n
  else s

/-- A changed `SB_ERR_m` goes to the owner of its bus: C8 to C15, then L4 to L7 (R226). -/
def State.sbDeliver (s : State) (m : Nat) (level : Bool) : State :=
  match s.engineOf (s.owner (if m < 8 then 8 + m else 12 + m)) with
  | none => s
  | some n => s.setEngine n { s.engine n with sb := (s.engine n).sb ++ [(m, level)] }

/-! ### P13 (R211, R212) -/

/-- `P13_PDU_HANDOFF`: the first completed PDU whose class is not stalled is offered to P13. -/
def p13PduHandoffStep (n : Nat) (s : State) : State :=
  let x := s.engine n
  if n < 13 ∧ s.enabled (uGw n) then
    match findIdx1 (fun (p : Nat × List Byte) => !s.stalledClass 13 p.1) x.p13Out 0 with
    | none => s
    | some (i, p) =>
      (s.setEngine n { x with p13Out := x.p13Out.eraseIdx i }).offer 13
        { inPort := 13, inSub := n, tc := p.1, ts := s.wcNs % 2 ^ 32 } p.2
  else s

/-- `P13_DISPATCH`: the oldest copy that the Spout of P13 delivered goes to the engine that runs its tunnel's OWNER, or is
discarded and counted; a frame above 1,522 bytes finds no room in the Ethernet inbound buffer (Table 9.1, log entry 78). -/
def p13DispatchStep (s : State) : State :=
  match findIdx1 (fun (d : Delivered) => d.port == 13) s.fab.delivered 0 with
  | none => s
  | some (i, d) =>
    let s := { s with fab := { s.fab with delivered := s.fab.delivered.eraseIdx i } }
    match (s.avtpOf d.bytes).bind s.inboundTunnel with
    | none => s.sat uGwAny F.gw_NO_STREAM_COUNT
    | some t =>
      match s.engineOf (tunOwner (s.tblAt 1 t)) with
      | none => s.sat uGwAny F.gw_NO_STREAM_COUNT
      | some n =>
        let x := s.engine n
        if 8 ≤ x.ethIn.length ∨ 1522 < d.bytes.length then s.sat (uGw n) F.gw_ETH_IN_DROP
        else s.setEngine n { x with ethIn := x.ethIn ++ [(t, d.bytes)] }

/-! ### TBL_CMD and MEM_DATA (R217, R229) -/

def tblOk : Nat := 0
def tblBadArg : Nat := 1
def tblEccErr : Nat := 2

def State.tblStatus (s : State) (st : Nat) : State :=
  (s.wr uGwAny F.gw_TBL_CMD_STATUS st).wr uGwAny F.gw_TBL_CMD_BUSY 0

/-- TBL_DATA as one number, and put back: 8 words for a tunnel entry, 4 for the others. -/
def tblWords (table : Nat) : Nat := if table = 1 then 8 else 4
def State.tblData (s : State) (table : Nat) : Nat :=
  (List.range (tblWords table)).foldr (fun k a => s.rd uGwAny F.gw_TBL_DATA_DATA k + 2 ^ 32 * a) 0
def State.setTblData (s : State) (table v : Nat) : State :=
  (List.range (tblWords table)).foldl (fun s k => s.wr uGwAny F.gw_TBL_DATA_DATA (v / 2 ^ (32 * k)) k) s

/-- A route entry at `i` keeps every committed range that holds `i` in the order of R214. -/
def State.routeOrdered (s : State) (i e : Nat) : Bool :=
  (List.range 38).all (fun b =>
    let base := s.rd uGwAny F.gw_BUS_ROUTE_BASE b
    let count := s.rd uGwAny F.gw_BUS_ROUTE_COUNT b
    if base ≤ i ∧ i < base + count then
      decide (routeLow e ≤ routeHigh e) &&
      (i == base || decide (routeHigh (s.tblAt 0 (i - 1)) < routeLow e)) &&
      (i + 1 == base + count || decide (routeHigh e < routeLow (s.tblAt 0 (i + 1))))
    else true)

/-- A TBL_CMD written through the window of instance `n`. -/
def State.tblCommand (s : State) (n master : Nat) (run : State → State) : State :=
  if n < 13 then s.command (uGw n) master (fldAddr (uGw n) F.gw_TBL_CMD_STATUS 0 0) run else s

/-- `TBL_WRITE`. -/
def tblWriteRun (table i : Nat) (s : State) : State :=
  let v := s.tblData table
  if 4 ≤ table ∨ tblSize table ≤ i then s.tblStatus tblBadArg
  else if table = 0 ∧ !s.routeOrdered i v then s.tblStatus tblBadArg
  else (s.putTbl table i v).tblStatus tblOk

/-- `TBL_READ`: a word that fails its check gives ECC_ERR and is reported. -/
def tblReadRun (n table i : Nat) (s : State) : State :=
  if 4 ≤ table ∨ tblSize table ≤ i then s.tblStatus tblBadArg
  else
    let (bad, s) := s.tblCheck n table i
    if bad then s.tblStatus tblEccErr else (s.setTblData table (s.tblAt table i)).tblStatus tblOk

/-- `TBL_CLEAR`: the entry becomes invalid, all bits 0. -/
def tblClearRun (table i : Nat) (s : State) : State :=
  if 4 ≤ table ∨ tblSize table ≤ i then s.tblStatus tblBadArg else (s.putTbl table i 0).tblStatus tblOk

/-- The word that MEM_ADDR of an engine selects among its memories, and the address after it. -/
def State.memIndex (s : State) (n : Nat) : Nat :=
  n * 2 ^ 15 + s.rd (uGw n) F.gw_MEM_ADDR_SPACE * 2 ^ 14 + s.rd (uGw n) F.gw_MEM_ADDR_WORD
def State.memNext (s : State) (n : Nat) : State := s.inc (uGw n) F.gw_MEM_ADDR_WORD

/-- `MEM_DATA_WRITE`: takes effect only while the unit does not count as enabled; else a value that differs from the addressed word
is refused (R431). -/
def memDataWriteStep (n : Nat) (v : Word) (master : Nat) (s : State) : State :=
  let a := fldAddr (uGw n) F.gw_MEM_DATA_DATA 0 0
  if n < 13 then
    if s.enabled (uGw n) then
      s.command (uGw n) master a (fun s =>
        if v = BitVec.ofNat 32 (smGet zero0 s.gw.mem (s.memIndex n)) then s else s.refuse master a)
    else s.command (uGw n) master a (fun s =>
      { s with gw := { s.gw with mem := smSet zero0 s.gw.mem (s.memIndex n) v.toNat } }.memNext n)
  else s

/-- `MEM_DATA_READ`: an injected error of the infuser memory shows here. -/
def memDataReadStep (n : Nat) (s : State) : State :=
  if n < 13 then
    let i := s.memIndex n
    let w := BitVec.ofNat 32 (smGet zero0 s.gw.mem i)
    let (c, inj, s) := s.codeCheck (uGw n) 0 .good
    let s := if c = .good then s else s.fireInj (uGw n) 0 { access := 1, addr := i % 2 ^ 15 } inj
    { (s.memNext n) with readData := w }
  else { s with readData := 0#32 }

/-! ### The commands -/

/-- `INFUSER_RX_ITEM`. -/
def execInfuserRxItem (engine : Nat) (s : State) : Host.Outcome State Fault Refusal := .next (rxItemStep engine s)
/-- `INFUSER_ETH_ITEM`. -/
def execInfuserEthItem (engine : Nat) (s : State) : Host.Outcome State Fault Refusal := .next (ethItemStep engine s)
/-- `INFUSER_SB_ITEM`. -/
def execInfuserSbItem (engine : Nat) (s : State) : Host.Outcome State Fault Refusal := .next (sbItemStep engine s)
/-- `SIG_STEP`: the next step of the signal job, whatever it is. -/
def execSigStep (engine : Nat) (s : State) : Host.Outcome State Fault Refusal :=
  .next (sigItem engine (fun _ => true) s)
/-- `SIGNAL_TIMEOUT`: the next step, if it is the timeout of that source PDU. -/
def execSignalTimeout (engine pdu : Nat) (s : State) : Host.Outcome State Fault Refusal :=
  .next (sigItem engine (fun j => j.2.1 == 1 && j.2.2 == pdu) s)
/-- `PDU_DUE`: the next step, if it sends that destination PDU. -/
def execPduDue (engine pdu : Nat) (s : State) : Host.Outcome State Fault Refusal :=
  .next (sigItem engine (fun j => j.2.1 == 2 && j.2.2 == pdu) s)
/-- `P13_PDU_HANDOFF`. -/
def execP13PduHandoff (engine : Nat) (s : State) : Host.Outcome State Fault Refusal := .next (p13PduHandoffStep engine s)
/-- `P13_DISPATCH`. -/
def execP13Dispatch (s : State) : Host.Outcome State Fault Refusal := .next (p13DispatchStep s)
/-- `TBL_NOP`. -/
def execTblNop (inst master : Nat) (s : State) : Host.Outcome State Fault Refusal :=
  .next (s.tblCommand inst master (fun s => s.tblStatus tblOk))
/-- `TBL_WRITE`. -/
def execTblWrite (inst table index master : Nat) (s : State) : Host.Outcome State Fault Refusal :=
  .next (s.tblCommand inst master (tblWriteRun table index))
/-- `TBL_READ`. -/
def execTblRead (inst table index master : Nat) (s : State) : Host.Outcome State Fault Refusal :=
  .next (s.tblCommand inst master (tblReadRun inst table index))
/-- `TBL_CLEAR`. -/
def execTblClear (inst table index master : Nat) (s : State) : Host.Outcome State Fault Refusal :=
  .next (s.tblCommand inst master (tblClearRun table index))
/-- `TBL_CMD_INVALID`: another opcode gives BAD_ARG. -/
def execTblCmdInvalid (inst master : Nat) (s : State) : Host.Outcome State Fault Refusal :=
  .next (s.tblCommand inst master (fun s => s.tblStatus tblBadArg))
/-- `MEM_DATA_WRITE`. -/
def execMemDataWrite (engine : Nat) (value : Word) (master : Nat) (s : State) : Host.Outcome State Fault Refusal :=
  .next (memDataWriteStep engine value master s)
/-- `MEM_DATA_READ`. -/
def execMemDataRead (engine : Nat) (s : State) : Host.Outcome State Fault Refusal := .next (memDataReadStep engine s)

end Sys2Proof.Machine
end

