-- ==== Sys2Proof/Machine/Sleep.lean ====
section
/-! DEFINITION. Consent rings, sleep phases and wake (chapter 10), as far as NETM and the Cosy wake controller decide it. -/

namespace Sys2Proof.Machine

/-! ### Rings (R230 to R234) -/

def phAwake : Nat := 0
def phAgreed : Nat := 1
def phDraining : Nat := 2
def phCommitted : Nat := 3

def noRing (_ : Nat) : RingState := {}
def State.ring (s : State) (r : Nat) : RingState := smGet noRing s.netm.rings r
def State.setRing (s : State) (r : Nat) (x : RingState) : State :=
  { s with netm := { s.netm with rings := smSet noRing s.netm.rings r x } }

def State.phase (s : State) : Nat := s.rd uNetm F.netm_NETM_STATUS_PHASE
def State.setPhase (s : State) (p : Nat) : State :=
  { s with netm := { s.netm with timer := 0 } }.wr uNetm F.netm_NETM_STATUS_PHASE p

/-- Nodes of a ring: 2 to 64. -/
def State.ringCount (s : State) (r : Nat) : Nat :=
  clampNat 2 64 (if r = 0 then s.rd uNetm F.netm_NETM_CFG_BB_COUNT else s.rd uNetm F.netm_SUB_CFG_COUNT (r - 1))

/-- The RING identifier of a ring. -/
def State.ringId (s : State) (r : Nat) : Nat :=
  if r = 0 then s.rd uNetm F.netm_NETM_CFG_BB_RING else s.rd uNetm F.netm_SUB_CFG_RING (r - 1)

/-- The device's position on a ring: 0 on every sub-ring, BB_POS on the backbone. -/
def State.ringPos (s : State) (r : Nat) : Nat := if r = 0 then s.rd uNetm F.netm_NETM_CFG_BB_POS else 0

/-- BB_EN with a position that the backbone does not have: the rings stay idle. -/
def State.badPosition (s : State) : Bool :=
  s.flag uNetm F.netm_NETM_CFG_BB_EN && decide (s.ringCount 0 ≤ s.ringPos 0)

/-- The rings run. -/
def State.ringsRun (s : State) : Bool := s.enabled uNetm && s.flag uNetm F.netm_NETM_CFG_EN && !s.badPosition

/-- The rings that the configuration has: the backbone if BB_EN, and every enabled sub-ring. -/
def State.ringList (s : State) : List Nat :=
  (if s.flag uNetm F.netm_NETM_CFG_BB_EN then [0] else []) ++ (bitsOf 24 (s.rd uNetm F.netm_NETM_SUB_EN_EN)).map (· + 1)

/-- A ring runs. -/
def State.ringRuns (s : State) (r : Nat) : Bool := s.ringsRun && s.ringList.contains r

/-- The sub-rings that run. -/
def State.subRings (s : State) : List Nat := s.ringList.filter (· != 0)

/-- The device drives the phases: it is the top, or position 0 of the backbone (R235). -/
def State.drives (s : State) : Bool := !s.flag uNetm F.netm_NETM_CFG_BB_EN || s.ringPos 0 == 0

/-- LOCAL_OK as R234 defines it. -/
def State.localOk (s : State) : Bool :=
  s.rd uNetm F.netm_NETM_LOCAL_HOLD == 0 && !s.safe && !s.fallback

/-- `ring_ok` of every enabled sub-ring. -/
def State.subsOk (s : State) : Bool := s.subRings.all (fun r => (s.ring r).ok)

/-- The device's own consent on a ring (R234). -/
def State.ownConsent (s : State) (r : Nat) : Bool := s.localOk && (r != 0 || s.subsOk)

/-- `ring_ok` of a ring, which SUB_OK shows for a sub-ring. -/
def State.setRingOk (s : State) (r : Nat) (b : Bool) : State :=
  let s := s.setRing r { s.ring r with ok := b }
  if r = 0 then s
  else if b then s.orBit uNetm F.netm_NETM_STATUS_SUB_OK (r - 1) else s.clrBit uNetm F.netm_NETM_STATUS_SUB_OK (r - 1)

/-- The round number of a ring, which SUB_STATUS shows for a sub-ring. -/
def State.setRound (s : State) (r n : Nat) : State :=
  let s := s.setRing r { s.ring r with round := n }
  if r = 0 then s else s.wr uNetm F.netm_SUB_STATUS_ROUND n (r - 1)

/-! ### Messages (R230, R231) -/

def tyToken : Nat := 1
def tyAgree : Nat := 2
def tyDrain : Nat := 3
def tyCommit : Nat := 4
def tyWake : Nat := 5

/-- A ring message (Table 10.1), with its CHECK. -/
def ringBytes (type ring sender round : Nat) (consent : Bool) (votes arg : Nat) : List Byte :=
  let b := [16 + type % 16, ring % 256, sender % 64, round % 256, b2n consent * 128 + votes % 128, arg % 256, 0]
  (b ++ [255 - b.foldl (· + ·) 0 % 256]).map (BitVec.ofNat 8)

/-- The Ethernet frame that carries a message. -/
def State.ringFrame (s : State) (m : List Byte) : List Byte :=
  let da := s.rd uNetm F.netm_NETM_RING_DA_HI_DA * 2 ^ 32 + s.rd uNetm F.netm_NETM_RING_DA_LO_DA
  let sa := s.rd uGwAny F.gw_GW_SA_HI_SA * 2 ^ 32 + s.rd uGwAny F.gw_GW_SA_LO_SA
  let b := beBytes 6 da ++ beBytes 6 sa ++ beBytes 2 0x88B5 ++ m
  let b := b ++ List.replicate (60 - b.length) 0#8
  b ++ fcsBytes b false

/-- A message sent on a ring: on a CAN sub-ring into the channel's transmit queue if it has room, on the others as a triad
frame on P15, whose class before the verdict is a free value (log entries 1, 39). -/
def State.sendRing (s : State) (r type : Nat) (consent : Bool) (votes arg round : Nat) : State :=
  let m := ringBytes type (s.ringId r) (s.ringPos r) round consent votes arg
  if 1 ≤ r ∧ r ≤ 16 then
    let n := r - 1
    let f : BusFrame := { format := 0, id := s.rd uNetm F.netm_SUB_CFG_CAN_ID n * 2 ^ 18, dlc := 8, data := m }
    let x := s.canAt n
    if 16 ≤ x.txq.length ∨ 128 < slotsOf x.txq + 1 then s else s.setCan n { x with txq := x.txq ++ [f] }
  else
    (s.offer 15 { inPort := 15, tc := s.drawn 8, ts := s.wcNs % 2 ^ 32 } (s.ringFrame m)).draw

/-- A message of one type on each ring of a list. -/
def State.sendAll (s : State) (rs : List Nat) (type arg : Nat) : State :=
  rs.foldl (fun s r => s.sendRing r type false 0 arg (s.ring r).round) s

/-- The medium of a ring is live: the CAN controller takes part, the segment works, the fabric is enabled. -/
def State.ringLive (s : State) (r : Nat) : Bool :=
  if r = 0 then s.enabled uFab && s.bootDone
  else if r ≤ 16 then s.canOn (r - 1)
  else s.enabled uFab && s.segOn (r - 17)

/-! ### The Cosy wake detectors (R236 to R239) -/

/-- The detectors armed; the error counts of the selective-wake decoders start at 0 (R242). -/
def State.armOnly (s : State) : State :=
  let s := { s with cosy := { s.cosy with armed := true, latched := false } }
  (List.range 8).foldl (fun s n => s.wr uCosy F.cosy_SW_CFG_ERR_CNT 0 n) s
def State.disarm (s : State) : State :=
  { s with cosy := { s.cosy with armed := false, latched := false, commitReq := false, timerOn := false } }

/-- A phase other than Awake left: ABORTS counts it, the detectors are disarmed (but once a commit has been accepted the Cosy die goes on
to power down, and no wake may be lost: R239), LIN schedules run again, and the backbone round that was complete is used up. -/
def State.leavePhase (s : State) : State :=
  let s := (s.setPhase phAwake).inc uNetm F.netm_ABORTS
  let s := { s with netm := { s.netm with agreeSeen := false, drainSeen := none, commitSeen := false } }
  let s := s.setRing 0 { s.ring 0 with ok := false }
  let s := if s.cosy.committed then s else s.disarm
  (List.range 8).foldl (fun s n => s.setLin n { s.linAt n with stopped := false }) s

/-- The return to Awake with WAKE on every ring. -/
def State.toAwake (s : State) (reason source : Nat) : State :=
  let s := s.leavePhase
  let s := (s.wr uNetm F.netm_NETM_LAST_WAKE_REASON reason).wr uNetm F.netm_NETM_LAST_WAKE_SOURCE source
  let s := s.ringList.foldl (fun s r => s.setRing r { s.ring r with fresh := true, waiting := false, tokens := [] }) s
  s.sendAll s.ringList tyWake reason

/-- A wake event in the phases that it ends at once (Table 10.2). -/
def State.ringAbort (s : State) (reason source : Nat) : State :=
  if s.ringsRun ∧ (s.phase = phAgreed ∨ s.phase = phDraining) then s.toAwake reason source else s

/-- LOCAL_OK brought up to date; its fall ends the phases Agreed and Draining. -/
def State.netmLocal (s : State) (reason : Nat) : State :=
  let was := s.flag uNetm F.netm_NETM_STATUS_LOCAL_OK
  let s' := s.wr uNetm F.netm_NETM_STATUS_LOCAL_OK (b2n s.localOk)
  if was ∧ !s.localOk then s'.ringAbort reason 0 else s'

/-- The first wake after an arming takes WAKE_REASON; every wake counts. -/
def State.latchWake (s : State) (reason source : Nat) : State :=
  let s := s.inc uCosy F.cosy_WAKES_COUNT
  if s.cosy.latched then s
  else
    let s := { s with cosy := { s.cosy with latched := true } }
    (s.wr uCosy F.cosy_WAKE_REASON_REASON reason).wr uCosy F.cosy_WAKE_REASON_SOURCE source

/-- The integrated transceivers, all NORMAL again. -/
def State.xcvrNormal (s : State) : State :=
  ((List.range 24).filter xcvrExists).foldl (fun s x => s.setXcvr x 0) s

/-- The steps after an accepted commit abandoned before INH falls: transceivers NORMAL, registers unlocked. -/
def State.cancelCommit (s : State) : State :=
  { s.xcvrNormal with cosy := { s.cosy with committed := false, locked := false } }

/-- A wake detected by an armed detector: unpowered, it asserts INH and starts the Brew die; after acceptance of a commit,
it cancels the remaining steps; before, it is latched and passed to NETM. -/
def State.wakeEvent (s : State) (reason source : Nat) : State :=
  if !s.cosy.armed then s
  else if s.cosy.power = 1 ∨ s.cosy.power = 2 then
    let s := s.latchWake reason source
    let s := s.wr uCosy F.cosy_PWR_STATUS_INH 1
    let s := (s.wr uCosy F.cosy_START_CAUSE_PREV_CAUSE (s.rd uCosy F.cosy_START_CAUSE_CAUSE)).wr uCosy
      F.cosy_START_CAUSE_CAUSE 8
    { s.wr uCosy F.cosy_PWR_STATUS_STATE 3 with cosy := { s.cosy with power := 3, locked := false, timerOn := false } }
  else if s.cosy.committed then
    let s := (s.latchWake reason source).cancelCommit
    if s.ringsRun ∧ s.phase ≠ phAwake then s.toAwake reason source else s.disarm
  else (s.latchWake reason source).ringAbort reason source

/-- A wake pin stands at its active level (PIN_LEVEL, Table 10.8). -/
def State.pinActive (s : State) (p : Nat) : Bool :=
  bitOf s.cosy.wakePins p == bitOf (s.rd uCosy F.cosy_WAKE_CFG_PIN_LEVEL) p

/-- Every enabled wake pin that is active already reports a wake (R236). -/
def State.reportActive (s : State) : State :=
  (bitsOf 4 (s.rd uCosy F.cosy_WAKE_CFG_PIN_EN)).foldl (fun s p => if s.pinActive p then s.wakeEvent 1 p else s) s

/-- Every detector that WAKE_CFG enables armed; one whose input is already active reports a wake at once (R236). -/
def State.arm (s : State) : State := s.armOnly.reportActive

/-! ### Sleep phases (R235) -/

/-- Entry to a phase with its messages: a follower sends on its sub-rings only. -/
def State.enterPhase (s : State) (ph type arg : Nat) : State :=
  let rs := if s.drives then s.ringList else s.subRings
  let s := s.ringList.foldl (fun s r => s.setRing r { s.ring r with tokens := [] }) s
  (s.sendAll rs type arg).setPhase ph

def State.enterAgreed (s : State) : State :=
  let s := ({ s with netm := { s.netm with agreeSeen := false } }.enterPhase phAgreed tyAgree 0).inc uNetm F.netm_AGREEMENTS
  s.setRing 0 { s.ring 0 with ok := false }

def State.enterDraining (s : State) (len : Nat) : State :=
  let s := { s with netm := { s.netm with drainSeen := none, drainLen := max 2 len } }
  (s.enterPhase phDraining tyDrain (max 2 len)).arm

/-- The drain length is over: COMMIT on the rings and the commit request to the Cosy die. -/
def State.enterCommitted (s : State) : State :=
  let s := { s with netm := { s.netm with commitSeen := false } }.enterPhase phCommitted tyCommit 0
  { s with cosy := { s.cosy with commitReq := true } }

/-- A WAKE that waits until its medium is live is sent, whether or not the rings run (Table 10.2, last row; log entry 102). -/
def State.wakeFlush (s : State) (r : Nat) : State :=
  let x := s.ring r
  match x.wake with
  | some w =>
    if s.ringLive r then (s.setRing r { x with wake := none }).sendRing r tyWake false 0 w x.round else s
  | none => s

/-- Sending at a boundary the TOKENs called for. -/
def State.ringFlush (s : State) (r : Nat) : State :=
  let x := s.ring r
  let s := s.setRing r { x with tokens := [], since := x.since + 1 }
  x.tokens.foldl (fun s t => s.sendRing r tyToken t.2.1 t.2.2 0 t.1) s

/-- The transitions of Table 10.2 and the messages of a tick boundary while the rings run. -/
def State.ringsTick (s : State) : State :=
    let n := s.netm
    let s := { s with netm := { n with timer := n.timer + 1, bbSince := n.bbSince + 1 } }
    let s := s.wr uNetm F.netm_NETM_STATUS_BB_SEEN (b2n (s.flag uNetm F.netm_NETM_STATUS_BB_SEEN &&
      decide (s.netm.bbSince ≤ max 1 (s.rd uNetm F.netm_NETM_TIMING_TOKEN_TIMEOUT))))
    let s :=
      if s.phase = phAwake then
        if s.drives then
          (if (if s.flag uNetm F.netm_NETM_CFG_BB_EN then (s.ring 0).ok else s.localOk && s.subsOk) then s.enterAgreed
           else s)
        else if n.agreeSeen then s.enterAgreed else s
      else if s.phase = phAgreed ∧ !s.drives then
        match n.drainSeen with
        | some a => s.enterDraining a
        | none => s
      else if s.phase = phDraining ∧ !s.drives ∧ n.commitSeen ∧ n.drainLen ≤ n.timer + 1 then s.enterCommitted
      else s
    s.ringList.foldl (fun s r => s.ringFlush r) s

/-- A tick boundary at NETM: the WAKEs that wait for their medium, and what the rings do. -/
def State.netmTick (s : State) : State :=
  let s := if s.enabled uNetm then s.ringList.foldl (fun s r => s.wakeFlush r) s else s
  if s.ringsRun then s.ringsTick else s

/-- A new round of a ring at position 0 (R233): `ring_ok` is cleared, and a TOKEN is due at the next boundary. -/
def State.startRound (s : State) (r : Nat) : State :=
  let x := s.ring r
  let own := s.ownConsent r
  let n := (x.round + 1) % 256
  let s := s.setRing r { x with since := 0, waiting := true, fresh := false, tokens := x.tokens ++ [(n, own, b2n own)] }
  (s.setRound r n).setRingOk r false

/-- The device is position 0 of a running ring in the Awake phase. -/
def State.roundsAt (s : State) (r : Nat) : Bool := s.ringRuns r && s.ringPos r == 0 && s.phase == phAwake

/-- `ROUND_START`: after ROUND_TICKS, or at the start of the rings. -/
def roundStartStep (r : Nat) (s : State) : State :=
  let x := s.ring r
  if s.roundsAt r ∧ (x.fresh ∨ (!x.waiting ∧ max 1 (s.rd uNetm F.netm_NETM_TIMING_ROUND_TICKS) ≤ x.since)) then
    s.startRound r
  else s

/-- `TOKEN_TIMEOUT`: a round has not completed within TOKEN_TIMEOUT ticks. -/
def tokenTimeoutStep (r : Nat) (s : State) : State :=
  let x := s.ring r
  if s.roundsAt r ∧ x.waiting ∧ max 1 (s.rd uNetm F.netm_NETM_TIMING_TOKEN_TIMEOUT) ≤ x.since then
    (s.sat uNetm F.netm_TOKEN_LOST).startRound r
  else s

/-- An ignored message (R232). -/
def State.badMsg (s : State) : State := s.sat uNetm F.netm_BAD_MSG

/-- A message of a running ring with the ring's own identifier is taken; another counts in BAD_MSG, and one that the device sent
itself is not taken (R232). An accepted backbone message shows in BB_SEEN. -/
def State.ringMessage (s : State) (r : Nat) (m : RingIn) (run : State → State) : State :=
  if !s.ringRuns r then s
  else if m.ring % 256 ≠ s.ringId r then s.badMsg
  else if m.sender % 64 = s.ringPos r then s
  else
    run (if r = 0 then { s with netm := { s.netm with bbSince := 0 } }.wr uNetm F.netm_NETM_STATUS_BB_SEEN 1 else s)

/-- A TOKEN with the ring's identifier and not the device's own is one that R233 accepts: at position 0 the end of the present
round, elsewhere the TOKEN of the node before with a round not forwarded yet. -/
def State.tokenFits (s : State) (r : Nat) (m : RingIn) : Bool :=
  if s.ringPos r = 0 then m.sender % 64 + 1 == s.ringCount r && m.round % 256 == (s.ring r).round
  else m.sender % 64 + 1 == s.ringPos r && (s.ring r).lastFwd != some (m.round % 256)

/-- An accepted TOKEN: position 0 completes its round, another position forwards it at the next boundary (R233). -/
def State.takeToken (s : State) (r : Nat) (m : RingIn) : State :=
  if s.ringPos r = 0 then
    let s := (s.setRing r { s.ring r with waiting := false }).inc uNetm F.netm_ROUNDS
    let s := if r = 0 then s else s.wr uNetm F.netm_SUB_STATUS_VOTES (m.votes % 128) (r - 1)
    s.setRingOk r (m.consent && m.votes % 128 == s.ringCount r)
  else
    let own := s.ownConsent r
    s.setRing r { s.ring r with
      lastFwd := some (m.round % 256)
      tokens := (s.ring r).tokens ++ [(m.round % 256, m.consent && own, m.votes % 128 + b2n own)] }

/-- `TOKEN` (R233): one that does not fit counts in BAD_MSG; outside Awake a TOKEN of the ring is ignored without a count. -/
def ringTokenStep (r : Nat) (m : RingIn) (s : State) : State :=
  if !s.ringRuns r then s
  else if m.ring % 256 ≠ s.ringId r then s.badMsg
  else if m.sender % 64 = s.ringPos r ∨ s.phase ≠ phAwake then s
  else if s.tokenFits r m then s.ringMessage r m (fun s => s.takeToken r m)
  else s.badMsg

/-- The device follows the backbone and this is a backbone message in phase `ph`. -/
def State.followsIn (s : State) (r ph : Nat) : Bool := r == 0 && !s.drives && s.phase == ph

/-- `AGREE`. -/
def ringAgreeStep (r : Nat) (m : RingIn) (s : State) : State :=
  s.ringMessage r m (fun s =>
    if s.followsIn r phAwake then { s with netm := { s.netm with agreeSeen := true } } else s)

/-- `DRAIN`. -/
def ringDrainStep (r : Nat) (m : RingIn) (s : State) : State :=
  s.ringMessage r m (fun s =>
    if s.followsIn r phAgreed then { s with netm := { s.netm with drainSeen := some (m.arg % 256) } } else s)

/-- `COMMIT`. -/
def ringCommitStep (r : Nat) (m : RingIn) (s : State) : State :=
  s.ringMessage r m (fun s =>
    if s.followsIn r phDraining then { s with netm := { s.netm with commitSeen := true } } else s)

/-- `WAKE`: `ring_ok` of its sub-ring is cleared; the phases Agreed and Draining end at once. -/
def ringWakeStep (r : Nat) (m : RingIn) (s : State) : State :=
  s.ringMessage r m (fun s => (if r = 0 then s else s.setRingOk r false).ringAbort 8 r)

/-- A received ring message read by Table 10.1: TYPE and fields, if VERSION, CHECK and TYPE are good (R232). -/
def ringParse (l : List Byte) : Option (Nat × RingIn) :=
  let type := byteAt l 0 % 16
  let sum := (l.take 7).foldl (fun a b => a + b.toNat) 0
  if 8 ≤ l.length ∧ byteAt l 0 / 16 = 1 ∧ 1 ≤ type ∧ type ≤ 5 ∧ byteAt l 7 = 255 - sum % 256 then
    some (type, ⟨byteAt l 1, byteAt l 2 % 64, byteAt l 3, bitOf (byteAt l 4) 7, byteAt l 4 % 128, byteAt l 5⟩)
  else none

/-- A message that a controller or P15 copies to NETM, for one ring. -/
def State.netmReceive (s : State) (r : Nat) (l : List Byte) : State :=
  if !s.ringRuns r then s
  else match ringParse l with
    | none => s.badMsg
    | some (ty, m) =>
      if ty = tyToken then ringTokenStep r m s
      else if ty = tyAgree then ringAgreeStep r m s
      else if ty = tyDrain then ringDrainStep r m s
      else if ty = tyCommit then ringCommitStep r m s
      else ringWakeStep r m s

/-- The identifier of a CAN sub-ring: a classical data frame with it on channel `n` is copied to NETM (R230). -/
def State.ringCanFrame (s : State) (n : Nat) (f : BusFrame) : Bool :=
  f.format == 0 && !f.ide && !f.remote && f.id / 2 ^ 18 == s.rd uNetm F.netm_SUB_CFG_CAN_ID n

/-- A frame that channel `n` has received, copied to NETM if it is a ring message. -/
def State.netmCan (s : State) (n : Nat) (f : BusFrame) : State :=
  if s.ringCanFrame n f then s.netmReceive (n + 1) f.data else s

/-- `CAN_FRAME_RECEIVE`: a frame from the bus, if there is one, copied to NETM where it is a ring message (R230), and the hand-off of the
receive buffer. When the controller hands a frame
on is the environment's to say (DESIGN CHOICE, log entry 100). -/
def canFrameReceiveStep (n : Nat) (f : Option BusFrame) (sec : Option CanSecIn) (age : Nat) (pass : Bool) (s : State) : State :=
  if n < 16 ∧ s.enabled (uCan n) then
    let s := match f with
      | some f =>
        (match s.canReceive n f sec age with
         | (true, s) => s.netmCan n f
         | (false, s) => s)
      | none => s
    if pass then s.canPass n else s
  else s

/-- The ring of a frame delivered at P15: the sub-ring of the segment it came from, else the backbone (log entry 74). -/
def ringOfFrame (fm : FrameMeta) : Nat := if fm.inPort = 12 then 17 + fm.inSub else 0

/-- A frame at P15 with the rings' DA and EtherType 0x88B5, which NETM receives (R230): the message after its EtherType. -/
def State.ringInFrame (s : State) (d : Delivered) : Option (List Byte) :=
  let da := s.rd uNetm F.netm_NETM_RING_DA_HI_DA * 2 ^ 32 + s.rd uNetm F.netm_NETM_RING_DA_LO_DA
  let off := etypeAt (s.rd (uPipe true) F.pipe_PARSE_CFG_ALT_TPID) d.bytes
  if d.port = 15 ∧ be48 d.bytes 0 = da ∧ be16 d.bytes off = 0x88B5 then some (slice d.bytes (off + 2) 8) else none

/-- The newest frame delivered, if it is a ring message at P15: NETM takes it. -/
def State.netmTake (s : State) : State :=
  match s.fab.delivered.getLast? with
  | none => s
  | some d =>
    match s.ringInFrame d with
    | none => s
    | some l => { s with fab := { s.fab with delivered := s.fab.delivered.dropLast } }.netmReceive (ringOfFrame d.fm) l

/-- `AGREE_TICKS_EXPIRY`: the driving device starts to drain. -/
def agreeTicksExpiryStep (s : State) : State :=
  if s.ringsRun ∧ s.phase = phAgreed ∧ s.drives ∧ max 1 (s.rd uNetm F.netm_NETM_TIMING_AGREE_TICKS) ≤ s.netm.timer then
    s.enterDraining (s.rd uNetm F.netm_NETM_TIMING_DRAIN_TICKS)
  else s

/-- `DRAIN_EXPIRY`: the drain length of a driving device has elapsed; a follower commits at a tick boundary (`ringsTick`). -/
def drainExpiryStep (s : State) : State :=
  if s.ringsRun ∧ s.phase = phDraining ∧ s.drives ∧ s.netm.drainLen ≤ s.netm.timer then s.enterCommitted else s

/-- `BACKBONE_TIMEOUT`: DRAIN is due AGREE_TICKS after the entry to Agreed, COMMIT when the drain length has elapsed (log
entry 40). -/
def backboneTimeoutStep (s : State) : State :=
  let late := max 1 (s.rd uNetm F.netm_NETM_TIMING_TOKEN_TIMEOUT)
  let due := if s.phase = phAgreed then max 1 (s.rd uNetm F.netm_NETM_TIMING_AGREE_TICKS) else s.netm.drainLen
  let waits := if s.phase = phAgreed then s.netm.drainSeen.isNone else !s.netm.commitSeen
  if !s.drives ∧ waits ∧ due + late ≤ s.netm.timer then s.ringAbort 10 0 else s

/-- What NETM leaves behind when it stops in a phase other than Awake. -/
def State.netmLeave (s : State) : State := if s.phase = phAwake then s else s.leavePhase

/-- The rings restart at round 0, and a WAKE with the reason of WAKE_REASON waits on every ring (Table 10.2). -/
def State.netmRestart (s : State) : State :=
  let s := s.netmLeave
  let w := s.rd uCosy F.cosy_WAKE_REASON_REASON
  let s := { s with netm := {} }.wr uNetm F.netm_NETM_STATUS_PHASE phAwake
  let s := ((s.wr uNetm F.netm_NETM_STATUS_SUB_OK 0).wr uNetm F.netm_NETM_STATUS_BB_SEEN 0)
  let s := (List.range 24).foldl (fun s i => s.wr uNetm F.netm_SUB_STATUS_ROUND 0 i) s
  { s with netm := { s.netm with rings := (List.range 25).map (fun r => (r, { wake := some w : RingState })) } }

/-- The rings are enabled: a position outside the backbone is an access error (Table 10.7). -/
def State.netmEnable (s : State) : State :=
  let s := s.netmLocal 9
  if s.enabled uNetm ∧ s.flag uNetm F.netm_NETM_CFG_EN ∧ s.badPosition then
    s.accessError 0 (fldAddr uNetm F.netm_NETM_CFG_EN 0 0) 0
  else s

/-! ### Wake events -/

/-- `WAKE_DETECT`: a wake pin takes a level, and a detector that WAKE_CFG enables sees a wake. -/
def wakeDetectStep (w : WakeIn) (s : State) : State :=
  match w with
  | .pin p level =>
    let s : State := { s with cosy := { s.cosy with
      wakePins := if level then setBit s.cosy.wakePins p else clearBit s.cosy.wakePins p } }
    if p < 4 ∧ bitOf (s.rd uCosy F.cosy_WAKE_CFG_PIN_EN) p ∧ s.pinActive p then s.wakeEvent 1 p else s
  | .wup c => if c < 8 ∧ bitOf (s.rd uCosy F.cosy_WAKE_CFG_WUP_EN) c then s.wakeEvent 2 c else s
  | .lin c => if c < 4 ∧ bitOf (s.rd uCosy F.cosy_WAKE_CFG_LWAKE_EN) c then s.wakeEvent 5 c else s

/-- A filter of a selective-wake decoder matches a classical data frame (R241). -/
def State.swfMatch (s : State) (n k : Nat) (f : BusFrame) : Bool :=
  let u := uCosy
  let mask := s.rd u F.cosy_SWF_IDMASK_MASK n k
  let dm := s.rd u F.cosy_SWF_DMASK_HI_MASK n k * 2 ^ 32 + s.rd u F.cosy_SWF_DMASK_LO_MASK n k
  let data := beNat (f.data.take 8 ++ List.replicate (8 - f.data.length) 0#8)
  s.flag u F.cosy_SWF_CTRL_EN n k && s.flag u F.cosy_SWF_CTRL_IDE n k == f.ide &&
    (f.id &&& mask) == (s.rd u F.cosy_SWF_ID_ID n k &&& mask) &&
    (!s.flag u F.cosy_SWF_CTRL_DATA_EN n k ||
      (min 8 (s.rd u F.cosy_SWF_CTRL_DLC n k) == f.dlc && (data &&& dm) != 0))

/-- `SELECTIVE_WAKE_FRAME`: the decoder of C0 to C7 runs while armed, and of the unpowered states in Standby only. -/
def selectiveWakeFrameStep (n : Nat) (f : BusFrame) (err : Bool) (s : State) : State :=
  let u := uCosy
  if n < 8 ∧ s.cosy.armed ∧ s.flag u F.cosy_SW_CFG_EN n ∧ 2 ≤ s.cosy.power then
    let c := s.rd u F.cosy_SW_CFG_ERR_CNT n
    if f.format ≠ 0 then s
    else if err then
      let s := s.wr u F.cosy_SW_CFG_ERR_CNT (min 63 (c + 1)) n
      if c + 1 = 32 then s.wakeEvent 4 n else s
    else
      let s := s.wr u F.cosy_SW_CFG_ERR_CNT (c - 1) n
      if f.remote then s
      else match [0, 1, 2, 3].find? (fun k => s.swfMatch n k f) with
        | some k => s.wakeEvent 3 (4 * n + k)
        | none => s
  else s

/-- `WAKE_TIMER_EXPIRY`: the timer runs from the acceptance of a commit that TIMER_EN armed. -/
def wakeTimerExpiryStep (s : State) : State := if s.cosy.timerOn then s.wakeEvent 6 0 else s

/-- TC10 wake on a PHY_WAKE line, sampled at a boundary: a wake source during Draining (Table 10.3). -/
def State.tc10Wake (s : State) (line : Nat) : State := if s.phase = phDraining then s.ringAbort 7 line else s

/-- `LOCAL_WAKE`. -/
def localWakeStep (s : State) : State := s.ringAbort 9 0

/-- `LOCAL_HOLD`: NETM_LOCAL.HOLD takes the written value at once. -/
def localHoldStep (v : Word) (s : State) : State := (s.wr uNetm F.netm_NETM_LOCAL_HOLD v.toNat).netmLocal 9

/-! ### The commands -/

/-- `CAN_FRAME_RECEIVE`. -/
def execCanFrameReceive (ch : Nat) (frame : Option BusFrame) (sec : Option CanSecIn) (rx : CanRxIn) (s : State) :
    Host.Outcome State Fault Refusal := .next (canFrameReceiveStep ch frame sec rx.age rx.pass s)
/-- `ROUND_START`. -/
def execRoundStart (ring : Nat) (s : State) : Host.Outcome State Fault Refusal := .next (roundStartStep ring s)
/-- `TOKEN_TIMEOUT`. -/
def execTokenTimeout (ring : Nat) (s : State) : Host.Outcome State Fault Refusal := .next (tokenTimeoutStep ring s)
/-- `TOKEN`. -/
def execRingToken (ring : Nat) (msg : RingIn) (s : State) : Host.Outcome State Fault Refusal :=
  .next (ringTokenStep ring msg s)
/-- `AGREE`. -/
def execRingAgree (ring : Nat) (msg : RingIn) (s : State) : Host.Outcome State Fault Refusal :=
  .next (ringAgreeStep ring msg s)
/-- `DRAIN`. -/
def execRingDrain (ring : Nat) (msg : RingIn) (s : State) : Host.Outcome State Fault Refusal :=
  .next (ringDrainStep ring msg s)
/-- `COMMIT`. -/
def execRingCommit (ring : Nat) (msg : RingIn) (s : State) : Host.Outcome State Fault Refusal :=
  .next (ringCommitStep ring msg s)
/-- `WAKE`. -/
def execRingWake (ring : Nat) (msg : RingIn) (s : State) : Host.Outcome State Fault Refusal :=
  .next (ringWakeStep ring msg s)
/-- `BAD_MSG`: a wrong version, check, type or ring. -/
def execRingBadMsg (ring : Nat) (s : State) : Host.Outcome State Fault Refusal :=
  .next (if s.ringRuns ring then s.badMsg else s)
/-- `AGREE_TICKS_EXPIRY`. -/
def execAgreeTicksExpiry (s : State) : Host.Outcome State Fault Refusal := .next (agreeTicksExpiryStep s)
/-- `DRAIN_EXPIRY`. -/
def execDrainExpiry (s : State) : Host.Outcome State Fault Refusal := .next (drainExpiryStep s)
/-- `BACKBONE_TIMEOUT`. -/
def execBackboneTimeout (s : State) : Host.Outcome State Fault Refusal := .next (backboneTimeoutStep s)
/-- `WAKE_DETECT`. -/
def execWakeDetect (src : WakeIn) (s : State) : Host.Outcome State Fault Refusal := .next (wakeDetectStep src s)
/-- `SELECTIVE_WAKE_FRAME`. -/
def execSelectiveWakeFrame (ch : Nat) (frame : BusFrame) (err : Bool) (s : State) : Host.Outcome State Fault Refusal :=
  .next (selectiveWakeFrameStep ch frame err s)
/-- `WAKE_TIMER_EXPIRY`. -/
def execWakeTimerExpiry (s : State) : Host.Outcome State Fault Refusal := .next (wakeTimerExpiryStep s)
/-- `LOCAL_WAKE`: a write of NETM_CMD.WAKE. -/
def execLocalWake (master : Nat) (s : State) : Host.Outcome State Fault Refusal :=
  .next (s.command uNetm master (fldAddr uNetm F.netm_NETM_CMD_WAKE 0 0) localWakeStep)
/-- `LOCAL_HOLD`: a write of NETM_LOCAL. -/
def execLocalHold (value : Word) (master : Nat) (s : State) : Host.Outcome State Fault Refusal :=
  .next (s.command uNetm master (fldAddr uNetm F.netm_NETM_LOCAL_HOLD 0 0) (localHoldStep value))

end Sys2Proof.Machine
end

