-- ==== Sys2Proof/Machine/Datapath.lean ====
section
/-! DEFINITION. The commands of the data path (chapters 2 to 6): receive, the forwarding tables, the Strainers, the fabric
and the Spouts. Each is one call of the step that its chapter's file defines; a command that a master starts by a
register write passes the checks every register write passes. -/

namespace Sys2Proof.Machine

/-- A write of FDB_CMD (R82). -/
def State.fdbCommand (s : State) (west : Bool) (master : Nat) (run : State → State) : State :=
  s.command (uPipe west) master (fdbCmdAddr west) (fun s => s.fdbStart west master run)

/-- A write of RULE_CMD (R100). -/
def State.ruleCommand (s : State) (west : Bool) (master : Nat) (run : State → State) : State :=
  s.command (uStrain west) master (ruleCmdAddr west) (fun s => s.ruleStart west master run)

/-- A RULE_CMD that writes a bank (R100, R101). -/
def State.ruleWriteCommand (s : State) (west : Bool) (master : Nat) (bankSel : Bool) (run : Nat → State → State) : State :=
  s.ruleCommand west master (fun s => s.ruleWrite west master bankSel run)

/-- `CELL_WRITE`. -/
def execCellWrite (port : Nat) (rx : Option RxIn) (s : State) : Host.Outcome State Fault Refusal :=
  .next (cellWriteStep port rx s)

/-- `HEAD_DELIVER`. -/
def execHeadDeliver (port : Nat) (s : State) : Host.Outcome State Fault Refusal :=
  .next (headDeliverStep port s)

/-- `FRAME_END`. -/
def execFrameEnd (port assembly : Nat) (s : State) : Host.Outcome State Fault Refusal :=
  .next (frameEndStep port assembly s)

/-- `PAUSE_FRAME_RECEIVE`. -/
def execPauseFrameReceive (port : Nat) (data : List Byte) (sof eof : Bool) (wc : Nat) (s : State) : Host.Outcome State Fault Refusal :=
  .next (pauseFrameReceiveStep port (if data.isEmpty then s else cellWriteStep port (some ⟨data, sof, eof, wc⟩) s))

/-- `PAUSE_TIMER_EXPIRY`. -/
def execPauseTimerExpiry (port : Nat) (prio : Option Nat) (s : State) : Host.Outcome State Fault Refusal :=
  .next (pauseTimerExpiryStep port prio s)

/-- `BANK_RELEASE`. -/
def execBankRelease (s : State) : Host.Outcome State Fault Refusal :=
  .next (bankReleaseStep s)

/-- `RELEASE_TIMEOUT`. -/
def execReleaseTimeout (s : State) : Host.Outcome State Fault Refusal :=
  .next (releaseTimeoutStep s)

/-- `SOURCE_EVENT`. -/
def execSourceEvent (west : Bool) (s : State) : Host.Outcome State Fault Refusal :=
  .next (sourceEventStep west s)

/-- `HIT_UPDATE`. -/
def execHitUpdate (west : Bool) (s : State) : Host.Outcome State Fault Refusal :=
  .next (hitUpdateStep west s)

/-- `LEARN_INSERT`. -/
def execLearnInsert (west : Bool) (s : State) : Host.Outcome State Fault Refusal :=
  .next (learnInsertStep west s)

/-- `FDB_NOP`. -/
def execFdbNop (west : Bool) (master : Nat) (s : State) : Host.Outcome State Fault Refusal :=
  .next (s.fdbCommand west master (fdbNopRun west))

/-- `FDB_INSERT`. -/
def execFdbInsert (west : Bool) (master : Nat) (s : State) : Host.Outcome State Fault Refusal :=
  .next (s.fdbCommand west master (fdbInsertRun west))

/-- `FDB_DELETE`. -/
def execFdbDelete (west : Bool) (master : Nat) (s : State) : Host.Outcome State Fault Refusal :=
  .next (s.fdbCommand west master (fdbDeleteRun west))

/-- `FDB_LOOKUP`. -/
def execFdbLookup (west : Bool) (master : Nat) (s : State) : Host.Outcome State Fault Refusal :=
  .next (s.fdbCommand west master (fdbLookupRun west))

/-- `FDB_READ_SLOT`. -/
def execFdbReadSlot (west : Bool) (index master : Nat) (s : State) : Host.Outcome State Fault Refusal :=
  .next (s.fdbCommand west master (fdbReadSlotRun west index))

/-- `FDB_FLUSH`. -/
def execFdbFlush (west : Bool) (master : Nat) (s : State) : Host.Outcome State Fault Refusal :=
  .next (s.fdbCommand west master (fdbFlushRun west))

/-- `FDB_SHADOW_WRITE`. -/
def execFdbShadowWrite (west : Bool) (index master : Nat) (s : State) : Host.Outcome State Fault Refusal :=
  .next (s.fdbCommand west master (fdbShadowWriteRun west index))

/-- `FDB_SHADOW_READ`. -/
def execFdbShadowRead (west : Bool) (index master : Nat) (s : State) : Host.Outcome State Fault Refusal :=
  .next (s.fdbCommand west master (fdbShadowReadRun west index))

/-- `FDB_VLAN_WRITE`. -/
def execFdbVlanWrite (west : Bool) (index master : Nat) (s : State) : Host.Outcome State Fault Refusal :=
  .next (s.fdbCommand west master (fdbVlanWriteRun west index))

/-- `FDB_VLAN_READ`. -/
def execFdbVlanRead (west : Bool) (index master : Nat) (s : State) : Host.Outcome State Fault Refusal :=
  .next (s.fdbCommand west master (fdbVlanReadRun west index))

/-- `FDB_INSERT_SHADOWED`. -/
def execFdbInsertShadowed (west : Bool) (index master : Nat) (s : State) : Host.Outcome State Fault Refusal :=
  .next (s.fdbCommand west master (fdbInsertShadowedRun west index))

/-- `FDB_DELETE_SHADOWED`. -/
def execFdbDeleteShadowed (west : Bool) (index master : Nat) (s : State) : Host.Outcome State Fault Refusal :=
  .next (s.fdbCommand west master (fdbDeleteShadowedRun west index))

/-- `FDB_CMD_INVALID`. -/
def execFdbCmdInvalid (west : Bool) (master : Nat) (s : State) : Host.Outcome State Fault Refusal :=
  .next (s.fdbCommand west master (fdbInvalidRun west))

/-- `FDB_CMD_COMPLETE`. -/
def execFdbCmdComplete (west : Bool) (s : State) : Host.Outcome State Fault Refusal :=
  .next (fdbCompleteStep west s)

/-- `CAN_KEY_SUBMIT`. -/
def execCanKeySubmit (engine : Nat) (s : State) : Host.Outcome State Fault Refusal :=
  .next (canKeySubmitStep engine s)

/-- `CAN_KEY_JUDGE`. -/
def execCanKeyJudge (s : State) : Host.Outcome State Fault Refusal :=
  .next (canKeyJudgeStep s)

/-- `STREAM_GATE_CYCLE_START`. -/
def execStreamGateCycleStart (west : Bool) (gate : Nat) (s : State) : Host.Outcome State Fault Refusal :=
  .next (streamGateCycleStartStep west gate s)

/-- `STREAM_GATE_ENTRY_EXPIRY`. -/
def execStreamGateEntryExpiry (west : Bool) (gate : Nat) (s : State) : Host.Outcome State Fault Refusal :=
  .next (streamGateEntryExpiryStep west gate s)

/-- `TCAM_RESCAN`. -/
def execTcamRescan (west : Bool) (bank : Bool) (s : State) : Host.Outcome State Fault Refusal :=
  .next (tcamRescanStep west (b2n bank) s)

/-- `RULE_NOP`. -/
def execRuleNop (west : Bool) (master : Nat) (s : State) : Host.Outcome State Fault Refusal :=
  .next (s.ruleCommand west master (fun s => s.ruleStatus west ruleOk))

/-- `WRITE_RULE`. -/
def execWriteRule (west : Bool) (row : Nat) (bankSel : Bool) (master : Nat) (s : State) : Host.Outcome State Fault Refusal :=
  .next (s.ruleWriteCommand west master bankSel (writeRuleRun west row))

/-- `READ_RULE`. -/
def execReadRule (west : Bool) (row : Nat) (bankSel : Bool) (master : Nat) (s : State) : Host.Outcome State Fault Refusal :=
  .next (s.ruleCommand west master (readRuleRun west row bankSel))

/-- `CLEAR_RULE`. -/
def execClearRule (west : Bool) (row : Nat) (bankSel : Bool) (master : Nat) (s : State) : Host.Outcome State Fault Refusal :=
  .next (s.ruleWriteCommand west master bankSel (clearRuleRun west row))

/-- `WRITE_ZPAIR`. -/
def execWriteZpair (west : Bool) (index : Nat) (bankSel : Bool) (master : Nat) (s : State) : Host.Outcome State Fault Refusal :=
  .next (s.ruleWriteCommand west master bankSel (writeZpairRun west index))

/-- `READ_ZPAIR`. -/
def execReadZpair (west : Bool) (index : Nat) (bankSel : Bool) (master : Nat) (s : State) : Host.Outcome State Fault Refusal :=
  .next (s.ruleCommand west master (readZpairRun west index bankSel))

/-- `WRITE_ZMAP`. -/
def execWriteZmap (west : Bool) (index : Nat) (bankSel : Bool) (master : Nat) (s : State) : Host.Outcome State Fault Refusal :=
  .next (s.ruleWriteCommand west master bankSel (writeZmapRun west index))

/-- `READ_ZMAP`. -/
def execReadZmap (west : Bool) (index : Nat) (bankSel : Bool) (master : Nat) (s : State) : Host.Outcome State Fault Refusal :=
  .next (s.ruleCommand west master (readZmapRun west index bankSel))

/-- `WRITE_PFX`. -/
def execWritePfx (west : Bool) (index : Nat) (bankSel : Bool) (master : Nat) (s : State) : Host.Outcome State Fault Refusal :=
  .next (s.ruleWriteCommand west master bankSel (writePfxRun west index))

/-- `READ_PFX`. -/
def execReadPfx (west : Bool) (index : Nat) (bankSel : Bool) (master : Nat) (s : State) : Host.Outcome State Fault Refusal :=
  .next (s.ruleCommand west master (readPfxRun west index bankSel))

/-- `COPY_ACTIVE`. -/
def execCopyActive (west : Bool) (master : Nat) (s : State) : Host.Outcome State Fault Refusal :=
  .next (s.ruleCommand west master (fun s => s.ruleDraining west master (copyActiveRun west)))

/-- `RULE_CMD_INVALID`. -/
def execRuleCmdInvalid (west : Bool) (master : Nat) (s : State) : Host.Outcome State Fault Refusal :=
  .next (s.ruleCommand west master (fun s => s.ruleStatus west ruleBadArg))

/-- `RULE_CMD_COMPLETE`. -/
def execRuleCmdComplete (west : Bool) (s : State) : Host.Outcome State Fault Refusal :=
  .next (ruleCompleteStep west s)

/-- `COPY_ENQUEUE`. -/
def execCopyEnqueue (s : State) : Host.Outcome State Fault Refusal :=
  .next (copyEnqueueStep s)

/-- `DISCARD_WALK`. -/
def execDiscardWalk (s : State) : Host.Outcome State Fault Refusal :=
  .next (discardWalkStep s)

/-- `CELL_READ`. -/
def execCellRead (port : Nat) (s : State) : Host.Outcome State Fault Refusal :=
  .next (cellReadStep port s).netmTake

/-- `PFC_REFRESH`. -/
def execPfcRefresh (port tc : Nat) (s : State) : Host.Outcome State Fault Refusal :=
  .next (pfcRefreshStep port tc s)

/-- `INGRESS_UNDERRUN`. -/
def execIngressUnderrun (port tc : Nat) (s : State) : Host.Outcome State Fault Refusal :=
  .next (ingressUnderrunStep port tc s)

/-- `SPOUT_SELECT`. -/
def execSpoutSelect (port : Nat) (s : State) : Host.Outcome State Fault Refusal :=
  .next (spoutSelectStep port s)

/-- `GATE_CYCLE_START`. -/
def execGateCycleStart (port : Nat) (s : State) : Host.Outcome State Fault Refusal :=
  .next (gateCycleStartStep port s)

/-- `GATE_ENTRY_EXPIRY`. -/
def execGateEntryExpiry (port : Nat) (s : State) : Host.Outcome State Fault Refusal :=
  .next (gateEntryExpiryStep port s)

/-- `GCL_DATA_WRITE`. -/
def execGclDataWrite (port : Nat) (value : Word) (master : Nat) (s : State) : Host.Outcome State Fault Refusal :=
  .next (s.command (uSpout port) master (gclAddr port) (gclDataWriteStep port value master))

/-- `GCL_DATA_READ`. -/
def execGclDataRead (port : Nat) (s : State) : Host.Outcome State Fault Refusal :=
  .next (gclDataReadStep port s)

/-- `FRAME_PREEMPT`. -/
def execFramePreempt (port age : Nat) (s : State) : Host.Outcome State Fault Refusal :=
  .next (framePreemptStep port age s)

/-- `PREEMPT_VERIFY`. -/
def execPreemptVerify (port outcome : Nat) (s : State) : Host.Outcome State Fault Refusal :=
  .next (preemptVerifyStep port outcome s)

/-- `E_PORT_LINK_CHANGE`. -/
def execEPortLinkChange (port mbps : Nat) (s : State) : Host.Outcome State Fault Refusal :=
  .next (ePortLinkChangeStep port mbps s)

end Sys2Proof.Machine
end

