-- ==== Sys2Proof/Machine/Power.lean ====
section
/-! DEFINITION. Power states, restarts of the Brew die, the sleep sequence, and the Cosy power registers (chapters 10 and 11,
R287 to R300 as far as SLOT_RET records them). -/

namespace Sys2Proof.Machine

/-! ### Power states (R250, R251) -/

def pwOff : Nat := 0
def pwSleep : Nat := 1
def pwStandby : Nat := 2
def pwReady : Nat := 3
def pwActive : Nat := 4
def pwFallback : Nat := 5
def pwSafe : Nat := 6

/-- The power state changed; PWR_STATUS shows the powered ones. -/
def State.setPower (s : State) (p : Nat) : State :=
  let s := { s with cosy := { s.cosy with power := p } }
  if pwReady ≤ p then s.wr uCosy F.cosy_PWR_STATUS_STATE p else s

/-- SAFE_N: not driven in Off; released in Active and Fallback, and low otherwise (Table 11.2). -/
def State.safeN (s : State) : Option Bool :=
  if s.cosy.power = pwOff then none else some (s.cosy.power == pwActive || s.cosy.power == pwFallback)

/-- The INH pin: not driven in Off (Table 11.2). -/
def State.inhPin (s : State) : Option Bool :=
  if s.cosy.power = pwOff then none else some (s.flag uCosy F.cosy_PWR_STATUS_INH)

/-- The AON RC runs in every state but Off, and in Sleep only for a wake timer while X32_OK is clear (Table 11.5, R260). -/
def State.aonRuns (s : State) : Bool :=
  s.cosy.power != pwOff &&
    (s.cosy.power != pwSleep || (s.flag uCosy F.cosy_WAKE_CFG_TIMER_EN && !s.flag uCosy F.cosy_PWR_STATUS_X32_OK))

/-- PMIC_PG high for the Brew die. -/
def State.pgHigh (s : State) : Bool := s.flag uCosy F.cosy_PWR_STATUS_PMIC_PG

/-- Every register of the Brew die and everything its units hold at reset; the Cosy die, OTP, the free values and the queue
of commands stay (R253). A die that loses its rails is in power-on reset until its next release, and its clocks start from 0 then
(R14, R161); the transmitters that a TXD time-out switched off see a recessive TXD (R181). A trial start that ends before boot complete
leaves the wake controller its former program (R294). -/
def State.brewReset (s : State) (powered : Bool) : State :=
  { State.reset with
    regs := s.regs.filter (fun e => decide (cosyBase ≤ e.1))
    otp := s.otp
    clk := if powered then s.clk else {}
    edge := { rxHeld := s.edge.rxHeld, xcvrReq := s.edge.xcvrReq }
    cosy := { s.cosy with
      brewRun := false, brewStarted := false, sawSafe := false, graceMsgs := 0, sawOpen := false
      progBank := if s.kettle.switched then 1 - s.cosy.progBank else s.cosy.progBank
      brewPor := s.cosy.brewPor || !powered }
    readData := s.readData
    free := s.free
    pending := s.pending }

/-! ### Starts and restarts (R252 to R258) -/

/-- The cause of the next start recorded. -/
def State.recordCause (s : State) (c : Nat) : State :=
  (s.wr uCosy F.cosy_START_CAUSE_PREV_CAUSE (s.rd uCosy F.cosy_START_CAUSE_CAUSE)).wr uCosy F.cosy_START_CAUSE_CAUSE c

/-- A restart cause of Table 11.4: the Brew die is held in reset, INH stays asserted, an accepted commit is abandoned (R258); without one
the detectors stay as they are until the die starts (R253, R254, R236), and a commit request still on its way is lost with it.
A cause that finds the Brew die held in reset takes the place of the cause recorded if it precedes it in Table 11.4 (log entry 75).
A PG_LOSS is a loss of the rails (log entry 76). -/
def State.brewRestart (s : State) (cause : Nat) : State :=
  if !s.cosy.brewRun then
    if pwReady ≤ s.cosy.power ∧ cause < s.rd uCosy F.cosy_START_CAUSE_CAUSE then s.wr uCosy F.cosy_START_CAUSE_CAUSE cause
    else s
  else
    let s := s.recordCause cause
    let s := if cause = 6 then s else s.cancelActivation 6
    let s := if s.cosy.committed then s.cancelCommit.disarm else { s with cosy := { s.cosy with commitReq := false } }
    ((s.brewReset (cause != 1)).setPower pwReady).wr uCosy F.cosy_BOOT_RET_DEADLINE_RUN 0

/-- A failed start (R280): the attempt count, the reason with its segment and detail (R282), a trial start reverted (R295), and
the restart: cause SAUCER for reason 10, else BOOT_DEADLINE. `part` is 15 where none applies. -/
def State.failStart (s : State) (reason segment detail part : Nat) : State :=
  let s := s.wr uCosy F.cosy_BOOT_RET_ATTEMPTS (min 3 (s.rd uCosy F.cosy_BOOT_RET_ATTEMPTS + 1))
  let s := (s.wr uCosy F.cosy_BOOT_RET_LAST_REASON reason).sat uCosy F.cosy_BOOT_RET_FAILED_TOTAL
  let s := (s.wr uCosy F.cosy_BOOT_DETAIL_SEGMENT segment).wr uCosy F.cosy_BOOT_DETAIL_DETAIL detail
  let s := if s.flag uCosy F.cosy_SLOT_RET_TRIAL then
    (s.wr uCosy F.cosy_SLOT_RET_TRIAL 0).slotResult 2 reason 0 part else s
  s.brewRestart (if reason = 10 then 4 else 5)

/-- The Brew die leaves reset when its rails are good, RST_N is high and XIN runs; the start counts. WC starts from 0 when the die
leaves power-on reset (R161). -/
def State.brewRelease (s : State) : State :=
  if s.cosy.power = pwReady ∧ !s.cosy.brewRun ∧ s.flag uCosy F.cosy_PWR_STATUS_INH ∧ s.pgHigh ∧
      s.flag uCosy F.cosy_PWR_STATUS_RST_N ∧ !s.cosy.clockLost then
    { s with
      clk := if s.cosy.brewPor then {} else s.clk
      cosy := { s.cosy with
        brewRun := true, brewStarted := false, pgFails := 0, brewPor := false
        armed := false, latched := false } }.inc uCosy F.cosy_START_CAUSE_STARTS
  else s

/-- The Brew die loses power: INH falls, the wake detectors stay armed. -/
def State.powerDown (s : State) (p : Nat) : State :=
  let s := (s.brewReset false).wr uCosy F.cosy_PWR_STATUS_INH 0
  (s.wr uCosy F.cosy_PWR_STATUS_PMIC_PG 0).setPower p

/-- `COSY_POWER_ON`: VBAT rises; every COSY register takes its reset value, retention is cleared, INH asserted. -/
def cosyPowerOnStep (s : State) : State :=
  if s.cosy.power = pwOff then
    { State.reset with otp := s.otp, readData := s.readData, free := s.free, pending := s.pending }
  else s

/-- `POWER_OFF`: VBAT below VBAT_POR: everything stops and nothing is retained but OTP. -/
def powerOffStep (s : State) : State :=
  { State.reset with
    otp := s.otp, readData := s.readData, free := s.free, pending := s.pending, cosy := { power := pwOff } }

/-- `PMIC_PG_HIGH`: high for 10 µs. -/
def pmicPgHighStep (s : State) : State :=
  if pwReady ≤ s.cosy.power ∧ s.flag uCosy F.cosy_PWR_STATUS_INH then
    ({ s with cosy := { s.cosy with pgFails := 0 } }.wr uCosy F.cosy_PWR_STATUS_PMIC_PG 1).brewRelease
  else s

/-- The transceivers as a power-down leaves them: SLEEP, for selective wake STANDBY, OFF (R238, Table 8.2). -/
def State.xcvrSleep (s : State) (standby : Bool) : State :=
  ((List.range 24).filter xcvrExists).foldl (fun s x =>
    s.setXcvr x (if x < 8 ∧ standby ∧ s.flag uCosy F.cosy_SW_CFG_EN x then 2 else 3))
    { s with edge := { s.edge with xcvrReq := [] } }

/-- `PG_TIMEOUT`: PMIC_PG not high in time: INH is cycled, or after PG_RETRIES time-outs the device sleeps with its detectors
armed; one that is active already wakes it again (R236). -/
def pgTimeoutStep (s : State) : State :=
  if s.cosy.power = pwReady ∧ !s.cosy.brewRun ∧ s.flag uCosy F.cosy_PWR_STATUS_INH ∧ !s.pgHigh then
    let s := s.sat uCosy F.cosy_PG_FAIL_COUNT
    let n := s.cosy.pgFails + 1
    if max 1 (s.rd uCosy F.cosy_PWR_CFG_PG_RETRIES) ≤ n then
      let s : State := { s with cosy := { s.cosy with pgFails := 0 } }
      ((s.xcvrSleep false).powerDown pwSleep).arm
    else
      let t := (s.brewReset false).wr uCosy F.cosy_PWR_STATUS_INH 0
      { t with cosy := { t.cosy with pgFails := n, inhLow := true } }
  else s

/-- `INH_RETRY_EXPIRY`: after 100 ms INH is asserted again. -/
def inhRetryExpiryStep (s : State) : State :=
  if s.cosy.inhLow then { s.wr uCosy F.cosy_PWR_STATUS_INH 1 with cosy := { s.cosy with inhLow := false } } else s

/-- `PG_LOSS`: PMIC_PG low for more than 2 µs; while the Brew die runs, the loss counts once and restarts it; a die held in reset
is in power-on reset until its release (log entry 76). -/
def pgLossStep (s : State) : State :=
  if pwReady ≤ s.cosy.power ∧ s.pgHigh then
    let s := s.wr uCosy F.cosy_PWR_STATUS_PMIC_PG 0
    if s.cosy.brewRun then (s.sat uCosy F.cosy_PG_DROP_COUNT).brewRestart 1 else s.brewReset false
  else s

/-- `CLOCK_LOSS`: XIN absent for 50 µs while the Brew die is out of reset. One that coincides with an earlier restart cause finds the
die in reset, and only its counter shows it (R251). -/
def clockLossStep (s : State) : State :=
  if s.cosy.brewRun then
    { s.sat uCosy F.cosy_CLK_LOSS_COUNT with cosy := { s.cosy with clockLost := true } }.brewRestart 2
  else if pwReady ≤ s.cosy.power then s.sat uCosy F.cosy_CLK_LOSS_COUNT
  else s

/-- `CLOCK_RESTORED`: XIN has run for 1 ms. -/
def clockRestoredStep (s : State) : State :=
  if s.cosy.clockLost then { s with cosy := { s.cosy with clockLost := false } }.brewRelease else s

/-- `RST_PIN`: RST_N low for 1 µs or more; it restarts the powered device and holds the Brew die. -/
def rstPinStep (s : State) : State :=
  let was := s.flag uCosy F.cosy_PWR_STATUS_RST_N
  let s := s.wr uCosy F.cosy_PWR_STATUS_RST_N 0
  if was ∧ pwReady ≤ s.cosy.power then (s.sat uCosy F.cosy_RST_PIN_COUNT).brewRestart 3 else s

/-- `RST_N_RELEASE`. -/
def rstNReleaseStep (s : State) : State := (s.wr uCosy F.cosy_PWR_STATUS_RST_N 1).brewRelease

def pwrCmdAddr : Nat := fldAddr uCosy F.cosy_PWR_CMD_KEY 0 0

/-- `FORCE_SLEEP`: a write of PWR_CMD that arms the detectors and issues a commit request, or is refused (R259). -/
def forceSleepStep (key master : Nat) (s : State) : State :=
  let ok := key == 0x57A9 && (s.cosy.power == pwActive || s.cosy.power == pwFallback) && !s.cosy.committed
  s.cosyWrite master pwrCmdAddr ok (fun s =>
    { s.armOnly with cosy := { s.armOnly.cosy with commitReq := true } }.reportActive)

/-- `X32_CHECK`: 1,024 crystal cycles against the RC, while it runs. -/
def x32CheckStep (ok : Bool) (s : State) : State :=
  if s.aonRuns ∧ s.flag uCosy F.cosy_PWR_CFG_X32_EN then s.wr uCosy F.cosy_PWR_STATUS_X32_OK (b2n ok) else s

/-- `VBAT_MEASUREMENT`, which the AON clock drives. -/
def vbatMeasurementStep (v : Nat) (s : State) : State :=
  let v := min v 1023
  if !s.aonRuns then s
  else
    let s := s.wr uCosy F.cosy_PWR_STATUS_VBAT v
    s.wr uCosy F.cosy_VBAT_MIN_MIN (min v (s.rd uCosy F.cosy_VBAT_MIN_MIN))

/-! ### The commit (R237, R238) -/

/-- The power states that a commit leaves (Table 11.3). -/
def State.maySleep (s : State) : Bool := s.cosy.power == pwActive || s.cosy.power == pwFallback

/-- A commit that is refused or abandoned without a wake: NETM leaves Committed with the reason of WAKE_REASON; in Draining the detectors
stay armed (R236), else they are disarmed. -/
def State.commitOff (s : State) : State :=
  if s.ringsRun ∧ s.phase = phCommitted then
    s.toAwake (s.rd uCosy F.cosy_WAKE_REASON_REASON) (s.rd uCosy F.cosy_WAKE_REASON_SOURCE)
  else if s.ringsRun ∧ s.phase = phDraining then { s with cosy := { s.cosy with commitReq := false } }
  else s.disarm

/-- `COMMIT_REQUEST`: refused with the latched wake, or in a power state that Table 11.3 gives no way to Sleep (log entry 77); or
accepted: the wake registers are locked, the wake timer starts, an armed activation is cancelled. -/
def commitRequestStep (s : State) : State :=
  if !s.cosy.commitReq then s
  else if s.cosy.latched ∨ !s.maySleep then
    { s with cosy := { s.cosy with commitReq := false } }.commitOff
  else
    let s := s.cancelActivation 7
    { s with cosy := { s.cosy with
      commitReq := false, committed := true, locked := true, timerOn := s.flag uCosy F.cosy_WAKE_CFG_TIMER_EN } }

/-- The frames that edge controllers still hold when the transceivers change. -/
def State.queuedEdge (s : State) : Nat :=
  (List.range 16).foldl (fun a n => a + (s.canAt n).txq.length) 0 +
    (List.range 8).foldl (fun a g => a + (s.t1sAt g).tx.length) 0

/-- `COMMIT_DELAY_EXPIRY`: queued frames are discarded, the transceivers change, INH is deasserted. A power state that Table 11.3
gives no way to Sleep abandons the commit as a wake does (log entry 77). -/
def commitDelayExpiryStep (s : State) : State :=
  if !s.cosy.committed then s
  else if !s.maySleep then
    s.cancelCommit.commitOff
  else
    let target := s.flag uCosy F.cosy_SLEEP_CFG_TARGET
    let s := s.sat uNetm F.netm_COMMIT_DISCARD 0 0 s.queuedEdge
    let s := (s.xcvrSleep target).powerDown (if target then pwStandby else pwSleep)
    { s with cosy := { s.cosy with committed := false } }

/-! ### The commands -/

/-- `COSY_POWER_ON`. -/
def execCosyPowerOn (s : State) : Host.Outcome State Fault Refusal := .next (cosyPowerOnStep s)
/-- `POWER_OFF`. -/
def execPowerOff (s : State) : Host.Outcome State Fault Refusal := .next (powerOffStep s)
/-- `PMIC_PG_HIGH`. -/
def execPmicPgHigh (s : State) : Host.Outcome State Fault Refusal := .next (pmicPgHighStep s)
/-- `PG_TIMEOUT`. -/
def execPgTimeout (s : State) : Host.Outcome State Fault Refusal := .next (pgTimeoutStep s)
/-- `INH_RETRY_EXPIRY`. -/
def execInhRetryExpiry (s : State) : Host.Outcome State Fault Refusal := .next (inhRetryExpiryStep s)
/-- `PG_LOSS`. -/
def execPgLoss (s : State) : Host.Outcome State Fault Refusal := .next (pgLossStep s)
/-- `CLOCK_LOSS`. -/
def execClockLoss (s : State) : Host.Outcome State Fault Refusal := .next (clockLossStep s)
/-- `CLOCK_RESTORED`. -/
def execClockRestored (s : State) : Host.Outcome State Fault Refusal := .next (clockRestoredStep s)
/-- `RST_PIN`. -/
def execRstPin (s : State) : Host.Outcome State Fault Refusal := .next (rstPinStep s)
/-- `RST_N_RELEASE`. -/
def execRstNRelease (s : State) : Host.Outcome State Fault Refusal := .next (rstNReleaseStep s)
/-- `X32_CHECK`. -/
def execX32Check (ok : Bool) (s : State) : Host.Outcome State Fault Refusal := .next (x32CheckStep ok s)
/-- `VBAT_MEASUREMENT`. -/
def execVbatMeasurement (units : Nat) (s : State) : Host.Outcome State Fault Refusal :=
  .next (vbatMeasurementStep units s)
/-- `COMMIT_REQUEST`. -/
def execCommitRequest (s : State) : Host.Outcome State Fault Refusal := .next (commitRequestStep s)
/-- `COMMIT_DELAY_EXPIRY`. -/
def execCommitDelayExpiry (s : State) : Host.Outcome State Fault Refusal := .next (commitDelayExpiryStep s)

end Sys2Proof.Machine
end

