-- ==== Sys2Proof/Machine/Security.lean ====
section
/-! DEFINITION. Caddy key store, key bus, crypto service, random source, alarms, life cycle and debug (chapter 16). -/

namespace Sys2Proof.Machine

/-! ### Attributes (Table 16.1) and the key store (R339, R343) -/

def attrEncrypt : Nat := 0
def attrDecrypt : Nat := 1
def attrWrap : Nat := 2
def attrDerive : Nat := 3

/-- LEN of an attribute byte: a 256-bit key. -/
def attrLong (a : Nat) : Bool := bitOf a 2

/-- Bit numbers of USE: crypto service, MACsec, CANsec. -/
def useCrypto : Nat := 3
def useMacsec : Nat := 4
def useCansec : Nat := 5

/-- Bytes of a key with an attribute byte. -/
def keyBytes (a : Nat) : Nat := if attrLong a then 32 else 16

/-- ALARM_STATUS.ACTIVE. -/
def State.alarmActive (s : State) : Bool := s.flag uCaddy F.caddy_ALARM_STATUS_ACTIVE

/-- The life-cycle state in effect since the start (R362). -/
def State.lc (s : State) : Nat := s.rd uCaddy F.caddy_LC_STATUS_LC

/-- The debug state (Table 16.8): 0 CLOSED, 1 AUTH-OPEN, 2 OPEN. -/
def State.dbg (s : State) : Nat := s.rd uCaddy F.caddy_LC_STATUS_DBG

/-- Key operations are a capability of every combination but RETIRED and the unpowered Brew die (Table 16.9). -/
def State.keyOps (s : State) : Bool := s.lc != 4 && decide (3 ≤ s.cosy.power)

def State.setSec (s : State) (x : SecState) : State := { s with sec := x }

/-- A slot filled; its GCM_ENC count starts again (R352), and KEY_WRITES counts. -/
def State.fillSlot (s : State) (slot key attr label origin : Nat) : State :=
  (s.setSec { s.sec with slots := pmSet s.sec.slots slot ⟨key, attr, label, origin, 0⟩ }).inc uCaddy F.caddy_KEY_WRITES_COUNT

/-- The register set of a master (R342): PF0, MSPI, triad with CHECKED 1. -/
def keySet (master : Nat) : Option Nat :=
  if master = 0x01 then some 0 else if master = 0x08 then some 1 else if master = 0x10 then some 2 else none

def State.keyReg (s : State) (set k : Nat) : Nat := smGet zero0 s.sec.keyRegs (16 * set + k)
def State.setKeyReg (s : State) (set k v : Nat) : State :=
  s.setSec { s.sec with keyRegs := smSet zero0 s.sec.keyRegs (16 * set + k) v }

/-- The key in KEY_DATA for an attribute byte: k = 0 is most significant, and a 128-bit key is k = 0 to 3. -/
def State.keyDataKey (s : State) (set attr : Nat) : Nat :=
  (List.range (if attrLong attr then 8 else 4)).foldl (fun a k => a * 2 ^ 32 + s.keyReg set k) 0

/-- The end of a key command: its STATUS, and KEY_DATA of the issuing master cleared (R343). -/
def State.keyDone (s : State) (set status : Nat) : State :=
  ((List.range 8).foldl (fun s k => s.setKeyReg set k 0) s).setKeyReg set 9 status

def keyCmdAddr : Nat := fldAddr uCaddy F.caddy_KEY_CMD_OPCODE 0 0

/-- A key command that the sequencer takes: BUSY of its set until time next passes (log entry 12). -/
def State.keyBusy (s : State) (set : Nat) : State := s.setSec { s.sec with busySets := set :: s.sec.busySets }

/-- A write of KEY_CMD (R342): from a master without a register set, or while BUSY, it has no effect and is an access error. While an
alarm is ACTIVE a key command fails with status ALARM (R359). In RETIRED there is no key operation; the status it then shows is
open (log entry 42). -/
def State.keyCommand (s : State) (master : Nat) (run : Nat → State → State) : State :=
  s.command uCaddy master keyCmdAddr (fun s =>
    match keySet master with
    | none => s.refuse master keyCmdAddr
    | some set =>
      if s.sec.busySets.contains set then s.refuse master keyCmdAddr
      else if !s.keyOps then (s.draw).keyDone set (1 + s.drawn 2)
      else if s.alarmActive then s.keyDone set 2
      else (run set s).keyBusy set)

/-- `KEY_WRITE`: a reserved bit of the attribute byte gives BAD_ARG. -/
def keyWriteRun (slot set : Nat) (s : State) : State :=
  let a := s.keyReg set 8
  if 128 ≤ a then s.keyDone set 1
  else (s.fillSlot (slot % 256) (s.keyDataKey set a) a 0 0).keyDone set 0

/-- `KEY_ERASE`. -/
def keyEraseRun (slot set : Nat) (s : State) : State :=
  (s.setSec { s.sec with slots := pmDel s.sec.slots (slot % 256) }).keyDone set 0

/-- `KEY_ERASE_ALL`. -/
def keyEraseAllRun (set : Nat) (s : State) : State := (s.setSec { s.sec with slots := [] }).keyDone set 0

/-- KEY_CMD with OPCODE 0: no command. -/
def keyNoneRun (set : Nat) (s : State) : State := s.keyDone set 0

/-- The key commands and life-cycle operations in progress are complete (log entry 12). -/
def State.busyDone (s : State) : State :=
  if s.sec.busySets = [] ∧ !s.flag uCaddy F.caddy_LC_CMD_BUSY then s
  else (s.wr uCaddy F.caddy_LC_CMD_BUSY 0).setSec { s.sec with busySets := [] }

/-! ### The key bus (R341, R347) -/

/-- Whether the sequencer grants a slot to an engine: full, ATTR, USE, and LEN where the cipher fixes one. -/
def KeySlot.grants (k : KeySlot) (attr use : Nat) (long : Option Bool) : Bool :=
  k.attr % 4 == attr && bitOf k.attr use && (match long with
    | none => true
    | some b => attrLong k.attr == b)

/-- A refused fetch: counted, and an error of the key-fetch detector with access type 7. The engines of a MAC or a CAN channel
have no master ID (Table 15.3) and report 0x00 (log entry 43). -/
def State.fetchRefused (s : State) (engine : Nat) : State :=
  let s := s.sat uCaddy F.caddy_FETCH_REFUSED_COUNT
  if s.armed uCaddy 1 then s.check uCaddy 1 true { access := 7, master := engine }
  else s.fire uCaddy 1 { access := 7, master := engine }

/-- A fetch over the key bus: the slot's content if every check passes. -/
def State.fetchKey (s : State) (engine slot attr use : Nat) (long : Option Bool) : Option KeySlot × State :=
  match pmGet s.sec.slots slot with
  | none => (none, s.fetchRefused engine)
  | some k =>
    if s.keyOps ∧ !s.alarmActive ∧ !s.armed uCaddy 1 ∧ k.grants attr use long then (some k, s)
    else (none, s.fetchRefused engine)

def State.setEngineKey (s : State) (no key : Nat) : State :=
  s.setSec { s.sec with engineKeys := pmSet s.sec.engineKeys no key }
def State.dropEngineKey (s : State) (no : Nat) : State :=
  s.setSec { s.sec with engineKeys := pmDel s.sec.engineKeys no }

/-- SSCI and SALT of an association, taken at INSTALL. -/
def State.takeSalt (s : State) (no : Nat) (x : Nat × Nat) : State :=
  s.setSec { s.sec with salts := pmSet s.sec.salts no x }

/-- A CANsec channel asks for its key: at a committed change of its KEY_SLOT, or when its CAN unit is enabled (R355). -/
def State.askCanKey (s : State) (no : Nat) : State := s.setSec { s.sec with fetches := s.sec.fetches ++ [no] }

/-- The fetches of a CAN unit that becomes enabled with CANsec on: the transmit channel, and every valid receive channel. -/
def State.askCanKeys (s : State) (n : Nat) : State :=
  if s.flag (uCan n) F.can_CS_CFG_EN then
    let s := s.askCanKey (canKeyNo n 4)
    (List.range 4).foldl (fun s c => if s.flag (uCan n) F.can_CS_RX_VALID c then s.askCanKey (canKeyNo n c) else s) s
  else s

/-- `KEY_FETCH`: the oldest fetch that a CANsec channel waits for. A refused one leaves the channel without a key. -/
def keyFetchStep (s : State) : State :=
  match s.sec.fetches with
  | [] => s
  | no :: t =>
    let s := s.setSec { s.sec with fetches := t }
    let n := (no - 1024) / 8
    let c := (no - 1024) % 8
    let u := uCan n
    let slot := if c = 4 then s.rd u F.can_CS_CFG_TX_KEY_SLOT else s.rd u F.can_CS_RX_KEY_SLOT c
    let (k, s) := s.fetchKey 0 slot (if c = 4 then attrEncrypt else attrDecrypt) useCansec
      (some (s.flag u F.can_CS_CFG_LEN256))
    match k with
    | none => s.dropEngineKey no
    | some k => s.setEngineKey no k.key

/-! ### MACsec associations (R353) -/

def State.saValid (s : State) (p : Nat) (rx : Option Nat) (an : Nat) : Bool :=
  match rx with
  | none => s.flag (uMac p) F.mac_TXSA_CTRL_VALID an
  | some c => s.flag (uMac p) F.mac_RXSA_CTRL_VALID c an

def State.setSaValid (s : State) (p : Nat) (rx : Option Nat) (an v : Nat) : State :=
  match rx with
  | none => s.wr (uMac p) F.mac_TXSA_CTRL_VALID v an
  | some c => s.wr (uMac p) F.mac_RXSA_CTRL_VALID v c an

def State.saSlot (s : State) (p : Nat) (rx : Option Nat) (an : Nat) : Nat :=
  match rx with
  | none => s.rd (uMac p) F.mac_TXSA_CTRL_KEY_SLOT an
  | some c => s.rd (uMac p) F.mac_RXSA_CTRL_KEY_SLOT c an

def State.setSaSlot (s : State) (p : Nat) (rx : Option Nat) (an v : Nat) : State :=
  match rx with
  | none => s.wr (uMac p) F.mac_TXSA_CTRL_KEY_SLOT v an
  | some c => s.wr (uMac p) F.mac_RXSA_CTRL_KEY_SLOT v c an

def saCtrlAddr (p : Nat) (rx : Option Nat) (an : Nat) : Nat :=
  match rx with
  | none => fldAddr (uMac p) F.mac_TXSA_CTRL_VALID an 0
  | some c => fldAddr (uMac p) F.mac_RXSA_CTRL_VALID c an

/-- The SSCI and SALT registers of an association. -/
def State.saSalt (s : State) (p : Nat) (rx : Option Nat) (an : Nat) : Nat × Nat :=
  let u := uMac p
  match rx with
  | none => (s.rd u F.mac_TXSA_SSCI_SSCI an, (s.rd u F.mac_TXSA_SALT0_SALT an * 2 ^ 32 +
      s.rd u F.mac_TXSA_SALT1_SALT an) * 2 ^ 32 + s.rd u F.mac_TXSA_SALT2_SALT an)
  | some c => (s.rd u F.mac_RXSA_SSCI_SSCI c an, (s.rd u F.mac_RXSA_SALT0_SALT c an * 2 ^ 32 +
      s.rd u F.mac_RXSA_SALT1_SALT c an) * 2 ^ 32 + s.rd u F.mac_RXSA_SALT2_SALT c an)

/-- Whether the port, channel and association exist. -/
def saOk (p : Nat) (rx : Option Nat) (an : Nat) : Bool := p < 12 && an < 4 && (rx.getD 0) < 8

/-- INSTALL of SA_CTRL, whose KEY_SLOT is written with it: refused on a valid association; else the key in KEY_SLOT is fetched, SSCI
and SALT are taken, VALID is set, and a transmit association starts at PN 1. -/
def saInstallRun (p : Nat) (rx : Option Nat) (an slot master : Nat) (s : State) : State :=
  let s := if saOk p rx an then s.setSaSlot p rx an slot else s
  if !saOk p rx an then s
  else if s.saValid p rx an then s.refuse master (saCtrlAddr p rx an)
  else
    let (k, s) := s.fetchKey 0 (s.saSlot p rx an) (if rx.isNone then attrEncrypt else attrDecrypt) useMacsec
      (some (s.longKey p))
    match k with
    | none => s
    | some k =>
      let s := ((s.setEngineKey (saKeyNo p rx an) k.key).takeSalt (saKeyNo p rx an) (s.saSalt p rx an)).setSaValid p rx an 1
      if rx.isNone then (s.wr (uMac p) F.mac_TXSA_PN_HI 0 an).wr (uMac p) F.mac_TXSA_PN_LO 1 an else s

/-- RETIRE of SA_CTRL: VALID cleared and the key released. -/
def saRetireRun (p : Nat) (rx : Option Nat) (an : Nat) (s : State) : State :=
  if saOk p rx an then (s.setSaValid p rx an 0).dropEngineKey (saKeyNo p rx an) else s

/-- The association that an engine-key number below 1024 stands for. -/
def saOfKey (no : Nat) : Nat × Option Nat × Nat :=
  let i := no % 64
  if i < 4 then (no / 64, none, i) else (no / 64, some ((i - 4) / 4), (i - 4) % 4)

/-- An engine lets go of its key: the association loses VALID. -/
def State.releaseKey (s : State) (no : Nat) : State :=
  let s := s.dropEngineKey no
  if no < 1024 then
    let (p, rx, an) := saOfKey no
    s.setSaValid p rx an 0
  else s

/-- Every key of one MAC (unit disabled or reset, R347). -/
def State.releaseMac (s : State) (p : Nat) : State :=
  (s.sec.engineKeys.filter (fun e => e.1 / 64 == p && e.1 < 1024)).foldl (fun s e => s.releaseKey e.1) s

/-- Every key of one CAN channel, and the fetches it waits for. -/
def State.releaseCan (s : State) (n : Nat) : State :=
  let mine (no : Nat) : Bool := 1024 ≤ no && (no - 1024) / 8 == n
  s.setSec { s.sec with
    engineKeys := s.sec.engineKeys.filter (fun e => !mine e.1), fetches := s.sec.fetches.filter (fun e => !mine e) }

/-! ### Unit keys (R344) -/

/-- KDF with a label, for the unit keys. -/
def unitKdf (secret : Nat) (label : List Nat) (context : List Byte) : Nat :=
  beNat (kdfBytes (beBytes 32 secret) (label.map (BitVec.ofNat 8) ++ [0#8] ++ context) 256)

/-- "NT4872-WRAP" and "NT4872-SET". -/
def labelWrap : List Nat := [0x4E, 0x54, 0x34, 0x38, 0x37, 0x32, 0x2D, 0x57, 0x52, 0x41, 0x50]
def labelSet : List Nat := [0x4E, 0x54, 0x34, 0x38, 0x37, 0x32, 0x2D, 0x53, 0x45, 0x54]

/-- The wrap key derived for the present life-cycle and debug state. -/
def State.deriveWrap (s : State) : State :=
  s.setSec { s.sec with wrapKey := s.otp.secret.map (fun k =>
    unitKdf k labelWrap ([BitVec.ofNat 8 s.lc, BitVec.ofNat 8 s.dbg] ++ beBytes 16 s.otp.uid)) }

/-- Both unit keys derived. -/
def State.deriveKeys (s : State) : State :=
  let s := s.deriveWrap
  s.setSec { s.sec with setKey := s.otp.secret.map (fun k => unitKdf k labelSet (beBytes 16 s.otp.uid)) }

/-! ### The random source (R357) -/

/-- Random bits can be had: the DRBG is instantiated and no health test has failed since its last seed. -/
def State.randomOk (s : State) : Bool := s.sec.drbg.isSome && !s.sec.entropyBad

/-- One generate request: the bits are a free value (log entry 1). -/
def State.generate (s : State) : Nat × State :=
  (Config.freeNat s.free, { s.draw with sec := { s.sec with drbg := s.sec.drbg.map (· + 1) } })

/-- The DRBG seeded from the entropy source; its AES is computed twice (R356). -/
def State.instantiate (s : State) : State :=
  let (_, s) := s.cipherCheck uCrypt 0
  s.setSec { s.sec with drbg := some 0, entropyBad := false }

/-- A challenge for DBG_AUTH drawn from the random source: none while it gives no bits (R357), or where the two AES instances differ
(R356). -/
def State.drawChallenge (s : State) : State :=
  if s.randomOk then
    let (rnd, s) := s.generate
    let (bad, s) := s.cipherCheck uCrypt 0
    s.setSec { s.sec with challenge := if bad then none else some (rnd % 2 ^ 256) }
  else s.setSec { s.sec with challenge := none }

/-- The DRBG instantiated or reseeded, and a challenge drawn where none could be had before. -/
def State.reseed (s : State) : State :=
  let s := s.instantiate
  if s.sec.challenge.isNone ∧ s.cosy.brewStarted then s.drawChallenge else s

/-- `DRBG_RESEED`: a failing health test is an error of the entropy detector; a good one reseeds a DRBG that is due after 1,024
requests, has failed, or is not instantiated. An armed injection makes the test fail. -/
def drbgReseedStep (ok : Bool) (s : State) : State :=
  if !ok || s.armed uCrypt 1 then
    let s := (s.check uCrypt 1 true).sat uCrypt F.crypt_ENTROPY_FAIL_COUNT
    s.setSec { s.sec with entropyBad := true }
  else if s.alarmActive then s
  else if s.sec.entropyBad ∨ s.sec.drbg.isNone ∨ 1024 ≤ s.sec.drbg.getD 0 then s.reseed
  else s

/-! ### Data memory and descriptors (R348, Table 16.4) -/

/-- A byte of the data memory; registers are little-endian (R6). -/
def State.dataByte (s : State) (i : Nat) : Byte :=
  BitVec.ofNat 8 (s.rd uCrypt F.crypt_DATA_DATA (i / 4) / 256 ^ (i % 4))

def State.setDataByte (s : State) (i : Nat) (b : Byte) : State :=
  let w := s.rd uCrypt F.crypt_DATA_DATA (i / 4)
  s.wr uCrypt F.crypt_DATA_DATA (setNbits w (8 * (i % 4)) 8 b.toNat) (i / 4)

/-- `n` bytes of a ring's partition. -/
def State.dataBytes (s : State) (ring ofs n : Nat) : List Byte :=
  (List.range n).map (fun k => s.dataByte (16384 * ring + ofs + k))

/-- Bytes written into a ring's partition, inside it. -/
def State.putData (s : State) (ring : Nat) : Nat → List Byte → State
  | _, [] => s
  | ofs, b :: t => (if ofs < 16384 then s.setDataByte (16384 * ring + ofs) b else s).putData ring (ofs + 1) t

/-- A job descriptor. -/
structure Desc where
  op : Nat
  slot : Nat
  slot2 : Nat
  attr2 : Nat
  inOfs : Nat
  inLen : Nat
  aadOfs : Nat
  aadLen : Nat
  outOfs : Nat
  outLen : Nat
  auxOfs : Nat
  auxLen : Nat
  param : Nat
  deriving DecidableEq, Repr

/-- Descriptor `d` of a ring. -/
def State.desc (s : State) (ring d : Nat) : Desc :=
  let w0 := s.rd uCrypt F.crypt_DESC_W0_W ring d
  let w1 := s.rd uCrypt F.crypt_DESC_W1_W ring d
  let w2 := s.rd uCrypt F.crypt_DESC_W2_W ring d
  let w3 := s.rd uCrypt F.crypt_DESC_W3_W ring d
  let w4 := s.rd uCrypt F.crypt_DESC_W4_W ring d
  { op := nbits w0 24 8, slot := nbits w0 16 8, slot2 := nbits w0 8 8, attr2 := nbits w0 0 8,
    inOfs := nbits w1 16 16, inLen := nbits w1 0 16, aadOfs := nbits w2 16 16, aadLen := nbits w2 0 16,
    outOfs := nbits w3 16 16, outLen := nbits w3 0 16, auxOfs := nbits w4 16 16, auxLen := nbits w4 0 16,
    param := s.rd uCrypt F.crypt_DESC_W5_W ring d }

/-- Which fields an operation uses (Table 16.5): SLOT, SLOT2, ATTR2, IN, AAD, OUT, AUX, PARAM. -/
def opUses (op : Nat) : List Bool :=
  match op with
  | 1 | 2 => [true, false, false, true, true, true, true, false]
  | 3 | 4 | 5 | 6 => [true, false, false, true, false, false, true, false]
  | 7 | 8 => [false, false, false, true, false, false, true, false]
  | 9 => [true, true, true, true, false, false, false, false]
  | 10 => [false, false, false, false, false, true, false, false]
  | 11 => [false, true, true, false, false, false, false, false]
  | 12 => [false, true, false, true, false, false, false, false]
  | 13 => [true, false, false, false, false, true, false, true]
  | 14 => [true, true, true, true, true, false, true, false]
  | _ => []

/-- AUX_LEN of an operation. -/
def auxBytes (op : Nat) : Nat :=
  match op with
  | 1 | 2 | 14 => 28
  | 3 | 4 => 16
  | 5 | 6 | 7 => 32
  | 8 => 128
  | _ => 0

/-- The arguments of a job agree with Table 16.5 and stay in the ring's partition (R348, R350). -/
def Desc.argsOk (d : Desc) : Bool :=
  let u := opUses d.op
  let on (i : Nat) : Bool := u.getD i false
  let inside (ofs len : Nat) : Bool := decide (ofs + len ≤ 16384)
  !u.isEmpty && (on 0 || d.slot == 0) && (on 1 || d.slot2 == 0) && (on 2 || d.attr2 == 0) && d.attr2 < 128
    && (on 3 || (d.inOfs == 0 && d.inLen == 0)) && (on 4 || (d.aadOfs == 0 && d.aadLen == 0))
    && (on 5 || (d.outOfs == 0 && d.outLen == 0)) && (on 6 || (d.auxOfs == 0 && d.auxLen == 0))
    && (on 7 || d.param == 0)
    && inside d.inOfs d.inLen && inside d.aadOfs d.aadLen && inside d.outOfs d.outLen && inside d.auxOfs d.auxLen
    && d.auxLen == auxBytes d.op
    && (if d.op = 1 ∨ d.op = 2 then d.outLen == d.inLen
        else if d.op = 10 then 1 ≤ d.outLen && d.outLen ≤ 16384
        else if d.op = 12 then d.inLen == 80
        else if d.op = 13 then d.outLen == 80
        else if d.op = 14 then d.inLen == keyBytes d.attr2
        else true)

/-- The output areas of a job: offset and length in the ring's partition (R351). -/
def Desc.outputs (d : Desc) : List (Nat × Nat) :=
  let out := if (opUses d.op).getD 5 false then [(d.outOfs, d.outLen)] else []
  let aux := if d.op = 1 ∨ d.op = 3 ∨ d.op = 5 ∨ d.op = 7 then [(d.auxOfs, min d.auxLen (auxBytes d.op))] else []
  out ++ aux

/-- HEAD and TAIL of a ring. -/
def State.ringHead (s : State) (r : Nat) : Nat := s.rd uCrypt F.crypt_RING_CTRL_HEAD r
def State.ringTail (s : State) (r : Nat) : Nat := s.rd uCrypt F.crypt_RING_CTRL_TAIL r

/-- The descriptors of submitted jobs. -/
def State.submitted (s : State) (r : Nat) : List Nat :=
  (List.range ((s.ringTail r + 16 - s.ringHead r) % 16)).map (fun i => (s.ringHead r + i) % 16)

/-- Whether a byte of the data memory lies in the output area of a submitted job (R351). -/
def State.hiddenByte (s : State) (i : Nat) : Bool :=
  let r := i / 16384
  let o := i % 16384
  r < 4 && (s.submitted r).any (fun d => (s.desc r d).outputs.any (fun a => decide (a.1 ≤ o ∧ o < a.1 + a.2)))

/-! ### Running a job (R349 to R352) -/

def jobOk : Nat := 0
def jobAuth : Nat := 1
def jobBadArg : Nat := 2
def jobKey : Nat := 3
def jobFault : Nat := 4
def jobEntropy : Nat := 5
def jobAlarm : Nat := 6
def jobNonce : Nat := 7

/-- The service takes the next job in round robin, if it has none and its unit counts as enabled. -/
def State.takeJob (s : State) : State :=
  if s.sec.running.isSome ∨ !s.enabled uCrypt then s
  else
    match (List.range 4).find? (fun i => !(s.submitted ((s.sec.nextRing + i) % 4)).isEmpty) with
    | none => s
    | some i =>
      let r := (s.sec.nextRing + i) % 4
      s.setSec { s.sec with running := some r, nextRing := (r + 1) % 4 }

/-- A blob of the image goes to ring 3 while that ring is empty (R346): one LOAD_BLOB job at a time, its input at the start of
partition 3 (log entry 44). -/
def State.feedBlob (s : State) : State :=
  match s.sec.blobs with
  | [] => s
  | (slot, b) :: t =>
    if (s.submitted 3).isEmpty then
      let d := s.ringTail 3
      let s := (s.setSec { s.sec with blobs := t }).putData 3 0 b
      let s := (s.wr uCrypt F.crypt_DESC_W0_W (12 * 2 ^ 24 + slot * 256) 3 d).wr uCrypt F.crypt_DESC_W1_W 80 3 d
      let s := ((s.wr uCrypt F.crypt_DESC_W2_W 0 3 d).wr uCrypt F.crypt_DESC_W3_W 0 3 d).wr uCrypt F.crypt_DESC_W4_W 0 3 d
      let s := s.wr uCrypt F.crypt_DESC_W5_W 0 3 d
      (s.wr uCrypt F.crypt_RING_CTRL_TAIL ((d + 1) % 16) 3).takeJob
    else s

/-- A job ends: any status but OK zeroes its output area; W7, HEAD, the ring's count and interrupt; then the next job is
taken. -/
def State.endJob (s : State) (r status written : Nat) : State :=
  let h := s.ringHead r
  let d := s.desc r h
  let s := if status = jobOk then s
    else d.outputs.foldl (fun s a => s.putData r a.1 (List.replicate a.2 0#8)) s
  let s := s.wr uCrypt F.crypt_DESC_W7_W (2 ^ 31 + status * 2 ^ 27 + written % 65536) r h
  let s := (s.wr uCrypt F.crypt_RING_CTRL_HEAD ((h + 1) % 16) r).inc uCrypt F.crypt_RING_DONE_COUNT r
  let s := if status = jobAuth then s.sat uCrypt F.crypt_AUTH_FAIL_COUNT else s
  let s := if d.op = 12 ∧ status ≠ jobOk then
    let s := s.sat uCaddy F.caddy_BLOB_FAIL_COUNT
    if r = 3 then s.check uKettle 0 true else s
    else s
  let s := if s.flag uCrypt F.crypt_RING_CTRL_INT_EN r then s.event uCrypt else s
  (s.setSec { s.sec with running := none }).takeJob.feedBlob

/-- Jobs whose OP is none of Table 16.5 complete with BAD_ARG as the service comes to them. -/
def State.skipBadOps : Nat → State → State
  | 0, s => s
  | n + 1, s =>
    match s.sec.running with
    | none => s
    | some r => if (opUses (s.desc r (s.ringHead r)).op).isEmpty then (s.endJob r jobBadArg 0).skipBadOps n else s

/-- `JOB_SUBMIT`: a write of RING_TAIL by the owner of the ring; equal to HEAD it is refused. -/
def ringOwner (ring master : Nat) : Bool :=
  if ring = 0 then master == 0x01 else if ring = 1 then master == 0x08
  else if ring = 2 then master == 0x10 || master == 0x11 else master == 0x18

def ringTailAddr (ring : Nat) : Nat := fldAddr uCrypt F.crypt_RING_CTRL_TAIL ring 0

def jobSubmitRun (ring tail master : Nat) (s : State) : State :=
  if 4 ≤ ring then s
  else if !ringOwner ring master ∨ tail % 16 = s.ringHead ring then s.refuse master (ringTailAddr ring)
  else ((s.wr uCrypt F.crypt_RING_CTRL_TAIL tail ring).takeJob).skipBadOps 64

/-- A key for a job, from a slot. -/
def State.jobKeyOf (s : State) (slot attr : Nat) : Option KeySlot × State := s.fetchKey 0x32 slot attr useCrypto none

/-- What a job does: its status, the bytes it writes as (offset, bytes), and the bytes written to OUT. -/
structure JobResult where
  status : Nat
  writes : List (Nat × List Byte) := []
  out : Nat := 0
  deriving DecidableEq, Repr

def KeySlot.rounds (k : KeySlot) : List Nat := roundKeys (attrLong k.attr) k.key

/-- The bytes of a slot's key. -/
def KeySlot.bytes (k : KeySlot) : List Byte := beBytes (keyBytes k.attr) k.key

/-- `GCM_ENC` (R352). -/
def jobGcmEnc (s : State) (r : Nat) (d : Desc) : JobResult × State :=
  let (k, s) := s.jobKeyOf d.slot attrEncrypt
  match k with
  | none => ({ status := jobKey }, s)
  | some k =>
    if 2 ^ 32 ≤ k.encs then ({ status := jobNonce }, s)
    else if !s.randomOk then ({ status := jobEntropy }, s)
    else
      let (rnd, s) := s.generate
      let iv := rnd % 2 ^ 96
      let s := s.setSec { s.sec with slots := pmSet s.sec.slots d.slot { k with encs := k.encs + 1 } }
      let (bad, s) := s.cipherCheck uCrypt 0
      if bad then ({ status := jobFault }, s)
      else
        let (c, tag) := gcm k.rounds iv (s.dataBytes r d.aadOfs d.aadLen) (s.dataBytes r d.inOfs d.inLen) false
        ({ status := jobOk, writes := [(d.outOfs, c), (d.auxOfs, beBytes 12 iv ++ beBytes 16 tag)], out := d.outLen }, s)

/-- `GCM_DEC`. -/
def jobGcmDec (s : State) (r : Nat) (d : Desc) : JobResult × State :=
  let (k, s) := s.jobKeyOf d.slot attrDecrypt
  match k with
  | none => ({ status := jobKey }, s)
  | some k =>
    let (bad, s) := s.cipherCheck uCrypt 0
    if bad then ({ status := jobFault }, s)
    else
      let aux := s.dataBytes r d.auxOfs 28
      let (p, tag) := gcm k.rounds (beNat (aux.take 12)) (s.dataBytes r d.aadOfs d.aadLen) (s.dataBytes r d.inOfs d.inLen) true
      if tag = beNat (aux.drop 12) then ({ status := jobOk, writes := [(d.outOfs, p)], out := d.outLen }, s)
      else ({ status := jobAuth }, s)

/-- `CMAC_GEN` and `CMAC_VER`. -/
def jobCmac (ver : Bool) (s : State) (r : Nat) (d : Desc) : JobResult × State :=
  let (k, s) := s.jobKeyOf d.slot (if ver then attrDecrypt else attrEncrypt)
  match k with
  | none => ({ status := jobKey }, s)
  | some k =>
    let (bad, s) := s.cipherCheck uCrypt 0
    if bad then ({ status := jobFault }, s)
    else
      let tag := beBytes 16 (cmac k.rounds (s.dataBytes r d.inOfs d.inLen))
      if ver then ({ status := if tag = s.dataBytes r d.auxOfs 16 then jobOk else jobAuth }, s)
      else ({ status := jobOk, writes := [(d.auxOfs, tag)] }, s)

/-- `HMAC_GEN` and `HMAC_VER`. -/
def jobHmac (ver : Bool) (s : State) (r : Nat) (d : Desc) : JobResult × State :=
  let (k, s) := s.jobKeyOf d.slot (if ver then attrDecrypt else attrEncrypt)
  match k with
  | none => ({ status := jobKey }, s)
  | some k =>
    let tag := hmac k.bytes (s.dataBytes r d.inOfs d.inLen)
    if ver then ({ status := if tag = s.dataBytes r d.auxOfs 32 then jobOk else jobAuth }, s)
    else ({ status := jobOk, writes := [(d.auxOfs, tag)] }, s)

/-- `SHA256`. -/
def jobSha (s : State) (r : Nat) (d : Desc) : JobResult × State :=
  ({ status := jobOk, writes := [(d.auxOfs, sha256 (s.dataBytes r d.inOfs d.inLen))] }, s)

/-- `ECDSA_VER`. -/
def jobEcdsa (s : State) (r : Nat) (d : Desc) : JobResult × State :=
  let aux := s.dataBytes r d.auxOfs 128
  let part (i : Nat) : Nat := beNat (slice aux (32 * i) 32)
  let h := beNat (sha256 (s.dataBytes r d.inOfs d.inLen))
  ({ status := if ecdsaOk h (part 0) (part 1) (part 2) (part 3) then jobOk else jobAuth }, s)

/-- `KDF`. -/
def jobKdf (s : State) (r : Nat) (d : Desc) : JobResult × State :=
  let (k, s) := s.jobKeyOf d.slot attrDerive
  match k with
  | none => ({ status := jobKey }, s)
  | some k =>
    let out := kdfBytes k.bytes (s.dataBytes r d.inOfs d.inLen) (8 * keyBytes d.attr2)
    ({ status := jobOk }, s.fillSlot d.slot2 (beNat out) d.attr2 0 2)

/-- `RANDOM`. -/
def jobRandom (s : State) (_ : Nat) (d : Desc) : JobResult × State :=
  if !s.randomOk then ({ status := jobEntropy }, s)
  else
    let (rnd, s) := s.generate
    let (bad, s) := s.cipherCheck uCrypt 0
    if bad then ({ status := jobFault }, s)
    else ({ status := jobOk, writes := [(d.outOfs, beBytes d.outLen rnd)], out := d.outLen }, s)

/-- `GEN_KEY`. -/
def jobGenKey (s : State) (_ : Nat) (d : Desc) : JobResult × State :=
  if !s.randomOk then ({ status := jobEntropy }, s)
  else
    let (rnd, s) := s.generate
    let (bad, s) := s.cipherCheck uCrypt 0
    if bad then ({ status := jobFault }, s)
    else ({ status := jobOk }, s.fillSlot d.slot2 (rnd % 256 ^ keyBytes d.attr2) d.attr2 0 3)

/-- The checks of a blob other than its tag (R346): MAGIC, VERSION, reserved bits. -/
def blobHeadOk (b : List Byte) : Bool :=
  be32 b 0 == 0x4E544B42 && byteAt b 4 == 1 && byteAt b 5 < 128 && be16 b 6 == 0 && beNat (slice b 12 8) == 0

/-- `LOAD_BLOB` (R345, R346). -/
def jobLoadBlob (s : State) (r : Nat) (d : Desc) : JobResult × State :=
  match s.sec.wrapKey with
  | none => ({ status := jobKey }, s.fetchRefused 0x32)
  | some wk =>
    let (bad, s) := s.cipherCheck uCrypt 0
    if bad then ({ status := jobFault }, s)
    else
      let b := s.dataBytes r d.inOfs 80
      let a := byteAt b 5
      let (p, tag) := gcm (roundKeys true wk) (beNat (slice b 0x14 12)) (b.take 0x14) (slice b 0x20 32) true
      if !blobHeadOk b ∨ tag ≠ beNat (slice b 0x40 16) ∨ (!attrLong a ∧ beNat (p.drop 16) ≠ 0) then ({ status := jobAuth }, s)
      else ({ status := jobOk }, s.fillSlot d.slot2 (beNat (p.take (keyBytes a))) a (be32 b 8) 1)

/-- `WRAP_SLOT` (R345). -/
def jobWrap (s : State) (_ : Nat) (d : Desc) : JobResult × State :=
  match s.sec.wrapKey, pmGet s.sec.slots d.slot with
  | some wk, some k =>
    if !bitOf k.attr 6 then ({ status := jobKey }, s.fetchRefused 0x32)
    else if !s.randomOk then ({ status := jobEntropy }, s)
    else
      let (rnd, s) := s.generate
      let (bad, s) := s.cipherCheck uCrypt 0
      if bad then ({ status := jobFault }, s)
      else
        let iv := rnd % 2 ^ 96
        let head := beBytes 4 0x4E544B42 ++ [1#8, BitVec.ofNat 8 k.attr, 0#8, 0#8] ++ beBytes 4 d.param ++ List.replicate 8 0#8
        let (c, tag) := gcm (roundKeys true wk) iv head (k.bytes ++ List.replicate (32 - keyBytes k.attr) 0#8) false
        ({ status := jobOk, writes := [(d.outOfs, head ++ beBytes 12 iv ++ c ++ beBytes 16 tag)], out := 80 }, s)
  | _, _ => ({ status := jobKey }, s.fetchRefused 0x32)

/-- `IMPORT`. -/
def jobImport (s : State) (r : Nat) (d : Desc) : JobResult × State :=
  let (k, s) := s.jobKeyOf d.slot attrWrap
  match k with
  | none => ({ status := jobKey }, s)
  | some k =>
    let (bad, s) := s.cipherCheck uCrypt 0
    if bad then ({ status := jobFault }, s)
    else
      let aux := s.dataBytes r d.auxOfs 28
      let (p, tag) := gcm k.rounds (beNat (aux.take 12)) (s.dataBytes r d.aadOfs d.aadLen) (s.dataBytes r d.inOfs d.inLen) true
      if tag = beNat (aux.drop 12) then ({ status := jobOk }, s.fillSlot d.slot2 (beNat p) d.attr2 0 4)
      else ({ status := jobAuth }, s)

/-- A job completes: the running job, if its operation is `op`. Arguments are checked first, then the alarm (R359), then what
the operation itself checks. In RETIRED no job runs; its status is open (log entry 42). -/
def State.runJob (s : State) (op : Nat) (f : State → Nat → Desc → JobResult × State) : State :=
  match s.sec.running with
  | none => s
  | some r =>
    let d := s.desc r (s.ringHead r)
    if d.op ≠ op ∨ !s.enabled uCrypt then s
    else
      let (x, s) :=
        if !d.argsOk then (({ status := jobBadArg } : JobResult), s)
        else if !s.keyOps then ({ status := 1 + s.drawn 7 }, s.draw)
        else if s.alarmActive ∧ (op = 1 ∨ op = 9 ∨ op = 11 ∨ op = 12 ∨ op = 14) then ({ status := jobAlarm }, s)
        else f s r d
      let s := x.writes.foldl (fun s w => s.putData r w.1 w.2) s
      (s.endJob r x.status x.out).skipBadOps 64

/-! ### Alarms and erasure (R358 to R361) -/

/-- An erasure: slots, engine keys, unit keys and the DRBG state; associations lose VALID; a running job ends with ALARM. -/
def State.erase (s : State) : State :=
  let s := s.sec.engineKeys.foldl (fun s e => s.releaseKey e.1) s
  let s := s.setSec { s.sec with slots := [], engineKeys := [], wrapKey := none, setKey := none, drbg := none }
  let s := s.inc uCaddy F.caddy_ERASURES_COUNT
  match s.sec.running with
  | none => s
  | some r => (s.endJob r jobAlarm 0).skipBadOps 64

/-- An alarm: ACTIVE, its source among the sticky and the present ones, the alarm detector, the erasure. A detector classed lasting
(source 4) is an event of the Saucer and stays present no longer than that (log entry 119). -/
def State.raiseAlarm (s : State) (src : Nat) : State :=
  let s := (s.wr uCaddy F.caddy_ALARM_STATUS_ACTIVE 1).orBit uCaddy F.caddy_ALARM_STATUS_STICKY src
  let s := if src = 4 then s else s.orBit uCaddy F.caddy_ALARM_STATUS_PRESENT src
  s.erase.check uCaddy 0 true

/-- A source that has ended: its bit of PRESENT falls (Table 16.11). -/
def State.alarmEnd (s : State) (src : Nat) : State :=
  let p := s.rd uCaddy F.caddy_ALARM_STATUS_PRESENT
  if bitOf p src then s.wr uCaddy F.caddy_ALARM_STATUS_PRESENT (p - 2 ^ src) else s

/-- `ALARM` while the Brew die is powered: a source of R358, or from 8 on the end of source `src` - 8 (log entry 119). TAMPER_N detections
count on the Cosy die (Table 16.15). -/
def alarmStep (src : Nat) (s : State) : State :=
  if 8 ≤ src then s.alarmEnd (src - 8)
  else if src < 5 ∧ 3 ≤ s.cosy.power then
    let s := if src = 0 then s.sat uCosy F.cosy_TAMPER_RET_COUNT else s
    if s.cosy.brewRun then s.raiseAlarm src else s
  else s

def alarmClearAddr : Nat := fldAddr uCaddy F.caddy_ALARM_CLEAR_KEY 0 0

/-- `ALARM_CLEAR`: with the right key from PF0, MSPI or the triad, and no source present, ACTIVE clears, the unit keys are
derived again and the DRBG is instantiated; else CLEAR_REFUSED is set. -/
def alarmClearRun (key present master : Nat) (s : State) : State :=
  let s := s.wr uCaddy F.caddy_ALARM_STATUS_PRESENT present
  if key = 0xA17E ∧ (keySet master).isSome ∧ present % 32 = 0 then
    (s.wr uCaddy F.caddy_ALARM_STATUS_ACTIVE 0).deriveKeys.reseed
  else s.wr uCaddy F.caddy_ALARM_STATUS_CLEAR_REFUSED 1

/-- `TAMPER_UNPOWERED`: TAMPER_N low while the Brew die is unpowered. -/
def tamperUnpoweredStep (s : State) : State :=
  if s.cosy.power = 0 ∨ 3 ≤ s.cosy.power then s
  else (s.wr uCosy F.cosy_TAMPER_RET_SEEN 1).sat uCosy F.cosy_TAMPER_RET_COUNT

/-! ### Life cycle and debug (R362 to R365) -/

/-- HASH_DATA as a digest. -/
def State.hashData (s : State) : Nat :=
  (List.range 8).foldl (fun a k => a * 2 ^ 32 + s.rd uCaddy F.caddy_HASH_DATA_DATA k) 0

def lcCmdAddr : Nat := fldAddr uCaddy F.caddy_LC_CMD_OP 0 0

/-- A write of LC_CMD: the operation runs, with BUSY until time next passes (log entry 12), or is refused with STATUS REFUSED (R363);
while BUSY it has no effect and is an access error (R367). CHECKED 0 writes are access errors (R305). -/
def State.lcCommand (s : State) (key master : Nat) (ok : State → Bool) (run : State → State) : State :=
  s.command uCaddy master lcCmdAddr (fun s =>
    if s.flag uCaddy F.caddy_LC_CMD_BUSY then s.refuse master lcCmdAddr
    else if ok s ∧ !s.safe ∧ key = 0xC7C ∧ (keySet master).isSome then
      ((run s).wr uCaddy F.caddy_LC_CMD_STATUS 0).wr uCaddy F.caddy_LC_CMD_BUSY 1
    else s.wr uCaddy F.caddy_LC_CMD_STATUS 1)

/-- Whether ADVANCE may run (Table 16.7); an advance already programmed in this start is not programmed again. -/
def State.advanceOk (s : State) : Bool :=
  s.otp.lc == s.lc && (match s.lc with
    | 0 => s.otp.secret.isSome && s.otp.fbHash.isSome && !s.otp.signHash.isEmpty
    | 1 => true
    | 2 => s.dbg == 1
    | 3 => true
    | _ => false)

def advanceRun (s : State) : State := { s with otp := { s.otp with lc := s.otp.lc + 1 } }

def State.progSignOk (s : State) (slot : Nat) : Bool := s.lc ≤ 2 && slot < 3 && (pmGet s.otp.signHash slot).isNone

def progSignRun (slot : Nat) (s : State) : State :=
  { s with otp := { s.otp with signHash := pmSet s.otp.signHash slot s.hashData } }

def State.progFbOk (s : State) : Bool := s.lc == 0 && s.otp.fbHash.isNone

def progFbRun (s : State) : State := { s with otp := { s.otp with fbHash := some s.hashData } }

def State.progDbgOk (s : State) : Bool := s.lc ≤ 1 && s.otp.dbgHash.isNone

def progDbgRun (s : State) : State := { s with otp := { s.otp with dbgHash := some s.hashData } }

/-- `DBG_AUTH`: a debugger in CLOSED answers the challenge with a public key and a signature over challenge ‖ UID ‖ LC. At
success the debug state is AUTH-OPEN, an erasure takes place without an alarm, and the wrap key is derived again; a failure
counts and draws a new challenge; after three it is refused, as it is while the random source has given no challenge (R357). The
hash of a public key is over x ‖ y (log entry 45). -/
def dbgAuthStep (x y r sig : Nat) (s : State) : State :=
  match s.sec.challenge with
  | none => s
  | some ch =>
   if s.cosy.brewStarted ∧ s.dbg = 0 ∧ (s.lc = 2 ∨ s.lc = 3) ∧ s.rd uCaddy F.caddy_LC_STATUS_AUTH_FAILS < 3 then
    let msg := beBytes 32 ch ++ beBytes 16 s.otp.uid ++ [BitVec.ofNat 8 s.lc]
    let good := s.otp.dbgHash = some (beNat (sha256 (beBytes 32 x ++ beBytes 32 y)))
      ∧ ecdsaOk (beNat (sha256 msg)) x y r sig
    if good then ((s.wr uCaddy F.caddy_LC_STATUS_DBG 1).erase).deriveWrap
    else (s.sat uCaddy F.caddy_LC_STATUS_AUTH_FAILS).drawChallenge
   else s

/-! ### The commands -/

/-- `KEY_WRITE`. -/
def execKeyWrite (slot master : Nat) (s : State) : Host.Outcome State Fault Refusal :=
  .next (s.keyCommand master (keyWriteRun slot))

/-- `KEY_ERASE`. -/
def execKeyErase (slot master : Nat) (s : State) : Host.Outcome State Fault Refusal :=
  .next (s.keyCommand master (keyEraseRun slot))

/-- `KEY_ERASE_ALL`. -/
def execKeyEraseAll (master : Nat) (s : State) : Host.Outcome State Fault Refusal :=
  .next (s.keyCommand master keyEraseAllRun)

/-- `JOB_SUBMIT`. -/
def execJobSubmit (ring tail master : Nat) (s : State) : Host.Outcome State Fault Refusal :=
  .next (s.command uCrypt master (ringTailAddr ring) (jobSubmitRun ring tail master))

/-- `GCM_ENC`. -/
def execGcmEnc (s : State) : Host.Outcome State Fault Refusal :=
  .next (s.runJob 1 jobGcmEnc)

/-- `GCM_DEC`. -/
def execGcmDec (s : State) : Host.Outcome State Fault Refusal :=
  .next (s.runJob 2 jobGcmDec)

/-- `CMAC_GEN`. -/
def execCmacGen (s : State) : Host.Outcome State Fault Refusal :=
  .next (s.runJob 3 (jobCmac false))

/-- `CMAC_VER`. -/
def execCmacVer (s : State) : Host.Outcome State Fault Refusal :=
  .next (s.runJob 4 (jobCmac true))

/-- `HMAC_GEN`. -/
def execHmacGen (s : State) : Host.Outcome State Fault Refusal :=
  .next (s.runJob 5 (jobHmac false))

/-- `HMAC_VER`. -/
def execHmacVer (s : State) : Host.Outcome State Fault Refusal :=
  .next (s.runJob 6 (jobHmac true))

/-- `SHA256`. -/
def execSha256 (s : State) : Host.Outcome State Fault Refusal :=
  .next (s.runJob 7 jobSha)

/-- `ECDSA_VER`. -/
def execEcdsaVer (s : State) : Host.Outcome State Fault Refusal :=
  .next (s.runJob 8 jobEcdsa)

/-- `KDF`. -/
def execKdf (s : State) : Host.Outcome State Fault Refusal :=
  .next (s.runJob 9 jobKdf)

/-- `RANDOM`. -/
def execRandom (s : State) : Host.Outcome State Fault Refusal :=
  .next (s.runJob 10 jobRandom)

/-- `GEN_KEY`. -/
def execGenKey (s : State) : Host.Outcome State Fault Refusal :=
  .next (s.runJob 11 jobGenKey)

/-- `LOAD_BLOB`. -/
def execLoadBlob (s : State) : Host.Outcome State Fault Refusal :=
  .next (s.runJob 12 jobLoadBlob)

/-- `WRAP_SLOT`. -/
def execWrapSlot (s : State) : Host.Outcome State Fault Refusal :=
  .next (s.runJob 13 jobWrap)

/-- `IMPORT`. -/
def execImportKey (s : State) : Host.Outcome State Fault Refusal :=
  .next (s.runJob 14 jobImport)

/-- `KEY_FETCH`. -/
def execKeyFetch (s : State) : Host.Outcome State Fault Refusal :=
  .next (keyFetchStep s)

/-- `SA_INSTALL`. -/
def execSaInstall (port : Nat) (rx : Option Nat) (an slot master : Nat) (s : State) : Host.Outcome State Fault Refusal :=
  .next (s.command (uMac port) master (saCtrlAddr port rx an) (saInstallRun port rx an slot master))

/-- `SA_RETIRE`. -/
def execSaRetire (port : Nat) (rx : Option Nat) (an master : Nat) (s : State) : Host.Outcome State Fault Refusal :=
  .next (s.command (uMac port) master (saCtrlAddr port rx an) (saRetireRun port rx an))

/-- `DRBG_RESEED`. -/
def execDrbgReseed (ok : Bool) (s : State) : Host.Outcome State Fault Refusal :=
  .next (drbgReseedStep ok s)

/-- `ALARM`. -/
def execAlarm (src : Nat) (s : State) : Host.Outcome State Fault Refusal :=
  .next (alarmStep src s)

/-- `ALARM_CLEAR`. -/
def execAlarmClear (key present master : Nat) (s : State) : Host.Outcome State Fault Refusal :=
  .next (s.command uCaddy master alarmClearAddr (alarmClearRun key present master))

/-- `TAMPER_UNPOWERED`. -/
def execTamperUnpowered (s : State) : Host.Outcome State Fault Refusal :=
  .next (tamperUnpoweredStep s)

/-- `ADVANCE`. -/
def execAdvance (key master : Nat) (s : State) : Host.Outcome State Fault Refusal :=
  .next (s.lcCommand key master State.advanceOk advanceRun)

/-- `PROG_SIGN`. -/
def execProgSign (key arg master : Nat) (s : State) : Host.Outcome State Fault Refusal :=
  .next (s.lcCommand key master (fun s => s.progSignOk arg) (progSignRun arg))

/-- `PROG_FB`. -/
def execProgFb (key master : Nat) (s : State) : Host.Outcome State Fault Refusal :=
  .next (s.lcCommand key master State.progFbOk progFbRun)

/-- `PROG_DBG`. -/
def execProgDbg (key master : Nat) (s : State) : Host.Outcome State Fault Refusal :=
  .next (s.lcCommand key master State.progDbgOk progDbgRun)

/-- `DBG_AUTH`. -/
def execDbgAuth (x y r sig : Nat) (s : State) : Host.Outcome State Fault Refusal :=
  .next (dbgAuthStep x y r sig s)

end Sys2Proof.Machine
end

