-- ==== Sys2Proof/Machine/Triad.lean ====
section
/-! DEFINITION. The steward triad: modes, votes, agreement, digest, resynchronisation and mailboxes (chapter 14); and the entries
of the repair ledger (Table 15.9). -/

namespace Sys2Proof.Machine

/-! ### The repair ledger (R333, R337, Table 15.9) -/

def kindSlice : Nat := 1
def kindRow : Nat := 2
def kindRetire : Nat := 3
def kindEngine : Nat := 4
def kindCore : Nat := 5

/-- A ledger entry with VALID set. -/
def ledgerEntry (kind mem value : Nat) : Nat := 2 ^ 31 + kind * 2 ^ 28 + mem * 2 ^ 20 + value % 2 ^ 20

def entryKind (e : Nat) : Nat := e / 2 ^ 28 % 8
def entryMem (e : Nat) : Nat := e / 2 ^ 20 % 256
def entryValue (e : Nat) : Nat := e % 2 ^ 20

/-- Entries of the ledger in OTP but those that failed their check, and entries on their way there. -/
def State.ledgerAll (s : State) : List Nat :=
  ((List.range s.otp.ledger.length).filter (fun i => !s.kettle.badEntries.contains i)).filterMap (fun i => s.otp.ledger[i]?)
    ++ (s.host.posted.filter (·.repair)).map (·.value.toNat)

/-- Valid entries of a kind. -/
def State.ledgerOf (s : State) (kind : Nat) : List Nat :=
  s.ledgerAll.filter (fun e => e / 2 ^ 31 == 1 && entryKind e == kind)

/-- Entries of the ledger in force of one kind: those that Kettle has applied, without one that fails its OTP check (R337). -/
def State.inForce (s : State) (kind : Nat) : List Nat := s.kettle.ledger.filter (fun e => entryKind e == kind)

/-- The address of entry `n` of the ledger (Table 15.9). -/
def ledgerAddr (n : Nat) : Nat := cosyBase + 0x5000 + 4 * n

/-- A scheduled repair leaves as a posted write to the Cosy die, if one of the 64 entries is free; else LASTING.LEDGER_FULL (R333). With the
link down the write is refused (R381), as one of no master. -/
def State.ledgerAdd (s : State) (e : Nat) : State :=
  let n := s.otp.ledger.length + (s.host.posted.filter (·.repair)).length
  if 64 ≤ n then s.wr uSaucer F.saucer_LASTING_LEDGER_FULL 1
  else if s.flag uUlis F.ulis_ULIS_STATUS_UP then
    let p : Posted := ⟨0, ledgerAddr n, BitVec.ofNat 32 e, 0, true⟩
    { s with host := { s.host with posted := s.host.posted ++ [p] } }
  else s.refuse 0 (ledgerAddr n)

/-- A repair that has reached the Cosy die: the entry is programmed, and the next start runs the self-test (R266, R333). -/
def State.ledgerWrite (s : State) (e : Nat) : State :=
  if s.otp.ledger.length < 64 then
    { s with otp := { s.otp with ledger := s.otp.ledger ++ [e] } }.wr uCosy F.cosy_SAUCER_RET_REPAIR_PENDING 1
  else s

/-! ### Modes (R312, Table 14.3) -/

def mdNone : Nat := 0
def mdTriple : Nat := 1
def mdReduced : Nat := 2
def mdSplit : Nat := 3
def mdBypass : Nat := 4

def State.triadMode (s : State) : Nat := s.rd uTriad F.triad_TRIAD_STATUS_MODE
def State.triadHeld (s : State) : Bool := s.flag uTriad F.triad_TRIAD_STATUS_HELD

/-- Cores dropped: bit n of FAILED. -/
def State.coreFailed (s : State) (n : Nat) : Bool := bitOf (s.rd uTriad F.triad_TRIAD_STATUS_FAILED) n

def State.setTriad (s : State) (x : TriadState) : State := { s with triad := x }

/-- The mode, with B_CHECKED, which reads 0 in SPLIT and BYPASS. -/
def State.setMode (s : State) (m : Nat) : State :=
  (s.wr uTriad F.triad_TRIAD_STATUS_MODE m).wr uTriad F.triad_TRIAD_STATUS_B_CHECKED (b2n (m != mdSplit && m != mdBypass))

/-- One evaluation of a detector, and whether its output is active: by its condition or by an injection (R334). -/
def State.evaluate (s : State) (u : UnitNo) (d : Nat) (cond : Bool) (x : Detail := {}) : Bool × State :=
  (cond || s.armed u d, s.check u d cond x)

/-- The triad's firmware is up, if there is a triad and it is not held. -/
def State.triadReady (s : State) : State :=
  if s.enabled uTriad ∧ s.triadMode ≠ mdNone ∧ !s.triadHeld then s.wr uTriad F.triad_TRIAD_STATUS_READY 1 else s

/-- Kettle enables TRIAD for the first time in a start: the mode from the ledger in force, the strap and the image. The mode is not
decided again in that start; a triad that is enabled again after a reset runs its firmware anew. -/
def State.triadStart (s : State) : State :=
  if s.triad.decided then (if stPriDone ≤ s.kettle.stage then s.triadReady else s)
  else
    let s := s.setTriad { s.triad with decided := true }
    let cores := (s.inForce kindCore).map entryValue
    let failed := maskOf (cores.filter (· < 3))
    let s := s.wr uTriad F.triad_TRIAD_STATUS_FAILED failed
    let split := s.flag uKettle F.kettle_STRAPS_TRIAD_SPLIT || s.flag uTriad F.triad_TRIAD_CFG_SPLIT_IMG
    match (bitsOf 3 failed).length with
    | 0 => s.setMode (if split then mdSplit else mdTriple)
    | 1 => (s.wr uTriad F.triad_TRIAD_STATUS_SPLIT_REFUSED (b2n split)).setMode mdReduced
    | _ => (s.setMode mdNone).check uTriad 2 true

/-- MB_STATUS.STATE: 0 IDLE, 1 BUSY, 2 DONE. -/
def State.mbState (s : State) (m : Nat) : Nat := s.rd uTriad F.triad_MB_STATUS_STATE m

/-- A mailbox reaches DONE: the interrupt if INT_EN is set. -/
def State.mbDone (s : State) (m : Nat) : State :=
  let s := s.wr uTriad F.triad_MB_STATUS_STATE 2 m
  let s := s.setTriad { s.triad with
    requests := s.triad.requests.filter (fun e => e.1 != m), served := s.triad.served.filter (· != m) }
  if s.flag uTriad F.triad_MB_CTRL_INT_EN m then s.event uTriad else s

/-- The header word of a request as copied. -/
def State.mbHead (s : State) (m : Nat) : Nat := (((pmGet s.triad.requests m).getD []).headD 0)

/-- A BUSY mailbox whose triad is held or not there: STATUS ABORTED with the request's TAG. -/
def State.mbAbort (s : State) (m : Nat) : State :=
  if s.mbState m = 1 then
    let tag := nbits (s.mbHead m) 8 8
    ((s.wr uTriad F.triad_MB_RSP_DATA (4 * 65536 + tag * 256) m 0).wr uTriad F.triad_MB_STATUS_ABORTED 1 m).mbDone m
  else s

/-- The triad is held: no further transaction, and every mailbox in progress is aborted (R304, Table 14.6). -/
def State.hold (s : State) : State :=
  (List.range 4).foldl (fun s m => s.mbAbort m) (s.wr uTriad F.triad_TRIAD_STATUS_HELD 1)

/-- Agreed events reach the cores. The doorbell of mailbox m is event m (DESIGN CHOICE, log entry 113): its request is served from then
on, after those agreed before it (R316). -/
def State.deliver (s : State) (l : List (Nat × Nat)) : State :=
  s.setTriad { s.triad with
    agreed := s.triad.agreed ++ l
    served := s.triad.served ++ (l.map (·.1)).filter (fun e => e < 4 && s.mbState e == 1 && !s.triad.served.contains e) }

/-- The cores resume after a resynchronisation: the events agreed meanwhile are delivered (R310). -/
def State.resume (s : State) : State :=
  let l := s.triad.deferred
  ((s.wr uTriad F.triad_TRIAD_STATUS_RESYNC 0).setTriad { s.triad with minority := none, deferred := [] }).deliver l

/-- A core is dropped: entered in the ledger, FAILED updated, REDUCED (Table 14.3). -/
def State.dropCore (s : State) (n : Nat) : State :=
  (((s.ledgerAdd (ledgerEntry kindCore 0 n)).orBit uTriad F.triad_TRIAD_STATUS_FAILED n).resume).setMode mdReduced

/-- A resynchronisation of a core starts (R310). -/
def State.startResync (s : State) (n : Nat) : State :=
  ((s.wr uTriad F.triad_TRIAD_STATUS_RESYNC 1).wr uTriad F.triad_TRIAD_STATUS_LAST_MINORITY n).setTriad
    { s.triad with minority := some n }

/-! ### Voting (R302, R304, R305, Table 14.1) -/

/-- Of three values, the core that differs from the other two, if exactly two agree. -/
def minorityOf (v : List Nat) : Option Nat :=
  let a := v.getD 0 0
  let b := v.getD 1 0
  let c := v.getD 2 0
  if a = b ∧ b ≠ c then some 2 else if a = c ∧ a ≠ b then some 1 else if b = c ∧ a ≠ b then some 0 else none

def allEqual (v : List Nat) : Bool := v.getD 0 0 == v.getD 1 0 && v.getD 1 0 == v.getD 2 0

/-- The values at the voters: a core both of whose delay copies fail parity has a value that agrees with none. -/
def votedValues (t : TriadTx) : List Nat :=
  (List.range 3).map (fun n => if t.delay.getD n 0 ≥ 2 then 3 * n else 3 * t.votes.getD n 0 + 10)

/-- The cores that run in a mode. -/
def State.running (s : State) : List Nat := (List.range 3).filter (fun n => !s.coreFailed n)

/-- The lead core in bypass: 3 acts as 0. -/
def State.leadCore (s : State) : Nat :=
  let l := s.rd uTriad F.triad_TRIAD_DBG_LEAD
  if l = 3 then 0 else l

/-- The minority of a vote of three, which a forced output of the vote-mask detector reports too: the manual names no core for it, so
that core is a free value (R335; DESIGN CHOICE, log entry 117). -/
def State.maskedCore (s : State) (d : Nat) (m : Option Nat) : Option Nat × State :=
  let (fired, t) := s.evaluate uTriad d m.isSome
  match m with
  | some n => (some n, t)
  | none => if fired then (some (s.drawn 3), t.draw) else (none, t)

/-- The vote on a transaction: the master it is issued as (0x10 with CHECKED 1, 0x11 with CHECKED 0), or none. While a core is being
resynchronised the other two vote 2 of 2 (R310). -/
def State.vote (s : State) (t : TriadTx) : Option Nat × State :=
  let s := (List.range 3).foldl (fun s n => s.check uTriad 4 (decide (0 < t.delay.getD n 0)) { addr := n }) s
  let (cmp, s) := s.evaluate uTriad 0 t.votersDiffer
  let v := votedValues t
  let m := s.triadMode
  if cmp then (none, s.hold)
  else if m = mdNone then (none, s)
  else if m = mdBypass then (if t.core = s.leadCore then (some 0x11, s) else (none, s))
  else if m = mdSplit ∧ t.core = 1 then (some 0x11, s)
  else
    let l := if m = mdSplit then [0, 2] else s.running.filter (fun n => some n != s.triad.minority)
    let three := m == mdTriple && s.triad.minority.isNone
    let pairOk := v.getD (l.getD 0 0) 0 == v.getD (l.getD 1 0) 0
    let majority := (three && (minorityOf v).isSome) || (pairOk && (!three || allEqual v))
    let (minority, s) := if three ∧ majority then s.maskedCore 1 (minorityOf v) else (none, s)
    let (none2, s) := s.evaluate uTriad 2 (!majority)
    if none2 then (none, s.hold)
    else
      let s := match minority with
        | some n => (s.sat uTriad F.triad_MASKED n).startResync n
        | none => s
      (some 0x10, s)

/-- Whether the triad is there: enabled, started, not held. -/
def State.triadUp (s : State) : Bool := s.enabled uTriad && s.triadMode != mdNone && !s.triadHeld

/-- Whether its cores run: they stop for a resynchronisation, in which dirty cache lines alone are written back. -/
def State.triadRuns (s : State) : Bool := s.triadUp && !s.flag uTriad F.triad_TRIAD_STATUS_RESYNC

/-! ### Agreement (R307, R308) -/

/-- An event that at least two running cores latched: delivered to all; one core that missed it is masked. In bypass each core
takes what its own latch sees. -/
def State.agree (s : State) (event cores : Nat) (late : Bool) : State :=
  let missed := s.running.any (fun n => !bitOf cores n)
  let s := s.setTriad { s.triad with latched := s.triad.latched.filter (fun e => e.1 != event) }
  let e := (event, maskOf s.running)
  let s := if s.flag uTriad F.triad_TRIAD_STATUS_RESYNC then s.setTriad { s.triad with deferred := s.triad.deferred ++ [e] }
    else s.deliver [e]
  let (_, s) := s.evaluate uTriad 5 (late || missed) { addr := event }
  if late ∨ missed then s.sat uTriad F.triad_AGREE_MASKED else s

/-- `AGREE_OFFER_EXPIRY`: an event that one core only has latched, after its four further offers, is discarded. -/
def agreeOfferExpiryStep (event : Nat) (s : State) : State :=
  match s.triad.latched.find? (fun e => e.1 == event) with
  | none => s
  | some e =>
    if e.2.2 = 0 then
      let s := s.setTriad { s.triad with latched := s.triad.latched.filter (fun x => x.1 != event) }
      (s.sat uTriad F.triad_AGREE_MASKED).check uTriad 5 true { addr := event }
    else s

/-- `TRIAD_EVENT_LATCH`: one exchange of the latches for an event; one whose four further offers are past was discarded before it. -/
def triadEventLatchStep (event cores : Nat) (s : State) : State :=
  if s.triadUp then
    if s.triadMode = mdBypass then s.deliver [(event, cores % 8)]
    else
      let s := agreeOfferExpiryStep event s
      let before := s.triad.latched.find? (fun e => e.1 == event)
      let mask := maskOf (s.running.filter (fun n => bitOf cores n || (match before with
        | some e => bitOf e.2.1 n
        | none => false)))
      match (bitsOf 3 mask).length with
      | 0 => s
      | 1 =>
        (match before with
         | none => s.setTriad { s.triad with latched := s.triad.latched ++ [(event, mask, 4)] }
         | some e =>
           s.setTriad { s.triad with
             latched := s.triad.latched.map (fun x => if x.1 = event then (event, mask, e.2.2 - 1) else x) })
      | _ => s.agree event mask before.isSome
  else s

/-! ### Digest and resynchronisation (R309, R310) -/

/-- The digests of a tick shown, with the tick they belong to (Table 14.7). -/
def State.showDigests (s : State) (v : List Nat) : State :=
  let s := (List.range 3).foldl (fun s n => s.wr uTriad F.triad_DIGEST_CRC (v.getD n 0) n) s
  s.wr uTriad F.triad_DIGEST_TICK_TICK (s.rd uTick F.tick_COUNT_COUNT)

/-- The digests of the cores that the mode compares agree. -/
def State.digestsAgree (s : State) (v : List Nat) : Bool :=
  if s.triadMode = mdTriple then allEqual v
  else if s.triadMode = mdSplit then v.getD 0 0 == v.getD 2 0
  else v.getD (s.running.getD 0 0) 0 == v.getD (s.running.getD 1 0) 0

/-- The minority core of a comparison of three digests, which an injection into detector 6 makes one of its own. -/
def State.digestMinority (s : State) (v : List Nat) : Option Nat × State :=
  if s.triadMode = mdTriple ∧ (s.digestsAgree v ∨ (minorityOf v).isSome) then s.maskedCore 6 (minorityOf v) else (none, s)

/-- A minority core: it is resynchronised, or dropped if it is the minority of its own resynchronisation again (R310, R312). -/
def State.digestMinorityIs (s : State) (n : Nat) (again : Option Nat) : State :=
  let s := s.sat uTriad F.triad_DIGEST_MISMATCH
  if again = some n then ((s.wr uTriad F.triad_TRIAD_STATUS_LAST_MINORITY n).check uTriad 7 true).dropCore n else s.startResync n

/-- The outcome of a comparison of digests: all is well, and a resynchronisation is over; a minority core is taken out; without one the
triad stops (R309, Table 14.1). -/
def State.digestVerdict (s : State) (same : Bool) (minority again : Option Nat) : State :=
  match minority with
  | some n => s.digestMinorityIs n again
  | none =>
    if same then (if again.isSome then s.resume.inc uTriad F.triad_RESYNCS else s)
    else (s.check uTriad 2 true).hold

/-- The comparison of the digests: registers, then the outcome for the mode. `again` is the core under resynchronisation. -/
def State.compareDigests (s : State) (a b c : Nat) (again : Option Nat) : State :=
  let s := s.showDigests [a, b, c]
  let r := s.digestMinority [a, b, c]
  r.2.digestVerdict (s.digestsAgree [a, b, c]) r.1 again

/-- `DIGEST_COMPARE`: at the commit point of an agreed tick event. -/
def digestCompareStep (a b c : Nat) (s : State) : State :=
  if s.triadRuns ∧ s.triadMode ≠ mdBypass then s.compareDigests a b c none else s

/-- `RESYNC_DONE`: the comparison that ends a resynchronisation, with its length. -/
def resyncDoneStep (a b c cycles : Nat) (s : State) : State :=
  match s.triad.minority with
  | none => s
  | some n =>
    if s.enabled uTriad ∧ !s.triadHeld then
      (s.wr uTriad F.triad_RESYNC_TIME cycles).compareDigests a b c (some n)
    else s

/-- Pattern `i` of the voter self-test, in the order of R306: what cores A, B and C show in address, data and attributes. -/
def voterPattern (i : Nat) : List (List Nat) :=
  (List.range 3).map (fun core => (List.range 3).map (fun field =>
    if i = 0 then 0
    else if i ≤ 9 then b2n (core == (i - 1) % 3 && field == (i - 1) / 3)
    else if i ≤ 12 then b2n (core == i - 10)
    else if field = i - 13 then core else 0))

/-- A voter: the majority, if two inputs agree, and the minority core it reports. -/
def voterResult (v : List (List Nat)) : Option (List Nat) × Option Nat :=
  let w := v.map (fun f => f.getD 0 0 + 4 * f.getD 1 0 + 16 * f.getD 2 0)
  match minorityOf w with
  | some n => (v[(n + 1) % 3]?, some n)
  | none => (if allEqual w then v[0]? else none, none)

/-- What a voter is expected to give for pattern `i`: all agree, one core differs, or no majority. -/
def voterExpected (i : Nat) : Option (List Nat) × Option Nat :=
  if i = 0 then (some [0, 0, 0], none)
  else if i ≤ 9 then (some [0, 0, 0], some ((i - 1) % 3))
  else if i ≤ 12 then (some [0, 0, 0], some (i - 10))
  else (none, none)

/-- One pattern of the voter self-test applied to both voters (R306). -/
def State.voterSelfTest (s : State) : State :=
  if s.triadMode = mdNone then s
  else
    let i := s.triad.pattern
    let s := s.setTriad { s.triad with pattern := (i + 1) % 16 }
    (s.inc uTriad F.triad_SELFTEST_RUNS).check uTriad 3 (voterResult (voterPattern i) != voterExpected i)

/-! ### Debug (R314, R364) -/

/-- Debug access is possible in AUTH-OPEN and OPEN. -/
def State.debugOpen (s : State) : Bool := s.dbg == 1 || s.dbg == 2

/-- `DEBUG_HALT`: a halt or step request to any core. -/
def debugHaltStep (s : State) : State :=
  let m := s.triadMode
  if s.cosy.brewRun ∧ s.debugOpen ∧ (m = mdTriple ∨ m = mdReduced ∨ m = mdSplit) then
    ((s.setMode mdBypass).wr uTriad F.triad_TRIAD_STATUS_DEBUG_SPLIT 1).check uTriad 8 true
  else s

/-! ### Mailboxes (R315, R316) -/

/-- The master a mailbox serves. -/
def mbOwner (m : Nat) : Nat := if m < 2 then 0x01 else 0x08

def mbCtrlAddr (m : Nat) : Nat := fldAddr uTriad F.triad_MB_CTRL_INT_EN m 0

/-- DOORBELL: an IDLE mailbox copies its request. -/
def mailboxDoorbellRun (m master : Nat) (s : State) : State :=
  if 4 ≤ m then s
  else if master ≠ mbOwner m ∨ s.mbState m ≠ 0 then s.refuse master (mbCtrlAddr m)
  else
    let head := s.rd uTriad F.triad_MB_REQ_DATA m 0
    let n := min 127 (nbits head 0 8)
    let words := (List.range (n + 1)).map (fun k => s.rd uTriad F.triad_MB_REQ_DATA m k)
    let s := (s.wr uTriad F.triad_MB_STATUS_STATE 1 m).setTriad { s.triad with requests := s.triad.requests ++ [(m, words)] }
    if s.triadHeld ∨ s.triadMode = mdNone then s.mbAbort m else s

/-- The services of Table 14.5. -/
def serviceKnown (v : Nat) : Bool := v == 0x0001 || v == 0x0100 || v == 0x0101 || (0x0200 ≤ v && v ≤ 0x0204) || v == 0x0300

/-! ### The update and settings services (R289, R299, log entry 111) -/

/-- The flash offset of slot A (0) or B (1) (Table 12.2). -/
def slotBase (slot : Nat) : Nat := 0x100000 + 0x700000 * slot

/-- The slot that the device does not run from. -/
def State.inactiveSlot (s : State) : Nat := 1 - s.rd uCosy F.cosy_SLOT_RET_ACTIVE

/-- The flash offset of a request that names one: the word after its header (DESIGN CHOICE, log entry 111). -/
def State.mbOffset (s : State) (m : Nat) : Nat := (((pmGet s.triad.requests m).getD []).getD 1 0)

/-- Bytes written to the flash. -/
def State.flashPut (s : State) (off : Nat) (b : List Byte) : State :=
  s.setKettle { s.kettle with flash := s.kettle.flash ++ [(off, b)] }

/-- An update request that is refused: while an activation is armed, and one that touches anything but the inactive slot (R289). -/
def State.updateBarred (s : State) (m service : Nat) : Bool :=
  let off := s.mbOffset m
  decide (0x0200 ≤ service) && decide (service ≤ 0x0204) &&
    (s.rd uKettle F.kettle_UPD_STATUS_STATE == 1 ||
      (decide (0x0201 ≤ service) && decide (service ≤ 0x0203) &&
        !(decide (slotBase s.inactiveSlot ≤ off) && decide (off < slotBase s.inactiveSlot + 0x700000))))

/-- A request that the service refuses by itself: the update requests of R289, and a write of settings in a trial start (R299). -/
def State.serviceBarred (s : State) (m service : Nat) : Bool := s.updateBarred m service || (service == 0x0101 && s.trial)

/-- An erasure of a 64 KiB sector, or a page programmed; before the first one the sector of the slot's commit record is erased
(R289). -/
def State.slotWrite (s : State) (m service : Nat) : State :=
  let s := if s.triad.recordErased then s
    else (s.flashPut (slotBase s.inactiveSlot + 0x6F0000) []).setTriad { s.triad with recordErased := true }
  let off := s.mbOffset m
  if service = 0x0201 then s.flashPut (off / 65536 * 65536) []
  else s.flashPut (off / 256 * 256) ((((pmGet s.triad.requests m).getD []).drop 2).flatMap (beBytes 4))

/-- The schema that lists a section of settings: same source, same version, every offset in it (R278). -/
def State.schemaOf (s : State) (y : SetSection) : Option Schema :=
  s.kettle.schemas.find? (fun x => x.source == y.source && x.version == y.version
    && y.values.all (fun e => (pmGet x.masks e.1).isSome))

/-- The values of a request put into the sections: SOURCE_ID and SCHEMA in one word, then pairs of offset and value (DESIGN CHOICE, log
entry 111). -/
def putSection (l : List SetSection) (w : List Nat) : List SetSection :=
  let x : SetSection := ⟨w.getD 0 0 / 65536, w.getD 0 0 % 65536,
    (List.range ((w.length - 1) / 2)).map (fun i => (w.getD (1 + 2 * i) 0, w.getD (2 + 2 * i) 0))⟩
  let old := (l.find? (fun y => y.source == x.source && y.version == x.version)).elim [] (·.values)
  l.filter (fun y => y.source != x.source) ++
    [{ x with values := old.filter (fun e => (pmGet x.values e.1).isNone) ++ x.values }]

/-- A section as the flash holds it (Table 12.9). -/
def sectionBytes (y : SetSection) : List Byte :=
  beBytes 2 y.source ++ beBytes 2 y.version ++ beBytes 2 y.values.length ++ beBytes 2 0 ++
    y.values.flatMap (fun e => beBytes 4 e.1 ++ beBytes 4 e.2)

/-- An AES-CMAC under the unit-bound settings key; a free value while there is no key. -/
def State.settingsMac (s : State) (b : List Byte) : Nat × State :=
  match s.sec.setKey with
  | some k => (cmac (roundKeys true k) b, s)
  | none => (s.drawn (2 ^ 128), s.draw)

/-- A settings copy put into the flash: the other copy, with the next generation number (12.6). The CMAC covers bytes 0 to
63 + LENGTH − 1 (log entry 68). -/
def State.putCopy (s : State) (l : List SetSection) : State :=
  let a := s.kettle.settings
  let gen := (a.gen + 1) % 2 ^ 32
  let body := l.flatMap sectionBytes
  let b := beBytes 4 0x4E545354 ++ beBytes 4 gen ++ beBytes 4 body.length ++ List.replicate 52 0#8 ++ body
  let s := s.setKettle { s.kettle with settings := { copy := 1 - a.copy, gen := gen, sections := l, written := s.bootDone } }
  let (mac, s) := s.settingsMac (b.take (63 + body.length))
  s.flashPut (0xF00000 + 0x80000 * s.kettle.settings.copy) (b ++ beBytes 16 mac)

/-- SETTINGS_WRITE: the first one after boot complete drops every section that the schema does not list (R299). -/
def State.settingsWrite (s : State) (m : Nat) : State :=
  let a := s.kettle.settings
  let l := if s.bootDone ∧ !a.written then a.sections.filter (fun y => (s.schemaOf y).isSome) else a.sections
  s.putCopy (putSection l (((pmGet s.triad.requests m).getD []).drop 1))

/-- What a service does beyond its answer, when it completes. -/
def State.serviceDone (s : State) (m service : Nat) : State :=
  if service = 0x0101 then s.settingsWrite m
  else if service = 0x0200 then s.setTriad { s.triad with slotOpen := true, recordErased := false }
  else if service = 0x0201 ∨ service = 0x0202 then s.slotWrite m service
  else if service = 0x0204 then s.setTriad { s.triad with slotOpen := false }
  else s

/-- `MAILBOX_RESPONSE`: the request served first is answered. The firmware's answer is what it is, but for a service it does not
have, which is UNKNOWN, and for one that it refuses by itself. -/
def mailboxResponseStep (m status : Nat) (words : List Nat) (s : State) : State :=
  match s.triad.served with
  | [] => s
  | q :: _ =>
    if q ≠ m ∨ !s.triadRuns then s
    else
      let head := s.mbHead m
      let service := nbits head 16 16
      let status := if !serviceKnown service then 1 else if s.serviceBarred m service then 3 else status
      let w := (words.map (· % 2 ^ 32)).take 63
      let w := if status = 0 then w else []
      let rsp := (status % 65536 * 65536 + nbits head 8 8 * 256 + w.length) :: w
      let s := (List.range rsp.length).foldl (fun s k => s.wr uTriad F.triad_MB_RSP_DATA (rsp.getD k 0) m k) s
      (if status = 0 then s.serviceDone m service else s).mbDone m

/-- ACK: DONE returns to IDLE. -/
def mailboxAckRun (m master : Nat) (s : State) : State :=
  if 4 ≤ m then s
  else if master ≠ mbOwner m then s.refuse master (mbCtrlAddr m)
  else if s.mbState m = 2 then s.wr uTriad F.triad_MB_STATUS_STATE 0 m
  else s

/-! ### The commands -/

/-- `TRIAD_EVENT_LATCH`. -/
def execTriadEventLatch (event cores : Nat) (s : State) : Host.Outcome State Fault Refusal :=
  .next (triadEventLatchStep event cores s)
/-- `AGREE_OFFER_EXPIRY`. -/
def execAgreeOfferExpiry (event : Nat) (s : State) : Host.Outcome State Fault Refusal := .next (agreeOfferExpiryStep event s)
/-- `DIGEST_COMPARE`. -/
def execDigestCompare (a b c : Nat) (s : State) : Host.Outcome State Fault Refusal := .next (digestCompareStep a b c s)
/-- `RESYNC_DONE`. -/
def execResyncDone (a b c cycles : Nat) (s : State) : Host.Outcome State Fault Refusal :=
  .next (resyncDoneStep a b c cycles s)
/-- `DEBUG_HALT`. -/
def execDebugHalt (s : State) : Host.Outcome State Fault Refusal := .next (debugHaltStep s)
/-- `MAILBOX_DOORBELL`. -/
def execMailboxDoorbell (mb master : Nat) (s : State) : Host.Outcome State Fault Refusal :=
  .next (s.command uTriad master (mbCtrlAddr mb) (mailboxDoorbellRun mb master))
/-- `MAILBOX_RESPONSE`. -/
def execMailboxResponse (mb status : Nat) (words : List Nat) (s : State) : Host.Outcome State Fault Refusal :=
  .next (mailboxResponseStep mb status words s)
/-- `MAILBOX_ACK`. -/
def execMailboxAck (mb master : Nat) (s : State) : Host.Outcome State Fault Refusal :=
  .next (s.command uTriad master (mbCtrlAddr mb) (mailboxAckRun mb master))

end Sys2Proof.Machine
end

