-- ==== Sys2Proof/Machine/Saucer.lean ====
section
/-! DEFINITION. The Saucer: reports, episodes, the reaction ladder, the Safe state, lasting faults and their repair (chapter
15). -/

namespace Sys2Proof.Machine

def State.setSaucer (s : State) (x : SaucerState) : State := { s with saucer := x }

/-- GRACE: 0 acts as 1. -/
def State.grace (s : State) : Nat := max 1 (s.rd uSaucer F.saucer_CFG_GRACE)

def State.episodeOpen (s : State) : Bool := s.flag uSaucer F.saucer_EPISODE_OPEN
def State.episodeStep (s : State) : Nat := s.rd uSaucer F.saucer_EPISODE_STEP
def State.graceCount (s : State) : Nat := s.rd uSaucer F.saucer_EPISODE_GRACE_COUNT

/-! ### Windows and lasting faults (R331, R332) -/

/-- The key of a source in the window counts. -/
def sourceKey (u : UnitNo) (d : Nat) : Nat := u * 32 + d

def noWindow (_ : Nat) : List (Nat × Bool) := []

/-- W and K of a source: the first enabled override entry that names it, else WINDOW. -/
def State.windowOf (s : State) (u : UnitNo) (d : Nat) : Nat × Nat :=
  let fix (w k : Nat) : Nat × Nat := (max 16 w, max 1 k)
  match (List.range 64).find? (fun i => s.flag uSaucer F.saucer_OVR_SRC_EN i
      && s.rd uSaucer F.saucer_OVR_SRC_SOURCE i == u && s.rd uSaucer F.saucer_OVR_SRC_DETECTOR i == d) with
  | some i => fix (s.rd uSaucer F.saucer_OVR_WK_W i) (s.rd uSaucer F.saucer_OVR_WK_K i)
  | none => fix (s.rd uSaucer F.saucer_WINDOW_W) (s.rd uSaucer F.saucer_WINDOW_K)

/-- Ticks of one bucket: ⌈W / 16⌉. -/
def State.bucketTicks (s : State) (u : UnitNo) (d : Nat) : Nat := ((s.windowOf u d).1 + 15) / 16

def windowCount (l : List (Nat × Bool)) : Nat := l.foldl (fun a b => a + b.1) 0

/-- The bucket move of a boundary with number `n`, for every source whose bucket length divides it. -/
def State.moveBuckets (s : State) (n : Nat) : State :=
  s.setSaucer { s.saucer with windows := s.saucer.windows.map (fun e =>
    if windowCount e.2 ≠ 0 ∧ n % s.bucketTicks (e.1 / 32) (e.1 % 32) = 0 then (e.1, ((0, false) :: e.2).take 16) else e) }

/-- The detectors that compare the two cipher instances (R356): CRYPT 0, MAC 0, CAN 1. -/
def isCipher (u : UnitNo) (d : Nat) : Bool :=
  (u == uCrypt && d == 0) || (kindOf u == .mac && d == 0) || (kindOf u == .can && d == 1)

/-- Spare rows of a memory (Table 15.8). -/
def spareRows (mem : Nat) : Nat :=
  [0, 165, 165, 21, 21, 11, 11, 164, 164, 164, 164, 164, 164, 656, 656, 82, 63, 82].getD mem 0

/-- The entry for a row of a ledger memory: ROW while spare rows remain, else RETIRE; none for ADDR 0 (R441). -/
def State.rowRepair (s : State) (addr : Nat) : Option Nat :=
  let mem := addr / 2 ^ 32
  let row := addr % 2 ^ 32 / wordsPerRow mem
  if addr = 0 ∨ mem = 0 ∨ 17 < mem then none
  else if ((s.ledgerOf kindRow).filter (fun e => entryMem e == mem)).length < spareRows mem then
    some (ledgerEntry kindRow mem row)
  else some (ledgerEntry kindRetire mem row)

/-- The ledger entry that repairs a lasting source (Table 15.7), from the error that completed the classification. -/
def State.repairOf (s : State) (r : Report) : Option Nat :=
  let mem := r.addr / 2 ^ 32
  match kindOf r.unit with
  | .fab =>
    if r.det ≠ 0 then none
    else if 32 ≤ mem ∧ mem ≤ 47 then
      if (s.ledgerOf kindSlice).isEmpty ∧ !s.flag uFab F.fab_SLICE_MAP_SPARE_USED then some (ledgerEntry kindSlice 0 (mem - 32))
      else some (ledgerEntry kindRetire mem (r.addr % 2 ^ 32))
    else s.rowRepair r.addr
  | .pipe => if r.det ≤ 1 then s.rowRepair r.addr else none
  | .strain => if r.det = 0 then s.rowRepair r.addr else none
  | .gw =>
    if r.det = 0 ∧ (mem = 15 ∨ mem = 16) then s.rowRepair r.addr
    else if r.det ≤ 1 then some (ledgerEntry kindEngine 0 (instOf r.unit))
    else none
  | .triad =>
    if r.det = 9 then s.rowRepair r.addr
    else if r.det = 1 ∨ r.det = 6 then
      let n := s.rd uTriad F.triad_TRIAD_STATUS_LAST_MINORITY
      if s.triadMode = mdTriple ∧ n < 3 then some (ledgerEntry kindCore 0 n) else none
    else none
  | _ => none

/-- A source classed lasting: its buckets are cleared, it is recorded and counted, and its repair is scheduled and written
unless an injected error counted in its window; a core is dropped at once; a cipher-compare source raises the alarm. -/
def State.classify (s : State) (r : Report) (inj : Bool) : State :=
  let s := s.setSaucer { s.saucer with windows := pmDel s.saucer.windows (sourceKey r.unit r.det) }
  let s := (s.wr uSaucer F.saucer_LASTING_SOURCE r.unit).wr uSaucer F.saucer_LASTING_DETECTOR r.det
  let s := (s.wr uSaucer F.saucer_LASTING_INJ (b2n inj)).sat uSaucer F.saucer_LASTING_COUNT
  let s := s.wr uSaucer F.saucer_LASTING_REPAIR 0
  let s := match (if inj then none else s.repairOf r) with
    | none => s
    | some e =>
      let s := s.wr uSaucer F.saucer_LASTING_REPAIR 1
      if entryKind e = kindCore then s.dropCore (entryValue e) else s.ledgerAdd e
  if isCipher r.unit r.det then s.raiseAlarm 4 else s

/-- One error counted in its source's window. -/
def State.countError (s : State) (r : Report) : State :=
  let k := sourceKey r.unit r.det
  let l := match smGet noWindow s.saucer.windows k with
    | [] => [(1, r.inj)]
    | b :: t => (b.1 + 1, b.2 || r.inj) :: t
  let s := s.setSaucer { s.saucer with windows := smSet noWindow s.saucer.windows k l }
  if (s.windowOf r.unit r.det).2 ≤ windowCount l then s.classify r (l.any (·.2)) else s

/-! ### Episodes and records (R320, R321) -/

/-- The first-error (0) or last-error (1) record written. -/
def State.record (s : State) (i : Nat) (r : Report) : State :=
  let u := uSaucer
  let s := (s.wr u F.saucer_REC_INFO_SOURCE r.unit i).wr u F.saucer_REC_INFO_DETECTOR r.det i
  let s := (s.wr u F.saucer_REC_INFO_ACCESS r.access i).wr u F.saucer_REC_INFO_INJ (b2n r.inj) i
  let s := (s.wr u F.saucer_REC_INFO_CORRUPT 0 i).wr u F.saucer_REC_INFO_VALID 1 i
  let s := (s.wr u F.saucer_REC_MASTER_ADDR_MASTER r.master i).wr u F.saucer_REC_MASTER_ADDR_ADDR_HI (r.addr / 2 ^ 32) i
  let s := (s.wr u F.saucer_REC_ADDR_LO_ADDR r.addr i).wr u F.saucer_REC_SYNDROME_SYN r.syndrome i
  (s.wr u F.saucer_REC_WC_HI_NS (r.wcNs / 2 ^ 32) i).wr u F.saucer_REC_WC_LO_NS r.wcNs i

/-- Errors that only the host may end (R311, R321). -/
def hostOnlyError (u : UnitNo) (d : Nat) : Bool :=
  (u == uTriad && [0, 2, 3, 4, 7, 8].contains d) || (u == uSaucer && d == 0)

/-- What the Cosy die receives of an episode over the Ulis link (R324, R328); nothing while the link is down. -/
def State.tellCosy (s : State) : State :=
  if s.flag uUlis F.ulis_ULIS_STATUS_UP then
    { s with cosy := { s.cosy with
      sawOpen := s.episodeOpen
      sawSafe := s.episodeOpen && decide (2 ≤ s.episodeStep)
      graceMsgs := if s.episodeOpen then s.cosy.graceMsgs else 0
      lastSource := s.rd uSaucer F.saucer_REC_INFO_SOURCE 0
      lastDet := s.rd uSaucer F.saucer_REC_INFO_DETECTOR 0 } }
  else s

/-- FAULT_N: low while an episode is open as the Cosy die has learnt it; high impedance otherwise and in Sleep, Standby and Off (R324,
Table 19.5). -/
def State.faultN (s : State) : Option Bool := if 3 ≤ s.cosy.power ∧ s.cosy.sawOpen then some false else none

/-- PHY_RST_N of the E-ports: driven, and low, only in the Safe state with CFG.PHY_RST set (Table 15.6, R413). -/
def State.phyRstN (s : State) : Option Bool := if s.safe ∧ s.flag uSaucer F.saucer_CFG_PHY_RST then some false else none

/-- An error joins the open episode, or opens one. In the Safe state the grace count of a new episode is GRACE, at step 2
(R330). -/
def State.episodeError (s : State) (r : Report) : State :=
  let u := uSaucer
  let s :=
    if s.episodeOpen then
      let s := (s.record 1 r).sat u F.saucer_SUBSEQUENT_COUNT
      s.inc u F.saucer_EPISODE_SEQ
    else
      let s := ((s.record 0 r).withIrq (fun s => s.wr u F.saucer_EPISODE_OPEN 1)).inc u F.saucer_EPISODES
      let s := ((s.wr u F.saucer_SUBSEQUENT_COUNT 0).wr u F.saucer_EPISODE_SEQ 1).wr u F.saucer_EPISODE_RECORD_FAULT 0
      let s := s.wr u F.saucer_EPISODE_STEP (if s.safe then 2 else 1)
      (s.wr u F.saucer_EPISODE_GRACE_COUNT (if s.safe then s.grace else 0)).wr u F.saucer_EPISODE_HOST_ONLY 0
  let s := if hostOnlyError r.unit r.det then s.wr u F.saucer_EPISODE_HOST_ONLY 1 else s
  s.tellCosy

/-- One error taken. -/
def State.takeError (s : State) (r : Report) : State :=
  let s := s.inc uSaucer F.saucer_ERRORS
  let s := if r.det = 31 then s.sat uSaucer F.saucer_ACCESS_ERR else s
  (s.countError r).episodeError r

/-- The report handled next: lowest SOURCE, then lowest DETECTOR (R319). -/
def nextReport : List Report → Option Report
  | [] => none
  | r :: t =>
    match nextReport t with
    | none => some r
    | some q => if q.unit < r.unit ∨ (q.unit = r.unit ∧ q.det < r.det) then some q else some r

/-! ### The Safe state (R329, R330, Table 15.6, Table 8.6) -/

/-- A frame in transmission on an E-port ends at once with an error code group: what has left of it is on the wire, and the cells that
its copy has not read are released by a walk. -/
def State.cutOff (s : State) (p : Nat) (e : Tx) : State :=
  let (b, s) := match e.body, (s.readingOf p).find? (fun r => r.tc == e.tc), s.queue (8 * p + e.tc) with
    | some b, _, _ => (b, s)
    | none, some r, q :: _ =>
      (match s.frame q.frame with
       | some f =>
         let t := (s.setReading p ((s.readingOf p).filter (fun x => x.tc != r.tc))).removeEntry (8 * p + e.tc) q
         (f.body p r.tc r.bytes, t.walkFrom q.frame (r.cells.map (·.1)))
       | none => ([], s))
    | none, _, _ => ([], s)
  match e.start with
  | none => s
  | some st =>
    let out : WireOut := ⟨p, st, 3, slice (s.sealed p e.sec b) e.pos (s.txSent e st)⟩
    { s with fab := { s.fab with wire := s.fab.wire ++ [out] } }

/-- The transmission of an E-port stops: the frame on the wire and a preempted one end, selected copies that have not been started are
unselected, and frames that wait for the wire wait on (DESIGN CHOICE, log entry 105). -/
def State.stopPort (s : State) (p : Nat) : State :=
  let sending : Tx → Bool := fun e => e.start.isSome || e.pos != 0
  let s := ((s.spoutAt p).line.filter sending).foldl (fun s e => s.cutOff p e) s
  let s := if (s.spoutAt p).line.any sending then
      s.setSpout p { s.spoutAt p with
        line := (s.spoutAt p).line.filter (fun e => !sending e), free := s.clk.wc + byteTime (s.linkRate p) 12 }
    else s
  (s.readingOf p).foldl (fun s r =>
    if (s.queue (8 * p + r.tc)).any (fun e => e.started) then s else s.unselect p r.tc) s

/-- A CAN frame in transmission is abandoned: it stays at the head of its queue. -/
def State.abandonCan (s : State) (n : Nat) : State :=
  if (s.canAt n).active.isSome then
    ((s.setCan n { s.canAt n with active := none }).sat (uCan n) F.can_TX_ABORT).canIdle n
  else s

/-- The transceivers that are NORMAL go to LISTEN, and the modes held are kept (Table 8.2, R330). -/
def State.listenAll (s : State) : State :=
  (List.range 12).foldl (fun s x =>
    if s.xcvr x = 0 then
      { s with edge := { s.edge with preSafe := s.edge.preSafe ++ [(x, 0)] } }.setXcvr x 1
    else s) { s with edge := { s.edge with preSafe := [] } }

/-- FlexRay takes a protocol state if its controller is on. -/
def State.safePoc (s : State) (st : Nat) : State :=
  if s.enabled uFlx ∧ s.poc ≠ 0 then s.wr uFlx F.flx_FLX_STATUS_POC_STATE st else s

/-- The edge controllers at entry (Table 8.6): transceivers, CAN frames, LIN schedules, FlexRay to HALT. -/
def State.edgeSafe (s : State) : State :=
  let s := ((List.range 16).foldl (fun s n => s.abandonCan n) s).listenAll
  ((List.range 8).foldl (fun s n => s.linSync n) s).safePoc 7

/-- The power state Safe, from Active or Fallback (Table 11.3). -/
def State.powerSafe (s : State) : State :=
  let p := s.cosy.power
  if p = 4 ∨ p = 5 then
    let t : State := { s with cosy := { s.cosy with before := p } }
    t.setPower pwSafe
  else s

/-- A powered state reached; while the Saucer applies the Safe state the device goes on to Safe from it (Tables 11.3, 11.3a). -/
def State.toPower (s : State) (p : Nat) : State := if s.safe then (s.setPower p).powerSafe else s.setPower p

/-- Entry to the Safe state. -/
def State.enterSafe (s : State) : State :=
  if s.safe then s
  else
    let t : State := { s with safe := true }
    let t := t.inc uSaucer F.saucer_SAFE_ENTRIES
    let t := (List.range 12).foldl (fun s p => s.stopPort p) t
    t.edgeSafe.powerSafe.netmLocal 11

/-- The transceiver modes held before entry. -/
def State.restoreXcvr (s : State) : State :=
  let t := s.edge.preSafe.foldl (fun s e => s.setXcvr e.1 e.2) s
  { t with edge := { t.edge with preSafe := [] } }

/-- The power state held before Safe. -/
def State.powerBack (s : State) : State := if s.cosy.power = 6 then s.setPower s.cosy.before else s

/-- The Safe state ends: modes restored, LIN from entry 0, FlexRay READY, the power state held before. -/
def State.leaveSafe (s : State) : State :=
  let t : State := { s with safe := false }
  let t := (List.range 8).foldl (fun s n => s.linSync n) t.restoreXcvr
  (t.safePoc 2).powerBack.netmLocal 11

/-- Step 2 of an open episode. -/
def State.stepSafe (s : State) : State :=
  ((if s.episodeStep < 2 then s.wr uSaucer F.saucer_EPISODE_STEP 2 else s).enterSafe).tellCosy

/-- `SAFE_STATE_ENTRY`: the grace count has reached GRACE in an open episode. -/
def safeStateEntryStep (s : State) : State :=
  if s.cosy.brewRun ∧ s.episodeOpen ∧ s.episodeStep < 2 ∧ s.saucer.grace ≤ s.graceCount then s.stepSafe else s

/-! ### Check bits of the Saucer's own items (R327, R434) -/

/-- Where the upsets of the Saucer's items are kept, in the model's own numbering after Table 15.8: the error records (first 0, last
1), the episode state, the window counts by source key, the override entries. -/
def memRecordSaucer : Nat := 64
def memEpisode : Nat := 65
def memWindow : Nat := 66
def memOverride : Nat := 67

/-- The override entry that W and K of a source are read from. -/
def State.overrideOf (s : State) (u : UnitNo) (d : Nat) : Option Nat :=
  (List.range 64).find? (fun i => s.flag uSaucer F.saucer_OVR_SRC_EN i
    && s.rd uSaucer F.saucer_OVR_SRC_SOURCE i == u && s.rd uSaucer F.saucer_OVR_SRC_DETECTOR i == d)

/-- The items that taking an error reads to update them: the record it goes to, the count of its source, the override entry that names
the source. -/
def State.itemsRead (s : State) (r : Report) : List (Nat × Nat) :=
  [(memRecordSaucer, b2n s.episodeOpen), (memWindow, sourceKey r.unit r.det)] ++
    (s.overrideOf r.unit r.det).toList.map (fun i => (memOverride, i))

/-- A check failure of an item: an error of the integrity detector, RECORD_FAULT, and the Safe state at once, with the grace count going
on from at least GRACE (R327, R434). -/
def State.integrityFault (s : State) : State :=
  let s := s.check uSaucer 0 true
  let s := match s.reports.find? (fun r => r.unit == uSaucer && r.det == 0) with
    | none => s
    | some r =>
      let s := { s with reports := s.reports.filter (fun q => !(q.unit == uSaucer && q.det == 0)) }
      iter (fun s => s.takeError r) r.count s
  let s := s.wr uSaucer F.saucer_EPISODE_RECORD_FAULT 1
  let s := s.wr uSaucer F.saucer_EPISODE_GRACE_COUNT (max s.graceCount s.grace)
  s.stepSafe

/-- One error taken, with the checks of the items it reads; every upset is a failure, as the check bits correct nothing. A failing record
is marked CORRUPT. An injection into detector 0 does not act here: it alters the check of the episode state (R434). -/
def State.takeChecked (s : State) (r : Report) : State :=
  let bad := (s.itemsRead r).filter (fun x => s.codeOf x.1 x.2 != .good)
  let i := b2n s.episodeOpen
  let t := (bad.foldl (fun t x => t.clearUpset x.1 x.2) s).takeError r
  if bad.isEmpty then t
  else (if bad.contains (memRecordSaucer, i) then t.wr uSaucer F.saucer_REC_INFO_CORRUPT 1 i else t).integrityFault

/-- `SAUCER_REPORT`: one detector's report is taken: as many errors as the detector fired (R318). -/
def saucerReportStep (s : State) : State :=
  if !s.cosy.brewRun then s
  else match nextReport s.reports with
  | none => s
  | some r =>
    let s := { s with reports := s.reports.filter (fun q => !(q.unit == r.unit && q.det == r.det)) }
    iter (fun s => s.takeChecked r) r.count s

/-! ### Boundaries (R325, R327, R330, R331, R434) -/

/-- The ladder counts only from boot complete or in Fallback mode. -/
def State.ladderRuns (s : State) : Bool :=
  s.bootDone || s.fallback

/-- GRACE as a boundary compares it, taken before the boundary's commit: a new value acts from the next boundary on (R325). -/
def State.holdGrace (s : State) : State := s.setSaucer { s.saucer with grace := s.grace }

/-- A boundary the Saucer acts on, but for its tick job: the check of the episode state, the grace count, and the end of the Safe
state when no episode is open. -/
def State.saucerTick (s : State) : State :=
  let n := s.saucer.boundary
  let s := s.setSaucer { s.saucer with boundary := n + 1 }
  let was := s.episodeOpen
  let s := if was && s.ladderRuns then
    s.wr uSaucer F.saucer_EPISODE_GRACE_COUNT (min (2 * s.saucer.grace) (s.graceCount + 1)) else s
  let s := if s.armed uSaucer 0 ∨ s.codeOf memEpisode 0 ≠ .good then (s.clearUpset memEpisode 0).integrityFault else s
  if !s.episodeOpen && s.safe then s.leaveSafe else s

/-! ### Step 3 and the Cosy die (R326, R328) -/

/-- The retention record of a Saucer restart, and the restart, which is a failed start with reason SAUCER (R280). -/
def State.saucerRestart (s : State) (byCosy : Bool) (source det : Nat) : State :=
  let s := (s.wr uCosy F.cosy_SAUCER_RET_SOURCE source).wr uCosy F.cosy_SAUCER_RET_DETECTOR det
  let s := (s.wr uCosy F.cosy_SAUCER_RET_VALID 1).wr uCosy F.cosy_SAUCER_RET_BY_COSY (b2n byCosy)
  (s.sat uCosy F.cosy_SAUCER_RET_RESTARTS).failStart 10 0 0 15

/-- `SAUCER_RESTART`: the grace count has reached 2 × GRACE, and the message of step 3 crosses the link. -/
def saucerRestartStep (s : State) : State :=
  if s.cosy.brewRun ∧ s.episodeOpen ∧ 2 * s.saucer.grace ≤ s.graceCount ∧ s.flag uUlis F.ulis_ULIS_STATUS_UP then
    (s.wr uSaucer F.saucer_EPISODE_STEP 3).saucerRestart false (s.rd uSaucer F.saucer_REC_INFO_SOURCE 0)
      (s.rd uSaucer F.saucer_REC_INFO_DETECTOR 0)
  else s

/-- A tick message reaches the Cosy die over the link. -/
def State.tickMessage (s : State) : State :=
  if s.flag uUlis F.ulis_ULIS_STATUS_UP then
    { s with cosy := { s.cosy with
      tickAt := s.clk.wc, graceMsgs := if s.cosy.sawSafe then s.cosy.graceMsgs + 1 else s.cosy.graceMsgs } }
  else s

/-- `COSY_GRACE_TIMEOUT`: step 2 seen, and no step-3 message within GRACE + 16 tick messages. -/
def cosyGraceTimeoutStep (s : State) : State :=
  if s.cosy.brewRun ∧ s.cosy.sawSafe ∧ s.grace + 16 ≤ s.cosy.graceMsgs then
    s.saucerRestart true s.cosy.lastSource s.cosy.lastDet
  else s

/-- `TICK_MESSAGE_TIMEOUT`: an episode is open and no tick message has arrived for 10 ms. -/
def tickMessageTimeoutStep (s : State) : State :=
  if s.cosy.brewRun ∧ s.cosy.sawOpen ∧ 655360000000 ≤ (s.clk.wc + 2 ^ 80 - s.cosy.tickAt) % 2 ^ 80 then s.saucerRestart true s.cosy.lastSource s.cosy.lastDet else s

/-! ### Ending an episode (R322, R323) -/

def endAddr : Nat := fldAddr uSaucer F.saucer_EPISODE_END_KEY 0 0

/-- The episode ends. -/
def State.endEpisode (s : State) : State :=
  let u := uSaucer
  let s := (s.wr u F.saucer_EPISODE_OPEN 0).wr u F.saucer_EPISODE_STEP 0
  let s := (s.wr u F.saucer_EPISODE_GRACE_COUNT 0).wr u F.saucer_EPISODE_HOST_ONLY 0
  (s.wr u F.saucer_EPISODE_END_STATUS 0).tellCosy

/-- `EPISODE_END`: a write of KEY and SEQ by a master. -/
def episodeEndRun (key seq master : Nat) (s : State) : State :=
  let u := uSaucer
  if master ≠ 0x01 ∧ master ≠ 0x08 ∧ master ≠ 0x10 then s.refuse master endAddr
  else if key ≠ 0xC1E4 then s
  else if !s.episodeOpen then s.wr u F.saucer_EPISODE_END_STATUS 3
  else if seq % 256 ≠ s.rd u F.saucer_EPISODE_SEQ then
    (s.wr u F.saucer_EPISODE_END_STATUS 1).sat u F.saucer_END_REFUSED
  else if master = 0x10 ∧ s.flag u F.saucer_EPISODE_HOST_ONLY then
    ((s.wr u F.saucer_EPISODE_END_STATUS 2).sat u F.saucer_END_REFUSED).refuse master endAddr
  else s.endEpisode

/-! ### The commands -/

/-- `SAUCER_REPORT`. -/
def execSaucerReport (s : State) : Host.Outcome State Fault Refusal := .next (saucerReportStep s)
/-- `SAFE_STATE_ENTRY`. -/
def execSafeStateEntry (s : State) : Host.Outcome State Fault Refusal := .next (safeStateEntryStep s)
/-- `SAUCER_RESTART`. -/
def execSaucerRestart (s : State) : Host.Outcome State Fault Refusal := .next (saucerRestartStep s)
/-- `EPISODE_END`. -/
def execEpisodeEnd (key seq master : Nat) (s : State) : Host.Outcome State Fault Refusal :=
  .next (s.command uSaucer master endAddr (episodeEndRun key seq master))
/-- `COSY_GRACE_TIMEOUT`. -/
def execCosyGraceTimeout (s : State) : Host.Outcome State Fault Refusal := .next (cosyGraceTimeoutStep s)
/-- `TICK_MESSAGE_TIMEOUT`. -/
def execTickMessageTimeout (s : State) : Host.Outcome State Fault Refusal := .next (tickMessageTimeoutStep s)

end Sys2Proof.Machine
end

