-- ==== Sys2Proof/Machine/Registers.lean ====
section
/-! DEFINITION. Register reads: what each register shows, who may read it, and what a read changes (R7, R8, R13, R20, R348,
R382, R384, R397 to R402; chapter 18). -/

namespace Sys2Proof.Machine

/-! ### What a register shows -/

/-- The bits of a register's fields, with WO fields and reserved bits at 0 (R8, R10). -/
def shownBits (fs : List FieldSpec) (w : Word) : Word :=
  fs.foldl (fun a f =>
    if f.kind = .wo then a
    else setBits a f.lsb (f.msb + 1 - f.lsb) (getBits w f.lsb (f.msb + 1 - f.lsb))) 0#32

/-- A word with one field replaced. -/
def putFld (w : Word) (f : Fld) (v : Nat) : Word := setBits w f.lsb f.width v

/-- UNIT_ID (Table 18.2). -/
def unitIdWord (u : UnitNo) : Word := BitVec.ofNat 32 (u * 65536 + typeOf u * 256 + instOf u * 16 + 1)

/-- UNIT_CHILDREN (Table 1.4): the child table of SYS at 0x400, of PCIE and of the array groups at 0x040. -/
def unitChildrenWord (u : UnitNo) : Word :=
  BitVec.ofNat 32 ((childrenOf u).length * 2 ^ 24 + (if isLeaf u then 0 else if u = uSys then 0x400 else 0x40))

/-- The status summary of a unit: its IRQ if it is a leaf, else the OR of the summaries of its children (R400). -/
def State.summary (s : State) (u : UnitNo) : Bool := (leavesOf u).any s.irq

/-- The summary bits of a group, over its children: bit 31 covers children 31 onward (Table 1.5). -/
def groupBits (u : UnitNo) (f : UnitNo → Bool) : Nat :=
  let l := childrenOf u
  maskOf ((List.range 31).filter (fun i => match l[i]? with
    | some c => f c
    | none => false)) + (if (l.drop 31).any f then 2 ^ 31 else 0)

/-- A staged write of a unit waits. -/
def State.stagedFor (s : State) (u : UnitNo) : Bool := s.staged.any (fun x => x.unit == u)

/-- The unit frame's registers as they read (Tables 1.3, 1.5, 18.2 to 18.6). -/
def State.frameWord (s : State) (u : UnitNo) (off : Nat) : Word :=
  let w := s.word (baseOf u + off)
  let leaf := isLeaf u
  match off with
  | 0x000 => unitIdWord u
  | 0x004 => putFld 0#32 F.unit_CTRL_EN (getBits w 0 1)
  | 0x008 =>
    if leaf then
      BitVec.ofNat 32 (b2n (s.irq u) * 2 ^ 31 + b2n (s.flag u F.unit_STATUS_EVENT) * 2 ^ 30 + b2n (s.enabled u) * 2 ^ 29
        + b2n (s.resetting u) * 2 ^ 28 + b2n (s.rd u F.unit_FAULT != 0) * 2 ^ 27)
    else BitVec.ofNat 32 (groupBits u s.summary)
  | 0x00C => if leaf then w else BitVec.ofNat 32 (groupBits u (fun c => (leavesOf c).any (fun l => s.rd l F.unit_FAULT != 0)))
  | 0x010 => if leaf then w else 0#32
  | 0x014 =>
    if leaf then BitVec.ofNat 32 (b2n (s.stagedFor u) * 2 ^ 31 + getBits w 0 16)
    else BitVec.ofNat 32 (b2n ((leavesOf u).any s.stagedFor) * 2 ^ 31)
  | 0x018 => if hasTickJob u then w else 0#32
  | 0x020 => unitChildrenWord u
  | _ => 0#32

/-- A word of a child table: the address of a child's UNIT_ID (R17). -/
def childWord (u : UnitNo) (i : Nat) : Word :=
  match (childrenOf u)[i]? with
  | some c => BitVec.ofNat 32 (baseOf c)
  | none => 0#32

/-- Life-cycle information that OTP gives a register. -/
def State.otpKeyStatus (s : State) : Word :=
  let prog := maskOf ((List.range 3).filter (fun k => (pmGet s.otp.signHash k).isSome))
  let rev := maskOf ((List.range 3).filter s.otp.revoked.contains)
  BitVec.ofNat 32 (rev * 256 + prog * 16 + b2n s.otp.fbHash.isSome)

/-- SLOT_INFO and SLOT_LABEL of the slot that SLOT_SEL names: the label of a loaded blob, 0 otherwise. -/
def State.slotInfo (s : State) : Word × Word :=
  match pmGet s.sec.slots (s.rd uCaddy F.caddy_SLOT_SEL_SLOT) with
  | none => (0#32, 0#32)
  | some k => (BitVec.ofNat 32 (2 ^ 31 + k.origin % 8 * 2 ^ 28 + k.attr % 256),
      if k.origin = 1 then BitVec.ofNat 32 k.label else 0#32)

/-- A GPIO's level: its output where the device drives it and it has no time function, the level of its time output where it carries
one (R179), in the Safe state the image's safe level of either (Table 15.6, R414), else what the board applied last (log entry 48). The
manual says that the image holds the safe levels, and not where: they are an open value of the build (log entry 114). -/
def State.gpioLevels (s : State) : Nat :=
  let drive := s.rd uTsio F.tsio_GPIO_OE_OE
  let time := s.rd uTsio F.tsio_PIN_FUNC_TIME_FN
  let out := s.rd uTsio F.tsio_GPIO_OUT_OUT
  maskOf ((List.range 24).filter (fun i =>
    let safe (b : Bool) : Bool := if s.safe then Config.safeLevel s.kettle.version i else b
    if bitOf time i then (if 16 ≤ i then safe (s.tsLevel (i - 16)) else bitOf s.time.pins.gpio i)
    else if bitOf drive i then safe (bitOf out i) else bitOf s.time.pins.gpio i))

/-- Registers whose content follows from other state. -/
def State.derivedWord (s : State) (m : Nat) (u : UnitNo) (off : Nat) (w : Word) : Word :=
  let i := instOf u
  match kindOf u with
  | .sys =>
    if 0x400 ≤ off ∧ off < 0x468 then childWord u ((off - 0x400) / 4)
    else if off = 0x18C then
      BitVec.ofNat 32 (b2n (s.irqOut F.sys_INT_MASK_TRIAD_MASK) * 4 + b2n (s.irqOut F.sys_INT_MASK_MSPI_MASK) * 2
        + b2n (s.irqOut F.sys_INT_MASK_PF0_MASK))
    else w
  | .group => childWord u ((off - 0x40) / 4)
  | .pcie => if 0x40 ≤ off ∧ off < 0x54 then childWord u ((off - 0x40) / 4) else w
  | .fn =>
    if i = 0 ∧ off = 0x104 then s.word (fldAddr uPcie F.pcie_FENCE_COUNT 0 0)
    else if i = 0 ∧ off = 0x108 then s.word (fldAddr uPcie F.pcie_FENCE_ADDR 0 0)
    else w
  | .kettle =>
    if off = 0x118 then s.otpKeyStatus
    else if 0x120 ≤ off ∧ off < 0x130 then BitVec.ofNat 32 (s.otp.uid / 2 ^ (96 - 8 * (off - 0x120)))
    else if off = 0x20C then
      putFld w F.kettle_UPD_STATUS_RECORD (getBits (s.word (fldAddr uCosy F.cosy_SLOT_RET_ACTIVE 0 0)) 0 28)
    else w
  | .time =>
    if 0x800 ≤ off ∧ (off - 0x800) % 0x40 = 0x1C then
      let p := (off - 0x800) / 0x40
      putFld w F.time_PORT_STATUS_ONESTEP_ACTIVE
        (b2n (s.flag uTime F.time_PORT_CFG_ONE_STEP p && s.flag uTime F.time_PORT_STATUS_PARTNER_1STEP p))
    else w
  | .caddy =>
    if off = 0x100 then
      (match keySet m with
       | some k => putFld (putFld 0#32 F.caddy_KEY_CMD_STATUS (s.keyReg k 9)) F.caddy_KEY_CMD_BUSY (b2n (s.sec.busySets.contains k))
       | none => 0#32)
    else if off = 0x144 then s.slotInfo.1
    else if off = 0x148 then s.slotInfo.2
    else if off = 0x168 then
      putFld (putFld w F.caddy_LC_STATUS_SECRET (b2n s.otp.secret.isSome)) F.caddy_LC_STATUS_DBG_KEY (b2n s.otp.dbgHash.isSome)
    else w
  | .crypt =>
    if 0x10000 ≤ off then
      (List.range 4).foldl (fun w k => if s.hiddenByte (off - 0x10000 + k) then setBits w (8 * k) 8 0 else w) w
    else w
  | .spout =>
    if off = 0x104 then
      putFld (putFld w F.spout_SCHED_STATUS_PREEMPT_ACTIVE (b2n (s.preemptActive i))) F.spout_SCHED_STATUS_OVERCOMMIT
        (b2n (s.overcommit i))
    else w
  | .ulis => if off = 0x100 then putFld w F.ulis_ULIS_STATUS_SECRET (b2n s.otp.linkSecret.isSome) else w
  | .can =>
    if off = 0x11C then putFld w F.can_CAN_STATUS_XCVR_HOLD (b2n (decide (i < 8) && s.xcvr i != 0))
    else w
  | .lin =>
    if 0x100 ≤ off ∧ off < 0x300 ∧ (off - 0x100) % 0x40 = 8 then
      putFld w F.lin_LIN_STATUS_XCVR_HOLD (b2n (s.linHold ((off - 0x100) / 0x40)))
    else w
  | .tsio => if off = 0x08C then BitVec.ofNat 32 s.gpioLevels else w
  | .pipe =>
    if i = 1 ∧ off = 0x204 then
      putFld w F.pipe_GEN_STATUS_SWAP_PENDING
        (b2n (s.staged.any (fun x => x.addr == fldAddr u F.pipe_GEN_CTRL_SWAP 0 0 && bitOf x.value.toNat 0)))
    else w
  | .cosy =>
    if 0x5000 ≤ off ∧ off < 0x5100 then BitVec.ofNat 32 (s.otp.ledger.getD ((off - 0x5000) / 4) 0) else w
  | _ => w

/-- The bits of a register that an instance lacks: they read 0 and take no write (R139; Tables 5.11, 5.12, 8.7, 17.11). -/
def lackedMask (f : Found) : Nat :=
  let i := instOf f.unit
  match kindOf f.unit with
  | .spout =>
    if 12 ≤ i ∧ ((0x200 ≤ f.off ∧ f.off < 0x240) ∨ (0x300 ≤ f.off ∧ f.off < 0x32C) ∨ f.off = 0x420 ∨ f.off = 0x424) then
      0xFFFFFFFF
    else if i ≠ 13 ∧ 0x280 ≤ f.off ∧ f.off < 0x300 then 0xFFFFFFFF
    else 0
  | .fab =>
    if 0x400 ≤ f.off ∧ f.off < 0x800 ∧ f.off % 0x40 = 0 ∧ 12 ≤ (f.off - 0x400) / 0x40 then 0x80000000
    else if 0x1000 ≤ f.off ∧ f.off % 0x20 = 4 ∧ (f.off - 0x1000) / 0x20 % 8 < 6 then 0xFFFFFFFF
    else 0
  | .can => if i < 8 then (if f.off = 0x118 then 0xFFFFFFFF else if f.off = 0x100 then 0x10 else 0) else 0
  | .fn => if 0x600 ≤ f.off ∧ f.off < 0x800 ∧ f.off % 0x20 = 8 then 0x70000000 else 0
  | _ => 0

/-- A word without the bits of a mask. -/
def without (w : Word) (mask : Nat) : Word := w &&& ~~~(BitVec.ofNat 32 mask)

/-- What a register shows to a master, apart from what its reading changes. -/
def State.shown (s : State) (m : Nat) (f : Found) : Word :=
  if f.off < 0x40 then s.frameWord f.unit f.off
  else without (s.derivedWord m f.unit f.off (shownBits f.row.fields (s.word (baseOf f.unit + f.off)))) (lackedMask f)

/-! ### Who may use a register -/

/-- The masters that a register answers: a mailbox its own (14.7), a ring's registers, descriptors and partition its ring's
(R348). -/
def ownedBy (m : Nat) (f : Found) : Bool :=
  match kindOf f.unit with
  | .triad => if 0x1000 ≤ f.off then m == mbOwner ((f.off - 0x1000) / 0x400) else true
  | .crypt =>
    if 0x100 ≤ f.off ∧ f.off < 0x140 then ringOwner ((f.off - 0x100) / 0x10) m
    else if 0x1000 ≤ f.off ∧ f.off < 0x1800 then ringOwner ((f.off - 0x1000) / 0x200) m
    else if 0x10000 ≤ f.off then ringOwner ((f.off - 0x10000) / 0x4000) m
    else true
  | _ => true

/-- Fields whose reset value is the image's, the ledger's, a strap's or OTP's, or which Table 2.12 keeps, or R304, R312 and R314 until the
next start of the Brew die: they stay through a reset of their unit. -/
def keptFields (u : UnitNo) : List Fld :=
  match kindOf u with
  | .tick => [F.tick_CFG_PERIOD_K]
  | .pipe => [F.pipe_FDB_SEED, F.pipe_SHADOW_CFG_COUNT, F.pipe_GEN_STATUS_CUR_GEN]
  | .gw => [F.gw_ENG_MAP]
  | .fab => [F.fab_SLICE_MAP]
  | .triad =>
    [F.triad_TRIAD_STATUS_FAILED, F.triad_TRIAD_STATUS_MODE, F.triad_TRIAD_STATUS_DEBUG_SPLIT, F.triad_TRIAD_STATUS_HELD,
     F.triad_TRIAD_STATUS_SPLIT_REFUSED, F.triad_TRIAD_STATUS_B_CHECKED]
  | .kettle => [F.kettle_STRAPS]
  | .caddy => [F.caddy_LC_STATUS_LC, F.caddy_LC_STATUS_DBG, F.caddy_LC_STATUS_AUTH_FAILS]
  | _ => []

/-- An access that is not served: by the debug port but in AUTH-OPEN and OPEN (R364), by any other master with TEST_EN high (R265). -/
def State.debugBarred (s : State) (m : Nat) : Bool := if m = 0x38 then !s.debugOpen || decide (s.cosy.power < 3) else s.deaf

/-! ### What a read changes -/

/-- The content an RC field takes when it is read (R8): 0; the two minima start again from the present value and from 1,023
(Tables 5.10, 11.9). -/
def State.cleared (s : State) (u : UnitNo) (off : Nat) : Nat :=
  if kindOf u = .fab ∧ off = 0x08C then s.rd uFab F.fab_BUF_FREE_FREE
  else if kindOf u = .cosy ∧ off = 0x1020 then 1023
  else 0

/-- The RC fields of a register cleared. -/
def State.clearRc (s : State) (f : Found) : State :=
  let a := baseOf f.unit + f.off
  f.row.fields.foldl (fun s x =>
    if x.kind = .rc then
      s.setWord a (setBits (s.word a) x.lsb (x.msb + 1 - x.lsb) (s.cleared f.unit f.off))
    else s) s

/-- The high halves that a read of the low half latches (R39, Tables 2.4, 6.7, 18.10). -/
def State.latchHigh (s : State) (f : Found) : State :=
  match kindOf f.unit with
  | .mac =>
    let p := instOf f.unit
    if f.off = 0x204 then
      s.wr f.unit F.mac_RX_OCTETS_HI_COUNT (smGet zero0 s.fab.rxOctets p / 2 ^ 32 % 2 ^ 32)
    else if f.off = 0x314 then s.wr f.unit F.mac_TX_OCTETS_HI_COUNT (smGet zero0 s.fab.txOctets p / 2 ^ 32 % 2 ^ 32)
    else s
  | .tick => if f.off = 0x110 then s.wr uTick F.tick_LAST_WC_HI_NS (s.time.tick.last / 65536 / 2 ^ 32 % 2 ^ 32) else s
  | _ => s

/-- One evaluation of the access detector of a unit, for an access without an error: an armed injection fires (R334). -/
def State.accessSeen (s : State) (m a access : Nat) (u : UnitNo) : State :=
  if isLeaf u then s.check u 31 false { access := access, master := m, addr := a } else s

/-- A read of a register that is no window: what it shows, its latched bits and its RC bits cleared. -/
def State.plainRead (s : State) (m : Nat) (f : Found) : Word × State := (s.shown m f, (s.latchHigh f).clearRc f)

/-- The register whose read has effects of its own, or the plain read with its RC fields cleared. -/
def State.readFound (s : State) (m : Nat) (f : Found) : Word × State :=
  let i := instOf f.unit
  match kindOf f.unit with
  | .spout =>
    if f.off = 0x328 then
      let t := gclDataReadStep i s
      (t.readData, { t with readData := s.readData })
    else s.plainRead m f
  | .gw =>
    if f.off = 0x1008 then
      let t := memDataReadStep i s
      (t.readData, { t with readData := s.readData })
    else s.plainRead m f
  | .tsio =>
    if 0x100 ≤ f.off ∧ f.off < 0x300 ∧ (f.off - 0x100) % 0x20 = 8 then
      let t := tsinPopStep ((f.off - 0x100) / 0x20) s
      (t.readData, { t with readData := s.readData })
    else s.plainRead m f
  | .fn =>
    if i = 0 ∧ f.off = 0x104 then
      (s.shown m f, s.wr uPcie F.pcie_FENCE_COUNT 0)
    else s.plainRead m f
  | _ => s.plainRead m f

/-- GW_SA, whose reset value is the image's (Table 9.12). -/
def sharedImage (a : Nat) : Bool := a == fldAddr uGwAny F.gw_GW_SA_HI_SA 0 0 || a == fldAddr uGwAny F.gw_GW_SA_LO_SA 0 0

/-- The registers whose Reset column names OTP or Table 18.1: their content does not depend on the unit's state. -/
def fixedWord (u : UnitNo) (off : Nat) : Bool :=
  match kindOf u with
  | .group | .pcie | .ulis => true
  | .kettle => decide (0x118 ≤ off) && decide (off < 0x130)
  | .caddy => off == 0x168
  | _ => false

/-- What a register shows while its unit is RESETTING: its reset value (R399), which for a field that the image, the ledger or a pin
gives is the one that field keeps; RESETTING reads 1. -/
def State.resetShown (s : State) (m : Nat) (f : Found) : Word :=
  let a := baseOf f.unit + f.off
  if f.off = 8 then BitVec.ofNat 32 (2 ^ 28)
  else if f.off = 0xC then 0#32
  else if f.off < 0x40 then s.frameWord f.unit f.off
  else
    let w := ((keptFields f.unit).filter (fun k => k.off == f.off)).foldl (fun w k => putFld w k (getBits (s.word a) k.lsb k.width)) (regReset a)
    let w := if sharedImage a then s.word a else w
    without (if fixedWord f.unit f.off then s.derivedWord m f.unit f.off (shownBits f.row.fields w) else shownBits f.row.fields w)
      (lackedMask f)

/-- A read of a register: its value and what it leaves (R7, R8). While the unit is RESETTING it shows its reset value (R399). -/
def State.readAt (s : State) (m a : Nat) : Word × State :=
  match findReg a with
  | none => (0#32, s.accessError m a 1)
  | some f =>
    if !ownedBy m f then (0#32, s.accessError m a 1)
    else if s.resetting f.unit then (s.resetShown m f, s.accessSeen m a 1 f.unit)
    else
      let (w, t) := s.readFound m f
      (w, t.accessSeen m a 1 f.unit)

/-! ### Reads by a master (R382, R384, R387) -/

/-- An address that is carried over the Ulis link (R13). -/
def cosyAddr (a : Nat) : Bool := decide (0x4F000000 ≤ a) && decide (a ≤ 0x4FFFFFFF)

/-- The master whose fence a register is; PF0 has two names of its fence (R382). -/
def fenceMaster (a : Nat) : Option Nat :=
  if a = fldAddr uPcie F.pcie_FENCE_COUNT 0 0 then some 1
  else if a = fldAddr uMspi F.mspi_FENCE_COUNT 0 0 then some 8
  else ((List.range 5).find? (fun f => a == fldAddr (uFn f) F.fn_FN_FENCE_COUNT 0 0)).map (· + 1)

/-- A register read that is served now: its value and what it leaves. -/
def State.regRead (s : State) (m a : Nat) (whole : Bool := true) : Word × State :=
  if s.debugBarred m then (0#32, s)
  else if !whole ∨ a % 4 ≠ 0 ∨ 2 ^ 32 ≤ a ∨ s.vfBarred m then (0#32, s.accessError m a 1)
  else if cosyAddr a ∧ !s.flag uUlis F.ulis_ULIS_STATUS_UP then (0#32, s.accessError m a 1)
  else s.readAt m a

/-- CRC-8 with polynomial 0x2F, initial value and final XOR 0xFF. -/
def crc8Bit (c : Nat) : Nat := if 128 ≤ c then (c * 2 % 256) ^^^ 0x2F else c * 2
def crc8 (l : List Byte) : Nat := (l.foldl (fun c b => iter crc8Bit 8 (c ^^^ b.toNat)) 0xFF) ^^^ 0xFF

/-- The value of a read delivered. -/
def State.answer (s : State) (d : ReadDest) (v : Word) : State :=
  match d with
  | .data => { s with readData := v }
  | .pcie => s.setHost { s.host with completion := s.host.completion ++ [v] }
  | .mspi =>
    let r := [0xD2#8] ++ beBytes 4 v.toNat
    { s.setHost { s.host with miso := s.host.miso ++ r ++ beBytes 1 (crc8 r) } with readData := v }
  | .lost => s

/-- A read served, and its value delivered. -/
def State.serveRead (s : State) (r : NonPosted) : State :=
  let (v, t) := s.regRead r.master r.addr r.whole
  t.answer r.dest v

/-- A read must wait: behind another read of its master (Table 17.7), behind the posted writes of its master where it goes to the Cosy
die (R384), behind those of a fence's master (R382), or for one of the 8 places of the link (R383). -/
def State.readWaits (s : State) (waiting : List NonPosted) (m a : Nat) : Bool :=
  let behind (k : Nat) : Bool := s.host.posted.any (fun p => p.master == k)
  waiting.any (fun r => r.master == m) || (match fenceMaster a with
    | some k => behind k
    | none => cosyAddr a && (behind m || decide (8 ≤ waiting.length)))

/-- A read by a master: served now, or held until it may be. -/
def State.askRead (s : State) (m a : Nat) (whole : Bool) (d : ReadDest) : State :=
  if s.readWaits s.host.reads m a then s.setHost { s.host with reads := s.host.reads ++ [⟨m, a, whole, d⟩] }
  else s.serveRead ⟨m, a, whole, d⟩

/-- The reads that need wait no longer, served in order; `kept` are those before them that wait on. -/
def State.serveList (s : State) (kept : List NonPosted) : List NonPosted → State
  | [] => s.setHost { s.host with reads := kept }
  | r :: t => if s.readWaits kept r.master r.addr then s.serveList (kept ++ [r]) t else (s.serveRead r).serveList kept t
def State.serveReads (s : State) : State := s.serveList [] s.host.reads

/-- Requests flushed with a crossing complete with 0, each an access error with syndrome 0xF105 (R394); the others go on. -/
def State.flushReads (s : State) (p : NonPosted → Bool) : State :=
  let l := s.host.reads
  let s := s.setHost { s.host with reads := l.filter (fun r => !p r) }
  ((l.filter p).foldl (fun s r => (s.accessError r.master r.addr 1 0xF105).answer r.dest 0#32) s).serveReads

end Sys2Proof.Machine
end

