-- ==== Sys2Proof/Machine/Commit.lean ====
section
/-! DEFINITION. The commit of staged writes (R9, R25, R433): which values are refused, what a committed value sets off. -/

namespace Sys2Proof.Machine

/-- The bits of a field. -/
def fieldMask (x : FieldSpec) : Nat := (2 ^ (x.msb + 1 - x.lsb) - 1) * 2 ^ x.lsb

/-- The bits of a register with one access kind, of those its instance has. -/
def kindMask (f : Found) (k : Access) : Word :=
  without (BitVec.ofNat 32 (f.row.fields.foldl (fun a x => if x.kind = k then a + fieldMask x else a) 0)) (lackedMask f)

/-- A word with the bits of a mask taken from another. -/
def merge (old new mask : Word) : Word := (old &&& ~~~mask) ||| (new &&& mask)

/-- The word a register will hold after a commit, as far as its staged write goes. -/
def State.nextWord (s : State) (es : List Staged) (a : Nat) : Word :=
  match es.find? (fun e => canonAddr e.addr == canonAddr a) with
  | some e => e.value
  | none => s.word a

/-- A cycle time that is not committed: outside 8 to 1,000,000,000 ns or no multiple of 8 (Tables 4.9, 6.5). -/
def badCycle (w : Word) : Bool :=
  let n := getBits w 0 30
  !(decide (8 ≤ n ∧ n ≤ 1000000000) && n % 8 == 0)

/-- Whether the reservations would exceed 65,536 cells in all (R125). -/
def State.resvOver (s : State) (es : List Staged) : Bool :=
  decide (65536 < (List.range 128).foldl (fun a q => a + getBits (s.nextWord es (fldAddr uFab F.fab_QRESV q 0)) 0 18) 0)

/-- Whether the enabled idle slopes of a port would exceed its current rate; a port without a link has no rate (R145, log
entry 52). -/
def State.slopeOver (s : State) (p : Nat) (es : List Staged) : Bool :=
  let sum := (List.range 4).foldl (fun a c =>
    let w := s.nextWord es (fldAddr (uSpout p) F.spout_CBS_CFG c 0)
    a + (if getBits w 31 1 = 1 then min 25000000 (getBits w 0 25) else 0)) 0
  s.linkRate p != 0 && decide (s.linkRate p * 1000 < sum)

/-- Whether a WIDTH is not committed: 0, or not below PERIOD in periodic mode (R179). -/
def State.widthBad (s : State) (m : Nat) (es : List Staged) (w : Nat) : Bool :=
  let periodic := getBits (s.nextWord es (fldAddr uTsio F.tsio_TSOUT_CFG m 0)) 1 1 == 1
  let period := openField 16 4294967294 ((s.nextWord es (fldAddr uTsio F.tsio_PERIOD m 0)).toNat / 2 * 2) / 2 * 2
  w == 0 || (periodic && decide (period ≤ w))

/-- The bits of a staged value that its commit refuses (R433). -/
def State.refusedBits (s : State) (u : UnitNo) (es : List Staged) (e : Staged) : Nat :=
  let o := if kindOf u = .gw then e.addr % 0x10000 else e.addr - baseOf u
  let all := 0xFFFFFFFF
  match kindOf u with
  | .fab => if 0x1000 ≤ o ∧ o % 0x20 = 4 ∧ s.resvOver es then all else 0
  | .spout =>
    if 0x200 ≤ o ∧ o < 0x240 then (if s.slopeOver (instOf u) es then all else 0)
    else if o = 0x308 ∧ badCycle e.value then all
    else 0
  | .strain => if 0x30000 ≤ o ∧ (o - 0x30000) % 0x200 = 0xC ∧ badCycle e.value then all else 0
  | .gw =>
    if 0x200 ≤ o ∧ o < 0x460 ∧ (o - 0x200) % 0x10 = 8 ∧ 16384 < getBits e.value 18 14 + getBits e.value 0 15 then all else 0
  | .tsio =>
    if 0x400 ≤ o ∧ o < 0x500 ∧ (o - 0x400) % 0x20 = 0x10 then
      (if s.widthBad ((o - 0x400) / 0x20) es e.value.toNat then all else 0)
    else if 0x610 ≤ o ∧ o < 0x640 ∧ 23 < getBits e.value 0 5 then 0x1F
    else 0
  | .pipe => if o = 0x200 ∧ getBits e.value 0 1 = 1 ∧ s.draining then 1 else 0
  | _ => 0

/-- The bits of a staged write that its register stages. -/
def stagedMask (a : Nat) : Word :=
  match findReg a with
  | none => 0#32
  | some f => kindMask f .rws

/-- A staged write takes effect, but for the refused bits. -/
def State.commitEntry (s : State) (u : UnitNo) (es : List Staged) (s0 : State) (e : Staged) : State :=
  s.setWord e.addr (merge (s.word e.addr) e.value (without (stagedMask e.addr) (s0.refusedBits u es e)))

/-! ### What a commit sets off -/

/-- Whether a register is among the committed ones. -/
def touched (es : List Staged) (a : Nat) : Bool := es.any (fun e => e.addr == a)

/-- The shapers of a port that a commit turns off: their credits are 0 (R144). -/
def State.shapersOff (s : State) (s0 : State) (p : Nat) : State :=
  let u := uSpout p
  [4, 5, 6, 7].foldl (fun s c =>
    if p < 12 ∧ s0.flag u F.spout_CBS_CFG_EN (c - 4) ∧ !s.flag u F.spout_CBS_CFG_EN (c - 4) then s.setCbs p c 0 else s) s

/-- A Spout: shapers off, gates on or off, a change request, the histograms (R144, Table 6.3). -/
def State.spoutCommitted (s : State) (s0 : State) (p : Nat) : State :=
  let u := uSpout p
  let s := s.shapersOff s0 p
  let was := s0.flag u F.spout_SCHED_CFG_GATE_EN
  let now := s.flag u F.spout_SCHED_CFG_GATE_EN
  let s := if 12 ≤ p ∨ was = now then s else if now then s.gatePend p else s.gateOff p
  let s := if s.flag u F.spout_GATE_CHANGE_CHANGE then
      let x := (s.spoutAt p).gate
      let s := s.wr u F.spout_GATE_CHANGE_CHANGE 0
      if p < 12 ∧ x.oper.isSome ∧ x.pending.isNone then s.gatePend p else s
    else s
  if s.flag u F.spout_HIST_CFG_CLEAR then (s.wr u F.spout_HIST_CFG_CLEAR 0).histClear p else s

/-- A meter whose bucket sizes have changed (R93). -/
def State.meterSized (s : State) (s0 : State) (w : Bool) (n : Nat) : State :=
  let u := uStrain w
  let en := s.enabled u
  let m := s.meterAt w n
  let c := s.rd u F.strain_M_CBS_SIZE n
  let p := s.rd u F.strain_M_PBS_SIZE n
  s.setMeter w n
    ⟨if c = s0.rd u F.strain_M_CBS_SIZE n then m.c else bucketOnSize en m.c c,
     if p = s0.rd u F.strain_M_PBS_SIZE n then m.p else bucketOnSize en m.p p⟩

/-- A Strainer: bucket sizes, and gates whose EN changes (R93, R97). -/
def State.strainCommitted (s : State) (s0 : State) (w : Bool) (es : List Staged) : State :=
  let u := uStrain w
  es.foldl (fun s e =>
    let o := e.addr - baseOf u
    if 0x10000 ≤ o ∧ o < 0x20000 ∧ (o % 0x20 = 8 ∨ o % 0x20 = 0xC) then s.meterSized s0 w ((o - 0x10000) / 0x20)
    else if 0x30000 ≤ o ∧ (o - 0x30000) % 0x200 = 0 then
      let g := (o - 0x30000) / 0x200
      if s0.flag u F.strain_GATE_CTRL_EN g = s.flag u F.strain_GATE_CTRL_EN g then s
      else if s.flag u F.strain_GATE_CTRL_EN g then s.gateEnable w g else s.setGate w g {}
    else s) s

/-- TIME: domains that start or stop, and the states of the ports (Table 7.2). -/
def State.timeCommitted (s : State) (es : List Staged) : State :=
  let s := [0, 1, 2, 3].foldl (fun s n =>
    if touched es (fldAddr uTime F.time_DOM_CFG_EN n 0) then s.domEnable n (s.flag uTime F.time_DOM_CFG_EN n) else s) s
  if s.enabled uTime then s.selectAll else s

/-- TSIO: outputs whose configuration has been committed (R179). -/
def State.tsioCommitted (s : State) (es : List Staged) : State :=
  (List.range 8).foldl (fun s m =>
    let s := if touched es (fldAddr uTsio F.tsio_TSOUT_CFG m 0) then s.tsCommitEn m else s
    if es.any (fun e => e.addr / 0x20 == fldAddr uTsio F.tsio_TSOUT_CFG m 0 / 0x20) then s.tsEval m else s) s

/-- A commit that changes the guard list of a channel: a frame that has begun is still judged by the former one (R106). -/
def State.guardCommitted (s : State) (s0 : State) (n : Nat) : State :=
  if s0.guardList n = s.guardList n then s
  else s.setCan n { s.canAt n with guardOld := (s.clk.wc, s0.guardList n) :: (s.canAt n).guardOld }

/-- Whether a commit makes a CANsec receive channel ask for its key: its KEY_SLOT has changed, or the channel has become VALID
(log entry 118). -/
def State.wantsRxKey (s s0 : State) (u : UnitNo) (c : Nat) : Bool :=
  s.flag u F.can_CS_RX_VALID c &&
    (s0.rd u F.can_CS_RX_KEY_SLOT c != s.rd u F.can_CS_RX_KEY_SLOT c || !s0.flag u F.can_CS_RX_VALID c)

/-- A CAN channel: the guard list, and CANsec channels whose key changes ask for it (R106, R355). -/
def State.canCommitted (s : State) (s0 : State) (n : Nat) : State :=
  let u := uCan n
  let s := s.guardCommitted s0 n
  if !(s.enabled u && s.flag u F.can_CS_CFG_EN) then s
  else
    let s := if s0.rd u F.can_CS_CFG_TX_KEY_SLOT = s.rd u F.can_CS_CFG_TX_KEY_SLOT then s else s.askCanKey (canKeyNo n 4)
    (List.range 4).foldl (fun s c =>
      if s.wantsRxKey s0 u c then s.askCanKey (canKeyNo n c) else s) s

/-- T1S: segments whose PLCA fields have changed (R204). -/
def State.t1sCommitted (s : State) (s0 : State) : State :=
  (List.range 8).foldl (fun s g =>
    let a := fldAddr uT1s F.t1s_T1S_CFG g 0
    let b := fldAddr uT1s F.t1s_T1S_BURST g 0
    if s0.word a = s.word a ∧ s0.word b = s.word b then s else s.plcaRestart g) s

/-- What the committed registers of a unit set off; `s0` is the state before the commit. -/
def State.committed (s : State) (s0 : State) (u : UnitNo) (es : List Staged) : State :=
  match kindOf u with
  | .spout => s.spoutCommitted s0 (instOf u)
  | .strain => s.strainCommitted s0 (instOf u == 1) es
  | .time => s.timeCommitted es
  | .tsio => s.tsioCommitted es
  | .can => s.canCommitted s0 (instOf u)
  | .lin => (List.range 8).foldl (fun s n => if touched es (fldAddr uLin F.lin_LIN_CFG n 0) then s.linSync n else s) s
  | .t1s => s.t1sCommitted s0
  | .sent => (List.range 8).foldl (fun s n =>
      if s0.flag u F.sent_SENT_CFG_EN n = s.flag u F.sent_SENT_CFG_EN n then s else s.sentStart n) s
  | .fab => (List.range 16).foldl (fun s p => (s.pfcLevel p 4).pfcLevel p 5) s
  | .pipe =>
    if s.flag u F.pipe_GEN_CTRL_SWAP then (s.wr u F.pipe_GEN_CTRL_SWAP 0).genSwap 0 else s
  | _ => s

/-- The refusals of a commit (R433): one access error for the unit with the register and master of the refused field
written last; every refused master's fence counts one, with the address of its last refused write. -/
def State.commitRefusals (s : State) (u : UnitNo) (bad : List Staged) : State :=
  match bad.getLast? with
  | none => s
  | some e =>
    let s := if kindOf u = .pipe then s.sat u F.pipe_GEN_STATUS_REJECTS else s
    let s := s.accessError e.master e.addr 4
    (bad.map (·.master)).eraseDups.foldl (fun s m =>
      match (bad.filter (fun x => x.master == m)).getLast? with
      | some x => (s.fenceCount m x.addr).lastErrOf s m x.transfer
      | none => s) s

/-- Staged writes of one unit take effect together, or are refused. -/
def State.commitList (s : State) (u : UnitNo) (es : List Staged) : State :=
  let s0 := if kindOf u = .spout ∧ instOf u < 12 then s.cbsTo (instOf u) s.clk.wc else s
  let bad := es.filter (fun e => s0.refusedBits u es e != 0)
  let t := es.foldl (fun t e => t.commitEntry u es s0 e) s0
  (t.committed s0 u es).commitRefusals u bad

/-- The commit of a unit at a tick boundary: every staged write, and LAST_TICK if one of them took effect (R402). -/
def State.commitUnit (s : State) (u : UnitNo) : State :=
  let es := s.staged.filter (fun e => e.unit == u)
  if es.isEmpty then s
  else
    let took := es.any (fun e => without (stagedMask e.addr) (s.refusedBits u es e) != 0#32)
    let t := { s with staged := s.staged.filter (fun e => e.unit != u) }.commitList u es
    if took then t.wr u F.unit_COMMIT_LAST_TICK (s.rd uTick F.tick_COUNT_COUNT % 65536) else t

end Sys2Proof.Machine
end

