-- ==== Sys2Proof/Machine/Update.lean ====
section
/-! DEFINITION. Activation of the inactive slot, key revocation and the retry of a start (R271, R285, R290 to R292; chapter
13). -/

namespace Sys2Proof.Machine

/-- A primary segment runs. -/
def State.primaryRuns (s : State) : Bool := decide (stPriBody ≤ s.kettle.stage) && decide (s.kettle.stage ≤ stComplete)

/-! ### Key revocation and retry (R271, R285) -/

def revokeAddr : Nat := fldAddr uKettle F.kettle_KEY_REVOKE_KEY 0 0

/-- The signing-key slots that are programmed and not revoked. -/
def State.liveKeys (s : State) : List Nat :=
  (List.range 3).filter (fun k => (pmGet s.otp.signHash k).isSome && !s.otp.revoked.contains k)

/-- A revocation that is refused: of the key that signed the running primary, of an unprogrammed slot, of the last one. -/
def State.revokeBarred (s : State) (slot : Nat) : Bool :=
  (s.primaryRuns && s.kettle.keyUsed == slot) || (pmGet s.otp.signHash slot).isNone
    || s.liveKeys == [slot]

/-- `KEY_REVOKE`: a wrong KEY and SLOT 3 have no effect. -/
def keyRevokeRun (key slot master : Nat) (s : State) : State :=
  if key ≠ 0x6B3D ∨ 3 ≤ slot then s
  else if s.revokeBarred slot then s.refuse master revokeAddr
  else if s.otp.revoked.contains slot then s
  else { s with otp := { s.otp with revoked := s.otp.revoked ++ [slot] } }

def retryAddr : Nat := fldAddr uKettle F.kettle_RETRY_KEY 0 0

/-- `RETRY`: the attempt count is set to 0. -/
def retryRun (key : Nat) (s : State) : State :=
  if key = 0x3C81 then s.wr uCosy F.cosy_BOOT_RET_ATTEMPTS 0 else s

/-! ### Arming (R290) -/

def updCmdAddr : Nat := fldAddr uKettle F.kettle_UPD_CMD_KEY 0 0

/-- Why an ARM is refused: 1 KEY, 3 NO_TD0, 2 LATE, 4 SLOT_BUSY; 0 where it is not. In Fallback mode only KEY and SLOT_BUSY. -/
def State.armCause (s : State) (key : Nat) : Nat :=
  if key ≠ 0x9E12 then 1
  else if !s.fallback && s.domState 0 == domDisabled then 3
  else if !s.fallback && decide (s.updTime ≤ s.td0Time) then 2
  else if s.triad.slotOpen then 4
  else 0

/-- `UPD_ARM`: the time that the registers hold now is the armed one. An activation that has fired, and a trial start, are not armed again (log entry 60). -/
def updArmRun (key : Nat) (s : State) : State :=
  if s.armCause key ≠ 0 then s.slotResult 4 0 (s.armCause key) 15
  else if 2 ≤ s.updState then s
  else
    let t : State := { s with kettle := { s.kettle with armedAt := s.updTime, armedTick := s.rd uTick F.tick_COUNT_COUNT } }
    t.setUpdState 1

/-- `UPD_CANCEL`: RESULT CANCELLED, CAUSE HOST; nothing where none is armed. -/
def updCancelRun (key : Nat) (s : State) : State :=
  if key ≠ 0x9E12 then s.slotResult 4 0 1 15 else s.cancelActivation 5

/-! ### Firing (R291, R292) -/

/-- `ACTIVATION_RESTART`: 100 µs later the Cosy die restarts the Brew die with cause UPDATE and TRIAL. -/
def activationRestartStep (s : State) : State :=
  if s.updState = 2 then
    let s := if s.fallback then s.wr uCosy F.cosy_BOOT_RET_ATTEMPTS 0 else s
    (s.brewRestart 6).wr uCosy F.cosy_SLOT_RET_TRIAL 1
  else s

/-- `ACTIVATION_CANCEL`: by an accepted sleep commit, or by the Safe state when it would fire; a restart cancels it in its own
command. -/
def activationCancelStep (s : State) : State :=
  if s.cosy.committed then s.cancelActivation 7
  else if s.activationDue ∧ s.safe then s.cancelActivation 8
  else s

/-! ### The commands -/

/-- `KEY_REVOKE`. -/
def execKeyRevoke (key slot master : Nat) (s : State) : Host.Outcome State Fault Refusal :=
  .next (s.command uKettle master revokeAddr (keyRevokeRun key slot master))
/-- `RETRY`. -/
def execRetry (key master : Nat) (s : State) : Host.Outcome State Fault Refusal :=
  .next (s.command uKettle master retryAddr (retryRun key))
/-- `UPD_ARM`. -/
def execUpdArm (key master : Nat) (s : State) : Host.Outcome State Fault Refusal :=
  .next (s.command uKettle master updCmdAddr (updArmRun key))
/-- `UPD_CANCEL`. -/
def execUpdCancel (key master : Nat) (s : State) : Host.Outcome State Fault Refusal :=
  .next (s.command uKettle master updCmdAddr (updCancelRun key))
/-- `ACTIVATION_FIRE`. -/
def execActivationFire (s : State) : Host.Outcome State Fault Refusal := .next (activationFireStep s)
/-- `ACTIVATION_RESTART`. -/
def execActivationRestart (s : State) : Host.Outcome State Fault Refusal := .next (activationRestartStep s)
/-- `ACTIVATION_CANCEL`. -/
def execActivationCancel (s : State) : Host.Outcome State Fault Refusal := .next (activationCancelStep s)

end Sys2Proof.Machine
end

