-- ==== Sys2Proof/Machine/Reset.lean ====
section
/-! DEFINITION. Enable and reset of units (R20, R389, R394, R399, Table 18.3) and the flush of the Ulis link (R385, R394). -/

namespace Sys2Proof.Machine

/-! ### The Ulis link going down -/

/-- A link that goes down: both ends are flushed, every write still on its way is refused, every read completes
with 0, and the link detector fires. -/
def State.ulisDown (s : State) : State :=
  if s.flag uUlis F.ulis_ULIS_STATUS_UP then
    let l := s.host.posted
    let s := s.wr uUlis F.ulis_ULIS_STATUS_UP 0
    let s := (s.inc uUlis F.ulis_LINK_DOWNS).inc uUlis F.ulis_FLUSHES
    let s := s.setHost { s.host with posted := [], ulisFails := 0 }
    let s := l.foldl (fun s p => (s.refuse p.master p.addr).lastErrOf s p.master p.transfer) s
    (s.flushReads (fun r => cosyAddr r.addr)).check uUlis 0 true
  else s

/-! ### What becoming enabled or disabled does -/

/-- TICK starts its grid at the moment it is enabled, which Table 13.5 calls boundary 0 (log entry 61), and follows TD0 at once
while TD0 is synchronised (R22). -/
def State.tickStart (s : State) : State :=
  let s := s.setTick { s.time.tick with since := s.clk.wc, left := s.tickP, adj := 0 }
  if s.synced 0 then s.tickFollow false else s

/-- A leaf begins to count as enabled. -/
def State.onEnable (s : State) (u : UnitNo) : State :=
  let i := instOf u
  match kindOf u with
  | .tick => s.tickStart
  | .can => (s.canEnable i).askCanKeys i
  | .lin => (List.range 8).foldl (fun s n => s.linSync n) s
  | .crypt => (s.feedBlob.takeJob).skipBadOps 16
  | .netm => s.netmEnable
  | .triad => s.triadStart
  | .sent => (List.range 8).foldl (fun s n => if s.flag uSent F.sent_SENT_CFG_EN n then s.sentStart n else s) s
  | .time => s.selectAll
  | _ => s

/-- The tick job of a unit that is disabled stops at once and keeps its place until the first boundary at which the unit is
enabled again (R432). -/
def State.jobStop (s : State) (u : UnitNo) : State :=
  if hasTickJob u then (s.setTickJob u { s.tickJob u with stopped := true }).wr u F.unit_TICKJOB_RUNNING 0 else s

/-- A leaf ceases to count as enabled (R347, Tables 8.5, 8.6). -/
def State.onDisable (s0 : State) (u : UnitNo) : State :=
  let s := s0.jobStop u
  let i := instOf u
  match kindOf u with
  | .can => (s.canSwitchOff i).releaseCan i
  | .mac => s.releaseMac i
  | .lin => (List.range 8).foldl (fun s n => s.linSync n) s
  | .flx => s.flxDisable
  | .t1s => (List.range 8).foldl (fun s g => s.plcaRestart g) s
  | _ => s

/-- The consequences for the leaves of a subtree of a change in what counts as enabled; `s0` is the state before it. -/
def State.enableHooks (s : State) (s0 : State) (u : UnitNo) : State :=
  (leavesOf u).foldl (fun s l =>
    if s0.enabled l = s.enabled l then s else if s.enabled l then s.onEnable l else s.onDisable l) s

/-- UNIT_CTRL.EN written: read-only in SYS and COSY (Table 18.3). -/
def State.setEnable (s : State) (u : UnitNo) (en : Bool) : State :=
  if u = uSys ∨ u = uCosy then s else (s.wr u F.unit_CTRL_EN (b2n en)).enableHooks s u

/-! ### Reset of one unit -/

/-- A stored address of the GW block that all instances share (R229). -/
def sharedGw (a : Nat) : Bool := decide (0x40300100 ≤ a) && decide (a < 0x40301000)

/-- A stored register of a unit's window; the shared GW block belongs to the GW group. -/
def inUnit (u : UnitNo) (a : Nat) : Bool :=
  if sharedGw a then u == uGwGrp else unitAt a == some u

/-- A stored BUS_OWNER register: ownership does not change until the next start (R206). -/
def ownerWord (a : Nat) : Bool := decide (0x40300200 ≤ a) && decide (a < 0x40300460) && decide (a % 0x10 = 0)

/-- The registers of a unit at their reset values, but for the kept fields and BUS_OWNER. -/
def State.resetRegs (s : State) (u : UnitNo) : State :=
  let t : State := { s with
    regs := s.regs.filter (fun e => !inUnit u e.1 || ownerWord e.1 || sharedImage e.1)
    staged := s.staged.filter (fun e => e.unit != u)
    jobs := s.jobs.filter (fun e => e.1 != u) }
  (keptFields u).foldl (fun t f => t.wr u f (s.rd u f)) t

/-- Both in-flight counts are 0 and the inactive bank is FREE; CUR_GEN and the banks stay (Table 2.12), and so do the counts of the
recirculations admitted in this tick (R52). -/
def State.genReset (s : State) : State :=
  let t : State := { s with gen := { s.gen with drainTicks := 0, swapCycle := 0 } }
  let t := t.wr (uPipe true) F.pipe_GEN_STATUS_INACTIVE 0
  (t.wr (uPipe true) F.pipe_GEN_INFLIGHT_COUNT 0 0).wr (uPipe true) F.pipe_GEN_INFLIGHT_COUNT 0 1

/-- The entries of retired rows of a forwarding table, which count as occupied (R336). -/
def State.retiredOcc (s : State) (w : Bool) : State :=
  let rows := (s.inForce kindRetire).filter (fun e => entryMem e == memFdb w)
  let stash := (rows.filter (fun e => 8192 ≤ entryValue e)).length
  let s := s.wr (uPipe w) F.pipe_FDB_OCC_ENTRIES (4 * (rows.length - stash))
  (s.wr (uPipe w) F.pipe_FDB_OCC_STASH (4 * stash)).wr (uPipe w) F.pipe_FDB_OCC_STASH_HWM (4 * stash)

/-- A pipeline's tables and queues (log entry 62). -/
def State.pipeReset (s : State) (w : Bool) : State :=
  let s := (s.setPipe w {}).retiredOcc w
  if w then { s with gen := {} }.genReset else s

/-- A Strainer: both banks keep their contents; buckets, gates, admission counts and waiting keys do not (R93, Table 2.12). An infuser
whose key was waiting in STRAIN_W submits it again (DESIGN CHOICE, log entry 85). -/
def State.strainReset (s : State) (w : Bool) : State :=
  let s := (s.setStrain w { bank0 := (s.strain w).bank0, bank1 := (s.strain w).bank1 }).genReset
  if w then { s with gw := { s.gw with engines := s.gw.engines.map (fun e => (e.1, { e.2 with asked := false })) } } else s

/-- The cells that one RETIRE entry withholds: the cell, or the 16 cells of a link or owner row (R336, Table 15.8). -/
def withheldBy (e : Nat) : List Nat :=
  if entryKind e ≠ kindRetire then []
  else if 32 ≤ entryMem e ∧ entryMem e ≤ 47 then [(entryMem e - 32) * 8192 + entryValue e]
  else if entryMem e = memLink ∨ entryMem e = memOwner then (List.range 16).map (16 * entryValue e + ·)
  else []

/-- How many cells the ledger in force withholds from the free lists. -/
def State.withheldCells (s : State) : Nat := (s.kettle.ledger.flatMap withheldBy).eraseDups.length

/-- The copies that E-ports read end as stomped frames: the cells they have not read are lost (R133). -/
def State.stompReads (s : State) : State :=
  (List.range 12).foldl (fun s p =>
    (s.readingOf p).foldl (fun s r =>
      match (s.queue (8 * p + r.tc)).find? (fun e => e.started) with
      | none => s
      | some e =>
        match s.frame e.frame with
        | none => s
        | some f => s.stompTx p r f) s) s

/-- What a fabric input keeps through a reset of the fabric: the frames that its MAC receives, of which nothing more is written. -/
def lostInput (x : InPort) : InPort := { rx := x.rx.map (fun f => { f with lost := true, record := none }) }

/-- The fabric: every frame is lost, recirculating ones too (R54), every cell not retired is free, the LFSR is seeded at random; links, octet counts, what has
left and what the MACs hold stay. -/
def State.fabReset (s : State) : State :=
  let f := s.fab
  let t : State := { s with
    fab := { links := f.links, rxOctets := f.rxOctets, txOctets := f.txOctets, wire := f.wire,
             inputs := f.inputs.map (fun e => (e.1, lostInput e.2)),
             lfsr := s.drawn (2 ^ 31 - 1) + 1 }
    free := s.free + 1 }
  let t := (t.wr (uPipe true) F.pipe_GEN_INFLIGHT_COUNT 0 0).wr (uPipe true) F.pipe_GEN_INFLIGHT_COUNT 0 1
  let n := 131072 - s.withheldCells
  (t.wr uFab F.fab_BUF_FREE_FREE n).wr uFab F.fab_BUF_FREE_MIN_MIN n

/-- TIME: every domain stops, path-delay measurements and queues are lost; WC runs on (R161, Table 7.2). -/
def State.timeReset (s : State) : State :=
  let s := s.tickSettle
  let t : State := { s with time := { s.time with
    domains := [], ports := [], rxQ := [], txQ := [], waiting := [], seqs := [], cmds := [], intervals := [] } }
  t.tickFree

/-- A MAC: a frame it receives ends there, and the frame it sends with it; octet counts and keys are lost. Frames that wait for the wire
stand in the read buffer and stay; its own PFC frames do not. A hold ends with preemption (R150). -/
def State.macReset (s : State) (p : Nat) : State :=
  let t := s.releaseMac p
  let t : State := { t with fab := { t.fab with
    rxOctets := pmDel t.fab.rxOctets p, txOctets := pmDel t.fab.txOctets p } }
  let x := t.input p
  let t := t.setInput p { x with rx := (x.rx.filter (fun f => f.cells != 0)).map (fun f => { f with ended := true }) }
  (t.setSpout p { t.spoutAt p with
    line := (t.spoutAt p).line.filter (fun e => e.start.isNone && e.pos == 0 && e.tc != 9), free := t.clk.wc }).holdEnd p

/-- A Spout: everything but what stands in the port's read buffer or on its wire. -/
def State.spoutReset (s : State) (p : Nat) : State :=
  let x := s.spoutAt p
  s.setSpout p { line := x.line, free := x.free, since := s.clk.wc }

/-- The infuser's own state; the shared tables, images and buffers belong to the group. -/
def State.engineReset (s : State) (n : Nat) : State :=
  { s with
    gw := { s.gw with engines := pmDel s.gw.engines n }
    strainW := { s.strainW with canFifo := s.strainW.canFifo.filter (fun k => k.infuser != n) } }

/-- The gateway's shared state (log entry 62): the engines' memories and their microcode stay. -/
def State.gwReset (s : State) : State :=
  { s with gw := { mem := s.gw.mem, essential := s.gw.essential, engines := s.gw.engines } }

/-- What a unit holds beyond its registers, reset. -/
def State.resetTyped (s : State) (u : UnitNo) : State :=
  let i := instOf u
  match kindOf u with
  | .tick => s.setTick {}
  | .time => s.timeReset
  | .saucer => (s.setSaucer {}).tellCosy
  | .triad => s.setTriad { sram := s.triad.sram, decided := s.triad.decided }
  | .caddy => s.setSec { s.sec with slots := [], keyRegs := [], busySets := [] }
  | .crypt => s.setSec { s.sec with running := none, nextRing := 0, blobs := [] }
  | .pipe => s.pipeReset (i == 1)
  | .strain => s.strainReset (i == 1)
  | .fab => s.fabReset
  | .spout => s.spoutReset i
  | .mac => s.macReset i
  | .mspi => { s with host := { s.host with mspiErr := false } }
  | .can =>
    let t := s.releaseCan i
    { t with edge := { t.edge with can := pmDel t.edge.can i } }
  | .lin => { s with edge := { s.edge with lin := [] } }
  | .sent => { s with edge := { s.edge with sent := [], spi := [] } }
  | .flx => { s with edge := { s.edge with flxUpdated := [] } }
  | .t1s => { s with edge := { s.edge with t1s := [] } }
  | .tsio => { s with time := { s.time with captures := [], lastEdge := [], fired := [], sbPrev := [] } }
  | .gw => s.engineReset i
  | .group => if u = uGwGrp then s.gwReset else s
  | .netm => s.netmRestart
  | _ => s

/-- A waiting read that crosses into a unit, or that the unit has sent. -/
def crosses (u : UnitNo) (r : NonPosted) : Bool :=
  inUnit u r.addr || (match kindOf u with
    | .fn => r.master == instOf u + 1
    | .mspi => r.master == 8
    | .triad => r.master == 0x10 || r.master == 0x11
    | .gw => r.master == 0x20 + instOf u
    | _ => false)

/-- One unit of a reset subtree: crossings flushed, registers and everything else it holds at reset, then held for 64 cycles of
its domain. -/
def State.resetOne (s : State) (u : UnitNo) : State :=
  let s := s.flushReads (crosses u)
  let s := if u = uUlis then s.ulisDown else if u = uNetm then s.netmLeave else if u = uFab then s.stompReads else s
  let t := (s.resetRegs u).resetTyped u
  { t with resetPs := t.resetPs.filter (fun e => e.1 != u) ++ [(u, 64 * cyclePs u)] }

/-- A reset request (R399): of SYS it restarts the Brew die with cause SW_RESET, of COSY it has no effect. -/
def State.unitReset (s : State) (u : UnitNo) : State :=
  if u = uSys then s.brewRestart 7
  else if u = uCosy then s
  else
    (subtree u).foldl (fun s x => s.resetOne x) s

end Sys2Proof.Machine
end

