-- ==== Sys2Proof/Machine/HostWrite.lean ====
section
/-! DEFINITION. Register writes and reads of any master: the field access kinds (R8, R431), the unit frame, the registers whose
write starts a command, and the way to the Cosy die (R7, R13, R380 to R391, chapter 18). -/

namespace Sys2Proof.Machine

/-! ### Detectors (R401, Table 18.7) -/

/-- The detectors of a leaf: those of Table 18.7, 30 with a tick job, 31 always. -/
def detMask (u : UnitNo) : Nat :=
  let own := match kindOf u with
    | .saucer => 1
    | .kettle => 0xF
    | .triad => 0x3FF
    | .caddy => 3
    | .crypt => 3
    | .pipe => if instOf u = 1 then 0xF else 7
    | .strain => 3
    | .fab => 3
    | .mac => 1
    | .can => 3
    | .gw => 7
    | .ulis => 1
    | .cosy => 3
    | _ => 0
  own + (if hasTickJob u then 2 ^ 30 else 0) + 2 ^ 31

/-! ### The unit frame -/

/-- Every fault bit of a subtree cleared. -/
def State.clearFaults (s : State) (u : UnitNo) : State := (leavesOf u).foldl (fun s l => s.wr l F.unit_FAULT 0) s

/-- The leaves whose fault bits a write of a group's UNIT_FAULT clears: bit i child i, bit 31 children 31 onward (Table 1.5). -/
def faultTargets (u : UnitNo) (v : Nat) : List UnitNo :=
  let l := childrenOf u
  ((bitsOf 31 v).filterMap (fun i => l[i]?)) ++ (if bitOf v 31 then l.drop 31 else [])

/-- `FAULT_CLEAR`: a write of UNIT_FAULT. -/
def State.faultClear (s : State) (u : UnitNo) (v : Word) : State :=
  if isLeaf u then s.wr u F.unit_FAULT (s.word (baseOf u + 0xC) &&& ~~~v).toNat
  else (faultTargets u v.toNat).foldl (fun s c => s.clearFaults c) s

/-- A write of UNIT_FAULT that clears a bit that is set. -/
def State.clearsFault (s : State) (u : UnitNo) (v : Word) : Bool :=
  if isLeaf u then (s.word (baseOf u + 0xC) &&& v) != 0#32
  else (faultTargets u v.toNat).any (fun c => (leavesOf c).any (fun l => s.rd l F.unit_FAULT != 0))

/-- `INJECT_ARM`: a write of a leaf's UNIT_INJECT; a group has no injection points. -/
def State.injectArm (s : State) (u : UnitNo) (v : Word) : State :=
  if isLeaf u then s.wr u F.unit_INJECT (v.toNat &&& detMask u) else s

/-- `COMMIT_DISCARD`: the staged writes of the unit and its subtree are discarded. -/
def State.commitDiscard (s : State) (u : UnitNo) : State :=
  { s with staged := s.staged.filter (fun e => !(subtree u).contains e.unit) }

/-- A write to a register of the unit frame. -/
def State.frameWrite (s : State) (u : UnitNo) (m off : Nat) (v : Word) : State :=
  match off with
  | 0x004 => if bitOf v.toNat 1 then s.unitReset u else s.setEnable u (bitOf v.toNat 0)
  | 0x008 => if isLeaf u ∧ bitOf v.toNat 30 then s.wr u F.unit_STATUS_EVENT 0 else s
  | 0x00C => s.faultClear u v
  | 0x010 => s.injectArm u v
  | 0x014 => if bitOf v.toNat 30 then s.commitDiscard u else s
  | 0x018 =>
    if !hasTickJob u then s
    else if m = 0x18 ∧ !s.enabled u then s.wr u F.unit_TICKJOB_BUDGET v.toNat
    else s.stage u m (baseOf u + off) v
  | _ => s

/-! ### Fields that refuse some values -/

/-- What a write would leave in a register, and whether it refuses a value. -/
structure Taken where
  word : Word
  refused : Bool
  deriving DecidableEq, Repr

/-- IF_MODE that a port can take: 0 to 4, and 5 on E0 to E3 (Table 2.2). -/
def modeOk (p mode : Nat) : Bool := decide (mode ≤ 4) || (mode == 5 && decide (p < 4))

/-- FEC that an interface mode supports (Table 2.2). -/
def fecOk (mode fec : Nat) : Bool := fec == 0 || (fec == 1 && (mode == 4 || mode == 5)) || (fec == 2 && mode == 5)

/-- A write of MODE of a disabled MAC. -/
def modeTaken (p : Nat) (old v : Word) : Taken :=
  let ok := modeOk p (getBits v 0 4)
  let mode := if ok then getBits v 0 4 else getBits old 0 4
  let fecTaken := fecOk mode (getBits v 4 2)
  let fec := if fecTaken then getBits v 4 2 else if fecOk mode (getBits old 4 2) then getBits old 4 2 else 0
  ⟨BitVec.ofNat 32 (fec * 16 + mode), !(ok && fecTaken)⟩

/-- A write of DOM_CFG.DOMAIN_NUMBER of a disabled TIME: above 127, or the number of another domain (Table 7.6). -/
def State.domainTaken (s : State) (n : Nat) (old v : Word) : Taken :=
  let d := getBits v 0 8
  let dup := [0, 1, 2, 3].any (fun k => k != n && s.rd uTime F.time_DOM_CFG_DOMAIN_NUMBER k == d)
  if 127 < d || dup then ⟨old, true⟩ else ⟨setBits old 0 8 d, false⟩

/-- Entries of a descriptor ring: a power of two from 16 to 32,768 (Table 17.11). -/
def ringSize (w : Nat) : Nat := 2 ^ clampNat 4 15 (Nat.log2 w)

/-- The RWL bits of a register after a write that reaches a disabled unit. -/
def State.rwlTaken (s : State) (f : Found) (old v : Word) (mask : Word) : Taken :=
  let t : Taken := match kindOf f.unit with
    | .mac => if f.off = 0x100 then modeTaken (instOf f.unit) old v else ⟨v, false⟩
    | .time =>
      if 0x200 ≤ f.off ∧ f.off < 0x400 ∧ f.off % 0x80 = 0 then
        let x := s.domainTaken ((f.off - 0x200) / 0x80) old v
        ⟨setBits v 0 8 (getBits x.word 0 8), x.refused⟩
      else ⟨v, false⟩
    | _ => ⟨v, false⟩
  ⟨merge old t.word mask, t.refused⟩

/-- The RW bits of a register after a write: RING_TAIL takes no value of SIZE or above. -/
def State.rwTaken (s : State) (f : Found) (old v : Word) (mask : Word) : Taken :=
  if kindOf f.unit = .fn ∧ 0x400 ≤ f.off ∧ f.off < 0x800 ∧ f.off % 0x20 = 0x10 then
    let r := (f.off - 0x400) / 0x20
    if ringSize (s.rd f.unit F.fn_RING_CFG_SIZE r) ≤ getBits v 0 16 then ⟨old, true⟩ else ⟨merge old v mask, false⟩
  else ⟨merge old v mask, false⟩

/-! ### A write applied field by field -/

/-- What a change of certain registers sets off; `old` is the register before the write. -/
def State.written (s : State) (f : Found) (old : Word) : State :=
  if s.word (baseOf f.unit + f.off) = old then s
  else match kindOf f.unit with
  | .fn => if 0x1000 ≤ f.off then s.msixFlush (instOf f.unit) else s
  | .mac => if f.off = 0x304 then (s.preemptCfg (instOf f.unit)).holdEnd (instOf f.unit) else s
  | .fab =>
    if 0x400 ≤ f.off ∧ f.off < 0x800 ∧ f.off % 0x40 = 8 then
      let p := (f.off - 0x400) / 0x40
      ((s.pfcLevel p 4).pfcLevel p 5).showPause p
    else s
  | .netm => if f.off = 0x100 ∧ getBits old 31 1 = 1 ∧ !s.flag uNetm F.netm_NETM_CFG_EN then s.netmRestart else s
  | _ => s

/-- RW, W1C and RWL fields taken at once; RWS fields staged; one access error for whatever is refused (R8, R431). -/
def State.plainWrite (s : State) (m : Nat) (f : Found) (a : Nat) (v : Word) : State :=
  let old := s.word a
  let rwl := kindMask f .rwl
  let x := s.rwTaken f old v (kindMask f .rw ||| (if kindOf f.unit = .caddy then kindMask f .wo else 0#32))
  let y : Taken := if s.enabled f.unit then ⟨x.word, ((old ^^^ v) &&& rwl) != 0#32⟩ else s.rwlTaken f x.word v rwl
  let s := if kindMask f .rws = 0#32 then s else s.stage f.unit m a v
  let s := s.withIrq (fun s => s.setWord a (y.word &&& ~~~(v &&& kindMask f .w1c)))
  let s := s.written f old
  if x.refused ∨ y.refused then s.refuse m a else s.accessSeen m a 2 f.unit

/-- A write by Kettle to a disabled unit: every field takes its value at once, W1C and RC fields too, in which the written bits are
stored (DESIGN CHOICE, log entry 63: R273 says which fields take effect and not how). -/
def State.kettleDirect (s : State) (f : Found) (a : Nat) (v : Word) : State :=
  let all := f.row.fields.foldl (fun w x => w + fieldMask x) 0
  let mask := without (BitVec.ofNat 32 all) (lackedMask f)
  let e : Staged := ⟨f.unit, a, v, 0x18, 0⟩
  let bad := s.refusedBits f.unit [e] e
  let y := s.rwlTaken f (s.word a) (merge (s.word a) v mask) (kindMask f .rwl)
  let t := s.setWord a (merge (merge (s.word a) v (without mask bad)) y.word (kindMask f .rwl))
  let t := ((t.committed s f.unit [e]).written f (s.word a)).commitRefusals f.unit (if bad = 0 then [] else [e])
  if y.refused then t.refuse 0x18 a else t

/-! ### Registers whose write starts a command -/

/-- The operation that a value written to FDB_CMD selects (Table 3.7). -/
def fdbRun (w : Bool) (v : Word) (s : State) : State :=
  let i := getBits v 0 16
  match getBits v 16 4 with
  | 0 => fdbNopRun w s
  | 1 => fdbInsertRun w s
  | 2 => fdbDeleteRun w s
  | 3 => fdbLookupRun w s
  | 4 => fdbReadSlotRun w i s
  | 5 => fdbFlushRun w s
  | 6 => fdbShadowWriteRun w i s
  | 7 => fdbShadowReadRun w i s
  | 8 => fdbVlanWriteRun w i s
  | 9 => fdbVlanReadRun w i s
  | 10 => fdbInsertShadowedRun w i s
  | 11 => fdbDeleteShadowedRun w i s
  | _ => fdbInvalidRun w s

/-- FDB_CMD (Table 3.7). -/
def State.fdbWrite (s : State) (w : Bool) (m : Nat) (v : Word) : State := s.fdbStart w m (fdbRun w v)

/-- The operation that a value written to RULE_CMD by master `m` selects (Table 4.6). -/
def ruleRun (w : Bool) (m : Nat) (v : Word) (s : State) : State :=
  let i := getBits v 0 12
  let b := bitOf v.toNat 20
  match getBits v 16 4 with
  | 0 => s.ruleStatus w ruleOk
  | 1 => s.ruleWrite w m b (writeRuleRun w i)
  | 2 => readRuleRun w i b s
  | 3 => s.ruleWrite w m b (clearRuleRun w i)
  | 4 => s.ruleWrite w m b (writeZpairRun w i)
  | 5 => readZpairRun w i b s
  | 6 => s.ruleWrite w m b (writeZmapRun w i)
  | 7 => readZmapRun w i b s
  | 8 => s.ruleWrite w m b (writePfxRun w i)
  | 9 => readPfxRun w i b s
  | 10 => s.ruleDraining w m (copyActiveRun w)
  | _ => s.ruleStatus w ruleBadArg

/-- RULE_CMD (Table 4.6). -/
def State.ruleCmdWrite (s : State) (w : Bool) (m : Nat) (v : Word) : State := s.ruleStart w m (ruleRun w m v)

/-- DOM_CMD (Table 7.6). -/
def State.domCmdWrite (s : State) (n m : Nat) (v : Word) : State := s.domCommand n (getBits v 16 4) (getBits v 0 8) m

/-- TBL_CMD (Table 9.11), through instance `n`. -/
def State.tblCmdWrite (s : State) (n : Nat) (v : Word) : State :=
  let t := getBits v 26 2
  let i := getBits v 0 14
  match getBits v 22 4 with
  | 0 => s.tblStatus tblOk
  | 1 => tblWriteRun t i s
  | 2 => tblReadRun n t i s
  | 3 => tblClearRun t i s
  | _ => s.tblStatus tblBadArg

/-- The operation that a value written to KEY_CMD selects, for the key set `set` (Table 16.11). -/
def keyCmdRun (v : Word) (set : Nat) (s : State) : State :=
  match getBits v 16 2 with
  | 1 => keyWriteRun (getBits v 0 8) set s
  | 2 => keyEraseRun (getBits v 0 8) set s
  | 3 => keyEraseAllRun set s
  | _ => keyNoneRun set s

/-- KEY_CMD (Table 16.11). -/
def State.keyCmdWrite (s : State) (m : Nat) (v : Word) : State := s.keyCommand m (keyCmdRun v)

/-- KEY_DATA and KEY_ATTR of the set of a master that has one (R342). -/
def State.keyRegWrite (s : State) (m a k v : Nat) : State :=
  match keySet m with
  | some set => s.setKeyReg set k v
  | none => s.refuse m a

/-- LC_CMD (Table 16.11). -/
def State.lcCmdWrite (s : State) (m : Nat) (v : Word) : State :=
  let key := getBits v 16 12
  let slot := getBits v 2 2
  match getBits v 0 2 with
  | 0 => s.lcCommand key m State.advanceOk advanceRun
  | 1 => s.lcCommand key m (fun s => s.progSignOk slot) (progSignRun slot)
  | 2 => s.lcCommand key m State.progFbOk progFbRun
  | _ => s.lcCommand key m State.progDbgOk progDbgRun

/-- SA_CTRL: KEY_SLOT, then RETIRE, then INSTALL (log entry 64). -/
def State.saCtrlWrite (s : State) (p : Nat) (rx : Option Nat) (an m : Nat) (v : Word) : State :=
  let s := s.setSaSlot p rx an (getBits v 0 8)
  let s := if bitOf v.toNat 29 then saRetireRun p rx an s else s
  if bitOf v.toNat 30 then saInstallRun p rx an (getBits v 0 8) m s else s

/-- FLX_CTRL (Table 8.12, log entry 34). -/
def State.flxCtrlWrite (s : State) (v : Word) : State :=
  match getBits v 0 4 with
  | 1 => s.pocCommand [0, 2] (some 1)
  | 2 => s.pocCommand [1, 3, 4, 5, 6] (some 2)
  | 3 => s.pocCommand [2] (some 3)
  | 4 => s.pocCommand [2] (some 4)
  | 5 => s.pocCommand [5, 6] none
  | 6 => s.pocCommand [5, 6] (some 7)
  | 7 => s.pocCommand [0, 1, 2, 3, 4, 5, 6, 7] (some 7)
  | _ => s

/-- MB_CTRL: INT_EN, then ACK, then DOORBELL. -/
def State.mbCtrlWrite (s : State) (k m : Nat) (v : Word) : State :=
  let s := s.wr uTriad F.triad_MB_CTRL_INT_EN (getBits v 2 1) k
  let s := if bitOf v.toNat 1 then mailboxAckRun k m s else s
  if bitOf v.toNat 0 then mailboxDoorbellRun k m s else s

/-- RING_CTRL of the crypto service: INT_EN, and TAIL. -/
def State.ringCtrlWrite (s : State) (r m : Nat) (v : Word) : State :=
  jobSubmitRun r (getBits v 0 4) m (s.wr uCrypt F.crypt_RING_CTRL_INT_EN (getBits v 31 1) r)

/-- INT_EOI: PF0's vector 32 once more while the output is active (R406). -/
def State.intEoi (s : State) : State := if s.irqOut F.sys_INT_MASK_PF0_MASK then s.signal 0 32 else s

/-- UPD_CMD: OP 1 arms, 2 cancels, 0 and 3 do nothing. -/
def State.updCmdWrite (s : State) (v : Word) : State :=
  match getBits v 0 2 with
  | 1 => updArmRun (getBits v 16 16) s
  | 2 => updCancelRun (getBits v 16 16) s
  | _ => s

/-- A write to a descriptor of a submitted job, or to an output area that is not written yet, has no effect (R349, R351). -/
def State.cryptBarred (s : State) (off : Nat) : Bool :=
  if 0x1000 ≤ off ∧ off < 0x1800 then
    (s.submitted ((off - 0x1000) / 0x200)).contains ((off - 0x1000) % 0x200 / 0x20)
  else 0x10000 ≤ off && [0, 1, 2, 3].any (fun k => s.hiddenByte (off - 0x10000 + k))

/-- The command that a write of a register starts, if it is a command register. -/
def State.commandWrite (s : State) (m : Nat) (f : Found) (a : Nat) (v : Word) : Option State :=
  let i := instOf f.unit
  let o := f.off
  match kindOf f.unit with
  | .sys => if o = 0x190 then some (if bitOf v.toNat 0 then s.intEoi else s) else none
  | .saucer => if o = 0x10C then some (episodeEndRun (getBits v 16 16) (getBits v 0 8) m s) else none
  | .kettle =>
    if o = 0x11C then some (keyRevokeRun (getBits v 16 16) (getBits v 0 2) m s)
    else if o = 0x130 then some (retryRun (getBits v 16 16) s)
    else if o = 0x208 then some (s.updCmdWrite v)
    else none
  | .triad => if 0x1000 ≤ o ∧ o % 0x400 = 0 then some (s.mbCtrlWrite ((o - 0x1000) / 0x400) m v) else none
  | .time =>
    if o = 0x100 then some (if bitOf v.toNat 0 then snapshotTakeStep s else s)
    else if 0x200 ≤ o ∧ o < 0x400 ∧ o % 0x80 = 0x44 then some (s.domCmdWrite ((o - 0x200) / 0x80) m v)
    else none
  | .caddy =>
    if o = 0x100 then some (s.keyCmdWrite m v)
    else if o = 0x104 then some (s.keyRegWrite m a 8 (getBits v 0 8))
    else if 0x120 ≤ o ∧ o < 0x140 then some (s.keyRegWrite m a ((o - 0x120) / 4) v.toNat)
    else if o = 0x164 then some (alarmClearRun (getBits v 16 16) (s.rd uCaddy F.caddy_ALARM_STATUS_PRESENT) m s)
    else if o = 0x16C then some (s.lcCmdWrite m v)
    else none
  | .crypt =>
    if 0x100 ≤ o ∧ o < 0x140 ∧ o % 0x10 = 0 then some (s.ringCtrlWrite ((o - 0x100) / 0x10) m v)
    else if s.cryptBarred o then some (s.refuse m a)
    else none
  | .pipe => if o = 0x380 then some (s.fdbWrite (i == 1) m v) else none
  | .strain => if o = 0x100 then some (s.ruleCmdWrite (i == 1) m v) else none
  | .spout => if o = 0x328 then some (gclDataWriteStep i v m s) else none
  | .mac =>
    if 0x840 ≤ o ∧ o < 0x8C0 ∧ o % 0x20 = 0 then some (s.saCtrlWrite i none ((o - 0x840) / 0x20) m v)
    else if 0x900 ≤ o ∧ o < 0xE00 ∧ 0x10 ≤ (o - 0x900) % 0xA0 ∧ ((o - 0x900) % 0xA0 - 0x10) % 0x20 = 0 then
      some (s.saCtrlWrite i (some ((o - 0x900) / 0xA0)) (((o - 0x900) % 0xA0 - 0x10) / 0x20) m v)
    else none
  | .gw =>
    if o = 0x100 then some (s.tblCmdWrite i v)
    else if o = 0x1008 then some (memDataWriteStep i v m s)
    else none
  | .can =>
    if o = 0x104 then
      let t := canOpmodeStep i (getBits v 0 2) s
      some (if bitOf v.toNat 2 then canRecoverStep i false t else t)
    else none
  | .flx =>
    if o = 0x100 then some (s.flxCtrlWrite v)
    else if 0x800 ≤ o ∧ o < 0xC00 ∧ o % 8 = 0 then some (s.mbWrite ((o - 0x800) / 8) a m v true)
    else if 0x8000 ≤ o then some (s.mbWrite ((o - 0x8000) / 0x100) a m v false)
    else none
  | .netm =>
    if o = 0x108 then some (localHoldStep v s)
    else if o = 0x11C then some (if bitOf v.toNat 0 then localWakeStep s else s)
    else none
  | _ => none

/-! ### A write that has reached its unit -/

/-- A write to a register of the Brew die. -/
def State.writeAt (s : State) (m a : Nat) (v : Word) : State :=
  match findReg a with
  | none => s.refuse m a
  | some f =>
    if s.barred f.unit m ∨ !ownedBy m f then s.refuse m a
    else if f.off < 0x40 then
      if m = 0x11 ∧ f.off = 0xC ∧ s.clearsFault f.unit v then s.refuse m a else s.frameWrite f.unit m f.off v
    else
      match s.commandWrite m f a v with
      | some t => t
      | none => if m = 0x18 ∧ !s.enabled f.unit then s.kettleDirect f a v else s.plainWrite m f a v

/-- The wake registers, which an accepted commit locks (R246). -/
def wakeReg (off : Nat) : Bool := (decide (0x3000 ≤ off) && decide (off < 0x3014)) || (decide (0x3100 ≤ off) && decide (off < 0x3500))

/-- A write that has reached the Cosy die (R384). -/
def State.cosyWriteAt (s : State) (m a : Nat) (v : Word) : State :=
  match findReg a with
  | none => s.refuse m a
  | some f =>
    if f.off < 0x40 then (if m = 0x11 ∧ f.off = 0xC ∧ s.clearsFault f.unit v then s.refuse m a else s.frameWrite f.unit m f.off v)
    else if s.cosy.locked ∧ wakeReg f.off then s.refuse m a
    else if 0x2000 ≤ f.off ∧ f.off < 0x2060 then xcvrModeWriteStep ((f.off - 0x2000) / 4) v m s
    else if f.off = 0x100C then (if bitOf v.toNat 0 then forceSleepStep (getBits v 16 16) m s else s)
    else s.plainWrite m f a v

/-- The posted write that the next AON edge applies first: of the writes in the link's posted buffer, which all reach the Cosy die by that
edge (log entry 122), the first one of the lowest master ID (R388). -/
def nextPosted (l : List Posted) : Option (Nat × Posted) :=
  let b := l.take 16
  findIdx1 (fun (p : Posted) => b.all (fun q => p.master ≤ q.master)) b 0

/-- A posted write is applied or refused (R381, R384), and the reads that waited for it are served. A refusal that comes while the
transfer that launched it is still the last one of MSPI shows in LAST_ERR (R378). -/
def postedWriteResolutionStep (s : State) : State :=
  match nextPosted s.host.posted with
  | none => s.serveReads
  | some (i, p) =>
    let s' : State := s.setHost { s.host with posted := s.host.posted.eraseIdx i }
    let r := if p.repair then s'.ledgerWrite p.value.toNat else s'.cosyWriteAt p.master p.addr p.value
    (r.lastErrOf s p.master p.transfer).serveReads

/-- Every posted write up to and with the last one of a master is resolved. -/
def State.drainPosted (s : State) (m : Nat) : Nat → State
  | 0 => s
  | n + 1 => if s.host.posted.any (fun p => p.master == m) then (postedWriteResolutionStep s).drainPosted m n else s

/-- The posted writes of a master resolved. -/
def State.drain (s : State) (m : Nat) : State := s.drainPosted m s.host.posted.length

/-! ### Reads and writes by a master -/

/-- A register write by a master. Kettle waits for its writes to the Cosy die; the others are posted (R380). -/
def State.regWrite (s : State) (m a : Nat) (v : Word) : State :=
  if s.debugBarred m then s
  else if a % 4 ≠ 0 ∨ 2 ^ 32 ≤ a ∨ s.vfBarred m then s.refuse m a
  else if cosyAddr a then
    if !s.flag uUlis F.ulis_ULIS_STATUS_UP then s.refuse m a
    else if m = 0x18 then s.cosyWriteAt m a v
    else
      let p : Posted := ⟨m, a, v, s.rd uMspi F.mspi_TRANSFERS, false⟩
      s.setHost { s.host with posted := s.host.posted ++ [p] }
  else s.writeAt m a v

/-- A read whose value is kept in `readData`. -/
def State.regReadTo (s : State) (m a : Nat) : State := s.askRead m a true .data

/-- The word that a register will hold at the next commit. -/
def State.stagedWord (s : State) (a : Nat) : Word :=
  match s.staged.find? (fun e => canonAddr e.addr == canonAddr a) with
  | some e => e.value
  | none => s.word a

/-- `INFUSER_MGMT_ITEM`: a mailbox request of the triad: a change of a LIN schedule request, which the engine stages as the RWS write
it is, the rest of the register as it is staged (DESIGN CHOICE, log entry 110), or a diagnostic read, a register read by the engine. -/
def mgmtItemStep (n : Nat) (req : MgmtReq) (s : State) : State :=
  if s.engRuns n ∧ s.nextItem n true = .mgmt then
    let s := s.item n false
    match req with
    | .linSched ch table =>
      let a := fldAddr uLin F.lin_LIN_SCHED_REQ ch 0
      if ch < 8 then s.command uLin (0x20 + n) a (fun s =>
        s.stage uLin (0x20 + n) a (setBits (s.stagedWord a) F.lin_LIN_SCHED_REQ.lsb F.lin_LIN_SCHED_REQ.width table))
      else s
    | .read a => s.regReadTo (0x20 + n) a
  else s

/-- A write of a register of the unit frame as a command: the Cosy die's go the way of every register write to it (R13, R380). -/
def State.unitWrite (s : State) (u : UnitNo) (m off : Nat) (v : Word) (run : State → State) : State :=
  if u = uCosy then s.regWrite m (baseOf u + off) v else s.command u m (baseOf u + off) run

/-! ### The commands -/

/-- `FORCE_SLEEP`: a write of PWR_CMD, which passes no earlier write of its master (R387, R388). -/
def execForceSleep (key master : Nat) (s : State) : Host.Outcome State Fault Refusal := .next (forceSleepStep key master (s.drain master))
/-- `XCVR_MODE_WRITE`: a write of XCVR, likewise. -/
def execXcvrModeWrite (xcvr : Nat) (value : Word) (master : Nat) (s : State) : Host.Outcome State Fault Refusal :=
  .next (xcvrModeWriteStep xcvr value master (s.drain master))
/-- `REGISTER_WRITE`. -/
def execRegisterWrite (addr : Nat) (value : Word) (master : Nat) (s : State) : Host.Outcome State Fault Refusal :=
  .next (s.regWrite master addr value)
/-- `READ_CLEAR`: a read, with its RC fields cleared. -/
def execReadClear (addr master : Nat) (s : State) : Host.Outcome State Fault Refusal := .next (s.regReadTo master addr)
/-- `LATCHING_READ`: a read, with the high word latched. -/
def execLatchingRead (addr master : Nat) (s : State) : Host.Outcome State Fault Refusal := .next (s.regReadTo master addr)
/-- `FENCE_READ`: the fence register of a master. -/
def execFenceRead (master : Nat) (s : State) : Host.Outcome State Fault Refusal :=
  if master = 1 then .next (s.regReadTo 1 (fldAddr uPcie F.pcie_FENCE_COUNT 0 0))
  else if 2 ≤ master ∧ master ≤ 5 then .next (s.regReadTo master (fldAddr (uFn (master - 1)) F.fn_FN_FENCE_COUNT 0 0))
  else if master = 8 then .next (s.regReadTo 8 (fldAddr uMspi F.mspi_FENCE_COUNT 0 0))
  else .next s
/-- `POSTED_WRITE_RESOLUTION`. -/
def execPostedWriteResolution (s : State) : Host.Outcome State Fault Refusal := .next (postedWriteResolutionStep s)
/-- `UNIT_ENABLE`: a write of UNIT_CTRL with RESET 0. -/
def execUnitEnable (unit : Nat) (en : Bool) (master : Nat) (s : State) : Host.Outcome State Fault Refusal :=
  .next (s.unitWrite unit master 4 (BitVec.ofNat 32 (b2n en)) (fun s => s.setEnable unit en))
/-- `UNIT_RESET`: a write of UNIT_CTRL with RESET 1. -/
def execUnitReset (unit master : Nat) (s : State) : Host.Outcome State Fault Refusal :=
  .next (s.unitWrite unit master 4 2#32 (fun s => s.unitReset unit))
/-- `FAULT_CLEAR`: a write of UNIT_FAULT. -/
def execFaultClear (unit : Nat) (bits : Word) (master : Nat) (s : State) : Host.Outcome State Fault Refusal :=
  .next (s.unitWrite unit master 0xC bits (fun s =>
    if master = 0x11 ∧ s.clearsFault unit bits then s.refuse master (baseOf unit + 0xC) else s.faultClear unit bits))
/-- `INJECT_ARM`: a write of UNIT_INJECT. -/
def execInjectArm (unit : Nat) (bits : Word) (master : Nat) (s : State) : Host.Outcome State Fault Refusal :=
  .next (s.unitWrite unit master 0x10 bits (fun s => s.injectArm unit bits))
/-- `COMMIT_DISCARD`: a write of UNIT_COMMIT with DISCARD 1. -/
def execCommitDiscard (unit master : Nat) (s : State) : Host.Outcome State Fault Refusal :=
  .next (s.unitWrite unit master 0x14 0x40000000#32 (fun s => s.commitDiscard unit))
/-- `INT_EOI`: a write of 1 to INT_EOI.PF0. -/
def execIntEoi (master : Nat) (s : State) : Host.Outcome State Fault Refusal :=
  .next (s.command uSys master (baseOf uSys + 0x190) (fun s => s.intEoi))

/-- `INFUSER_MGMT_ITEM`. -/
def execInfuserMgmtItem (engine : Nat) (req : MgmtReq) (s : State) : Host.Outcome State Fault Refusal :=
  .next (mgmtItemStep engine req s)

end Sys2Proof.Machine
end

