-- ==== Sys2Proof/Machine/Tick.lean ====
section
/-! DEFINITION. The tick boundary at a unit: overrun record, commit, boundary actions, tick job (R25 to R29, R432), the side-band
samples (R226, R227) and the Saucer's own boundaries (R325). -/

namespace Sys2Proof.Machine

/-! ### Time passing (R111, R126, R161, R162, R399; log entry 66) -/

/-- One step of the fabric LFSR, with feedback polynomial x^31 + x^28 + 1: a product with x. -/
def lfsrStep (n : Nat) : Nat := if 2 ^ 30 ≤ n then (n * 2) ^^^ (2 ^ 31 + 2 ^ 28 + 1) else n * 2

/-- The product of two LFSR contents as polynomials, by the bits of the second, highest first. -/
def lfsrMul (a b : Nat) : Nat :=
  (List.range 31).foldl (fun x i => if bitOf b (30 - i) then lfsrStep x ^^^ a else lfsrStep x) 0

/-- The LFSR after `n` steps, by the binary digits of `n`, at most `fuel` of them. -/
def lfsrJump : Nat → Nat → Nat → Nat → Nat
  | 0, _, _, x => x
  | fuel + 1, n, sq, x => lfsrJump fuel (n / 2) (lfsrMul sq sq) (if n % 2 = 1 then lfsrMul x sq else x)

/-- The TIME cycles that begin within the next `q` quarters of a FAB cycle. -/
def State.timeCycles (s : State) (q : Nat) : Nat := (s.clk.timeQuarter + q) / 5

/-- The FAB cycles that begin within the next `q` quarters, those in which a reset holds the fabric not counted (R399). -/
def State.fabCycles (s : State) (q : Nat) : Nat :=
  let held := ((pmGet s.resetPs uFab).getD 0 + 399) / 400
  (s.clk.fabQuarter + q) / 4 - (s.clk.fabQuarter + min q held) / 4

/-- The clocks and the resets under way, `q` quarters of a FAB cycle later. -/
def State.clocksPass (s : State) (q : Nat) : State :=
  { s with
    clk := { wc := (s.clk.wc + s.timeCycles q * 131072) % 2 ^ 80
             timeQuarter := (s.clk.timeQuarter + q) % 5
             fabQuarter := (s.clk.fabQuarter + q) % 4 }
    resetPs := (s.resetPs.filter (fun e => decide (400 * q < e.2))).map (fun e => (e.1, e.2 - 400 * q)) }

/-- The Brew die has its clock, and its power-on reset is behind it; without XIN every clock of the die stands still (log entry 84). -/
def State.clocked (s : State) : Bool := !s.cosy.brewPor && !s.cosy.clockLost

/-- The times of the domains that are not disabled, `n` TIME cycles later. -/
def State.domsPass (s : State) (n : Nat) : State :=
  [0, 1, 2, 3].foldl (fun t d =>
    if t.domState d = domDisabled then t
    else t.setDom d { t.dom d with time := wrapTime ((t.dom d).time + Int.ofNat n * (2 ^ 48 + (t.dom d).rate)) }) s

/-- A copy being read, `c` FAB cycles later: the output follows its chain one link word per cycle, up to 16 unread cells (R123). -/
def Reading.follow (c : Nat) (r : Reading) : Reading := { r with seen := max r.seen (min (r.seen + c) (r.cells.length + 16)) }

/-- FAB.CYCLE and the LFSR, `c` FAB cycles later, with the chains that outputs follow. -/
def State.fabPass (s : State) (c : Nat) : State :=
  { s with fab := { s.fab with
      lfsr := lfsrJump 64 c 2 s.fab.lfsr
      used := []
      reading := s.fab.reading.map (fun (e : Nat × List Reading) => (e.1, e.2.map (Reading.follow c))) } }.wr uFab F.fab_CYCLE ((s.rd uFab F.fab_CYCLE + c) % 2 ^ 32)

/-- KEY_WAIT: the MED cycles, which last as long as TIME cycles, for which an infuser with a key waits for the full FIFO (R104). -/
def State.keyWaits (s : State) (n : Nat) : State :=
  if (s.strain true).canFifo.length < 64 then s
  else (List.range 13).foldl (fun s e =>
    if !(s.engine e).asked && ((s.engine e).work.head?.bind (s.keyOf e)).isSome then
      s.wr (uGw e) F.gw_KEY_WAIT ((s.rd (uGw e) F.gw_KEY_WAIT + n) % 2 ^ 32)
    else s) s

/-- `q` quarters of a FAB cycle pass on a Brew die that has power, its clock, and its power-on reset behind it (R14, R161, R250): WC,
the running domains, FAB.CYCLE with the LFSR, and the resets under way, a command that DOM_CMD is BUSY with (log entry 12), KEY_WAIT,
and what the E-ports send. Nothing else happens in them. -/
def State.pass (s : State) (q : Nat) : State :=
  if !s.clocked then s
  else
    let t := ((s.busyDone.keyWaits (s.timeCycles q)).runDomCmds.clocksPass q).domsPass (s.timeCycles q)
    (List.range 12).foldl (fun t p => t.lineTo p) (if s.fabCycles q = 0 then t else t.fabPass (s.fabCycles q))

/-- Time passes up to the `n`-th TIME edge from now. -/
def State.advance (s : State) (n : Nat) : State := s.pass (5 * n - s.clk.timeQuarter)

/-- With no command waiting, the rest of one FAB cycle passes and nothing else happens, so that every FAB cycle and every TIME cycle has a
moment at which a command can act (log entry 66). -/
def State.idle (s : State) : State := s.pass (4 - s.clk.fabQuarter)

/-! ### Tick jobs -/

/-- A unit's tick job has unfinished work. -/
def State.unfinished (s : State) (u : UnitNo) : Bool :=
  match kindOf u with
  | .gw => !(s.engine (instOf u)).job.isEmpty || (s.engine (instOf u)).inSig
  | .saucer => !s.saucer.moves.isEmpty
  | _ => decide (0 < (s.tickJob u).backlog + (s.tickJob u).first + (s.tickJob u).second)

/-- The overrun record at a boundary (R29). -/
def State.jobOverrun (s : State) (u : UnitNo) : State :=
  let cut := s.unfinished u
  let full := cut && s.rd u F.unit_TICKJOB_OVR_CONSEC == 15
  let s := if cut then
      (s.sat u F.unit_TICKJOB_OVR_TOTAL).wr u F.unit_TICKJOB_OVR_CONSEC ((s.rd u F.unit_TICKJOB_OVR_CONSEC + 1) % 16)
    else s
  (s.setTickJob u { s.tickJob u with stopped := false }).check u 30 full

/-- The items of the two parts of a unit's next slice (Table 1.7): buckets or stash entries of the ageing sweep and shadow entries
of the compare (PIPE), cells (FAB), queues (SPOUT), self-test patterns (TRIAD). A job can be cut between any two items. -/
def State.sliceItems (s : State) (u : UnitNo) : Nat × Nat :=
  match kindOf u with
  | .pipe => (s.ageItems (instOf u == 1), s.shadowItems (instOf u == 1))
  | .fab => (1024, 0)
  | .spout => (8, 0)
  | .triad => (1, 0)
  | _ => (0, 0)

/-- The next `k` items of the first part of a slice, of which `left` are outstanding. -/
def State.runFirst (s : State) (u : UnitNo) (left k : Nat) : State :=
  match kindOf u with
  | .pipe => s.ageSome (instOf u == 1) left k
  | .fab => s.auditSome k
  | .spout => s.spoutSome (instOf u) (8 - left) k
  | .triad => if k = 0 then s else s.voterSelfTest
  | _ => s

/-- The next `k` items of the second part of a slice. -/
def State.runSecond (s : State) (u : UnitNo) (k : Nat) : State :=
  match kindOf u with
  | .pipe => s.shadowSome (instOf u == 1) k
  | _ => s

/-- With no slice in progress, the oldest outstanding one is begun. -/
def State.nextSlice (s : State) (u : UnitNo) : State :=
  let j := s.tickJob u
  if j.first + j.second = 0 ∧ j.backlog ≠ 0 then
    s.setTickJob u { j with backlog := j.backlog - 1, first := (s.sliceItems u).1, second := (s.sliceItems u).2 }
  else s

/-- The slice in progress, as far as `work` items take it (none: to its end). -/
def State.runSlice (s : State) (u : UnitNo) (work : Option Nat) : State :=
  let j := s.tickJob u
  let a := min j.first (work.getD j.first)
  let b := if a < j.first then 0 else min j.second ((work.map (· - a)).getD j.second)
  let s := (s.runFirst u j.first a).runSecond u b
  s.setTickJob u { s.tickJob u with first := j.first - a, second := j.second - b }

/-- The outstanding slices, oldest first, as far as `work` items take them; at most `n` slices. -/
def State.runSlices (u : UnitNo) : Nat → Option Nat → State → State
  | 0, _, s => s
  | n + 1, work, s =>
    let s := s.nextSlice u
    let left := (s.tickJob u).first + (s.tickJob u).second
    let s := s.runSlice u work
    if (s.tickJob u).first + (s.tickJob u).second = 0 then State.runSlices u n (work.map (· - left)) s else s

/-- RUNNING after part of a job has run. -/
def State.jobRunning (s : State) (u : UnitNo) : State :=
  if s.unfinished u then s.wr u F.unit_TICKJOB_RUNNING 1 else s.jobDone u

/-- The oldest outstanding bucket moves of the Saucer. -/
def State.runMoves (s : State) : Nat → State
  | 0 => s
  | k + 1 =>
    match s.saucer.moves with
    | [] => s
    | n :: t => ((s.moveBuckets n).setSaucer { (s.moveBuckets n).saucer with moves := t }).runMoves k

/-- The tick job started at a boundary, resumed work first (R28). -/
def State.jobStart (s : State) (u : UnitNo) (work : Option Nat) : State :=
  let s := match kindOf u with
    | .gw => s.sigBoundary (instOf u)
    | .saucer =>
      let s := s.setSaucer { s.saucer with moves := s.saucer.moves ++ [s.saucer.boundary - 1] }
      s.runMoves (work.getD s.saucer.moves.length)
    | _ =>
      let n := (s.tickJob u).backlog + 1
      State.runSlices u (n + 1) work (s.setTickJob u { s.tickJob u with backlog := n })
  let s := s.jobRunning u
  if kindOf u = .gw then s.resumeVerdict (instOf u) else s

/-! ### Side-band sampling (R226, R227) -/

/-- The device drives a GPIO at this boundary. -/
def State.gpioDriven (s : State) (g : Nat) : Bool :=
  if bitOf (s.rd uTsio F.tsio_PIN_FUNC_TIME_FN) g then decide (16 ≤ g) else bitOf (s.rd uTsio F.tsio_GPIO_OE_OE) g

/-- The GPIO of each enabled SB_ERR_m that is sampled at this boundary: m and the pin. -/
def State.sbPins (s : State) : List (Nat × Nat) :=
  ((List.range 12).filter (fun m => s.flag uTsio F.tsio_SB_ERR_EN m)).filterMap (fun m =>
    let g := s.rd uTsio F.tsio_SB_ERR_GPIO m
    if s.gpioDriven g then none else some (m, g))

/-- The triad event of a change of PHY line 0; those of the other lines follow (DESIGN CHOICE, log entry 83: R226 makes each change
"an event to the triad" and gives it no number). -/
def phyEvent : Nat := 0x100

/-- The samples of a boundary: PHY lines with their change bits and wakes, then the SB_ERR pins. A pin that has no previous sample
has not changed (log entry 65). -/
def State.sbTick (s : State) (pins : PinsIn) : State :=
  let s : State := { s with time := { s.time with pins := pins } }
  let old := (s.word (fldAddr uTsio F.tsio_SB_SAMPLE_PHY_INT_N 0 0)).toNat
  let new := pins.phyWake % 4096 * 4096 + pins.phyInt % 4096
  let s := s.wr uTsio F.tsio_SB_SAMPLE_PHY_INT_N (pins.phyInt % 4096)
  let s := s.wr uTsio F.tsio_SB_SAMPLE_PHY_WAKE (pins.phyWake % 4096)
  let s := s.wr uTsio F.tsio_SB_CHANGED_CHANGED (s.rd uTsio F.tsio_SB_CHANGED_CHANGED ||| ((old ^^^ new) % 2 ^ 24))
  let s := (List.range 12).foldl (fun s n =>
    let s := if bitOf (old ^^^ new) n then triadEventLatchStep (phyEvent + n) 7 s else s
    if bitOf (old ^^^ new) (12 + n) then s.tc10Wake n else s) s
  let at0 := s.sbPins
  let s := at0.foldl (fun s x =>
    match pmGet s.time.sbPrev x.2 with
    | none => s
    | some b => if b = bitOf pins.gpio x.2 then s else s.sbDeliver x.1 (bitOf pins.gpio x.2)) s
  at0.foldl (fun s x => { s with time := { s.time with sbPrev := pmSet s.time.sbPrev x.2 (bitOf pins.gpio x.2) } }) s

/-! ### The boundary -/

/-- What the hardware of a unit does at a boundary, outside its tick job; the shared gateway block acts at the boundary of the GW
group (log entry 65). -/
def State.boundaryActions (s : State) (u : UnitNo) (pins : PinsIn) : State :=
  let i := instOf u
  match kindOf u with
  | .saucer => s.saucerTick
  | .pipe =>
    let w := i == 1
    ((s.learnTick w).slowTick w).sweepTick w
  | .strain => (s.meterRefillAll (i == 1)).admitTick (i == 1)
  | .fab => s.dropTick
  | .spout => if i = 13 then s.pcsTick else s
  | .can => s.canTick i
  | .group => if u = uGwGrp then s.busAdmitTick (fun s o => s.engineOf o) else s
  | .gw => s.check u 2 false
  | .netm => s.netmTick
  | .tsio => if s.enabled u then s.sbTick pins else s
  | _ => s

/-- What a boundary does before its commit acts: it counts in DRAINING (R55), and GRACE is the one before it (R325). -/
def State.beforeCommit (s : State) (u : UnitNo) : State :=
  if u = uPipe true then s.drainTick else if u = uSaucer then s.holdGrace else s

/-- The tick job at a boundary: it runs only while the unit counts as enabled (R432). -/
def State.jobAtBoundary (s : State) (u : UnitNo) (work : Option Nat) : State :=
  if !hasTickJob u then s
  else if s.enabled u then s.jobStart u work
  else s.wr u F.unit_TICKJOB_RUNNING 0

/-- A boundary at one unit: cut, commit, act, start (R25). At TICK itself the time of the boundary has come; TICK counts first and
sends its message to the Cosy die. -/
def tickBoundaryStep (u : UnitNo) (work : Option Nat) (pins : PinsIn) (s : State) : State :=
  if !s.enabled uTick || s.resetting uTick || s.resetting u then s
  else
    let s := if u = uTick ∧ s.clocked then s.runDomCmds else s
    let s := if u = uTick then (s.advance s.tickWait).tickTick.tickMessage else s
    let s := if hasTickJob u ∧ s.enabled u then s.jobOverrun u else s
    (((s.beforeCommit u).commitUnit u).boundaryActions u pins).jobAtBoundary u work

/-- A job whose budget is spent stops until the next boundary (R27). -/
def tickJobBudgetSpentStep (u : UnitNo) (s : State) : State :=
  if hasTickJob u ∧ s.enabled u ∧ s.unfinished u then s.setTickJob u { s.tickJob u with stopped := true } else s

/-- TIME cycles until the Saucer's next own boundary: WC at a whole multiple of 125,000 ns (R325). -/
def State.ownWait (s : State) : Nat :=
  let past := s.clk.wc % (125000 * 65536)
  if past = 0 ∧ s.saucer.ownAt ≠ some s.wcNs then 0 else (125000 * 65536 - past + 131071) / 131072

/-- The Saucer's own boundary while TICK is disabled (R325, R407). -/
def saucerBoundaryStep (work : Option Nat) (s : State) : State :=
  if s.enabled uTick || s.resetting uSaucer then s
  else
    let s := s.advance s.ownWait
    let s := s.setSaucer { s.saucer with ownAt := some s.wcNs }
    let s := if s.enabled uSaucer then s.jobOverrun uSaucer else s
    s.holdGrace.saucerTick.jobAtBoundary uSaucer work

/-! ### The commands -/

/-- `TICK_BOUNDARY`. -/
def execTickBoundary (unit : Nat) (work : Option Nat) (pins : PinsIn) (s : State) : Host.Outcome State Fault Refusal :=
  .next (tickBoundaryStep unit work pins s)
/-- `TICK_JOB_BUDGET_SPENT`. -/
def execTickJobBudgetSpent (unit : Nat) (s : State) : Host.Outcome State Fault Refusal :=
  .next (tickJobBudgetSpentStep unit s)
/-- `SAUCER_BOUNDARY`. -/
def execSaucerBoundary (work : Option Nat) (s : State) : Host.Outcome State Fault Refusal :=
  .next (saucerBoundaryStep work s)

end Sys2Proof.Machine
end

