-- ==== Sys2Proof/Machine/Loader.lean ====
section
/-! DEFINITION. Kettle's loader: sections of a segment body (R272 to R274, Tables 12.6, 12.7, 13.3) and the settings area (R277, R278,
R299). -/

namespace Sys2Proof.Machine

/-! ### Register writes of the image -/

/-- A write of an RWL field to an enabled unit, with another value than it holds: not written, reason LOAD (R273). -/
def State.lockedWrite (s : State) (a : Nat) (v : Word) : Bool :=
  match findReg a with
  | none => false
  | some f => s.enabled f.unit && ((s.word a ^^^ v) &&& kindMask f .rwl) != 0#32

/-- Registers whose enables Kettle writes at boot complete (R276): RX_CFG and TX_CFG of a MAC, NETM_LOCAL. -/
def isRxTx (a : Nat) : Bool :=
  match findReg a with
  | some f => kindOf f.unit == .mac && (f.off == 0x104 || f.off == 0x300)
  | none => false

def holdAddr : Nat := fldAddr uNetm F.netm_NETM_LOCAL_HOLD 0 0

/-- One image write of a register: UNIT_CTRL is held until the segment's units are enabled, and the fields of R276 until boot
complete, but in Fallback mode. -/
def State.imageReg (s : State) (u : UnitNo) (a : Nat) (v : Word) : State :=
  let k := s.kettle
  if a = baseOf u + 4 then s.setKettle { k with enables := k.enables ++ [(u, v)] }
  else if !s.fallback && a == holdAddr then s.setKettle { k with held := k.held ++ [(a, v)] }
  else if !s.fallback && isRxTx a then
    (s.setKettle { k with held := k.held ++ [(a, v)] }).regWrite 0x18 a (v &&& 0xFFFFFFFE#32)
  else s.regWrite 0x18 a v

/-- What an image register holds for a setting: the held value, the staged one, or the present one. -/
def State.imageWord (s : State) (u : UnitNo) (a : Nat) : Word :=
  match (s.kettle.held.filter (fun e => e.1 == a)).getLast? with
  | some e => e.2
  | none => s.nextWord (s.staged.filter (fun e => e.unit == u)) a

/-- The held fields are written (R276). -/
def State.imageHeld (s : State) : State :=
  let t := s.setKettle { s.kettle with held := [] }
  s.kettle.held.foldl (fun t e =>
    if isRxTx e.1 then t.regWrite 0x18 e.1 ((t.word e.1 &&& 0xFFFFFFFE#32) ||| (e.2 &&& 1#32)) else t.regWrite 0x18 e.1 e.2) t

/-- The held enables of the units that `p` names take effect. -/
def State.applyEnables (s : State) (p : UnitNo → Bool) : State :=
  let t := s.setKettle { s.kettle with enables := s.kettle.enables.filter (fun e => !p e.1) }
  (s.kettle.enables.filter (fun e => p e.1)).foldl (fun t e => t.setEnable e.1 (bitOf e.2.toNat 0)) t

/-- An offset lies inside a unit's window. -/
def inWindow (u : UnitNo) (off : Nat) : Bool := unitAt (baseOf u + off) == some u || (u == uSys && decide (off < 0x10000))

/-- Pairs of 32-bit numbers; bytes after the last whole pair are ignored (log entry 67). -/
def pairs (l : List Byte) : List (Nat × Nat) :=
  (List.range (l.length / 8)).map (fun i => (be32 l (8 * i), be32 l (8 * i + 4)))

/-- KEY_CMD, KEY_ATTR and KEY_DATA, which no image may write (R342). -/
def keyRegister (u : UnitNo) (off : Nat) : Bool :=
  u == uCaddy && (off == 0x100 || off == 0x104 || (decide (0x120 ≤ off) && decide (off < 0x140)))

/-- A REGS section: none where an offset lies outside the window or is a key register, or an RWL field is locked. -/
def State.loadRegs (s : State) (u : UnitNo) (p : List Byte) : Option State :=
  (pairs p).foldl (fun x e =>
    match x with
    | none => none
    | some s =>
      if !inWindow u e.1 ∨ keyRegister u e.1 ∨ (e.1 ≠ 4 ∧ s.lockedWrite (baseOf u + e.1) (BitVec.ofNat 32 e.2)) then none
      else some (s.imageReg u (baseOf u + e.1) (BitVec.ofNat 32 e.2))) (some s)

/-! ### Tables (Table 12.7; the byte layout of an entry is log entry 67) -/

/-- Bytes of an entry of a table. -/
def entryBytes (t : Nat) : Nat :=
  match t with
  | 1 | 2 | 8 | 10 | 11 => 16
  | 3 | 12 => 8
  | 4 => 88
  | 5 | 6 | 13 => 4
  | 7 => 12
  | 9 => 32
  | _ => 80

/-- The units that hold a table. -/
def tableUnit (t : Nat) (u : UnitNo) : Bool :=
  match kindOf u with
  | .pipe => 1 ≤ t && t ≤ 3
  | .strain => 4 ≤ t && t ≤ 7
  | .gw => 8 ≤ t && t ≤ 11
  | .group => u == uGwGrp && 8 ≤ t && t ≤ 11
  | .spout => t == 12 && decide (instOf u < 12)
  | .can => t == 13
  | .caddy => t == 14
  | .crypt => t == 14
  | _ => false

/-- Key and result into the operand registers of FDB_CMD. -/
def State.fdbOperands (s : State) (w : Bool) (e : List Byte) : State :=
  let u := uPipe w
  let s := (s.wr u F.pipe_FDB_KEY_HI (be32 e 0)).wr u F.pipe_FDB_KEY_LO (be32 e 4)
  (s.wr u F.pipe_FDB_RES_HI (be32 e 8)).wr u F.pipe_FDB_RES_LO (be32 e 12)

/-- The state a forwarding command leaves, or none for BAD_ARG. -/
def State.fdbTook (s : State) (w : Bool) : Option State :=
  if (s.pipe w).cmdStatus = fdbBadArg then none else some s

/-- A static entry inserted; FULL for an entry marked static is an error of the table detector, and the start continues (R72). -/
def State.loadStatic (s : State) (w : Bool) (e : List Byte) : Option State :=
  let t := fdbInsertRun w (s.fdbOperands w e)
  (if (t.pipe w).cmdStatus = fdbFull then t.fire (uPipe w) 0 else t).fdbTook w

/-- Key, mask and action of a rule command, as bits [31:0] of the key upward in the last word. -/
def State.ruleOperands (s : State) (w : Bool) (e : List Byte) : State :=
  let u := uStrain w
  let s := (List.range 10).foldl (fun s i =>
    (s.wr u F.strain_RULE_KEY (be32 e (36 - 4 * i)) i).wr u F.strain_RULE_MASK (be32 e (76 - 4 * i)) i) s
  (s.wr u F.strain_RULE_ACT_HI (be32 e 80)).wr u F.strain_RULE_ACT_LO (be32 e 84)

/-- One entry of a rule table, to the bank that TARGET bit 8 names while the Strainer is disabled. -/
def State.loadRule (s : State) (w inactive : Bool) (t i : Nat) (e : List Byte) : Option State :=
  let u := uStrain w
  let s := s.ruleStatus w ruleOk
  let r :=
    if t = 4 then (s.ruleOperands w e).ruleWrite w 0x18 inactive (writeRuleRun w i)
    else if t = 5 then (s.wr u F.strain_RULE_ACT_LO (be32 e 0)).ruleWrite w 0x18 inactive (writeZmapRun w i)
    else if t = 6 then (s.wr u F.strain_RULE_ACT_LO (be32 e 0)).ruleWrite w 0x18 inactive (writeZpairRun w i)
    else (((s.wr u F.strain_RULE_KEY (be32 e 0) 1).wr u F.strain_RULE_KEY (be32 e 4) 0).wr u F.strain_RULE_ACT_LO
      (be32 e 8)).ruleWrite w 0x18 inactive (writePfxRun w i)
  if (r.strain w).cmdStatus = ruleBadArg then none else some r

/-- One entry of a shared gateway table. -/
def State.loadTbl (s : State) (t i : Nat) (e : List Byte) : Option State :=
  let r := tblWriteRun (t - 8) i (s.setTblData (t - 8) (beNat e))
  if r.rd uGwAny F.gw_TBL_CMD_STATUS = tblBadArg then none else some r

/-- One entry of a table written. -/
def State.loadEntry (s : State) (u : UnitNo) (target t i : Nat) (e : List Byte) : Option State :=
  let n := instOf u
  let w := n == 1
  match t with
  | 1 => (s.loadStatic false e).bind (fun s => s.loadStatic true e)
  | 2 => (fdbShadowWriteRun w i (s.fdbOperands w e)).fdbTook w
  | 3 => (fdbVlanWriteRun w i (s.fdbOperands w (List.replicate 8 0#8 ++ e))).fdbTook w
  | 12 =>
    let v := uSpout n
    let s := ((s.wr v F.spout_GCL_ADDR_OPER 0).wr v F.spout_GCL_ADDR_INDEX i).wr v F.spout_GCL_DATA_HI (be32 e 0)
    some (gclDataWriteStep n (BitVec.ofNat 32 (be32 e 4)) 0x18 s)
  | 13 => some (s.regWrite 0x18 (fldAddr (uCan n) F.can_GUARD_LIST i 0) (BitVec.ofNat 32 (be32 e 0)))
  | 14 => some (s.setSec { s.sec with blobs := s.sec.blobs ++ [(i % 256, e)] }).feedBlob
  | t => if t ≤ 7 then s.loadRule w (bitOf target 8) t i e else s.loadTbl t i e

/-- A TABLE section: whole entries from FIRST upward. -/
def State.loadTable (s : State) (u : UnitNo) (target first : Nat) (p : List Byte) : Option State :=
  let t := target % 256
  let rest := target / 256
  if !tableUnit t u ∨ (if 4 ≤ t ∧ t ≤ 7 then 1 < rest else rest ≠ 0) then none
  else
    (List.range (p.length / entryBytes t)).foldl (fun x i =>
      x.bind (fun s => s.loadEntry u target t (first + i) (slice p (entryBytes t * i) (entryBytes t)))) (some s)

/-! ### Memories (12.4; TARGET's split and the byte order in a word are log entry 67) -/

/-- A byte of a memory of 32-bit words, the first byte of a word in bits 7 to 0. -/
def putMemByte (m : List (Nat × Nat)) (base a : Nat) (b : Byte) : List (Nat × Nat) :=
  let i := base + a / 4
  smSet zero0 m i (setNbits (smGet zero0 m i) (8 * (a % 4)) 8 b.toNat)

/-- The bytes of an image from address `a` on. -/
def putMem (m : List (Nat × Nat)) (base : Nat) : Nat → List Byte → List (Nat × Nat)
  | _, [] => m
  | a, b :: t => putMem (putMemByte m base a b) base (a + 1) t

/-- Bytes of memory `n` of a unit: triad SRAM, time-engine program, infuser instruction (0) and data (1) memory, wake-controller
program; 0 where there is none. The manual gives the size of the two programs nowhere. -/
def memBytes (u : UnitNo) (n : Nat) : Nat :=
  match kindOf u with
  | .triad => if n = 0 then 2 ^ 20 else 0
  | .time => if n = 0 then 2 ^ 24 else 0
  | .gw => if n ≤ 1 then 2 ^ 16 else 0
  | .cosy => if n = 0 then 2 ^ 24 else 0
  | _ => 0

/-- The program bank of the wake controller that a start writes: the one in use, in a trial start the other (R294). -/
def State.cosyBank (s : State) : Nat :=
  if s.flag uCosy F.cosy_SLOT_RET_TRIAL then 1 - s.cosy.progBank else s.cosy.progBank

/-- A MEMORY section. -/
def State.loadMemory (s : State) (u : UnitNo) (target : Nat) (p : List Byte) : Option State :=
  let n := target / 2 ^ 24
  let a := target % 2 ^ 24
  if memBytes u n = 0 ∨ memBytes u n < a + p.length then none
  else match kindOf u with
    | .triad => some (s.setTriad { s.triad with sram := putMem s.triad.sram 0 a p })
    | .time => some { s with time := { s.time with prog := putMem s.time.prog 0 a p } }
    | .gw => some { s with gw := { s.gw with mem := putMem s.gw.mem (instOf u * 2 ^ 15 + n * 2 ^ 14) a p } }
    | _ => some { s with cosy := { s.cosy with prog := putMem s.cosy.prog (s.cosyBank * 2 ^ 22) a p } }

/-! ### Sections -/

/-- A SCHEMA section: version, count, and pairs of offset and mask. -/
def State.loadSchema (s : State) (u : UnitNo) (p : List Byte) : State :=
  let x : Schema := ⟨u, be16 p 0, (pairs (p.drop 4)).take (be16 p 2)⟩
  s.setKettle { s.kettle with schemas := s.kettle.schemas ++ [x] }

/-- The part a section belongs to (Table 13.3). -/
def partOf (essential : Bool) (u : UnitNo) (kind : Nat) : Nat :=
  if essential then (if kind = 3 then 2 else 1)
  else if kind = 4 then 8
  else if kind ≠ 3 then 3
  else match kindOf u with
    | .triad => 4
    | .time => 5
    | .gw => 6
    | _ => 7

/-- A section counted in its part, in a trial start (R293). -/
def State.countPart (s : State) (part : Nat) (bytes : List Byte) : State :=
  if s.kettle.parts.isEmpty then s
  else
    let old := (s.kettle.streamed.find? (fun e => e.1 == part)).getD (part, 0, [])
    let rest := s.kettle.streamed.filter (fun e => e.1 != part)
    s.setKettle { s.kettle with streamed := rest ++ [(part, old.2.1 + 1, old.2.2 ++ bytes)] }

/-- One section loaded (R272): none with reason LOAD. Only the SCHEMA sections of the primary segment count for the settings (R278). -/
def State.loadSection (s : State) (essential : Bool) (head payload : List Byte) : Option State :=
  let u := be16 head 0
  let kind := byteAt head 2
  let target := be32 head 8
  if u < s.kettle.lastSource ∨ unitCount ≤ u ∨ ((kind = 1 ∨ kind = 4) ∧ target ≠ 0) then none
  else
    let s := s.setKettle { s.kettle with lastSource := u }
    if kind = 1 then s.loadRegs u payload
    else if kind = 2 then s.loadTable u target (be32 head 12) payload
    else if kind = 3 then s.loadMemory u target payload
    else if kind = 4 then some (if essential then s else s.loadSchema u payload)
    else none

/-- The whole sections at the front of the buffered bytes, and whether they loaded; after a failure `kettle.sections` is the index
of the failing one. -/
def State.loadSections (s : State) (essential : Bool) : Nat → Bool × State
  | 0 => (true, s)
  | fuel + 1 =>
    let b := s.kettle.buf
    let n := be32 b 4
    let all := 16 + (n + 15) / 16 * 16
    if b.length < 16 ∨ b.length < all then (true, s)
    else
      match s.loadSection essential (b.take 16) (slice b 16 n) with
      | none => (false, s)
      | some t =>
        let t := t.countPart (partOf essential (be16 b 0) (byteAt b 2)) (b.take all)
        (t.setKettle { t.kettle with buf := b.drop all, sections := t.kettle.sections + 1 }).loadSections essential fuel

/-! ### Settings (R277, R278, R299) -/

/-- A settings copy is valid: MAGIC, LENGTH, and the CMAC under the settings key, over bytes 0 to 63 + LENGTH − 1 as R277 states it
(log entry 68). -/
def State.copyValid (s : State) (c : List Byte) : Bool :=
  let n := be32 c 8
  match s.sec.setKey with
  | none => false
  | some k =>
    decide (64 + n + 16 ≤ c.length) && be32 c 0 == 0x4E545354 && decide (n ≤ 524208)
      && cmac (roundKeys true k) (c.take (63 + n)) == beNat (slice c (64 + n) 16)

/-- A number newer than another, modulo 2^32 over a half range. -/
def newer (a b : Nat) : Bool := let d := (a + 2 ^ 32 - b % 2 ^ 32) % 2 ^ 32; d != 0 && decide (d < 2 ^ 31)

/-- The copy that Kettle uses: its number and bytes. -/
def State.chosenCopy (s : State) (c0 c1 : List Byte) : Option (Nat × List Byte) :=
  match s.copyValid c0, s.copyValid c1 with
  | false, false => none
  | true, false => some (0, c0)
  | false, true => some (1, c1)
  | true, true => some (if newer (be32 c1 4) (be32 c0 4) then (1, c1) else (0, c0))

/-- A section left at the image defaults: counted, and reported among the first 32. -/
def State.settingReset (s : State) (source : Nat) : State :=
  let k := s.rd uKettle F.kettle_STATUS_SETTINGS_RESETS
  let s := s.sat uKettle F.kettle_STATUS_SETTINGS_RESETS
  if 32 ≤ k then s
  else if k % 2 = 0 then s.wr uKettle F.kettle_UPD_RESET_SRC_A source (k / 2)
  else s.wr uKettle F.kettle_UPD_RESET_SRC_B source (k / 2)

/-- A section of settings applied, each value under the field mask of its offset; none where R273 bars an RWL field. -/
def State.applySetting (s : State) (x : Schema) (l : List (Nat × Nat)) : Option State :=
  l.foldl (fun y e => y.bind (fun s =>
    let a := baseOf x.source + e.1
    let m := BitVec.ofNat 32 ((pmGet x.masks e.1).getD 0)
    let v := (s.imageWord x.source a &&& ~~~m) ||| (BitVec.ofNat 32 e.2 &&& m)
    if s.lockedWrite a v then none else some (s.imageReg x.source a v))) (some s)

/-- The whole sections of the records of a settings copy, in stream order (Table 12.9). -/
def sectionsOf : Nat → List Byte → List SetSection
  | 0, _ => []
  | fuel + 1, b =>
    let n := be16 b 4
    if b.length < 8 + 8 * n ∨ b.length < 8 then []
    else ⟨be16 b 0, be16 b 2, (pairs (b.drop 8)).take n⟩ :: sectionsOf fuel (b.drop (8 + 8 * n))

/-- The sections of a settings copy in stream order, from number `i` on; the answer says whether none met a locked field, with the
number of the section that did. -/
def State.applySettings (s : State) : Nat → List SetSection → Option Nat × State
  | _, [] => (none, s)
  | i, y :: rest =>
    match s.schemaOf y with
    | none => (s.settingReset y.source).applySettings (i + 1) rest
    | some x =>
      match s.applySetting x y.values with
      | none => (some i, s)
      | some t => t.applySettings (i + 1) rest

/-- The settings area read, and applied but with BOOT_MODE 0b10, which ignores it. -/
def State.loadSettings (s : State) (c0 c1 : List Byte) : Option Nat × State :=
  match s.chosenCopy c0 c1 with
  | none => (none, s)
  | some (n, c) =>
    let l := sectionsOf (c.length + 1) (slice c 64 (be32 c 8))
    let s := s.setKettle { s.kettle with settings := { copy := n, gen := be32 c 4, sections := l } }
    if s.rd uKettle F.kettle_STRAPS_BOOT_MODE = 2 then (none, s)
    else
      ((s.wr uKettle F.kettle_STATUS_SETTINGS_VALID 1).wr uKettle F.kettle_STATUS_SETTINGS_COPY n).applySettings 0 l

end Sys2Proof.Machine
end

