-- ==== Sys2Proof/Machine/Kettle.lean ====
section
/-! DEFINITION. Kettle: starts, self-test and ledger, segment checks, the essential phase, hand-over, boot complete, failed starts and
Fallback mode (chapters 12 and 13, R207, R263, R336, R337). -/

namespace Sys2Proof.Machine

/-! ### Phases (Table 12.12) -/

def State.setStage (s : State) (n : Nat) : State := s.setKettle { s.kettle with stage := n }
def State.setPhaseOf (s : State) (n : Nat) : State := s.wr uKettle F.kettle_STATUS_PHASE n

/-- Microseconds since the release of the Brew die. -/
def State.sinceStart (s : State) : Nat := (s.clk.wc + 2 ^ 80 - s.kettle.startWc) % 2 ^ 80 / 65536000

/-! ### Fallback mode (R280 to R284) -/

/-- Fallback mode is entered with a reason; a trial start that ends there is reverted (log entry 69). -/
def State.enterFallback (s : State) (reason segment detail : Nat) : State :=
  let s := if s.flag uCosy F.cosy_SLOT_RET_TRIAL then (s.wr uCosy F.cosy_SLOT_RET_TRIAL 0).slotResult 2 reason 0 15 else s
  let s := (s.wr uKettle F.kettle_STATUS_FALLBACK 1).setPhaseOf 8
  let s := (s.wr uKettle F.kettle_FAIL_REASON reason).wr uKettle F.kettle_FAIL_SEGMENT segment
  let s := (s.wr uKettle F.kettle_FAIL_DETAIL detail).wr uSys F.sys_FALLBACK_REASON_ACTIVE 1
  let s := (s.wr uSys F.sys_FALLBACK_REASON_REASON reason).wr uSys F.sys_FALLBACK_REASON_DETAIL detail
  let s := ((s.setUpdState 0).wr uCosy F.cosy_BOOT_RET_DEADLINE_RUN 0).toPower pwFallback
  (s.event uKettle).setStage stFbHead

/-- The fallback segment fails a check: Fallback mode goes on without it (R284). -/
def State.fallbackBad (s : State) (reason detail : Nat) : State :=
  let s := (s.wr uKettle F.kettle_FAIL_REASON reason).wr uKettle F.kettle_FAIL_SEGMENT 3
  let s := (s.wr uKettle F.kettle_FAIL_DETAIL detail).wr uSys F.sys_FALLBACK_REASON_FB_SEG_BAD 1
  (s.setKettle { s.kettle with enables := [], held := [], buf := [] }).setStage stFbDone

/-- A check or load fails: in Fallback mode the fallback segment, else the start (R280, R284). -/
def State.segmentFail (s : State) (reason segment detail part : Nat) : State :=
  if s.fallback then s.fallbackBad reason detail
  else s.failStart reason segment detail (if s.trial then part else 15)

/-! ### The repair ledger (R207, R336, R337) -/

/-- Logical infusers placed on the engines that are not marked failed, in ascending order; the engine left over is the idle spare. -/
def State.placeEngines (s : State) : State :=
  let failed := (s.inForce kindEngine).map entryValue
  let good := (List.range 13).filter (fun n => !failed.contains n)
  let s := (List.range 13).foldl (fun s n =>
    let l := match good.findIdx? (· == n) with
      | some i => if i < 12 then i else 15
      | none => 15
    let s := (s.wr (uGw n) F.gw_ENG_MAP_ACTIVE (b2n (l != 15))).wr (uGw n) F.gw_ENG_MAP_FAILED (b2n (failed.contains n))
    s.wr (uGw n) F.gw_ENG_MAP_LOGICAL l) s
  s.check uKettle 3 (decide (good.length < 12))

/-- The ledger in force takes effect: spare slice, engines, free cells, retired cells and rows. -/
def State.applyLedger (s : State) : State :=
  let s := match s.inForce kindSlice with
    | [] => s
    | e :: _ => (s.wr uFab F.fab_SLICE_MAP_SPARE_USED 1).wr uFab F.fab_SLICE_MAP_SPARE_FOR (entryValue e)
  let s := s.placeEngines
  let n := 131072 - s.withheldCells
  let s := (s.wr uFab F.fab_BUF_FREE_FREE n).wr uFab F.fab_BUF_FREE_MIN_MIN n
  ((s.wr uSaucer F.saucer_ST_STATUS_RETIRED (s.inForce kindRetire).length).retiredOcc false).retiredOcc true

/-- The ledger read from OTP: an entry that fails its check is ignored and reported. -/
def State.readLedger (s : State) (bad : List Nat) : State :=
  let l := ((List.range s.otp.ledger.length).filter (fun i => !bad.contains i)).filterMap (fun i => s.otp.ledger[i]?)
  let s := s.setKettle { s.kettle with ledger := l.filter (fun e => e / 2 ^ 31 == 1), badEntries := bad }
  (bad.foldl (fun s i => if i < s.otp.ledger.length then s.check uKettle 2 true else s) s).applyLedger

/-- A new entry, in force at once: written if one of the 64 is free; else DEGRADED and a self-test error. A retirement is an error
too. -/
def State.mapFailure (s : State) (e : Nat) : State :=
  if s.otp.ledger.length < 64 then
    let t : State := { s with
      otp := { s.otp with ledger := s.otp.ledger ++ [e] }, kettle := { s.kettle with ledger := s.kettle.ledger ++ [e] } }
    if entryKind e = kindRetire then t.check uKettle 1 true else t.sat uSaucer F.saucer_ST_STATUS_MAPPED
  else (s.wr uSaucer F.saucer_ST_STATUS_DEGRADED 1).check uKettle 1 true

/-- The failing rows, each with a spare row while one of its memory remains; and those that are left over. -/
def State.mapRows (s : State) : List (Nat × Nat) → List (Nat × Nat) × State
  | [] => ([], s)
  | x :: t =>
    let used := ((s.inForce kindRow).filter (fun e => entryMem e == x.1)).length
    if used < spareRows x.1 then (s.mapFailure (ledgerEntry kindRow x.1 x.2)).mapRows t
    else
      let (l, s) := s.mapRows t
      (x :: l, s)

/-- The failures of the self-test mapped in the order of R336. -/
def State.mapFailures (s : State) (x : SelfTestIn) : State :=
  let slice := if x.spareOk ∧ (s.inForce kindSlice).isEmpty then
      (List.range 16).find? (fun i => x.cells.any (fun c => c.1 == i)) else none
  let s := match slice with
    | some i => s.mapFailure (ledgerEntry kindSlice 0 i)
    | none => s
  let (rows, s) := s.mapRows x.rows
  let s := x.engines.foldl (fun s n =>
    if ((s.inForce kindEngine).map entryValue).contains n then s else s.mapFailure (ledgerEntry kindEngine 0 n)) s
  let s := rows.foldl (fun s r => s.mapFailure (ledgerEntry kindRetire r.1 r.2)) s
  (x.cells.filter (fun c => some c.1 != slice)).foldl (fun s c => s.mapFailure (ledgerEntry kindRetire (32 + c.1) c.2)) s

/-! ### The beginning of a start (R265, R266, R280) -/

/-- The offsets of the retention words in the COSY window (Table 11.7): the boot, slot, Saucer and tamper records and BOOT_DETAIL,
WAKE_REASON and WAKES, START_CAUSE, the counters of Table 11.9, and RET_SCRATCH. -/
def retentionWord (off : Nat) : Bool :=
  let inside := fun lo hi : Nat => decide (lo ≤ off) && decide (off < hi)
  inside 0x4000 0x4014 || inside 0x3008 0x3010 || inside 0x1008 0x100C || inside 0x1010 0x1024 || inside 0x1040 0x1060

/-- A retention word that fails parity takes its power-on value and is reported (R263). -/
def State.badRetention (s : State) (off : Nat) : State :=
  if retentionWord off then
    let a := cosyBase + off / 4 * 4
    (s.setWord a (regReset a)).check uCosy 1 true { addr := a }
  else s

/-- A commit record (Table 13.4): its EPOCH, where it is valid. -/
def State.commitEpoch (s : State) (r : List Byte) : Option Nat :=
  match s.sec.setKey with
  | none => none
  | some k =>
    if r.length = 64 ∧ be32 r 0 = 0x4E544352 ∧ cmac (roundKeys true k) (r.take 0x30) = beNat (slice r 0x30 16) then some (be32 r 4)
    else none

/-- The slot after a Cosy power-on reset (R297), and UPD_EPOCH of the active slot. -/
def State.chooseSlot (s : State) (a b : Option Nat) : State :=
  let s := if s.cosy.cold then
      let pick := match a, b with
        | none, some _ => 1
        | some x, some y => if newer y x then 1 else 0
        | _, none => 0
      { s.wr uCosy F.cosy_SLOT_RET_ACTIVE pick with cosy := { s.cosy with cold := false } }
    else s
  s.wr uKettle F.kettle_UPD_EPOCH_EPOCH ((if s.flag uCosy F.cosy_SLOT_RET_ACTIVE then b else a).getD 0)

/-- A secret drawn into OTP in BLANK, where none is programmed. -/
def State.drawSecrets (s : State) : State :=
  if s.otp.lc ≠ 0 ∨ s.sec.drbg.isNone then s
  else
    let s := if s.otp.secret.isNone then { s.draw with otp := { s.otp with secret := some (s.drawn (2 ^ 256)) } } else s
    if s.otp.linkSecret.isNone then { s.draw with otp := { s.otp with linkSecret := some (s.drawn (2 ^ 128)) } } else s

/-- Life cycle, unit keys, random source and challenge of a start (R344, R357, R362, R364). -/
def State.startSecurity (s : State) (entropyOk : Bool) : State :=
  let s := (s.wr uCaddy F.caddy_LC_STATUS_LC s.otp.lc).wr uCaddy F.caddy_LC_STATUS_DBG (if s.otp.lc ≤ 1 then 2 else 0)
  let s := if entropyOk then s.instantiate else drbgReseedStep false s
  let s := s.drawSecrets.deriveKeys.drawChallenge
  if s.flag uCosy F.cosy_TAMPER_RET_SEEN then
    ((s.orBit uCaddy F.caddy_ALARM_STATUS_STICKY 5).check uCaddy 0 true).wr uCosy F.cosy_TAMPER_RET_SEEN 0
  else s

/-- Where the start goes (R280): Fallback mode, a trial start, or a normal one. -/
def State.decideStart (s : State) : State :=
  if s.rd uKettle F.kettle_STRAPS_BOOT_MODE = 1 then s.enterFallback 11 0 0
  else if s.kettle.keys.isEmpty then s.enterFallback 12 0 0
  else if 3 ≤ s.rd uCosy F.cosy_BOOT_RET_ATTEMPTS then
    s.enterFallback (s.rd uCosy F.cosy_BOOT_RET_LAST_REASON) (s.rd uCosy F.cosy_BOOT_DETAIL_SEGMENT)
      (s.rd uCosy F.cosy_BOOT_DETAIL_DETAIL)
  else
    let t := s.flag uCosy F.cosy_SLOT_RET_TRIAL
    let s := s.wr uKettle F.kettle_STATUS_SLOT ((s.rd uCosy F.cosy_SLOT_RET_ACTIVE + b2n t) % 2)
    if t then ((s.setUpdState 3).setPhaseOf 1).setStage stManifest else (s.setPhaseOf 2).setStage stEssHead

/-- A start from its step 4 on (Table 12.10). -/
def State.begin (s : State) : State :=
  (s.wr uUlis F.ulis_ULIS_STATUS_UP 1).tellCosy.decideStart

/-- What the start reads before step 4's decision: ledger, keys, slot. -/
def State.readOtp (s : State) (x : BrewIn) : State :=
  let s := (s.readLedger x.badEntries).startSecurity x.entropyOk
  let keys := if s.otp.lc = 0 ∨ s.otp.lc = 4 then [] else s.otp.signHash.filter (fun e => s.liveKeys.contains e.1)
  let s := s.setKettle { s.kettle with keys := keys, fbHash := s.otp.fbHash }
  s.chooseSlot (s.commitEpoch x.recA) (s.commitEpoch x.recB)

/-- The self-test is due (R266). -/
def State.testDue (s : State) : Bool :=
  let c := s.rd uCosy F.cosy_START_CAUSE_CAUSE
  c == 0 || c == 1 || s.rd uKettle F.kettle_STRAPS_BOOT_MODE == 3 || s.flag uCosy F.cosy_SAUCER_RET_REPAIR_PENDING

/-- The straps and the retention words that failed, as a start reads them. -/
def State.readStraps (s : State) (x : BrewIn) : State :=
  let s := s.wr uKettle F.kettle_STRAPS_BOOT_MODE (x.bootMode % 4)
  let s := (s.wr uKettle F.kettle_STRAPS_TRIAD_SPLIT (b2n x.split)).wr uKettle F.kettle_STRAPS_TEST_EN (b2n x.testEn)
  x.badWords.foldl (fun s o => s.badRetention o) s

/-- The first stage of a start: the self-test where one is due. -/
def State.firstStage (s : State) : State := if s.testDue then (s.setPhaseOf 0).setStage stTest else s.begin

/-- A start without TEST_EN: the fabric's seed is drawn, the boot deadline runs and OTP is read. -/
def State.startBoot (s : State) (x : BrewIn) : State :=
  let s : State := { s.draw with fab := { s.fab with lfsr := s.drawn (2 ^ 31 - 1) + 1 } }
  ((s.wr uCosy F.cosy_BOOT_RET_DEADLINE_RUN 1).readOtp x).firstStage

/-- `BREW_START`: the straps, what OTP, the retention store and the commit records give, and the self-test or the decision of
R280. -/
def brewStartStep (x : BrewIn) (s : State) : State :=
  if !s.cosy.brewRun ∨ s.cosy.brewStarted then s
  else
    let s : State := { s with cosy := { s.cosy with brewStarted := true, locked := false } }
    let s := ((s.setKettle { startWc := s.clk.wc }).disarm.netmRestart).readStraps x
    if x.testEn then s else s.startBoot x

/-- Every memory that the self-test covers (R336, Table 15.8) cleared, with valid check bits: tables, rule rows, cells with their records and
queues, engine memories, the triad's SRAM. -/
def State.clearMemories (s : State) : State :=
  let clearPipe : PipeState → PipeState := fun x => { x with fdb := [], shadow := [], vlan := [] }
  let clearBank : Bank → Bank := fun b => { b with rows := [] }
  let clearStrain : StrainState → StrainState := fun x => { x with bank0 := clearBank x.bank0, bank1 := clearBank x.bank1 }
  { s with
    upsets := []
    pipeE := clearPipe s.pipeE, pipeW := clearPipe s.pipeW
    strainE := clearStrain s.strainE, strainW := clearStrain s.strainW
    fab := { links := s.fab.links, rxOctets := s.fab.rxOctets, txOctets := s.fab.txOctets, wire := s.fab.wire, lfsr := s.fab.lfsr }
    gw := { s.gw with route := [], tunnel := [], pdu := [], sig := [], mem := [] }
    triad := { s.triad with sram := [] } }

/-- `SELFTEST_DONE`: its failures mapped, the ledger applied anew, every tested memory cleared, and the start goes on. -/
def selftestDoneStep (x : SelfTestIn) (s : State) : State :=
  if s.kettle.stage ≠ stTest then s
  else
    let s := (s.mapFailures x).clearMemories
    let s := s.applyLedger.wr uKettle F.kettle_STATUS_SELFTEST_RAN 1
    ((s.wr uSaucer F.saucer_ST_STATUS_RAN 1).wr uCosy F.cosy_SAUCER_RET_REPAIR_PENDING 0).begin

/-! ### Segment checks (R270, R287, R288, Tables 12.3 to 12.5, 13.1 to 13.3) -/

/-- Largest BODY_LEN of a segment type. -/
def bodyLimit (type : Nat) : Nat := if type = 1 then 65536 else if type = 2 then 6 * 2 ^ 20 else 960 * 1024

/-- The public key of a header is the programmed one, and the signature over bytes 0x00 to 0xBF and the table verifies. -/
def keyHash (h : List Byte) : Nat := beNat (sha256 (slice h 0x40 64))
def sigOk (h table : List Byte) : Bool :=
  ecdsaOk (beNat (sha256 (h.take 0xC0 ++ table))) (beNat (slice h 0x40 32)) (beNat (slice h 0x60 32)) (beNat (slice h 0xC0 32))
    (beNat (slice h 0xE0 32))

/-- Check 3: HW_TYPE, and the unit identifier where UNIT_BOUND is set. -/
def State.bound (s : State) (h : List Byte) (flags unitId : Nat) : Bool :=
  be16 h 8 == s.rd uSys F.sys_DEVICE_ID_PART && (!bitOf (byteAt h flags) 0 || beNat (slice h unitId 16) == s.otp.uid)

/-- Checks 4 and 5. -/
def signReason (h table : List Byte) (hash : Option Nat) : Nat :=
  if hash ≠ some (keyHash h) then 4 else if !sigOk h table then 5 else 0

/-- The first of checks 1 to 6 that a segment header fails, as its reason; 0 where it passes them. -/
def State.headReason (s : State) (type : Nat) (x : HeadIn) : Nat :=
  let h := x.header
  let len := be32 h 0x0C
  let n := (len + 65535) / 65536
  if !x.readOk ∨ h.length ≠ 256 then 1
  else if be32 h 0 ≠ 0x4E54494D ∨ byteAt h 5 ≠ 1 ∨ byteAt h 4 ≠ type ∨ len = 0 ∨ bodyLimit type < len ∨ len % 16 ≠ 0
      ∨ be16 h 0x14 ≠ n ∨ (type ≠ 2 ∧ 5 < byteAt h 0x0A) then 2
  else if !s.bound h 7 0x20 then 3
  else
    let r := signReason h (x.table.take (32 * n)) (if type = 3 then s.kettle.fbHash else pmGet s.kettle.keys (byteAt h 6))
    if r ≠ 0 then r
    else if type = 2 ∧ be32 h 0x10 ≠ s.kettle.version then 7
    else 0

/-- The part entries of a manifest (Table 13.2). -/
def partsOf (t : List Byte) : List Part :=
  (List.range 8).map (fun i => ⟨byteAt t (48 * i), be16 t (48 * i + 2), be32 t (48 * i + 8), beNat (slice t (48 * i + 16) 32)⟩)

/-- The first of checks 1 to 5 that a manifest fails; a part type missing or twice is a FORMAT failure. -/
def State.manifestReason (s : State) (x : HeadIn) : Nat :=
  let h := x.header
  if !x.readOk ∨ h.length ≠ 256 then 1
  else if be32 h 0 ≠ 0x4E544D46 ∨ byteAt h 4 ≠ 1 ∨ byteAt h 7 ≠ 8
      ∨ !(List.range 8).all (fun i => (partsOf x.table).any (fun p => p.kind == i + 1)) then 2
  else if !s.bound h 6 0x10 then 3
  else signReason h (x.table.take 384) (pmGet s.kettle.keys (byteAt h 5))

/-- An accepted header: the body is awaited. -/
def State.acceptHead (s : State) (x : HeadIn) (stage : Nat) : State :=
  let h := x.header
  let n := be16 h 0x14
  (s.setKettle { s.kettle with
    digests := (List.range n).map (fun i => beNat (slice x.table (32 * i) 32))
    next := 0, bodyLen := be32 h 0x0C, buf := [], lastSource := 0, sections := 0 }).setStage stage

/-- In a trial start, VERSION of a segment equals the manifest's (R287). -/
def State.versionOk (s : State) (v : Nat) : Bool := !s.trial || v == s.kettle.manifest

/-- `SEGMENT_HEADER_CHECK`: the manifest, or the header and table of the segment that is due. -/
def segmentHeaderCheckStep (x : HeadIn) (s : State) : State :=
  let v := be32 x.header 0x10
  let st := s.kettle.stage
  if st = stManifest then
    let r := s.manifestReason x
    if r ≠ 0 then s.segmentFail r 0 0 0
    else ((s.setKettle { s.kettle with manifest := be32 x.header 0x0C, parts := partsOf x.table }).setPhaseOf 2).setStage stEssHead
  else if st = stEssHead then
    let r := s.headReason 1 x
    if r ≠ 0 then s.segmentFail r 1 0 15
    else if !s.versionOk v then s.segmentFail 7 1 0 0
    else
      let t := s.acceptHead x stEssBody
      t.setKettle { t.kettle with version := v, tickK := byteAt x.header 0x0A }
  else if st = stPriHead then
    let r := s.headReason 2 x
    if r ≠ 0 then s.segmentFail r 2 0 15
    else if !s.versionOk v then s.segmentFail 7 2 0 0
    else
      let t := (s.acceptHead x stPriBody).wr uKettle F.kettle_STATUS_KEY_USED (byteAt x.header 6)
      (t.setKettle { t.kettle with keyUsed := byteAt x.header 6 }).wr uKettle F.kettle_VERSION_VERSION v
  else if st = stFbHead then
    let r := s.headReason 3 x
    if r ≠ 0 then s.segmentFail r 3 0 15
    else
      let t := (s.acceptHead x stFbBody).wr uKettle F.kettle_VERSION_VERSION v
      t.setKettle { t.kettle with tickK := byteAt x.header 0x0A }
  else s

/-! ### Enabling (R274, R283) -/

/-- The units that the essential phase enables whatever the image says. -/
def essentialUnits : List UnitNo := [uTick, uStrain true] ++ (List.range 13).map uGw ++ (List.range 16).map uCan

/-- The units of an essential or fallback segment start: TICK's period, the mandatory units, those the image enables, and C0 to C7
at NORMAL. -/
def State.enableEssential (s : State) : State :=
  let s := s.wr uTick F.tick_CFG_PERIOD_K s.kettle.tickK
  let s : State := { s with gw := { s.gw with essential := true } }
  let s := essentialUnits.foldl (fun s u => s.setEnable u true) s
  let s := (s.setKettle { s.kettle with enables := s.kettle.enables.filter (fun e => !essentialUnits.contains e.1) }).applyEnables
    (fun _ => true)
  (List.range 8).foldl (fun s n => (s.wr uCosy F.cosy_XCVR_MODE 0 n).setXcvr n 0) s

/-- The bus guards of C0 to C15 enabled (R274). -/
def State.enableGuards (s : State) : State := (List.range 16).foldl (fun s n => s.wr (uCan n) F.can_GUARD_CTRL_EN 1) s

/-- `ESSENTIAL_ENABLE`. -/
def essentialEnableStep (s : State) : State :=
  if s.kettle.stage = stEssDone then
    let s := s.enableEssential.enableGuards
    ((s.wr uKettle F.kettle_TIME_ESS_US (s.sinceStart % 2 ^ 32)).setPhaseOf 3).setStage stPriHead
  else s

/-! ### Blocks (R270, R272, R293) -/

/-- A part that has not streamed as the manifest states it. -/
def State.badPart (s : State) : Option Nat :=
  ((List.range 8).map (· + 1)).find? (fun k =>
    s.kettle.parts.any (fun p => p.kind == k &&
      (let y := (s.kettle.streamed.find? (fun e => e.1 == k)).getD (k, 0, [])
       y.2.1 != p.sections || y.2.2.length != p.length || beNat (sha256 y.2.2) != p.digest)))

/-- The settings of a primary image were loaded, or section `i` failed: the triad and the time engine start, and each reports ready as
soon as its image runs (DEDUCED, log entry 112). -/
def settingsLoaded (r : Option Nat × State) : State :=
  match r with
  | (some i, s) => s.segmentFail 8 2 i 15
  | (none, s) =>
    let s := ((s.setPhaseOf 5).setStage stPriDone).applyEnables (fun u => u == uTriad || u == uTime)
    (s.setKettle { s.kettle with timeReady := true }).triadReady

/-- The end of the primary segment: the parts of a trial start, the settings, and the start of the triad and the time engine. -/
def State.primaryEnd (s : State) (x : BlockIn) : State :=
  match s.badPart with
  | some k => s.segmentFail 6 2 0 k
  | none => settingsLoaded ((s.setPhaseOf 4).loadSettings x.set0 x.set1)

/-- The end of a segment's body. -/
def State.bodyEnd (s : State) (x : BlockIn) : State :=
  let st := s.kettle.stage
  if !s.kettle.buf.isEmpty then s.segmentFail 8 (if st = stEssBody then 1 else 2) s.kettle.sections 15
  else if st = stEssBody then s.setStage stEssDone
  else if st = stPriBody then s.primaryEnd x
  else
    let s := s.enableEssential.triadReady
    (s.setKettle { s.kettle with lanes := true }).setStage stFbDone

/-- `FLASH_BLOCK_ARRIVE`: the digest of the block, its sections, and the segment's end. -/
def flashBlockArriveStep (x : BlockIn) (s : State) : State :=
  let k := s.kettle
  let seg := if k.stage = stEssBody then 1 else if k.stage = stPriBody then 2 else 3
  if k.stage ≠ stEssBody ∧ k.stage ≠ stPriBody ∧ k.stage ≠ stFbBody then s
  else if x.data.length ≠ min 65536 (k.bodyLen - 65536 * k.next) ∨ k.digests[k.next]? ≠ some (beNat (sha256 x.data)) then
    s.segmentFail 6 seg k.next 15
  else
    let s := s.setKettle { k with buf := k.buf ++ x.data, next := k.next + 1 }
    let (ok, s) := s.loadSections (seg == 1) (s.kettle.buf.length + 1)
    if !ok then s.segmentFail 8 seg s.kettle.sections 15
    else if s.kettle.next = s.kettle.digests.length then s.bodyEnd x
    else s

/-! ### Hand-over and boot complete (R275, R276, R294, R296) -/

/-- A trial start runs the wake controller's other program bank from here on (R294). -/
def State.switchProgram (s : State) : State :=
  if s.trial then
    { s with cosy := { s.cosy with progBank := 1 - s.cosy.progBank }, kettle := { s.kettle with switched := true } }
  else s

/-- Every staged write of every unit commits. -/
def State.commitAll (s : State) : State := (List.range unitCount).foldl (fun s u => s.commitUnit u) s

/-- The full microcode of the gateway runs from here on. -/
def State.fullMicrocode (s : State) : State := { s with gw := { s.gw with essential := false } }

/-- A tick boundary falls in this TIME cycle. -/
def State.atBoundary (s : State) : Bool := s.enabled uTick && s.time.tick.last == s.clk.wc

/-- The conditions of the hand-over (R275): at a tick boundary, the time engine ready, and the triad ready or its mode NONE. -/
def State.handOverDue (s : State) : Bool :=
  s.atBoundary && s.kettle.timeReady && (s.flag uTriad F.triad_TRIAD_STATUS_READY || s.triadMode == mdNone)

/-- `HAND_OVER`: the staged swap and every staged write commit, the full microcode runs, held enables take effect, the E-port lanes are
powered, the Cosy firmware of a trial start comes into use. -/
def handOverStep (s : State) : State :=
  if s.kettle.stage ≠ stPriDone ∨ !s.handOverDue then s
  else
    let s := (s.genSwap 0x18).commitAll.fullMicrocode
    let s := (s.applyEnables (fun _ => true)).switchProgram
    (s.setKettle { s.kettle with lanes := true }).setStage stHanded

/-- A commit record of an epoch for the slot that runs (Table 13.4), without its CMAC. -/
def State.recordBody (s : State) (epoch : Nat) : List Byte :=
  beBytes 4 0x4E544352 ++ beBytes 4 epoch ++ beBytes 4 s.kettle.version ++ List.replicate 36 0#8

/-- The new slot of a trial start becomes active, and its commit record is written (R296). -/
def State.activated (s : State) : State :=
  let s := (s.wr uCosy F.cosy_SLOT_RET_ACTIVE (1 - s.rd uCosy F.cosy_SLOT_RET_ACTIVE)).wr uCosy F.cosy_SLOT_RET_TRIAL 0
  let s := (s.slotResult 1 0 0 15).setUpdState 0
  let e := (s.rd uKettle F.kettle_UPD_EPOCH_EPOCH + 1) % 2 ^ 32
  let s := (s.wr uKettle F.kettle_UPD_EPOCH_EPOCH e).setKettle { s.kettle with switched := false }
  let b := s.recordBody e
  let (mac, s) := s.settingsMac b
  s.flashPut (slotBase (s.rd uCosy F.cosy_SLOT_RET_ACTIVE) + 0x6FF000) (b ++ beBytes 16 mac)

/-- The end of a trial start, where this was one. -/
def State.endTrial (s : State) : State := if s.trial then s.activated else s

/-- `BOOT_COMPLETE`: in the Safe state the device stays there and is Active after it. -/
def bootCompleteStep (s : State) : State :=
  if s.kettle.stage ≠ stHanded ∨ !s.kettle.lanes then s
  else
    let s := (s.imageHeld.wr uKettle F.kettle_STATUS_COMPLETE 1).setPhaseOf 6
    let s := (s.wr uKettle F.kettle_TIME_DONE_US (s.sinceStart % 2 ^ 32)).event uKettle
    let s := (s.wr uCosy F.cosy_BOOT_RET_ATTEMPTS 0).wr uCosy F.cosy_BOOT_RET_DEADLINE_RUN 0
    (s.endTrial.toPower pwActive).setStage stComplete

/-! ### Failed starts (R280) -/

/-- `START_FAIL`: a check of Table 12.5 or a load that fails, as the sender names it, while a start or the fallback segment is under
way. -/
def startFailStep (reason segment detail part : Nat) (s : State) : State :=
  let st := s.kettle.stage
  if reason = 0 ∨ 8 < reason then s
  else if (stManifest ≤ st ∧ st ≤ stHanded) ∨ st = stFbHead ∨ st = stFbBody then s.segmentFail reason segment detail part
  else s

/-- `BOOT_DEADLINE`: 500 ms after the release without boot complete. -/
def bootDeadlineStep (s : State) : State :=
  if s.flag uCosy F.cosy_BOOT_RET_DEADLINE_RUN then s.failStart 9 0 0 15 else s

/-! ### The commands -/

/-- `BREW_START`. -/
def execBrewStart (x : BrewIn) (s : State) : Host.Outcome State Fault Refusal := .next (brewStartStep x s)
/-- `SELFTEST_DONE`. -/
def execSelftestDone (x : SelfTestIn) (s : State) : Host.Outcome State Fault Refusal := .next (selftestDoneStep x s)
/-- `SEGMENT_HEADER_CHECK`. -/
def execSegmentHeaderCheck (x : HeadIn) (s : State) : Host.Outcome State Fault Refusal :=
  .next (segmentHeaderCheckStep x s)
/-- `FLASH_BLOCK_ARRIVE`. -/
def execFlashBlockArrive (x : BlockIn) (s : State) : Host.Outcome State Fault Refusal := .next (flashBlockArriveStep x s)
/-- `ESSENTIAL_ENABLE`. -/
def execEssentialEnable (s : State) : Host.Outcome State Fault Refusal := .next (essentialEnableStep s)
/-- `HAND_OVER`. -/
def execHandOver (s : State) : Host.Outcome State Fault Refusal := .next (handOverStep s)
/-- `BOOT_COMPLETE`. -/
def execBootComplete (s : State) : Host.Outcome State Fault Refusal := .next (bootCompleteStep s)
/-- `START_FAIL`. -/
def execStartFail (reason segment detail part : Nat) (s : State) : Host.Outcome State Fault Refusal :=
  .next (startFailStep reason segment detail part s)
/-- `BOOT_DEADLINE`. -/
def execBootDeadline (s : State) : Host.Outcome State Fault Refusal := .next (bootDeadlineStep s)

end Sys2Proof.Machine
end

