-- ==== Sys2Proof/Machine/Host.lean ====
section
/-! DEFINITION. The host paths: PCIe requests, descriptor rings, MSI-X control, the management SPI, and the Ulis link (R368 to R386). -/

namespace Sys2Proof.Machine

/-! ### PCIe requests (R369, R370) -/

/-- Masters of the functions: PF0 0x01, VFn 0x01 + n. -/
def fnMaster (f : Nat) : Nat := 1 + f

/-- The register address of an offset in a BAR of a function. -/
def barAddr (f bar off : Nat) : Option Nat :=
  if f = 0 ∧ bar = 0 ∧ off < 0x4000000 then some (0x40000000 + off)
  else if f = 0 ∧ bar = 2 ∧ off < 0x1000000 then some (0x4F000000 + off)
  else if 1 ≤ f ∧ f ≤ 4 ∧ bar = 0 ∧ off < 0x2000 then some (baseOf (uFn f) + off)
  else none

/-- One DW of a request: R7 where its byte enables are not all set. -/
def State.pcieDw (s : State) (f a : Nat) (write : Bool) (d : PcieDw) : State :=
  let m := fnMaster f
  if write then (if d.be = 15 then s.regWrite m a d.data else s.refuse m a)
  else s.askRead m a (d.be == 15) .pcie

/-- The DWs of a request in address order. -/
def State.pcieDws (s : State) (f bar off : Nat) (write : Bool) : List PcieDw → State
  | [] => s
  | d :: t =>
    (match barAddr f bar off with
     | some a => s.pcieDw f a write d
     | none => s).pcieDws f bar (off + 4) write t

/-- The configuration of a function beside Bus Master Enable and the MSI-X enable. -/
def State.fnCfg (s : State) (f : Nat) : PcieCfg := (pmGet s.host.cfg f).getD {}

/-- A function that answers memory requests: not in D3hot, and a VF only while SR-IOV enables it (PRESUMED, log entry 120). -/
def State.fnServed (s : State) (f : Nat) : Bool :=
  !(s.fnCfg f).d3hot && (f == 0 || ((s.fnCfg 0).vfEnable && decide (f ≤ (s.fnCfg 0).numVfs)))

/-- `PCIE_MEMORY_REQUEST`. Its completion starts anew, unless data of an earlier request are still to come. -/
def pcieMemoryRequestStep (f bar off : Nat) (write : Bool) (dws : List PcieDw) (s : State) : State :=
  let s := if s.host.reads.any (fun r => r.dest == .pcie) then s else s.setHost { s.host with completion := [] }
  if s.fnServed f then s.pcieDws f bar off write dws else s

/-! ### Descriptor rings (R371 to R375) -/

/-- A function's DMA, but for the Safe state, which stops what is not yet in flight (R374). -/
def State.dmaOn (s : State) (f : Nat) : Bool :=
  s.flag uPcie F.pcie_LINK_STATUS_UP && bitOf s.host.bme f && s.enabled (uFn f) && s.flag (uFn f) F.fn_FN_CTRL_DMA_EN

/-- HEAD of a ring, its TAIL, its entries; rings 16 to 31 are the receive rings. -/
def State.fnHead (s : State) (f r : Nat) : Nat := s.rd (uFn f) F.fn_RING_HEAD_HEAD r
def State.fnTail (s : State) (f r : Nat) : Nat := s.rd (uFn f) F.fn_RING_TAIL_TAIL r
def State.fnSize (s : State) (f r : Nat) : Nat := ringSize (s.rd (uFn f) F.fn_RING_CFG_SIZE r)

/-- The host address of the descriptor at HEAD. -/
def State.descAddr (s : State) (f r : Nat) : Nat :=
  s.rd (uFn f) F.fn_RING_BASE_HI_ADDR r * 2 ^ 32 + s.rd (uFn f) F.fn_RING_BASE_LO_ADDR r * 16 + 16 * s.fnHead f r

/-- A little-endian 32-bit word. -/
def le32 (v : Nat) : List Byte := (beBytes 4 v).reverse

/-- Bytes written to host memory. -/
def State.dmaWrite (s : State) (a : Nat) (b : List Byte) : State := s.setHost { s.host with dma := s.host.dma ++ [(a, b)] }

/-- HEAD moves on. -/
def State.fnAdvance (s : State) (f r : Nat) : State :=
  s.wr (uFn f) F.fn_RING_HEAD_HEAD ((s.fnHead f r + 1) % s.fnSize f r) r

/-- A transmit ring has a descriptor that may be served. -/
def State.txReady (s : State) (f r : Nat) : Bool :=
  !s.safe && s.dmaOn f && s.flag (uFn f) F.fn_RING_CFG_EN r && s.fnHead f r != s.fnTail f r
    && !s.stalledClass 14 (s.rd (uFn f) F.fn_RING_CFG_TC r)

/-- `TX_DESCRIPTOR`: the next transmit ring in round robin. A bad descriptor is passed over too (log entry 70). -/
def txDescriptorStep (len : Nat) (frame : List Byte) (s : State) : State :=
  match (List.range 80).find? (fun i => s.txReady ((s.host.txNext + i) % 80 / 16) ((s.host.txNext + i) % 80 % 16)) with
  | none => s
  | some i =>
    let k := (s.host.txNext + i) % 80
    let f := k / 16
    let r := k % 16
    let tc := s.rd (uFn f) F.fn_RING_CFG_TC r
    let w3 := s.descAddr f r + 12
    let s := s.setHost { s.host with txNext := (k + 1) % 80 }
    if len < 60 ∨ 9212 < len then
      ((((s.dmaWrite w3 (le32 (2 ^ 30))).sat (uFn f) F.fn_TX_BAD_DESC).fnAdvance f r).event (uFn f))
    else
      let s := s.offer 14 { inPort := 14, inSub := f, tc := tc, ts := s.wcNs % 2 ^ 32 } (frame ++ fcsBytes frame false)
      (((s.inc (uFn f) F.fn_TX_FRAMES).dmaWrite w3 (le32 (2 ^ 31))).fnAdvance f r).signal f (16 + r)

/-- The delivery of a P14 copy to one function. A receive ring is full when the device has filled every buffer that the host has posted,
which is HEAD = TAIL: R372's TAIL + 1 = HEAD says when host software may post no more (DEDUCED, log entry 121). -/
def State.rxTo (s : State) (d : Delivered) (f : Nat) (buf : Nat × Nat) : State :=
  let u := uFn f
  let c := d.copy.tc
  let ring := s.rd u F.fn_RX_TC_MAP_MAP / 16 ^ c % 16
  let r := 16 + ring
  let len := d.bytes.length - 4
  if !s.dmaOn f || !s.flag u F.fn_RING_CFG_EN r || s.fnHead f r == s.fnTail f r then s.sat u F.fn_RX_NO_DESC
  else if buf.2 < len then s.sat u F.fn_RX_TOO_BIG
  else
    let a := s.descAddr f r
    let s := (s.dmaWrite buf.1 (d.bytes.take len)).dmaWrite (a + 8) (le32 d.fm.ts)
    let s := s.dmaWrite (a + 12) (le32 (2 ^ 31 + c * 2 ^ 28 + d.fm.inPort * 2 ^ 24 + len))
    ((s.inc u F.fn_RX_FRAMES).fnAdvance f r).signal f ring

/-- `RX_DELIVERY`: the oldest copy that P14 has read, once to each function that SUB_H selects; in the Safe state it waits, as no
descriptor is fetched (Table 15.6). -/
def rxDeliveryStep (bufs : List (Nat × Nat)) (s : State) : State :=
  match findIdx1 (fun (d : Delivered) => d.port == 14) s.fab.delivered 0 with
  | none => s
  | some (i, d) =>
    if s.safe then s
    else
    let t : State := { s with fab := { s.fab with delivered := s.fab.delivered.eraseIdx i } }
    ((List.range 5).filter (bitOf d.copy.subH)).foldl (fun t f => t.rxTo d f (bufs.getD f (0, 0))) t

/-! ### Resets, link and configuration space (R374, R375, R394, log entry 71) -/

/-- The configuration space of a function (Table 17.1). -/
def State.fnConfig (s : State) (f : Nat) (bme en : Bool) (c : PcieCfg) : State :=
  let put (m : Nat) (b : Bool) : Nat := if b then setBit m f else clearBit m f
  s.setHost { s.host with
    bme := put s.host.bme bme, msixEn := put s.host.msixEn en, msixMask := put s.host.msixMask c.msixMask
    cfg := if c = {} then pmDel s.host.cfg f else pmSet s.host.cfg f c }

/-- A function reset: its configuration and its unit. -/
def State.fnReset (s : State) (f : Nat) : State := (s.fnConfig f false false {}).unitReset (uFn f)

/-- The VFs end with SR-IOV's VF Enable (PRESUMED, log entry 120). -/
def State.vfsEnd (s : State) : State :=
  if (s.fnCfg 0).vfEnable then [1, 2, 3, 4].foldl (fun s f => s.fnReset f) s else s

/-- `FUNCTION_LEVEL_RESET`; of PF0 it ends the VFs too. -/
def functionLevelResetStep (f : Nat) (s : State) : State :=
  if f < 5 then (if f = 0 then s.vfsEnd else s).fnReset f else s

/-- A change of the link; messages that wait for it leave. A link that goes down flushes the reads of the functions (R394). -/
def pcieLinkChangeStep (up : Bool) (speed width : Nat) (s : State) : State :=
  let s := if up then s else s.flushReads (fun r => decide (1 ≤ r.master) && decide (r.master ≤ 5))
  let s := (s.wr uPcie F.pcie_LINK_STATUS_UP (b2n up)).wr uPcie F.pcie_LINK_STATUS_SPEED (if up then speed else 0)
  let s := s.wr uPcie F.pcie_LINK_STATUS_WIDTH (if up then width else 0)
  (List.range 5).foldl (fun s f => s.msixFlush f) s

/-- `PCIE_PERST`: the link goes down and every function is reset. -/
def pciePerstStep (s : State) : State :=
  (List.range 5).foldl (fun s f => functionLevelResetStep f s) (pcieLinkChangeStep false 0 0 s)

/-- `PCIE_CONFIG_WRITE`: one that clears PF0's VF Enable ends the VFs. -/
def pcieConfigWriteStep (f : Nat) (bme en : Bool) (c : PcieCfg) (s : State) : State :=
  if f < 5 then ((if f = 0 ∧ !c.vfEnable then s.vfsEnd else s).fnConfig f bme en c).msixFlush f else s

/-! ### The management SPI (R376 to R379) -/

/-- Bits 15 to 1 of the status word at a falling edge of CS_N (Table 17.4). -/
def State.mspiBits (s : State) : Nat :=
  b2n (s.cosy.power == pwSafe) * 2 ^ 15 + b2n (s.flag uSaucer F.saucer_EPISODE_OPEN) * 2 ^ 14
    + b2n (s.flag uSys F.sys_FALLBACK_REASON_ACTIVE) * 2 ^ 13 + b2n s.bootDone * 2 ^ 12
    + s.rd uCosy F.cosy_WAKE_REASON_REASON % 16 * 2 ^ 8
    + (if s.flag uSys F.sys_FALLBACK_REASON_ACTIVE then s.rd uSys F.sys_FALLBACK_REASON_REASON * 2 ^ 4 else 0)
    + b2n s.host.mspiErr * 2 ^ 3 + b2n (s.rd uMspi F.mspi_FENCE_COUNT != 0) * 2 ^ 2
    + b2n (s.irqOut F.sys_INT_MASK_MSPI_MASK) * 2

/-- The status word, with odd parity. -/
def State.mspiWord (s : State) : Nat := s.mspiBits + (if (bitsOf 16 s.mspiBits).length % 2 = 0 then 1 else 0)

/-- A read whose response the last transfer did not await to its last bit is abandoned (R378). -/
def State.mspiLeave (s : State) : State :=
  if s.host.reads.any (fun r => r.dest == .mspi) then
    let t := s.sat uMspi F.mspi_ABANDONED
    t.setHost { t.host with
      mspiErr := true, reads := t.host.reads.map (fun r => if r.dest = .mspi then { r with dest := .lost } else r) }
  else s

/-- An access of MSPI is outstanding: a read that waits, or a write that waits for a place in the posted buffer (R377). -/
def State.mspiBusy (s : State) : Bool :=
  s.host.reads.any (fun r => r.master == 8) || (s.host.posted.drop 16).any (fun p => p.master == 8)

/-- A transfer begins: the status word is captured, TRANSFERS counts, LAST_ERR starts over for this transfer. -/
def State.mspiBegin (s : State) : State :=
  let s := s.mspiLeave
  (s.setHost { s.host with mspiStatus := s.mspiWord, mspiErr := false, miso := beBytes 2 s.mspiWord }).inc uMspi F.mspi_TRANSFERS

/-- Bytes shifted out after the status word. -/
def State.shiftOut (s : State) (b : List Byte) : State := s.setHost { s.host with miso := s.host.miso ++ b }

/-- A transfer that launches nothing. -/
def State.mspiRefused (s : State) (crc : Bool) : State :=
  let t := if crc then s.sat uMspi F.mspi_CRC_ERR else s.sat uMspi F.mspi_FRAME_ERR
  t.setHost { t.host with mspiErr := true }

/-- `MSPI_WRITE`. -/
def mspiWriteStep (a : Nat) (v : Word) (crc : Nat) (s : State) : State :=
  let s := s.mspiBegin.shiftOut (List.replicate 8 0#8)
  if crc = crc8 ([0x02#8] ++ beBytes 4 a ++ beBytes 4 v.toNat) then (if s.mspiBusy then s.mspiRefused false else s.regWrite 8 a v)
  else s.mspiRefused true

/-- `MSPI_READ`: the pending bytes of 0xFF are a matter of timing. -/
def mspiReadStep (a crc : Nat) (s : State) : State :=
  let s := s.mspiBegin.shiftOut (List.replicate 4 0#8)
  if crc = crc8 ([0x0B#8] ++ beBytes 4 a) then (if s.mspiBusy then s.mspiRefused false else s.askRead 8 a true .mspi)
  else s.mspiRefused true

/-- `MSPI_ABANDON`: the read has its effect and its value is lost. -/
def mspiAbandonStep (a : Nat) (s : State) : State :=
  let s := s.mspiBegin
  if s.mspiBusy then s.mspiRefused false
  else
    let t := s.askRead 8 a true .lost
    (t.setHost { t.host with mspiErr := true }).sat uMspi F.mspi_ABANDONED

/-! ### The Ulis link (R385, R386) -/

/-- `ULIS_PACKET_RETRY`: sixteen consecutive failures of one packet take the link down. -/
def ulisPacketRetryStep (again : Bool) (s : State) : State :=
  if s.flag uUlis F.ulis_ULIS_STATUS_UP then
    let n := if again then s.host.ulisFails + 1 else 1
    let s := (s.inc uUlis F.ulis_RETRIES).setHost { s.host with ulisFails := n }
    if 16 ≤ n then s.ulisDown else s
  else s

/-- `ULIS_LINK_UP`: retraining is complete, while Kettle has started the Brew die. -/
def ulisLinkUpStep (s : State) : State :=
  if s.cosy.brewStarted then (s.wr uUlis F.ulis_ULIS_STATUS_UP 1).tellCosy else s

/-- `ULIS_AUTH_EXCHANGE`: nothing while no link secret is programmed. -/
def ulisAuthExchangeStep (ok : Bool) (s : State) : State :=
  if s.otp.linkSecret.isNone ∨ !s.flag uUlis F.ulis_ULIS_STATUS_UP then s
  else if ok then (s.wr uUlis F.ulis_ULIS_STATUS_AUTH 1).alarmEnd 3
  else (((s.wr uUlis F.ulis_ULIS_STATUS_AUTH 0).sat uUlis F.ulis_AUTH_FAIL).ulisDown).raiseAlarm 3

/-! ### The commands -/

/-- `PCIE_MEMORY_REQUEST`. -/
def execPcieMemoryRequest (fn bar offset : Nat) (write : Bool) (dws : List PcieDw) (s : State) : Host.Outcome State Fault Refusal :=
  .next (pcieMemoryRequestStep fn bar offset write dws s)
/-- `TX_DESCRIPTOR`. -/
def execTxDescriptor (len : Nat) (frame : List Byte) (s : State) : Host.Outcome State Fault Refusal :=
  .next (txDescriptorStep len frame s)
/-- `RX_DELIVERY`. -/
def execRxDelivery (bufs : List (Nat × Nat)) (s : State) : Host.Outcome State Fault Refusal := .next (rxDeliveryStep bufs s)
/-- `FUNCTION_LEVEL_RESET`. -/
def execFunctionLevelReset (fn : Nat) (s : State) : Host.Outcome State Fault Refusal := .next (functionLevelResetStep fn s)
/-- `PCIE_PERST`. -/
def execPciePerst (s : State) : Host.Outcome State Fault Refusal := .next (pciePerstStep s)
/-- `PCIE_LINK_CHANGE`. -/
def execPcieLinkChange (up : Bool) (speed width : Nat) (s : State) : Host.Outcome State Fault Refusal :=
  .next (pcieLinkChangeStep up speed width s)
/-- `PCIE_CONFIG_WRITE`. -/
def execPcieConfigWrite (fn : Nat) (bme msixEn : Bool) (cfg : PcieCfg) (s : State) : Host.Outcome State Fault Refusal :=
  .next (pcieConfigWriteStep fn bme msixEn cfg s)
/-- `MSPI_NOP`. -/
def execMspiNop (s : State) : Host.Outcome State Fault Refusal := .next s.mspiBegin
/-- `MSPI_WRITE`. -/
def execMspiWrite (addr : Nat) (value : Word) (crc : Nat) (s : State) : Host.Outcome State Fault Refusal :=
  .next (mspiWriteStep addr value crc s)
/-- `MSPI_READ`. -/
def execMspiRead (addr crc : Nat) (s : State) : Host.Outcome State Fault Refusal := .next (mspiReadStep addr crc s)
/-- `MSPI_FRAME_ERROR`: a wrong CRC counts in CRC_ERR, everything else in FRAME_ERR. -/
def execMspiFrameError (kind : Nat) (s : State) : Host.Outcome State Fault Refusal :=
  .next (s.mspiBegin.mspiRefused (kind == 1))
/-- `MSPI_ABANDON`. -/
def execMspiAbandon (addr : Nat) (s : State) : Host.Outcome State Fault Refusal := .next (mspiAbandonStep addr s)
/-- `ULIS_PACKET_RETRY`. -/
def execUlisPacketRetry (again : Bool) (s : State) : Host.Outcome State Fault Refusal := .next (ulisPacketRetryStep again s)
/-- `ULIS_LINK_DOWN`. -/
def execUlisLinkDown (s : State) : Host.Outcome State Fault Refusal := .next s.ulisDown
/-- `ULIS_LINK_UP`. -/
def execUlisLinkUp (s : State) : Host.Outcome State Fault Refusal := .next (ulisLinkUpStep s)
/-- `ULIS_AUTH_EXCHANGE`. -/
def execUlisAuthExchange (ok : Bool) (s : State) : Host.Outcome State Fault Refusal := .next (ulisAuthExchangeStep ok s)

end Sys2Proof.Machine
end

