-- ==== Sys2Proof/Machine/TriadBus.lean ====
section
/-! DEFINITION. Transactions that leave the triad (R303 to R305). -/

namespace Sys2Proof.Machine

/-- The memory number of the triad SRAM (Table 15.8); its codes cover 16 bytes. -/
def memTriad : Nat := 17

/-- The code check of the SRAM word that holds a 32-bit word, in an access of the type `access` (Table 15.2): a corrected one is
rewritten, an uncorrectable one is reported (R303). Answers whether the word is poisoned. -/
def State.sramCheck (s : State) (w access : Nat) : Bool × State :=
  let (k, inj, s) := s.codeCheck uTriad 9 (s.codeOf memTriad (w / 4))
  match k with
  | .good => (false, s)
  | .corrected => (false, s.clearUpset memTriad (w / 4))
  | .failed => (true, s.codeFail uTriad 9 { access := access, addr := memAddr memTriad (w / 4) } inj)

/-- A read of the SRAM: an uncorrectable word is returned poisoned, and all cores take a data abort in place of a value (R303). -/
def State.sramRead (s : State) (w : Nat) : State :=
  let (bad, s) := s.sramCheck w 1
  let t := s.setTriad { s.triad with poisoned := bad }
  if bad then t else { t with readData := BitVec.ofNat 32 (smGet zero0 s.triad.sram w) }

/-- The access of an issued transaction, with its master. A retired row of the SRAM is not written (R336). -/
def State.triadAccess (s : State) (m : Nat) (x : TriadAccess) : State :=
  match x with
  | .read a => s.regReadTo m a
  | .write a v => s.regWrite m a v
  | .sramRead w =>
    if w < 2 ^ 18 then s.sramRead w else s
  | .sramWrite w v =>
    if 2 ^ 18 ≤ w ∨ s.retiredWord memTriad (w / 4) then s
    else
      let t := (s.sramCheck w 2).2
      t.setTriad { t.triad with sram := smSet zero0 t.triad.sram w v.toNat }
  | .takeFrame =>
    match findIdx1 (fun (d : Delivered) => d.port == 15) s.fab.delivered 0 with
    | none => s
    | some (i, _) => { s with fab := { s.fab with delivered := s.fab.delivered.eraseIdx i } }
  | .takePunt => { s with gw := { s.gw with puntQ := s.gw.puntQ.tail } }
  | .sendFrame tc b => s.offer 15 { inPort := 15, tc := tc % 8, ts := s.wcNs % 2 ^ 32 } (b ++ fcsBytes b false)

/-- A write-back of a dirty cache line. -/
def writeBack : TriadAccess → Bool
  | .sramWrite _ _ => true
  | _ => false

/-- `TRIAD_TRANSACTION`: voted, then issued or not; during a resynchronisation only write-backs leave (R310). -/
def triadTransactionStep (t : TriadTx) (s : State) : State :=
  if s.triadRuns ∨ (s.triadUp ∧ writeBack t.access) then
    match s.vote t with
    | (some m, s) => s.triadAccess m t.access
    | (none, s) => s
  else s

/-- `TRIAD_TRANSACTION`. -/
def execTriadTransaction (tx : TriadTx) (s : State) : Host.Outcome State Fault Refusal := .next (triadTransactionStep tx s)

end Sys2Proof.Machine
end

