-- ==== Sys2Proof/Machine/Dispatch.lean ====
section
/-! DEFINITION. One arm for each command: a direct call of its meaning. -/

namespace Sys2Proof.Machine

/-- The effect of a command on everything but the queue. -/
def exec (i : Instr) (s : State) : Host.Outcome State Fault Refusal :=
  match i with
  | .registerWrite addr value master => Sys2Proof.Machine.execRegisterWrite addr value master s
  | .readClear addr master => Sys2Proof.Machine.execReadClear addr master s
  | .latchingRead addr master => Sys2Proof.Machine.execLatchingRead addr master s
  | .tickBoundary unit work pins => Sys2Proof.Machine.execTickBoundary unit work pins s
  | .tickJobBudgetSpent unit => Sys2Proof.Machine.execTickJobBudgetSpent unit s
  | .unitEnable unit en master => Sys2Proof.Machine.execUnitEnable unit en master s
  | .unitReset unit master => Sys2Proof.Machine.execUnitReset unit master s
  | .faultClear unit bits master => Sys2Proof.Machine.execFaultClear unit bits master s
  | .injectArm unit bits master => Sys2Proof.Machine.execInjectArm unit bits master s
  | .commitDiscard unit master => Sys2Proof.Machine.execCommitDiscard unit master s
  | .cellWrite port rx => Sys2Proof.Machine.execCellWrite port rx s
  | .headDeliver port => Sys2Proof.Machine.execHeadDeliver port s
  | .frameEnd port assembly => Sys2Proof.Machine.execFrameEnd port assembly s
  | .pauseFrameReceive port data sof eof wc => Sys2Proof.Machine.execPauseFrameReceive port data sof eof wc s
  | .pauseTimerExpiry port prio => Sys2Proof.Machine.execPauseTimerExpiry port prio s
  | .bankRelease => Sys2Proof.Machine.execBankRelease s
  | .releaseTimeout => Sys2Proof.Machine.execReleaseTimeout s
  | .sourceEvent west => Sys2Proof.Machine.execSourceEvent west s
  | .hitUpdate west => Sys2Proof.Machine.execHitUpdate west s
  | .learnInsert west => Sys2Proof.Machine.execLearnInsert west s
  | .fdbNop west master => Sys2Proof.Machine.execFdbNop west master s
  | .fdbInsert west master => Sys2Proof.Machine.execFdbInsert west master s
  | .fdbDelete west master => Sys2Proof.Machine.execFdbDelete west master s
  | .fdbLookup west master => Sys2Proof.Machine.execFdbLookup west master s
  | .fdbReadSlot west index master => Sys2Proof.Machine.execFdbReadSlot west index master s
  | .fdbFlush west master => Sys2Proof.Machine.execFdbFlush west master s
  | .fdbShadowWrite west index master => Sys2Proof.Machine.execFdbShadowWrite west index master s
  | .fdbShadowRead west index master => Sys2Proof.Machine.execFdbShadowRead west index master s
  | .fdbVlanWrite west index master => Sys2Proof.Machine.execFdbVlanWrite west index master s
  | .fdbVlanRead west index master => Sys2Proof.Machine.execFdbVlanRead west index master s
  | .fdbInsertShadowed west index master => Sys2Proof.Machine.execFdbInsertShadowed west index master s
  | .fdbDeleteShadowed west index master => Sys2Proof.Machine.execFdbDeleteShadowed west index master s
  | .fdbCmdInvalid west master => Sys2Proof.Machine.execFdbCmdInvalid west master s
  | .fdbCmdComplete west => Sys2Proof.Machine.execFdbCmdComplete west s
  | .canKeySubmit engine => Sys2Proof.Machine.execCanKeySubmit engine s
  | .canKeyJudge => Sys2Proof.Machine.execCanKeyJudge s
  | .streamGateCycleStart west gate => Sys2Proof.Machine.execStreamGateCycleStart west gate s
  | .streamGateEntryExpiry west gate => Sys2Proof.Machine.execStreamGateEntryExpiry west gate s
  | .tcamRescan west bank => Sys2Proof.Machine.execTcamRescan west bank s
  | .ruleNop west master => Sys2Proof.Machine.execRuleNop west master s
  | .writeRule west row bankSel master => Sys2Proof.Machine.execWriteRule west row bankSel master s
  | .readRule west row bankSel master => Sys2Proof.Machine.execReadRule west row bankSel master s
  | .clearRule west row bankSel master => Sys2Proof.Machine.execClearRule west row bankSel master s
  | .writeZpair west index bankSel master => Sys2Proof.Machine.execWriteZpair west index bankSel master s
  | .readZpair west index bankSel master => Sys2Proof.Machine.execReadZpair west index bankSel master s
  | .writeZmap west index bankSel master => Sys2Proof.Machine.execWriteZmap west index bankSel master s
  | .readZmap west index bankSel master => Sys2Proof.Machine.execReadZmap west index bankSel master s
  | .writePfx west index bankSel master => Sys2Proof.Machine.execWritePfx west index bankSel master s
  | .readPfx west index bankSel master => Sys2Proof.Machine.execReadPfx west index bankSel master s
  | .copyActive west master => Sys2Proof.Machine.execCopyActive west master s
  | .ruleCmdInvalid west master => Sys2Proof.Machine.execRuleCmdInvalid west master s
  | .ruleCmdComplete west => Sys2Proof.Machine.execRuleCmdComplete west s
  | .guardMatch ch id seen own => Sys2Proof.Machine.execGuardMatch ch id seen own s
  | .guardFlagEnd ch => Sys2Proof.Machine.execGuardFlagEnd ch s
  | .guardDriveFault ch => Sys2Proof.Machine.execGuardDriveFault ch s
  | .copyEnqueue => Sys2Proof.Machine.execCopyEnqueue s
  | .discardWalk => Sys2Proof.Machine.execDiscardWalk s
  | .cellRead port => Sys2Proof.Machine.execCellRead port s
  | .pfcRefresh port tc => Sys2Proof.Machine.execPfcRefresh port tc s
  | .ingressUnderrun port tc => Sys2Proof.Machine.execIngressUnderrun port tc s
  | .spoutSelect port => Sys2Proof.Machine.execSpoutSelect port s
  | .gateCycleStart port => Sys2Proof.Machine.execGateCycleStart port s
  | .gateEntryExpiry port => Sys2Proof.Machine.execGateEntryExpiry port s
  | .gclDataWrite port value master => Sys2Proof.Machine.execGclDataWrite port value master s
  | .gclDataRead port => Sys2Proof.Machine.execGclDataRead port s
  | .framePreempt port age => Sys2Proof.Machine.execFramePreempt port age s
  | .preemptVerify port outcome => Sys2Proof.Machine.execPreemptVerify port outcome s
  | .syncProcess port num rx => Sys2Proof.Machine.execSyncProcess port num rx s
  | .syncTransmit dom port => Sys2Proof.Machine.execSyncTransmit dom port s
  | .pdelayReqSend port => Sys2Proof.Machine.execPdelayReqSend port s
  | .pdelayExchange port resp followUp => Sys2Proof.Machine.execPdelayExchange port resp followUp s
  | .pdelayRespTimeout port => Sys2Proof.Machine.execPdelayRespTimeout port s
  | .pdelayRespSend port => Sys2Proof.Machine.execPdelayRespSend port s
  | .announceReceive port num rx => Sys2Proof.Machine.execAnnounceReceive port num rx s
  | .syncTimeout dom => Sys2Proof.Machine.execSyncTimeout dom s
  | .holdExpiry dom => Sys2Proof.Machine.execHoldExpiry dom s
  | .domAccept dom seq master => Sys2Proof.Machine.execDomAccept dom seq master s
  | .domSet dom master => Sys2Proof.Machine.execDomSet dom master s
  | .domResetGuard dom master => Sys2Proof.Machine.execDomResetGuard dom master s
  | .domCmdInvalid dom master => Sys2Proof.Machine.execDomCmdInvalid dom master s
  | .snapshotTake master => Sys2Proof.Machine.execSnapshotTake master s
  | .tsinCapture input rising phase => Sys2Proof.Machine.execTsinCapture input rising phase s
  | .tsinPop input => Sys2Proof.Machine.execTsinPop input s
  | .tsoutEdge output => Sys2Proof.Machine.execTsoutEdge output s
  | .xcvrModeWrite xcvr value master => Sys2Proof.Machine.execXcvrModeWrite xcvr value master s
  | .xcvrModeChange xcvr => Sys2Proof.Machine.execXcvrModeChange xcvr s
  | .txdDominantTimeout xcvr => Sys2Proof.Machine.execTxdDominantTimeout xcvr s
  | .busDominantTimeout xcvr => Sys2Proof.Machine.execBusDominantTimeout xcvr s
  | .vbatUndervoltage => Sys2Proof.Machine.execVbatUndervoltage s
  | .canFrameReceive ch frame sec rx => Sys2Proof.Machine.execCanFrameReceive ch frame sec rx s
  | .canFrameTransmit ch phase tdcv => Sys2Proof.Machine.execCanFrameTransmit ch phase tdcv s
  | .canError ch err => Sys2Proof.Machine.execCanError ch err s
  | .canIntegrated ch => Sys2Proof.Machine.execCanIntegrated ch s
  | .canRecover ch master => Sys2Proof.Machine.execCanRecover ch master s
  | .canRecoveryDone ch => Sys2Proof.Machine.execCanRecoveryDone ch s
  | .canOpmode ch mode master => Sys2Proof.Machine.execCanOpmode ch mode master s
  | .canShaperRelease ch => Sys2Proof.Machine.execCanShaperRelease ch s
  | .linSlotStart ch => Sys2Proof.Machine.execLinSlotStart ch s
  | .linHeaderReceive ch id baud => Sys2Proof.Machine.execLinHeaderReceive ch id baud s
  | .linResponseTimeout ch => Sys2Proof.Machine.execLinResponseTimeout ch s
  | .sentMessage ch msg => Sys2Proof.Machine.execSentMessage ch msg s
  | .qspiTransfer spi rx => Sys2Proof.Machine.execQspiTransfer spi rx s
  | .flxConfig master => Sys2Proof.Machine.execFlxConfig master s
  | .flxReady master => Sys2Proof.Machine.execFlxReady master s
  | .flxWakeup master => Sys2Proof.Machine.execFlxWakeup master s
  | .flxRun master => Sys2Proof.Machine.execFlxRun master s
  | .flxAllSlots master => Sys2Proof.Machine.execFlxAllSlots master s
  | .flxHalt master => Sys2Proof.Machine.execFlxHalt master s
  | .flxFreeze master => Sys2Proof.Machine.execFlxFreeze master s
  | .flxSlot slot cycle first passive rxA rxB age => Sys2Proof.Machine.execFlxSlot slot cycle first passive rxA rxB age s
  | .t1sFrameReceive seg data fcsBad => Sys2Proof.Machine.execT1sFrameReceive seg data fcsBad s
  | .t1sTxOpportunity seg kind node => Sys2Proof.Machine.execT1sTxOpportunity seg kind node s
  | .infuserRxItem engine => Sys2Proof.Machine.execInfuserRxItem engine s
  | .infuserEthItem engine => Sys2Proof.Machine.execInfuserEthItem engine s
  | .infuserSbItem engine => Sys2Proof.Machine.execInfuserSbItem engine s
  | .infuserMgmtItem engine req => Sys2Proof.Machine.execInfuserMgmtItem engine req s
  | .sigStep engine => Sys2Proof.Machine.execSigStep engine s
  | .signalTimeout engine pdu => Sys2Proof.Machine.execSignalTimeout engine pdu s
  | .pduDue engine pdu => Sys2Proof.Machine.execPduDue engine pdu s
  | .p13PduHandoff engine => Sys2Proof.Machine.execP13PduHandoff engine s
  | .p13Dispatch => Sys2Proof.Machine.execP13Dispatch s
  | .tblNop inst master => Sys2Proof.Machine.execTblNop inst master s
  | .tblWrite inst table index master => Sys2Proof.Machine.execTblWrite inst table index master s
  | .tblRead inst table index master => Sys2Proof.Machine.execTblRead inst table index master s
  | .tblClear inst table index master => Sys2Proof.Machine.execTblClear inst table index master s
  | .tblCmdInvalid inst master => Sys2Proof.Machine.execTblCmdInvalid inst master s
  | .memDataWrite engine value master => Sys2Proof.Machine.execMemDataWrite engine value master s
  | .memDataRead engine => Sys2Proof.Machine.execMemDataRead engine s
  | .roundStart ring => Sys2Proof.Machine.execRoundStart ring s
  | .tokenTimeout ring => Sys2Proof.Machine.execTokenTimeout ring s
  | .ringToken ring msg => Sys2Proof.Machine.execRingToken ring msg s
  | .ringAgree ring msg => Sys2Proof.Machine.execRingAgree ring msg s
  | .ringDrain ring msg => Sys2Proof.Machine.execRingDrain ring msg s
  | .ringCommit ring msg => Sys2Proof.Machine.execRingCommit ring msg s
  | .ringWake ring msg => Sys2Proof.Machine.execRingWake ring msg s
  | .ringBadMsg ring => Sys2Proof.Machine.execRingBadMsg ring s
  | .agreeTicksExpiry => Sys2Proof.Machine.execAgreeTicksExpiry s
  | .drainExpiry => Sys2Proof.Machine.execDrainExpiry s
  | .backboneTimeout => Sys2Proof.Machine.execBackboneTimeout s
  | .commitRequest => Sys2Proof.Machine.execCommitRequest s
  | .commitDelayExpiry => Sys2Proof.Machine.execCommitDelayExpiry s
  | .wakeDetect src => Sys2Proof.Machine.execWakeDetect src s
  | .selectiveWakeFrame ch frame err => Sys2Proof.Machine.execSelectiveWakeFrame ch frame err s
  | .wakeTimerExpiry => Sys2Proof.Machine.execWakeTimerExpiry s
  | .localWake master => Sys2Proof.Machine.execLocalWake master s
  | .localHold value master => Sys2Proof.Machine.execLocalHold value master s
  | .linGoToSleep ch => Sys2Proof.Machine.execLinGoToSleep ch s
  | .cosyPowerOn => Sys2Proof.Machine.execCosyPowerOn s
  | .powerOff => Sys2Proof.Machine.execPowerOff s
  | .pmicPgHigh => Sys2Proof.Machine.execPmicPgHigh s
  | .pgTimeout => Sys2Proof.Machine.execPgTimeout s
  | .inhRetryExpiry => Sys2Proof.Machine.execInhRetryExpiry s
  | .pgLoss => Sys2Proof.Machine.execPgLoss s
  | .clockLoss => Sys2Proof.Machine.execClockLoss s
  | .clockRestored => Sys2Proof.Machine.execClockRestored s
  | .rstPin => Sys2Proof.Machine.execRstPin s
  | .forceSleep key master => Sys2Proof.Machine.execForceSleep key master s
  | .x32Check ok => Sys2Proof.Machine.execX32Check ok s
  | .brewStart x => Sys2Proof.Machine.execBrewStart x s
  | .selftestDone x => Sys2Proof.Machine.execSelftestDone x s
  | .segmentHeaderCheck x => Sys2Proof.Machine.execSegmentHeaderCheck x s
  | .flashBlockArrive x => Sys2Proof.Machine.execFlashBlockArrive x s
  | .essentialEnable => Sys2Proof.Machine.execEssentialEnable s
  | .handOver => Sys2Proof.Machine.execHandOver s
  | .bootComplete => Sys2Proof.Machine.execBootComplete s
  | .startFail reason segment detail part => Sys2Proof.Machine.execStartFail reason segment detail part s
  | .bootDeadline => Sys2Proof.Machine.execBootDeadline s
  | .keyRevoke key slot master => Sys2Proof.Machine.execKeyRevoke key slot master s
  | .retry key master => Sys2Proof.Machine.execRetry key master s
  | .updArm key master => Sys2Proof.Machine.execUpdArm key master s
  | .updCancel key master => Sys2Proof.Machine.execUpdCancel key master s
  | .activationFire => Sys2Proof.Machine.execActivationFire s
  | .activationRestart => Sys2Proof.Machine.execActivationRestart s
  | .activationCancel => Sys2Proof.Machine.execActivationCancel s
  | .triadTransaction tx => Sys2Proof.Machine.execTriadTransaction tx s
  | .triadEventLatch event cores => Sys2Proof.Machine.execTriadEventLatch event cores s
  | .agreeOfferExpiry event => Sys2Proof.Machine.execAgreeOfferExpiry event s
  | .digestCompare a b c => Sys2Proof.Machine.execDigestCompare a b c s
  | .resyncDone a b c cycles => Sys2Proof.Machine.execResyncDone a b c cycles s
  | .debugHalt => Sys2Proof.Machine.execDebugHalt s
  | .mailboxDoorbell mb master => Sys2Proof.Machine.execMailboxDoorbell mb master s
  | .mailboxResponse mb status words => Sys2Proof.Machine.execMailboxResponse mb status words s
  | .mailboxAck mb master => Sys2Proof.Machine.execMailboxAck mb master s
  | .saucerReport => Sys2Proof.Machine.execSaucerReport s
  | .safeStateEntry => Sys2Proof.Machine.execSafeStateEntry s
  | .saucerRestart => Sys2Proof.Machine.execSaucerRestart s
  | .episodeEnd key seq master => Sys2Proof.Machine.execEpisodeEnd key seq master s
  | .cosyGraceTimeout => Sys2Proof.Machine.execCosyGraceTimeout s
  | .tickMessageTimeout => Sys2Proof.Machine.execTickMessageTimeout s
  | .keyWrite slot master => Sys2Proof.Machine.execKeyWrite slot master s
  | .keyErase slot master => Sys2Proof.Machine.execKeyErase slot master s
  | .keyEraseAll master => Sys2Proof.Machine.execKeyEraseAll master s
  | .jobSubmit ring tail master => Sys2Proof.Machine.execJobSubmit ring tail master s
  | .gcmEnc => Sys2Proof.Machine.execGcmEnc s
  | .gcmDec => Sys2Proof.Machine.execGcmDec s
  | .cmacGen => Sys2Proof.Machine.execCmacGen s
  | .cmacVer => Sys2Proof.Machine.execCmacVer s
  | .hmacGen => Sys2Proof.Machine.execHmacGen s
  | .hmacVer => Sys2Proof.Machine.execHmacVer s
  | .sha256 => Sys2Proof.Machine.execSha256 s
  | .ecdsaVer => Sys2Proof.Machine.execEcdsaVer s
  | .kdf => Sys2Proof.Machine.execKdf s
  | .random => Sys2Proof.Machine.execRandom s
  | .genKey => Sys2Proof.Machine.execGenKey s
  | .loadBlob => Sys2Proof.Machine.execLoadBlob s
  | .wrapSlot => Sys2Proof.Machine.execWrapSlot s
  | .importKey => Sys2Proof.Machine.execImportKey s
  | .keyFetch => Sys2Proof.Machine.execKeyFetch s
  | .saInstall port rx an slot master => Sys2Proof.Machine.execSaInstall port rx an slot master s
  | .saRetire port rx an master => Sys2Proof.Machine.execSaRetire port rx an master s
  | .drbgReseed ok => Sys2Proof.Machine.execDrbgReseed ok s
  | .alarm src => Sys2Proof.Machine.execAlarm src s
  | .alarmClear key present master => Sys2Proof.Machine.execAlarmClear key present master s
  | .tamperUnpowered => Sys2Proof.Machine.execTamperUnpowered s
  | .advance key master => Sys2Proof.Machine.execAdvance key master s
  | .progSign key arg master => Sys2Proof.Machine.execProgSign key arg master s
  | .progFb key master => Sys2Proof.Machine.execProgFb key master s
  | .progDbg key master => Sys2Proof.Machine.execProgDbg key master s
  | .dbgAuth x y r sig => Sys2Proof.Machine.execDbgAuth x y r sig s
  | .pcieMemoryRequest fn bar offset write dws => Sys2Proof.Machine.execPcieMemoryRequest fn bar offset write dws s
  | .txDescriptor len frame => Sys2Proof.Machine.execTxDescriptor len frame s
  | .rxDelivery bufs => Sys2Proof.Machine.execRxDelivery bufs s
  | .functionLevelReset fn => Sys2Proof.Machine.execFunctionLevelReset fn s
  | .pciePerst => Sys2Proof.Machine.execPciePerst s
  | .intEoi master => Sys2Proof.Machine.execIntEoi master s
  | .mspiNop => Sys2Proof.Machine.execMspiNop s
  | .mspiWrite addr value crc => Sys2Proof.Machine.execMspiWrite addr value crc s
  | .mspiRead addr crc => Sys2Proof.Machine.execMspiRead addr crc s
  | .mspiFrameError kind => Sys2Proof.Machine.execMspiFrameError kind s
  | .mspiAbandon addr => Sys2Proof.Machine.execMspiAbandon addr s
  | .fenceRead master => Sys2Proof.Machine.execFenceRead master s
  | .postedWriteResolution => Sys2Proof.Machine.execPostedWriteResolution s
  | .ulisPacketRetry again => Sys2Proof.Machine.execUlisPacketRetry again s
  | .ulisLinkDown => Sys2Proof.Machine.execUlisLinkDown s
  | .ulisLinkUp => Sys2Proof.Machine.execUlisLinkUp s
  | .ulisAuthExchange ok => Sys2Proof.Machine.execUlisAuthExchange ok s
  | .saucerBoundary work => Sys2Proof.Machine.execSaucerBoundary work s
  | .ePortLinkChange port mbps => Sys2Proof.Machine.execEPortLinkChange port mbps s
  | .pcieLinkChange up speed width => Sys2Proof.Machine.execPcieLinkChange up speed width s
  | .pcieConfigWrite fn bme msixEn cfg => Sys2Proof.Machine.execPcieConfigWrite fn bme msixEn cfg s
  | .rstNRelease => Sys2Proof.Machine.execRstNRelease s
  | .vbatUvRecovery => Sys2Proof.Machine.execVbatUvRecovery s
  | .busRecessiveReturn xcvr => Sys2Proof.Machine.execBusRecessiveReturn xcvr s
  | .txdRecessiveReturn xcvr => Sys2Proof.Machine.execTxdRecessiveReturn xcvr s
  | .linResponseComplete ch data checksum bitErr collision age => Sys2Proof.Machine.execLinResponseComplete ch data checksum bitErr collision age s
  | .announceTransmit dom port => Sys2Proof.Machine.execAnnounceTransmit dom port s
  | .announceReceiptTimeout dom port => Sys2Proof.Machine.execAnnounceReceiptTimeout dom port s
  | .signalingReceive port rx => Sys2Proof.Machine.execSignalingReceive port rx s
  | .vbatMeasurement units => Sys2Proof.Machine.execVbatMeasurement units s

end Sys2Proof.Machine
end

