-- ==== Sys2Proof/WellFormed.lean ====
section
/-! DEFINITION. Which commands the outside world can send: every operand within the range that its place in the spec gives it. The
meanings are total; a command outside these ranges names nothing. -/

namespace Sys2Proof

/-- A number below a limit. -/
def below (n i : Nat) : Bool := decide (i < n)

/-- An address of the register bus: 32 bits (R6). -/
def below32 (a : Nat) : Bool := decide (a < 2 ^ 32)

/-- Source IDs run from 0x00 to 0x58 (Table 18.1). -/
def unitLimit : Nat := 0x59

/-- The masters of the register bus (Table 15.3): PF0 and VF1 to VF4, MSPI, the triad with CHECKED 1 and 0, Kettle, the thirteen
engines, the time engine, Caddy, the crypto service, the debug port. -/
def okMaster (m : Nat) : Bool :=
  (decide (1 ≤ m) && decide (m ≤ 5)) || m == 0x08 || m == 0x10 || m == 0x11 || m == 0x18
    || (decide (0x20 ≤ m) && decide (m ≤ 0x2C)) || (decide (0x30 ≤ m) && decide (m ≤ 0x32)) || m == 0x38

/-- The master of a command, or the device itself. -/
def okCommander : Option Nat → Bool
  | none => true
  | some m => okMaster m

/-- Transceivers: 0 to 11, and 16 to 23 (8.1). -/
def okXcvr (x : Nat) : Bool := decide (x < 12) || (decide (16 ≤ x) && decide (x < 24))

/-- At most `n` bytes. -/
def okData (n : Nat) (l : List Byte) : Bool := decide (l.length ≤ n)

/-- Only an E-port receives from a wire, 1 to 64 bytes in a fabric cycle (2.2). -/
def okWireIn (port : Nat) : Option RxIn → Bool
  | none => true
  | some c => below 12 port && decide (1 ≤ c.data.length) && okData 64 c.data && below (2 ^ 80) c.wc

/-- Bus frames: four formats, a 29-bit identifier, at most 2,048 bytes. -/
def okFrame (f : BusFrame) : Bool :=
  below 4 f.format && below (2 ^ 29) f.id && below 2048 f.dlc && okData 2048 f.data && below 64 f.cycle

/-- A frame that a CAN controller receives, or none. -/
def okFrameIn : Option BusFrame → Bool
  | none => true
  | some f => okFrame f

/-- The seven kinds of a CAN error. -/
def okCanErr (e : CanErrIn) : Bool := decide (1 ≤ e.kind) && below 8 e.kind

/-- A SENT message: status and nibbles of 4 bits. -/
def okSent (m : SentIn) : Bool := decide (m.nibbles.length ≤ 8)

/-- Wake pins 0 to 3, C0 to C7, L0 to L3 (Table 10.3). -/
def okWake : WakeIn → Bool
  | .pin p _ => below 4 p
  | .wup ch => below 8 ch
  | .lin ch => below 4 ch

/-- A ring message's fields within their widths (Table 10.1). -/
def okRing (m : RingIn) : Bool := below 256 m.ring && below 64 m.sender && below 256 m.round && below 128 m.votes && below 256 m.arg

/-- Straps of two bits; commit records of 64 bytes where there are any. -/
def okBrew (x : BrewIn) : Bool := below 4 x.bootMode && okData 64 x.recA && okData 64 x.recB

/-- Failures of existing slices, rows of the ledger memories, engines. -/
def okSelfTest (x : SelfTestIn) : Bool :=
  x.cells.all (fun c => below 16 c.1 && below 8192 c.2) && x.rows.all (fun r => decide (1 ≤ r.1) && below 18 r.1)
    && x.engines.all (below 13)

/-- A header of 256 bytes and a table of at most 96 digests. -/
def okHead (x : HeadIn) : Bool := x.header.length == 256 && okData 3072 x.table

/-- A block of 64 KiB at most, and settings copies of 512 KiB at most. -/
def okBlock (x : BlockIn) : Bool := okData 65536 x.data && okData 524288 x.set0 && okData 524288 x.set1

/-- A transaction of the triad: one of three cores, and three values and delay counts. -/
def okTx (t : TriadTx) : Bool := below 3 t.core && t.votes.length == 3 && t.delay.length == 3 && t.delay.all (below 3)

/-- A mailbox response fills at most 63 words after its header. -/
def okWords (l : List Nat) : Bool := decide (l.length ≤ 63) && l.all (below (2 ^ 32))

/-- A receive secure channel, 0 to 7, or the transmit side. -/
def okRx : Option Nat → Bool
  | none => true
  | some c => below 8 c

/-- The BARs of R368. -/
def okBar (b : Nat) : Bool := b == 0 || b == 2

/-- A DW offset within the largest BAR. -/
def okOffset (o : Nat) : Bool := o % 4 == 0 && below 0x4000000 o

/-- A memory request of 1 to 16 DW (R370). -/
def okDws (l : List PcieDw) : Bool := decide (1 ≤ l.length) && decide (l.length ≤ 16) && l.all (fun d => below 16 d.be)

/-- Buffers for the five functions. -/
def okBufs (l : List (Nat × Nat)) : Bool := decide (l.length ≤ 5) && l.all (fun b => below (2 ^ 64) b.1 && below 16384 b.2)

/-- Pin levels of 24 GPIO and twice 12 PHY lines. -/
def okPins (p : PinsIn) : Bool := below (2 ^ 24) p.gpio && below 4096 p.phyInt && below 4096 p.phyWake

/-- Link rates in Mb/s: no link, 10, 100, 1,000, 2,500, 5,000, 10,000, 25,000. -/
def okRate (r : Nat) : Bool := [0, 10, 100, 1000, 2500, 5000, 10000, 25000].contains r

/-- A command with every operand in range. -/
def Instr.wf : Instr → Bool
  | .registerWrite addr _ master => below32 addr && okMaster master
  | .readClear addr master => below32 addr && okMaster master
  | .latchingRead addr master => below32 addr && okMaster master
  | .tickBoundary unit _ pins => below unitLimit unit && okPins pins
  | .tickJobBudgetSpent unit => below unitLimit unit
  | .unitEnable unit _ master => below unitLimit unit && okMaster master
  | .unitReset unit master => below unitLimit unit && okMaster master
  | .faultClear unit _ master => below unitLimit unit && okMaster master
  | .injectArm unit _ master => below unitLimit unit && okMaster master
  | .commitDiscard unit master => below unitLimit unit && okMaster master
  | .cellWrite port rx => below 16 port && okWireIn port rx
  | .headDeliver port => below 16 port
  | .frameEnd port assembly => below 12 port && below 4 assembly
  | .pauseFrameReceive port data _ _ wc => below 12 port && okData 64 data && below (2 ^ 80) wc
  | .pauseTimerExpiry port _ => below 12 port
  | .sourceEvent _ => true
  | .hitUpdate _ => true
  | .learnInsert _ => true
  | .fdbNop _ master => okMaster master
  | .fdbInsert _ master => okMaster master
  | .fdbDelete _ master => okMaster master
  | .fdbLookup _ master => okMaster master
  | .fdbReadSlot _ index master => below 65536 index && okMaster master
  | .fdbFlush _ master => okMaster master
  | .fdbShadowWrite _ index master => below 65536 index && okMaster master
  | .fdbShadowRead _ index master => below 65536 index && okMaster master
  | .fdbVlanWrite _ index master => below 65536 index && okMaster master
  | .fdbVlanRead _ index master => below 65536 index && okMaster master
  | .fdbInsertShadowed _ index master => below 65536 index && okMaster master
  | .fdbDeleteShadowed _ index master => below 65536 index && okMaster master
  | .fdbCmdInvalid _ master => okMaster master
  | .fdbCmdComplete _ => true
  | .canKeySubmit engine => below 13 engine
  | .streamGateCycleStart _ gate => below 64 gate
  | .streamGateEntryExpiry _ gate => below 64 gate
  | .tcamRescan _ _ => true
  | .ruleNop _ master => okMaster master
  | .writeRule _ row _ master => below 4096 row && okMaster master
  | .readRule _ row _ master => below 4096 row && okMaster master
  | .clearRule _ row _ master => below 4096 row && okMaster master
  | .writeZpair _ index _ master => below 4096 index && okMaster master
  | .readZpair _ index _ master => below 4096 index && okMaster master
  | .writeZmap _ index _ master => below 4096 index && okMaster master
  | .readZmap _ index _ master => below 4096 index && okMaster master
  | .writePfx _ index _ master => below 4096 index && okMaster master
  | .readPfx _ index _ master => below 4096 index && okMaster master
  | .copyActive _ master => okMaster master
  | .ruleCmdInvalid _ master => okMaster master
  | .ruleCmdComplete _ => true
  | .guardMatch ch id _ _ => below 16 ch && below (2 ^ 29) id
  | .guardFlagEnd ch => below 16 ch
  | .guardDriveFault ch => below 16 ch
  | .cellRead port => below 16 port
  | .pfcRefresh port tc => below 16 port && below 8 tc
  | .ingressUnderrun port tc => below 12 port && below 8 tc
  | .spoutSelect port => below 16 port
  | .gateCycleStart port => below 12 port
  | .gateEntryExpiry port => below 12 port
  | .gclDataWrite port _ master => below 12 port && okMaster master
  | .gclDataRead port => below 12 port
  | .framePreempt port _ => below 12 port
  | .preemptVerify port outcome => below 12 port && below 2 outcome
  | .syncProcess port num rx => below 12 port && below 256 num && okWireIn port rx
  | .syncTransmit dom port => below 4 dom && below 12 port
  | .pdelayReqSend port => below 12 port
  | .pdelayExchange port resp followUp => below 12 port && okWireIn port resp && okWireIn port followUp
  | .pdelayRespTimeout port => below 12 port
  | .pdelayRespSend port => below 12 port
  | .announceReceive port num rx => below 12 port && below 256 num && okWireIn port rx
  | .syncTimeout dom => below 4 dom
  | .holdExpiry dom => below 4 dom
  | .domAccept dom seq master => below 4 dom && below 256 seq && okMaster master
  | .domSet dom master => below 4 dom && okMaster master
  | .domResetGuard dom master => below 4 dom && okMaster master
  | .domCmdInvalid dom master => below 4 dom && okMaster master
  | .snapshotTake master => okMaster master
  | .tsinCapture input _ phase => below 16 input && below 4 phase
  | .tsinPop input => below 16 input
  | .tsoutEdge output => below 8 output
  | .xcvrModeWrite xcvr _ master => okXcvr xcvr && okMaster master
  | .xcvrModeChange xcvr => okXcvr xcvr
  | .txdDominantTimeout xcvr => okXcvr xcvr
  | .busDominantTimeout xcvr => okXcvr xcvr
  | .canFrameReceive ch frame _ _ => below 16 ch && okFrameIn frame
  | .canFrameTransmit ch phase _ => below 16 ch && below 4 phase
  | .canError ch err => below 16 ch && okCanErr err
  | .canIntegrated ch => below 16 ch
  | .canRecover ch master => below 16 ch && okCommander master
  | .canRecoveryDone ch => below 16 ch
  | .canOpmode ch mode master => below 16 ch && below 4 mode && okMaster master
  | .canShaperRelease ch => below 16 ch
  | .linSlotStart ch => below 8 ch
  | .linHeaderReceive ch id _ => below 8 ch && below 64 id
  | .linResponseTimeout ch => below 8 ch
  | .sentMessage ch msg => below 8 ch && okSent msg
  | .qspiTransfer spi _ => below 4 spi
  | .flxConfig master => okMaster master
  | .flxReady master => okMaster master
  | .flxWakeup master => okMaster master
  | .flxRun master => okMaster master
  | .flxAllSlots master => okMaster master
  | .flxHalt master => okMaster master
  | .flxFreeze master => okMaster master
  | .flxSlot slot cycle _ _ _ _ _ => below 2048 slot && below 64 cycle
  | .t1sFrameReceive seg data _ => below 8 seg && okData 9216 data
  | .t1sTxOpportunity seg kind node => below 8 seg && below 4 kind && below 255 node
  | .infuserRxItem engine => below 13 engine
  | .infuserEthItem engine => below 13 engine
  | .infuserSbItem engine => below 13 engine
  | .infuserMgmtItem engine _ => below 13 engine
  | .sigStep engine => below 13 engine
  | .signalTimeout engine pdu => below 13 engine && below 4096 pdu
  | .pduDue engine pdu => below 13 engine && below 4096 pdu
  | .p13PduHandoff engine => below 13 engine
  | .tblNop inst master => below 13 inst && okMaster master
  | .tblWrite inst table index master => below 13 inst && below 4 table && below 16384 index && okMaster master
  | .tblRead inst table index master => below 13 inst && below 4 table && below 16384 index && okMaster master
  | .tblClear inst table index master => below 13 inst && below 4 table && below 16384 index && okMaster master
  | .tblCmdInvalid inst master => below 13 inst && okMaster master
  | .memDataWrite engine _ master => below 13 engine && okMaster master
  | .memDataRead engine => below 13 engine
  | .roundStart ring => below 25 ring
  | .tokenTimeout ring => below 25 ring
  | .ringToken ring msg => below 25 ring && okRing msg
  | .ringAgree ring msg => below 25 ring && okRing msg
  | .ringDrain ring msg => below 25 ring && okRing msg
  | .ringCommit ring msg => below 25 ring && okRing msg
  | .ringWake ring msg => below 25 ring && okRing msg
  | .ringBadMsg ring => below 25 ring
  | .wakeDetect src => okWake src
  | .selectiveWakeFrame ch frame _ => below 8 ch && okFrame frame
  | .localWake master => okMaster master
  | .localHold _ master => okMaster master
  | .linGoToSleep ch => below 8 ch
  | .forceSleep key master => below 65536 key && okMaster master
  | .x32Check _ => true
  | .brewStart x => okBrew x
  | .selftestDone x => okSelfTest x
  | .segmentHeaderCheck x => okHead x
  | .flashBlockArrive x => okBlock x
  | .startFail reason segment detail part => below 9 reason && below 4 segment && below 65536 detail && below 16 part
  | .keyRevoke key slot master => below 65536 key && below 4 slot && okMaster master
  | .retry key master => below 65536 key && okMaster master
  | .updArm key master => below 65536 key && okMaster master
  | .updCancel key master => below 65536 key && okMaster master
  | .triadTransaction tx => okTx tx
  | .triadEventLatch _ cores => below 8 cores
  | .agreeOfferExpiry _ => true
  | .digestCompare _ _ _ => true
  | .resyncDone _ _ _ _ => true
  | .mailboxDoorbell mb master => below 4 mb && okMaster master
  | .mailboxResponse mb status words => below 4 mb && below 256 status && okWords words
  | .mailboxAck mb master => below 4 mb && okMaster master
  | .episodeEnd key seq master => below 65536 key && below 256 seq && okMaster master
  | .keyWrite slot master => below 256 slot && okMaster master
  | .keyErase slot master => below 256 slot && okMaster master
  | .keyEraseAll master => okMaster master
  | .jobSubmit ring tail master => below 4 ring && below 16 tail && okMaster master
  | .saInstall port rx an slot master => below 12 port && okRx rx && below 4 an && below 256 slot && okMaster master
  | .saRetire port rx an master => below 12 port && okRx rx && below 4 an && okMaster master
  | .drbgReseed _ => true
  | .alarm src => below 5 src || (decide (8 ≤ src) && below 13 src)
  | .alarmClear key present master => below 65536 key && below 32 present && okMaster master
  | .advance key master => below 4096 key && okMaster master
  | .progSign key arg master => below 4096 key && below 4 arg && okMaster master
  | .progFb key master => below 4096 key && okMaster master
  | .progDbg key master => below 4096 key && okMaster master
  | .dbgAuth x y r sig => below (2 ^ 256) x && below (2 ^ 256) y && below (2 ^ 256) r && below (2 ^ 256) sig
  | .pcieMemoryRequest fn bar offset _ dws => below 5 fn && okBar bar && okOffset offset && okDws dws
  | .txDescriptor len frame => below 16384 len && okData 9212 frame
  | .rxDelivery bufs => okBufs bufs
  | .functionLevelReset fn => below 5 fn
  | .intEoi master => okMaster master
  | .mspiWrite addr _ crc => below32 addr && below 256 crc
  | .mspiRead addr crc => below32 addr && below 256 crc
  | .mspiFrameError kind => below 4 kind
  | .mspiAbandon addr => below32 addr
  | .fenceRead master => okMaster master
  | .ulisPacketRetry _ => true
  | .ulisAuthExchange _ => true
  | .saucerBoundary _ => true
  | .ePortLinkChange port mbps => below 12 port && okRate mbps
  | .pcieLinkChange _ speed width => below 5 speed && below 5 width
  | .pcieConfigWrite fn _ _ cfg =>
    below 5 fn && below 3 cfg.payload && below 6 cfg.readRequest && below 8 cfg.aspm && below (2 ^ 32) cfg.aerMask &&
      below (2 ^ 32) cfg.aerSeverity && below (2 ^ 32) cfg.aerCorMask && below 5 cfg.numVfs
  | .busRecessiveReturn xcvr => okXcvr xcvr
  | .txdRecessiveReturn xcvr => okXcvr xcvr
  | .linResponseComplete ch data checksum _ _ _ => below 8 ch && okData 8 data && below 256 checksum
  | .announceTransmit dom port => below 4 dom && below 12 port
  | .announceReceiptTimeout dom port => below 4 dom && below 12 port
  | .signalingReceive port rx => below 12 port && okWireIn port rx
  | .vbatMeasurement units => below 1024 units
  | .bankRelease | .releaseTimeout | .canKeyJudge | .copyEnqueue | .discardWalk | .vbatUndervoltage | .p13Dispatch | .agreeTicksExpiry
  | .drainExpiry | .backboneTimeout | .commitRequest | .commitDelayExpiry | .wakeTimerExpiry | .cosyPowerOn | .powerOff | .pmicPgHigh
  | .pgTimeout | .inhRetryExpiry | .pgLoss | .clockLoss | .clockRestored | .rstPin | .essentialEnable | .handOver
  | .bootComplete | .bootDeadline | .activationFire | .activationRestart | .activationCancel | .debugHalt | .saucerReport | .safeStateEntry
  | .saucerRestart | .cosyGraceTimeout | .tickMessageTimeout | .gcmEnc | .gcmDec | .cmacGen | .cmacVer | .hmacGen
  | .hmacVer | .sha256 | .ecdsaVer | .kdf | .random | .genKey | .loadBlob | .wrapSlot
  | .importKey | .keyFetch | .tamperUnpowered | .pciePerst | .mspiNop | .postedWriteResolution | .ulisLinkDown | .ulisLinkUp
  | .rstNRelease | .vbatUvRecovery => true

end Sys2Proof
end

