-- ==== Sys2Proof/Safety.lean ====
section
/-! DEFINITION. What claims call safe: the canonical register file, the order in which the one-time-programmable store grows, the
queue of commands that can be sent, and what it means that only named registers have changed. -/

namespace Sys2Proof.Machine

/-- The register file is in its canonical form: addresses strictly rising, and no address listed with its reset value. -/
def State.regsWf (s : State) : Prop := smWf regReset s.regs = true

/-- The byte memories that software fills: the triad's SRAM, the engines' memories, the time engine's program and the wake
controller's are in canonical form: indices strictly rising, and no index listed with the 0 that an unlisted one reads as. -/
def State.memWf (s : State) : Prop :=
  smWf zero0 s.triad.sram = true ∧ smWf zero0 s.gw.mem = true ∧ smWf zero0 s.time.prog = true ∧ smWf zero0 s.cosy.prog = true

/-- Every command that waits can be sent. -/
def State.pendingWf (s : State) : Prop := s.pending.all Instr.wf = true

/-- What a programmed item of the one-time-programmable store becomes: itself. -/
def otpHeld {α : Type} (a b : Option α) : Prop := ∀ v, a = some v → b = some v

/-- The one-time-programmable store `b` holds everything that `a` holds: the life-cycle state is no earlier, no secret, hash or
revoke bit is lost, and the ledger has only grown (R271, R337, R362). -/
structure otpLe (a b : Otp) : Prop where
  lc : a.lc ≤ b.lc
  secret : otpHeld a.secret b.secret
  linkSecret : otpHeld a.linkSecret b.linkSecret
  signHash : ∀ e, e ∈ a.signHash → e ∈ b.signHash
  revoked : ∀ k, k ∈ a.revoked → k ∈ b.revoked
  fbHash : otpHeld a.fbHash b.fbHash
  dbgHash : otpHeld a.dbgHash b.dbgHash
  uid : a.uid = b.uid
  ledger : a.ledger <+: b.ledger

/-- `t` is `s` but for the registers at the listed addresses: every other register reads as before, and so does every other part of
the state. -/
def OnlyRegs (s t : State) (as : List Nat) : Prop :=
  t = { s with regs := t.regs } ∧ ∀ a, (∀ b ∈ as, canonAddr a ≠ canonAddr b) → t.word a = s.word a

/-- The words that hold the pending bit of vector 32 of each PCIe function. -/
def pbaAddrs : List Nat := (List.range 5).map (fun f => fldAddr (uFn f) F.fn_MSIX_PBA_W 1 0)

/-- `t` is `s` but for the registers at the listed addresses and for what an interrupt that becomes active leaves: an MSI-X message
sent, or the pending bit of its vector (R406). -/
def OnlyIrq (s t : State) (as : List Nat) : Prop :=
  t = { s with regs := t.regs, host := { s.host with msix := t.host.msix } } ∧
    ∀ a, (∀ b ∈ as ++ pbaAddrs, canonAddr a ≠ canonAddr b) → t.word a = s.word a

/-- `r` is `s` after a write of `v` to the register `f` at `a` by master `m`, taken by the access kinds of its fields (R8, R431): RW bits
as written, RWL bits only while the unit does not count as enabled, W1C bits cleared where 1 is written; RWS bits staged, in place of a
write staged for the same register. -/
def WriteTaken (s r : State) (m a : Nat) (v : Word) (f : Found) : Prop :=
  r.word a = merge (merge (s.word a) v (kindMask f .rw)) v (if s.enabled f.unit then 0#32 else kindMask f .rwl)
    &&& ~~~(v &&& kindMask f .w1c) ∧
  r.staged = (if kindMask f .rws = 0#32 then s.staged
    else s.staged.filter (fun e => canonAddr e.addr != canonAddr a) ++ [⟨f.unit, a, v, m, s.rd uMspi F.mspi_TRANSFERS⟩]) ∧
  OnlyIrq { s with staged := r.staged } r [a]

/-- A write that changes the value of an RWL field of a unit that counts as enabled (R431). -/
def State.rwlClash (s : State) (a : Nat) (v : Word) (f : Found) : Bool :=
  s.enabled f.unit && ((s.word a ^^^ v) &&& kindMask f .rwl) != 0#32

/-- Registers whose writes have rules beyond their access kinds: those of the MACs, the PCIe functions, TIME, CADDY and NETM, and
PFC_CFG, a write of which applies the levels (R129). -/
def Found.ruled (f : Found) : Bool :=
  [UKind.mac, .fn, .time, .caddy, .netm].contains (kindOf f.unit) ||
    (kindOf f.unit == .fab && decide (0x400 ≤ f.off ∧ f.off < 0x800 ∧ f.off % 0x40 = 8))

/-- A unit takes the commands of a master: the die takes commands, the unit is not RESETTING, and neither the stage of the start nor the
master bars them (R265, R267, R284, R305, R365, R399). -/
def State.takes (s : State) (u : UnitNo) (m : Nat) : Bool := !s.deaf && !s.barred u m

/-- A Brew die with nothing under way in time but its clocks: DOM_CMD, KEY_CMD and LC_CMD are not BUSY, the CAN key FIFO is not full, and
no E-port has a frame to send or a credit-based shaper on. -/
def State.quiet (s : State) : Prop :=
  (s.sec.busySets = [] ∧ s.flag uCaddy F.caddy_LC_CMD_BUSY = false) ∧ s.time.cmds = [] ∧ (s.strain true).canFifo.length < 64 ∧ ∀ p, p < 12 → (s.spoutAt p).line = [] ∧ s.cbsOn p = false

end Sys2Proof.Machine
end

