-- ==== Sys2Proof/Certificates/Slice0/Obligations.lean ====
section
/-! DEFINITION. The statements for the provers. -/

open Sys2Proof Sys2Proof.Machine

/-- A step runs the command at the front of the queue. For every command c, every rest of the queue and every state s
whose queue is c followed by the rest, one step of s is exec of c on s with the rest as its queue. (How a block takes
commands; the queue is the model's, log entry 66.) -/
def Obligations.FrontCommandRuns : Prop :=
  ∀ (c : Instr) (rest : List Instr) (s : State), s.pending = c :: rest → step s = exec c { s with pending := rest }

/-- With an empty queue the rest of one fabric cycle passes. For every state whose queue is empty one step completes. If
the Brew die has no clock (its power-on reset stands, or XIN is lost) nothing changes. If it has, and it is quiet (no
E-port has a frame to send or a credit-based shaper on, DOM_CMD, KEY_CMD and LC_CMD are not BUSY, the CAN key FIFO has
room), the rest of the present FAB cycle passes: WC has advanced by 2 ns (131,072 units of 2^-16 ns, modulo 2^80) for
each TIME edge in it, every register but FAB.CYCLE reads as before, and nothing but the registers, the clocks, the
times of the domains, the resets under way and, of the fabric, its LFSR, the ports used in this cycle and how far its
outputs follow their chains has changed. (That an empty queue lets time pass is the model's choice, log entry 66; that
no clock runs without XIN, log entry 84.) -/
def Obligations.EmptyQueueIdles : Prop :=
  ∀ s : State, s.pending = [] →
    (s.clocked = false → step s = .next s) ∧
    (s.clocked = true → s.quiet → ∃ t, step s = .next t ∧
      t.clk.wc = (s.clk.wc + s.timeCycles (4 - s.clk.fabQuarter) * 131072) % 2 ^ 80 ∧
      OnlyRegs { s with clk := t.clk, resetPs := t.resetPs, time := { s.time with domains := t.time.domains },
                        fab := { s.fab with lfsr := t.fab.lfsr, used := t.fab.used, reading := t.fab.reading } } t
        [fldAddr uFab F.fab_CYCLE 0 0])

/-- Every command completes and leaves the queue to the step. For every command c and every state s, exec of c answers a
next state, never a fault or a refusal, and leaves the queue of waiting commands as it was. (A register write that the
device refuses is completed too: the refusal is an access error that it records.) -/
def Obligations.EveryCommandCompletes : Prop :=
  ∀ (c : Instr) (s : State), ∃ t, exec c s = .next t ∧ t.pending = s.pending

/-- Every step keeps the register file canonical. For every state s whose register file is in canonical form (addresses
strictly rising, no address listed with its reset value), if a step of s answers next t, then the register file of t
is in canonical form, whichever command stood at the front of the queue. -/
def Obligations.RegistersStayCanonical : Prop :=
  ∀ s t : State, s.regsWf → step s = .next t → t.regsWf

/-- Every step keeps the byte memories canonical. For every state s in which the triad's SRAM, the infusers' memories, the
time engine's program and the wake controller's program are in canonical form (indices strictly rising, none listed
with the 0 that an unlisted index reads as), if a step of s answers next t, then all four are in canonical form in t. -/
def Obligations.MemoriesStayCanonical : Prop :=
  ∀ s t : State, s.memWf → step s = .next t → t.memWf

/-- No step takes anything out of the one-time-programmable store. For every state s, if a step of s answers next t, then
the one-time-programmable store of t holds everything that that of s holds: the life-cycle state is no earlier, every
programmed secret, hash and revoke bit is still there with its value, the unit identifier is the same, and the repair
ledger of s is a prefix of that of t. This holds for every command, the unit resets, the power events and the updates
among them. -/
def Obligations.OtpNeverLoses : Prop :=
  ∀ s t : State, step s = .next t → otpLe s.otp t.otp

/-- The reset state has the invariants and an empty queue. In the state after reset the register file and the four byte
memories are in canonical form, and no command waits. -/
def Obligations.ResetIsCanonical : Prop :=
  State.reset.regsWf ∧ State.reset.memWf ∧ State.reset.pending = []

/-- Setting a field changes that field and nothing else. For every state, unit, field of at most 32 bits, value and
indices: after the field has been set it reads the low bits of the value; every field that shares no bit with it, in
the same register or in another, reads as before; every other register and every other part of the state is as before.
The statements about commands are written with this operation and with the counters built on it. -/
def Obligations.FieldWriteChangesItsField : Prop :=
  ∀ (s : State) (u : UnitNo) (f : Fld) (v i j : Nat), f.lsb + f.width ≤ 32 →
    (s.wr u f v i j).rd u f i j = v % 2 ^ f.width ∧
    (∀ g : Fld, fldAddr u g i j = fldAddr u f i j → (g.lsb + g.width ≤ f.lsb ∨ f.lsb + f.width ≤ g.lsb) →
      (s.wr u f v i j).rd u g i j = s.rd u g i j) ∧
    OnlyRegs s (s.wr u f v i j) [fldAddr u f i j]

/-- Counters wrap or saturate and change nothing else. For every state and every counter field of at most 32 bits: a
wrapping counter that counts n reads its old value plus n modulo 2 to its width; a saturating counter reads the old
value plus n, but at most its greatest value; in both cases every other register and every other part of the state is
as before. -/
def Obligations.CountersCount : Prop :=
  ∀ (s : State) (u : UnitNo) (f : Fld) (i j n : Nat), f.lsb + f.width ≤ 32 →
    (s.inc u f i j n).rd u f i j = (s.rd u f i j + n) % 2 ^ f.width ∧
    (s.sat u f i j n).rd u f i j = min (s.rd u f i j + n) (2 ^ f.width - 1) ∧
    OnlyRegs s (s.inc u f i j n) [fldAddr u f i j] ∧ OnlyRegs s (s.sat u f i j n) [fldAddr u f i j]

/-- REGISTER_WRITE takes each field by its access kind. For every aligned address of a register beyond the unit frame on
the Brew die, of a unit other than a MAC, a PCIe function, TIME, CADDY or NETM and other than PFC_CFG (which have
rules of their own), that answers the master, is not barred, starts no command, and is not written by Kettle while its
unit is disabled: REGISTER_WRITE completes. RW fields take the written bits; RWL fields take them only while the unit
does not count as enabled; W1C fields lose the bits written 1; every other bit of the register is as before. If the
register has RWS fields the write is staged with its unit, address, value and master, in place of a write staged for
the same register. An RWL field written with a different value while the unit is enabled adds the refusal of the
write; otherwise one evaluation of the unit's access detector is added, which only an injection armed there makes
fire. Nothing else changes but for an interrupt that the change makes active. -/
def Obligations.RegisterWriteByAccessKind : Prop :=
  ∀ (s : State) (a m : Nat) (v : Word) (f : Found),
    s.debugBarred m = false → a % 4 = 0 → a < 2 ^ 32 → cosyAddr a = false → findReg a = some f → s.barred f.unit m = false →
    ownedBy m f = true → 0x40 ≤ f.off → s.commandWrite m f a v = none → ¬ (m = 0x18 ∧ s.enabled f.unit = false) →
    f.ruled = false →
    ∃ r, exec (.registerWrite a v m) s =
        .next (if s.rwlClash a v f then r.refuse m a else r.accessSeen m a 2 f.unit) ∧ WriteTaken s r m a v f

/-- REGISTER_WRITE to no register is refused, and to the Cosy die it is posted. For every state, address, value and master
that the debug state lets through: a write is refused, with nothing else changed, when its address is not a multiple
of 4 or lies beyond 32 bits, or the master is a VF in Fallback mode; when it lies on the Cosy die and the Ulis link is
down; when it lies on the Brew die and no register is there, or the register answers another master, or its unit bars
the master (in reset, a host before boot complete, the triad without agreement). With the link up, a write to the Cosy
die by a master other than Kettle only joins the writes on their way, behind the earlier ones, with the number of the
MSPI transfer in progress. On a die that takes no access (test mode, no power), and from the debug port in a closed
debug state, it has no effect. (R13, R265, R267, R284, R364, R365, R380, R397, R399.) -/
def Obligations.RegisterWriteRefusedOrPosted : Prop :=
  ∀ (s : State) (a m : Nat) (v : Word),
    (s.debugBarred m = true → exec (.registerWrite a v m) s = .next s) ∧
    (s.debugBarred m = false →
      ((a % 4 ≠ 0 ∨ 2 ^ 32 ≤ a ∨ s.vfBarred m = true) → exec (.registerWrite a v m) s = .next (s.refuse m a)) ∧
      (a % 4 = 0 → a < 2 ^ 32 → s.vfBarred m = false →
        (cosyAddr a = true →
          (s.flag uUlis F.ulis_ULIS_STATUS_UP = false → exec (.registerWrite a v m) s = .next (s.refuse m a)) ∧
          (s.flag uUlis F.ulis_ULIS_STATUS_UP = true → m ≠ 0x18 → exec (.registerWrite a v m) s = .next { s with
            host := { s.host with posted := s.host.posted ++ [⟨m, a, v, s.rd uMspi F.mspi_TRANSFERS, false⟩] } })) ∧
        (cosyAddr a = false →
          (findReg a = none → exec (.registerWrite a v m) s = .next (s.refuse m a)) ∧
          (∀ f, findReg a = some f → (s.barred f.unit m = true ∨ ownedBy m f = false) →
            exec (.registerWrite a v m) s = .next (s.refuse m a)))))

/-- A refused write is an access error, counted in the fence of its master. For every state, master and address, with no
injection armed in the access detector of the reporting unit: a refused write sends a report of detector 31 of the
unit whose window holds the address (of the master's unit where no leaf window does), with access type 4, the master,
the address and the WC time in nanoseconds, joined to a report of the same detector that still waits. The registers
that change are the reporting unit's UNIT_FAULT and, for PF0, VF1 to VF4 and MSPI, the count and the address of the
master's fence; a refusal of MSPI is kept for LAST_ERR. Nothing else changes. -/
def Obligations.RefusalIsRecorded : Prop :=
  ∀ (s : State) (m a : Nat), s.armed (accessReporter m a) 31 = false →
    (s.refuse m a).reports = joinReport ⟨accessReporter m a, 31, 1, 4, m, a, 0, s.wcNs, false⟩ s.reports ∧
    (m = 8 → (s.refuse m a).rd uMspi F.mspi_FENCE_ADDR = a % 2 ^ 32 ∧ (s.refuse m a).host.mspiErr = true) ∧
    (m = 1 → (s.refuse m a).rd uPcie F.pcie_FENCE_ADDR = a % 2 ^ 32) ∧
    (2 ≤ m → m ≤ 5 → (s.refuse m a).rd (uFn (m - 1)) F.fn_FN_FENCE_ADDR = a % 2 ^ 32) ∧
    OnlyRegs { s with reports := (s.refuse m a).reports, host := { s.host with mspiErr := (s.refuse m a).host.mspiErr } } (s.refuse m a)
      (fldAddr (accessReporter m a) F.unit_FAULT 0 0 ::
        (if m = 1 then [fldAddr uPcie F.pcie_FENCE_COUNT 0 0, fldAddr uPcie F.pcie_FENCE_ADDR 0 0]
         else if 2 ≤ m ∧ m ≤ 5 then [fldAddr (uFn (m - 1)) F.fn_FN_FENCE_COUNT 0 0, fldAddr (uFn (m - 1)) F.fn_FN_FENCE_ADDR 0 0]
         else if m = 8 then [fldAddr uMspi F.mspi_FENCE_COUNT 0 0, fldAddr uMspi F.mspi_FENCE_ADDR 0 0] else []))

/-- FAULT_CLEAR, INJECT_ARM and COMMIT_DISCARD do what the unit frame says. For every unit of the Brew die that does not
bar the master. FAULT_CLEAR of a leaf, except by master 0x11 when it would clear a bit that is set, clears exactly the
fault bits written 1. INJECT_ARM of a leaf makes UNIT_INJECT the written bits of the detectors the unit has; in a
group it does nothing. COMMIT_DISCARD drops the staged writes of the unit and of its subtree. Each of them changes
nothing else. Of COSY each of them, UNIT_ENABLE and UNIT_RESET is the REGISTER_WRITE of its register of the frame,
which goes over the Ulis link. -/
def Obligations.UnitFrameCommands : Prop :=
  ∀ (s : State) (u m : Nat) (v : Word), s.takes u m = true → u ≠ uCosy →
    (isLeaf u = true → ¬ (m = 0x11 ∧ s.clearsFault u v = true) →
      exec (.faultClear u v m) s = .next (s.wr u F.unit_FAULT (s.word (baseOf u + 0xC) &&& ~~~v).toNat)) ∧
    (isLeaf u = true → exec (.injectArm u v m) s = .next (s.wr u F.unit_INJECT (v.toNat &&& detMask u))) ∧
    (isLeaf u = false → exec (.injectArm u v m) s = .next s) ∧
    exec (.commitDiscard u m) s = .next { s with staged := s.staged.filter (fun e => !(subtree u).contains e.unit) } ∧
    exec (.faultClear uCosy v m) s = exec (.registerWrite (baseOf uCosy + 0xC) v m) s ∧
    exec (.injectArm uCosy v m) s = exec (.registerWrite (baseOf uCosy + 0x10) v m) s ∧
    exec (.commitDiscard uCosy m) s = exec (.registerWrite (baseOf uCosy + 0x14) 0x40000000#32 m) s ∧
    exec (.unitReset uCosy m) s = exec (.registerWrite (baseOf uCosy + 4) 2#32 m) s ∧
    (∀ en, exec (.unitEnable uCosy en m) s = exec (.registerWrite (baseOf uCosy + 4) (BitVec.ofNat 32 (b2n en)) m) s)

/-- UNIT_ENABLE sets EN, and only units whose state of being enabled changes react. For every unit of the Brew die that
does not bar the master: SYS keeps its EN. In every other unit UNIT_ENABLE sets EN to the operand, and if no leaf of
its subtree thereby changes whether it counts as enabled, nothing else happens. The same holds whether or not it
changes for a leaf of a kind that has nothing to start or stop: Kettle, Caddy, a Strainer, TSIO, a PCIe function, MSPI
and Ulis. -/
def Obligations.UnitEnableSetsTheBit : Prop :=
  ∀ (s : State) (u m : Nat) (en : Bool), s.takes u m = true → u ≠ uCosy →
    (u = uSys → exec (.unitEnable u en m) s = .next s) ∧
    (u ≠ uSys →
      ((∀ l ∈ leavesOf u, (s.wr u F.unit_CTRL_EN (b2n en)).enabled l = s.enabled l) ∨
        (leavesOf u = [u] ∧ kindOf u ∈ [UKind.kettle, .caddy, .strain, .tsio, .fn, .mspi, .ulis])) →
      exec (.unitEnable u en m) s = .next (s.wr u F.unit_CTRL_EN (b2n en)))

/-- UNIT_RESET of a leaf puts its registers back and holds it for 64 cycles. For every unit of the Brew die that does not
bar the master: UNIT_RESET of SYS it is the restart of the Brew die with cause 7 (SW_RESET). With no read waiting, for
a leaf among the Spouts, MSPI, SENT, FlexRay, 10BASE-T1S, LIN and TSIO, every stored register of the unit's window
reads its reset value afterwards and every register outside it reads as before, no write staged for the unit waits,
its saved tick job is gone, and the unit is held in reset for 64 cycles of its clock. -/
def Obligations.UnitResetHolds64Cycles : Prop :=
  ∀ (s : State) (u m : Nat), s.takes u m = true → u ≠ uCosy →
    (u = uSys → exec (.unitReset u m) s = .next (s.brewRestart 7)) ∧
    (s.host.reads = [] → subtree u = [u] → u ≠ uSys → kindOf u ∈ [UKind.spout, .mspi, .sent, .flx, .t1s, .lin, .tsio] →
      ∃ t, exec (.unitReset u m) s = .next t ∧
        (∀ a, t.word a = if inUnit u (canonAddr a) then regReset (canonAddr a) else s.word a) ∧
        t.staged = s.staged.filter (fun e => e.unit != u) ∧ t.jobs = s.jobs.filter (fun e => e.1 != u) ∧
        t.resetPs = s.resetPs.filter (fun e => e.1 != u) ++ [(u, 64 * cyclePs u)] ∧
        t = { s with regs := t.regs, staged := t.staged, jobs := t.jobs, resetPs := t.resetPs, spout := t.spout,
                     host := { s.host with mspiErr := t.host.mspiErr }, edge := t.edge, time := t.time })

/-- TICK_BOUNDARY at a unit: cut, commit, act, start. With TICK counting as enabled and neither TICK nor the unit held in
reset, TICK_BOUNDARY at a unit other than TICK first records the cut of a tick job that has not finished (if the unit
counts as enabled; PIPE_W counts one boundary of a bank pair in DRAINING), then commits the unit's staged writes, then
does what the unit does at a boundary, then starts its tick job. At TICK itself a command that DOM_CMD is BUSY with is
executed and the time of the boundary passes first, TICK counts, and its message goes to the Cosy die. -/
def Obligations.BoundaryCutsCommitsStarts : Prop :=
  ∀ (s : State) (u : Nat) (work : Option Nat) (pins : PinsIn), s.enabled uTick = true → s.resetting uTick = false → s.resetting u = false →
    (u ≠ uTick → exec (.tickBoundary u work pins) s =
      .next ((((((if hasTickJob u = true ∧ s.enabled u = true then s.jobOverrun u else s).beforeCommit u).commitUnit u).boundaryActions u pins)).jobAtBoundary u work)) ∧
    (u = uTick → ∀ q, q = (if s.clocked = true then s.runDomCmds else s) →
      exec (.tickBoundary u work pins) s = .next ((q.advance q.tickWait).tickTick.tickMessage.commitUnit uTick))

/-- An unfinished tick job counts its overruns and faults on the sixteenth. At a boundary, before the commit, for a unit
with a tick job: unfinished work adds one to OVR_TOTAL, saturating, and one to OVR_CONSEC, and detector 30 is
evaluated without an error; when OVR_CONSEC was 15 it becomes 0 and detector 30 is evaluated with an error; with no
unfinished work the counts stay. In all cases the job is no longer stopped. TICK_JOB_BUDGET_SPENT stops the job of an
enabled unit that has unfinished work, and does nothing else; without unfinished work, or with the unit not counting
as enabled, it does nothing. At the boundary of a unit that does not count as enabled its job does not run and RUNNING
reads 0. -/
def Obligations.OverrunRecord : Prop :=
  ∀ (s : State) (u : Nat), hasTickJob u = true →
    (s.unfinished u = true → s.rd u F.unit_TICKJOB_OVR_CONSEC < 15 →
      s.jobOverrun u = (((s.sat u F.unit_TICKJOB_OVR_TOTAL).wr u F.unit_TICKJOB_OVR_CONSEC (s.rd u F.unit_TICKJOB_OVR_CONSEC + 1)).setTickJob u
        { s.tickJob u with stopped := false }).check u 30 false) ∧
    (s.unfinished u = true → s.rd u F.unit_TICKJOB_OVR_CONSEC = 15 →
      s.jobOverrun u = (((s.sat u F.unit_TICKJOB_OVR_TOTAL).wr u F.unit_TICKJOB_OVR_CONSEC 0).setTickJob u
        { s.tickJob u with stopped := false }).check u 30 true) ∧
    (s.unfinished u = false → s.jobOverrun u = (s.setTickJob u { s.tickJob u with stopped := false }).check u 30 false) ∧
    (s.unfinished u = true → s.enabled u = true →
      exec (.tickJobBudgetSpent u) s = .next (s.setTickJob u { s.tickJob u with stopped := true })) ∧
    ((s.unfinished u = false ∨ s.enabled u = false) → exec (.tickJobBudgetSpent u) s = .next s) ∧
    (s.enabled u = false → ∀ work, s.jobAtBoundary u work = s.wr u F.unit_TICKJOB_RUNNING 0)

/-- With TICK disabled the Saucer keeps its own boundaries. While TICK does not count as enabled and the Saucer is not
held in reset, SAUCER_BOUNDARY lets the time pass until WC stands at a whole multiple of 125,000 ns, notes the
boundary, records the cut of an unfinished job if the Saucer counts as enabled, takes GRACE as it stands, does the
Saucer's work of a boundary and starts its job. While TICK counts as enabled it does nothing. -/
def Obligations.SaucerOwnBoundary : Prop :=
  ∀ (s : State) (work : Option Nat),
    (s.enabled uTick = false → s.resetting uSaucer = false →
      exec (.saucerBoundary work) s =
        .next ((if ((s.advance s.ownWait).setSaucer { (s.advance s.ownWait).saucer with ownAt := some (s.advance s.ownWait).wcNs }).enabled uSaucer
            then ((s.advance s.ownWait).setSaucer { (s.advance s.ownWait).saucer with ownAt := some (s.advance s.ownWait).wcNs }).jobOverrun uSaucer
            else (s.advance s.ownWait).setSaucer { (s.advance s.ownWait).saucer with ownAt := some (s.advance s.ownWait).wcNs }).holdGrace.saucerTick.jobAtBoundary
          uSaucer work)) ∧
    (s.enabled uTick = true → exec (.saucerBoundary work) s = .next s)

/-- The commit of a unit makes a staged write effective and notes the tick. For every unit of a kind whose commit sets
nothing else off (Saucer, triad, MAC, an infuser, FlexRay), with exactly one staged write of its own, which its
register does not refuse in part and which has RWS bits: the commit gives the RWS bits of the register the staged
values, keeps its other bits, notes the low 16 bits of the tick count in LAST_TICK, and leaves the staged writes of
the other units waiting. A unit without a staged write does nothing at its commit. -/
def Obligations.CommitTakesStagedWrites : Prop :=
  ∀ (s : State) (u : Nat),
    (s.staged.filter (fun e => e.unit == u) = [] → s.commitUnit u = s) ∧
    (∀ e, s.staged.filter (fun e => e.unit == u) = [e] → kindOf u ∈ [UKind.saucer, .triad, .mac, .gw, .flx] →
      s.refusedBits u [e] e = 0 →
      stagedMask e.addr ≠ 0#32 →
      ∃ t, s.commitUnit u = t.wr u F.unit_COMMIT_LAST_TICK (s.rd uTick F.tick_COUNT_COUNT % 65536) ∧
        t.staged = s.staged.filter (fun e => e.unit != u) ∧
        t.word e.addr = merge (s.word e.addr) e.value (stagedMask e.addr) ∧
        OnlyRegs { s with staged := t.staged } t [e.addr])

/-- READ_CLEAR and LATCHING_READ show the register, latch its high half and clear RC fields. For every aligned address on
the Brew die whose read need not wait (no read of the master waits before it, and it is no fence with a write of its
master on the way), of a register that answers the master, with its unit not held in reset, of a unit other than a
Spout, an infuser, TSIO or a PCIe function: READ_CLEAR and LATCHING_READ complete with the value that the register
shows; the high half that belongs to a low counter word is latched, and the register's RC fields take the value their
table clears them to; one evaluation of the unit's access detector follows. A register outside a MAC and TICK latches
nothing, and a register without RC fields is left as it was. -/
def Obligations.ReadShowsAndClears : Prop :=
  ∀ (s : State) (a m : Nat) (f : Found), s.debugBarred m = false → a % 4 = 0 → a < 2 ^ 32 → cosyAddr a = false → s.vfBarred m = false →
    s.readWaits s.host.reads m a = false → findReg a = some f → ownedBy m f = true → s.resetting f.unit = false → kindOf f.unit ∉ [UKind.spout, .gw, .tsio, .fn] →
    exec (.readClear a m) s = .next { (((s.latchHigh f).clearRc f).accessSeen m a 1 f.unit) with readData := s.shown m f } ∧
    exec (.latchingRead a m) s = .next { (((s.latchHigh f).clearRc f).accessSeen m a 1 f.unit) with readData := s.shown m f } ∧
    (kindOf f.unit ∉ [UKind.mac, .tick] → s.latchHigh f = s) ∧
    ((∀ x ∈ f.row.fields, x.kind ≠ .rc) → ∀ t : State, t.clearRc f = t)

/-- A read of a low octet word latches the matching high word. For every port of a MAC and every state: when the register
found is RX_OCTETS_LO or TX_OCTETS_LO of the MAC, the latch writes the upper 32 bits of the port's octet count to
RX_OCTETS_HI or TX_OCTETS_HI; for LAST_WC_LO of TICK it writes the upper 32 bits of the WC time of the last boundary
to LAST_WC_HI. No other register changes. -/
def Obligations.LatchedHighWords : Prop :=
  ∀ (s : State) (p : Nat) (r : RegRow), p < 12 →
    s.latchHigh ⟨uMac p, r, 0x204⟩ = s.wr (uMac p) F.mac_RX_OCTETS_HI_COUNT (smGet zero0 s.fab.rxOctets p / 2 ^ 32 % 2 ^ 32) ∧
    s.latchHigh ⟨uMac p, r, 0x314⟩ = s.wr (uMac p) F.mac_TX_OCTETS_HI_COUNT (smGet zero0 s.fab.txOctets p / 2 ^ 32 % 2 ^ 32) ∧
    s.latchHigh ⟨uTick, r, 0x110⟩ = s.wr uTick F.tick_LAST_WC_HI_NS (s.time.tick.last / 65536 / 2 ^ 32 % 2 ^ 32)

/-- FENCE_READ shows and clears the count of refusals of its master. For a die that serves the master, with no write and
no read of the master on its way, and no injection armed in the access detector of a function or of MSPI: FENCE_READ
completes with the count of the master's fence register (PCIE for PF0, the function for VF1 to VF4, MSPI for MSPI) as
read data; afterwards the count is 0, and nothing else has changed. -/
def Obligations.FenceReadsItsRefusals : Prop :=
  ∀ (s : State),
    (s.debugBarred 1 = false → s.vfBarred 1 = false → s.readWaits s.host.reads 1 (fldAddr uPcie F.pcie_FENCE_COUNT 0 0) = false → s.resetting uPcie = false →
      ∃ t, exec (.fenceRead 1) s = .next t ∧ getBits t.readData 0 16 = s.rd uPcie F.pcie_FENCE_COUNT ∧
        t.rd uPcie F.pcie_FENCE_COUNT = 0 ∧ OnlyRegs { s with readData := t.readData } t [fldAddr uPcie F.pcie_FENCE_COUNT 0 0]) ∧
    (s.debugBarred 8 = false → s.vfBarred 8 = false → s.readWaits s.host.reads 8 (fldAddr uMspi F.mspi_FENCE_COUNT 0 0) = false → s.resetting uMspi = false → s.armed uMspi 31 = false →
      ∃ t, exec (.fenceRead 8) s = .next t ∧ getBits t.readData 0 16 = s.rd uMspi F.mspi_FENCE_COUNT ∧
        t.rd uMspi F.mspi_FENCE_COUNT = 0 ∧ OnlyRegs { s with readData := t.readData } t [fldAddr uMspi F.mspi_FENCE_COUNT 0 0]) ∧
    (∀ n, 1 ≤ n → n ≤ 4 → s.debugBarred (n + 1) = false → s.vfBarred (n + 1) = false →
      s.readWaits s.host.reads (n + 1) (fldAddr (uFn n) F.fn_FN_FENCE_COUNT 0 0) = false → s.resetting (uFn n) = false → s.armed (uFn n) 31 = false →
      ∃ t, exec (.fenceRead (n + 1)) s = .next t ∧ getBits t.readData 0 16 = s.rd (uFn n) F.fn_FN_FENCE_COUNT ∧
        t.rd (uFn n) F.fn_FN_FENCE_COUNT = 0 ∧ OnlyRegs { s with readData := t.readData } t [fldAddr (uFn n) F.fn_FN_FENCE_COUNT 0 0])

/-- INT_EOI and the way of an interrupt message. INT_EOI signals vector 32 of PF0 once more while the PF0 output is
active, and does nothing while it is not. Signalling a vector does nothing while MSI-X is off or its pending bit is
set; it sends the message with the address and data of the vector's table entry when the message may leave; otherwise
it sets the vector's pending bit. Nothing else changes. -/
def Obligations.InterruptVectors : Prop :=
  ∀ (s : State) (m f v : Nat), s.takes uSys m = true →
    (s.irqOut F.sys_INT_MASK_PF0_MASK = true → exec (.intEoi m) s = .next (s.signal 0 32)) ∧
    (s.irqOut F.sys_INT_MASK_PF0_MASK = false → exec (.intEoi m) s = .next s) ∧
    ((bitOf s.host.msixEn f = false ∨ s.msixPending f v = true) → s.signal f v = s) ∧
    (bitOf s.host.msixEn f = true → s.msixPending f v = false → s.msixOpen f v = true →
      s.signal f v = { s with host := { s.host with msix := s.host.msix ++
        [⟨f, v, s.msixWord f v 1 * 2 ^ 32 + s.msixWord f v 0, s.msixWord f v 2⟩] } }) ∧
    (bitOf s.host.msixEn f = true → s.msixPending f v = false → s.msixOpen f v = false →
      s.signal f v = s.orBit (uFn f) F.fn_MSIX_PBA_W (v % 32) (v / 32))

/-- POSTED_WRITE_RESOLUTION applies a write at the Cosy die. With a write on its way there is one that is resolved next:
it stands among the 16 that the posted buffer of the link holds, no write there has a lower master ID, and every write
before it there has a higher one, so the writes of one master are resolved in the order in which they were issued
(that the writes in the buffer reach the Cosy die by the same AON edge is the model's reading, log entry 122).
POSTED_WRITE_RESOLUTION takes the write that is resolved next out of those on their way. For a register of the Cosy
die beyond the unit frame, other than a transceiver's mode and FORCE_SLEEP, that is no wake register of a locked die,
the write is taken by the access kinds of its fields, as a write on the Brew die is; a write to an address without a
register, or to a locked wake register, is refused; a repair of the Saucer is written into the ledger. A refusal shows
in LAST_ERR only if the write was launched by the last transfer of MSPI. Then the reads that need wait no longer are
served. With nothing on its way only those reads are served. (Log entry 49 for how a write is taken.) -/
def Obligations.PostedWritesResolve : Prop :=
  ∀ (s : State),
    ((s.host.posted ≠ [] → (nextPosted s.host.posted).isSome = true) ∧
      (∀ i p, nextPosted s.host.posted = some (i, p) → (s.host.posted.take 16)[i]? = some p ∧ (∀ q ∈ s.host.posted.take 16, p.master ≤ q.master) ∧
        ∀ j < i, ∀ q, (s.host.posted.take 16)[j]? = some q → p.master < q.master)) ∧
    (nextPosted s.host.posted = none → exec .postedWriteResolution s = .next s.serveReads) ∧
    (∀ i p t, nextPosted s.host.posted = some (i, p) → t = s.setHost { s.host with posted := s.host.posted.eraseIdx i } →
      (p.repair = true → exec .postedWriteResolution s =
        .next ((t.ledgerWrite p.value.toNat).lastErrOf s p.master p.transfer).serveReads) ∧
      (p.repair = false → findReg p.addr = none → exec .postedWriteResolution s =
        .next ((t.refuse p.master p.addr).lastErrOf s p.master p.transfer).serveReads) ∧
      (∀ f, p.repair = false → findReg p.addr = some f → 0x40 ≤ f.off →
        (s.cosy.locked = true → wakeReg f.off = true → exec .postedWriteResolution s =
          .next ((t.refuse p.master p.addr).lastErrOf s p.master p.transfer).serveReads) ∧
        (¬ (s.cosy.locked = true ∧ wakeReg f.off = true) → ¬ (0x2000 ≤ f.off ∧ f.off < 0x2060) → f.off ≠ 0x100C →
          f.ruled = false →
          ∃ r, exec .postedWriteResolution s =
              .next ((if t.rwlClash p.addr p.value f then r.refuse p.master p.addr
                else r.accessSeen p.master p.addr 2 f.unit).lastErrOf s p.master p.transfer).serveReads ∧
            WriteTaken t r p.master p.addr p.value f)))

/-- CELL_WRITE writes the oldest held cell into the presented slice, or drops a frame for want of cells. For every E-port:
the MAC first hands its oldest complete cell to the hold. Then without a held cell nothing more happens, and neither
does anything for an input that has written its cell in this FAB cycle; with one and no free cell in the slice that
the rotation presents, SLICE_SKIP counts and a free value is used up; with one, the held cell is stored there with REF
0 under its frame's record, every other cell is as before, BUF_FREE falls by one, the record's chain ends with that
cell, and the hold has its remaining cells. The MAC hands nothing over while two cells are held or no cell is owed;
when the first cell of a frame finds no room (fewer than 144 free cells for each frame being written, the new one
included), the frame is dropped and counted in BUF_FULL_DROP. (Which free cell is taken is open, log entry 1.) -/
def Obligations.CellEntersItsSlice : Prop :=
  ∀ (s : State) (port : Nat), port < 12 →
    (∀ q, q = s.macHand port →
      ((q.input port).hold = [] ∨ q.fab.used.contains port = true → exec (.cellWrite port none) s = .next q) ∧
      (∀ c rest, (q.input port).hold = c :: rest → q.fab.used.contains port = false →
        (q.freeCellFrom ((port + q.fabCycle) % 16) 8192 (q.drawn 8192) = none →
          exec (.cellWrite port none) s = .next ((q.usePort port).draw.inc uFab F.fab_SLICE_SKIP)) ∧
        (∀ ptr f, q.freeCellFrom ((port + q.fabCycle) % 16) 8192 (q.drawn 8192) = some ptr → q.frame c.record = some f →
          ∃ t, exec (.cellWrite port none) s = .next t ∧
            pmGet t.fab.cells ptr = some ⟨c.data, c.record, 0, c.sof, c.eof, false, false⟩ ∧
            (∀ r, r ≠ ptr → pmGet t.fab.cells r = pmGet q.fab.cells r) ∧
            t.rd uFab F.fab_BUF_FREE_FREE = q.rd uFab F.fab_BUF_FREE_FREE - 1 ∧
            t.frame c.record = some { f with chain := f.chain ++ [ptr], bytes := f.bytes + c.data.length, complete := c.eof, ended := false } ∧
            (t.input port).hold = rest))) ∧
    ((findIdx1 (s.macOwes port) (s.input port).rx 0 = none ∨ 2 ≤ (s.input port).hold.length) → s.macHand port = s) ∧
    (∀ i f, findIdx1 (s.macOwes port) (s.input port).rx 0 = some (i, f) → (s.input port).hold.length < 2 → f.cells = 0 →
      s.rd uFab F.fab_BUF_FREE_FREE < 144 * (s.writingCount + 1) →
      s.macHand port = (s.setInput port { s.input port with rx := (s.input port).rx.set i { f with lost := true } }).sat uFab F.fab_BUF_FULL_DROP)

/-- A copy that finds the queue-entry pool empty is dropped by a discard walk. COPY_ENQUEUE with a copy at its moment
whose record reads right, while no queue entry is free: the copy is counted in QENT_DROP, marked as dropped at its
port, and a discard walk of its frame is requested. This holds for every copy but a cut-through copy of a frame still
arriving that its admission does not take, which waits for the frame's end instead. -/
def Obligations.EmptyPoolDropsTheCopy : Prop :=
  ∀ (s : State) (r : Nat) (c : Copy) (rest : List (Nat × Copy)) (f : Frame), s.fab.toEnqueue = (r, c) :: rest → s.frame r = some f →
    s.armed uFab 0 = false → s.codeOf memRecord r = .good → s.rd uFab F.fab_QENT_FREE_FREE = 0 →
    (c.ct = false ∨ f.ended = true ∨ (s.admission c.queue (s.acctOf f c) f.fm.inPort f.fm.colour).admits = true) →
    exec .copyEnqueue s = .next (((({ s with fab := { s.fab with toEnqueue := rest } } : State).sat uFab F.fab_QENT_DROP).copyLost r c).walk r)

/-- COPY_ENQUEUE takes or drops the next copy as its admission decides. With no copy at its moment COPY_ENQUEUE does
nothing. With one whose record reads right and a free queue entry: a copy that the admission reserves, counts as
lossless or takes normally is put at the tail of its queue with its ACCT cells (a normal one after the evictions of
push-out); one over its limit is dropped and counted in QDROP_LIMIT, one that RED drops in QDROP_RED, a lossless one
without headroom in LOSSLESS_DROP too; and a cut-through copy of a frame still arriving that is not taken waits, as
store-and-forward, for the frame's end. -/
def Obligations.AdmissionDecides : Prop :=
  ∀ (s : State),
    (s.fab.toEnqueue = [] → exec .copyEnqueue s = .next s) ∧
    (∀ r c rest f q, s.fab.toEnqueue = (r, c) :: rest → q = ({ s with fab := { s.fab with toEnqueue := rest } } : State) → s.frame r = some f →
      s.armed uFab 0 = false → s.codeOf memRecord r = .good →
      (c.ct = true → f.ended = false → (q.admission c.queue (q.acctOf f c) f.fm.inPort f.fm.colour).admits = false →
        exec .copyEnqueue s = .next (q.setFrame r { f with plan := f.plan ++ [{ c with ct := false }] })) ∧
      (s.rd uFab F.fab_QENT_FREE_FREE ≠ 0 →
        (q.admission c.queue (q.acctOf f c) f.fm.inPort f.fm.colour = .reserved →
          exec .copyEnqueue s = .next (q.enqueue r c (q.acctOf f c) true false)) ∧
        (q.admission c.queue (q.acctOf f c) f.fm.inPort f.fm.colour = .lossless →
          exec .copyEnqueue s = .next (q.enqueue r c (q.acctOf f c) false true)) ∧
        (∀ l, q.admission c.queue (q.acctOf f c) f.fm.inPort f.fm.colour = .normal l →
          exec .copyEnqueue s = .next ((l.foldl (fun s e => s.evict e.1 e.2) q).enqueue r c (q.acctOf f c) false false)) ∧
        (c.ct = false ∨ f.ended = true →
          (q.admission c.queue (q.acctOf f c) f.fm.inPort f.fm.colour = .dropLimit →
            exec .copyEnqueue s = .next (((q.sat uFab F.fab_QDROP_LIMIT c.queue).copyLost r c).walk r)) ∧
          (q.admission c.queue (q.acctOf f c) f.fm.inPort f.fm.colour = .dropRed →
            exec .copyEnqueue s = .next (((q.sat uFab F.fab_QDROP_RED c.queue).copyLost r c).walk r)) ∧
          (q.admission c.queue (q.acctOf f c) f.fm.inPort f.fm.colour = .dropLossless →
            exec .copyEnqueue s = .next ((((q.sat uFab F.fab_LOSSLESS_DROP f.fm.inPort).sat uFab F.fab_QDROP_LIMIT c.queue).copyLost r c).walk r)))))

/-- INGRESS_UNDERRUN ends a started cut-through copy as a stomped frame. INGRESS_UNDERRUN at an E-port for the class of a
started cut-through copy that is being read, of a frame that is not complete: the reading ends, the entry leaves its
queue with its accounting, the bytes read so far stand on the line of the port as a whole frame marked stomped, the
cells the copy has not read are released by a walk, and UNDERRUN and STOMP of the port count. Otherwise nothing
happens. -/
def Obligations.UnderrunStomps : Prop :=
  ∀ (s : State) (p tc : Nat),
    (∀ r e l f q, (s.readingOf p).find? (fun r => r.tc == tc) = some r → s.queue (8 * p + tc) = e :: l → s.frame e.frame = some f →
      p < 12 → e.started = true → e.copy.ct = true → f.complete = false →
      q = (s.setReading p ((s.readingOf p).filter (fun r => r.tc != tc))).removeEntry (8 * p + tc) e →
      exec (.ingressUnderrun p tc) s = .next ((((q.setSpout p { q.spoutAt p with line := (q.spoutAt p).line.map (fun x =>
          if x.tc = r.tc ∧ x.body.isNone then { x with body := some (f.body p f.fm.tc r.bytes), known := q.clk.wc, stomp := true } else x) }).sat uFab F.fab_STOMP p).walkFrom
        e.frame (r.cells.map (·.1))).sat uFab F.fab_UNDERRUN p)) ∧
    (((s.readingOf p).find? (fun r => r.tc == tc) = none ∨ s.queue (8 * p + tc) = [] ∨ 12 ≤ p) → exec (.ingressUnderrun p tc) s = .next s) ∧
    (∀ e l, s.queue (8 * p + tc) = e :: l → (e.started = false ∨ e.copy.ct = false ∨ s.frame e.frame = none ∨ ∃ f, s.frame e.frame = some f ∧ f.complete = true) →
      exec (.ingressUnderrun p tc) s = .next s)

/-- DISCARD_WALK releases the next cell of a walk, and a release frees a cell at its last copy. A release of a cell that
finds REF below COPIES adds one to REF; one that finds REF equal to COPIES takes the cell out of use and BUF_FREE
rises by one. DISCARD_WALK without a walk does nothing; with one walk at a written cell before the last of the chain,
whose link word reads right and whose position the copy has not released itself, it releases that cell and the walk
stands at the next one. -/
def Obligations.CellsAreReleasedOnce : Prop :=
  ∀ (s : State),
    (∀ copies ptr c, pmGet s.fab.cells ptr = some c →
      (c.ref ≠ copies → s.release copies ptr = { s with fab := { s.fab with cells := pmSet s.fab.cells ptr { c with ref := c.ref + 1 } } }) ∧
      (c.ref = copies → pmGet (s.release copies ptr).fab.cells ptr = none ∧
        (s.release copies ptr).rd uFab F.fab_BUF_FREE_FREE = (s.rd uFab F.fab_BUF_FREE_FREE + 1) % 2 ^ F.fab_BUF_FREE_FREE.width)) ∧
    (s.fab.walks = [] → exec .discardWalk s = .next s) ∧
    (∀ k f ptr, s.fab.walks = [k] → s.frame k.frame = some f → f.chain[k.pos]? = some ptr → k.skip.contains k.pos = false →
      (f.complete = false ∨ k.pos + 1 ≠ f.chain.length) → s.armed uFab 0 = false → s.codeOf memLink ptr = .good →
      ∃ t, exec .discardWalk s = .next t ∧ t.fab.walks = [{ k with pos := k.pos + 1 }] ∧
        t = { s.release f.copies ptr with fab := { (s.release f.copies ptr).fab with walks := t.fab.walks } })

/-- CELL_READ reads the cell of the window that lies in the presented slice. For every output: with no copy being read, or
with the cell of this FAB cycle already read, CELL_READ does nothing; otherwise with one started copy being read,
which may be read on (room in the read buffer, no HOLD against it), of which a cell of the window lies in the
presented slice, whose codes read right and which is not the last one still unread, that cell is released and its
bytes stand in the copy being read, at their position in the frame (an E-port's line counts it as held in its read
buffer); with none of the window in that slice nothing happens. No ring message of the wake controller may stand last
among the frames delivered. -/
def Obligations.CellReadTakesTheCell : Prop :=
  ∀ (s : State) (p : Nat), p < 16 → s.netmTake = s →
    (s.readingOf p = [] ∨ s.fab.used.contains (16 + p) = true → exec (.cellRead p) s = .next s) ∧
    (∀ r e l f, s.fab.used.contains (16 + p) = false → s.readingOf p = [r] → s.mayRead p r = true → s.queue (8 * p + r.tc) = e :: l → e.started = true → s.frame e.frame = some f →
      (windowCell f r ((p + s.fabCycle) % 16) = none → exec (.cellRead p) s = .next s) ∧
      (∀ i ptr c t, windowCell f r ((p + s.fabCycle) % 16) = some (i, ptr) → pmGet s.fab.cells ptr = some c →
        s.armed uFab 0 = false → s.codeOf (memCell ptr) (ptr % 8192) = .good → s.codeOf memLink ptr = .good →
        (f.complete = false ∨ (pmSet r.cells i c.data).length ≠ f.chain.length) →
        t = ((s.usePort (16 + p)).release f.copies ptr).setReading p [{ r with cells := pmSet r.cells i c.data }] →
        exec (.cellRead p) s = .next (if p < 12 then t.bufferCell p r.tc else t).netmTake))

/-- SPOUT_SELECT sends a waiting time message first, and else selects by strict priority. For an E-port whose Spout counts
as enabled, with TX_EN set and transmission not stopped: a message of the time engine that waits, when it may start,
joins the port's line first; when nothing may start nothing is selected. With no copy being read and no HOLD in effect
and no message waiting: with c the highest eligible class of TC4 to TC7, the head copy of c is selected; without one
and with WRR_EN 0 the highest eligible of TC0 to TC3; without an eligible class nothing. A Spout that does not count
as enabled selects nothing, and neither does an E-port with TX_EN 0 or while transmission is stopped. -/
def Obligations.SpoutSelects : Prop :=
  ∀ (s : State) (p : Nat), p < 12 →
    ((s.enabled (uSpout p) = false ∨ s.txStopped = true ∨ s.flag (uMac p) F.mac_TX_CFG_TX_EN = false) → exec (.spoutSelect p) s = .next s) ∧
    (s.enabled (uSpout p) = true → s.txStopped = false → s.flag (uMac p) F.mac_TX_CFG_TX_EN = true →
      (∀ m l, s.txQueue p = m :: l → s.mayStart p 8 = true → exec (.spoutSelect p) s = .next ((s.ptpTaken p).sendMsg p m)) ∧
      ((∀ c, c < 8 → s.mayStart p c = false) → (s.txQueue p = [] ∨ s.mayStart p 8 = false) → exec (.spoutSelect p) s = .next s) ∧
      (s.txQueue p = [] → s.readingOf p = [] → s.held p = false → ∀ mask t, s.eligibleMask p = (mask, t) → t.readingOf p = [] → t.held p = false →
        (∀ c, 4 ≤ c → c ≤ 7 → bitOf mask c = true → (∀ d, c < d → d ≤ 7 → bitOf mask d = false) →
          exec (.spoutSelect p) s = .next (t.select p c (smGet intZero (t.spoutAt p).deficit c))) ∧
        ((∀ d, 4 ≤ d → d ≤ 7 → bitOf mask d = false) → t.flag (uSpout p) F.spout_SCHED_CFG_WRR_EN = false →
          (∀ c, c ≤ 3 → bitOf mask c = true → (∀ d, c < d → d ≤ 3 → bitOf mask d = false) →
            exec (.spoutSelect p) s = .next (t.select p c (smGet intZero (t.spoutAt p).deficit c))) ∧
          ((∀ d, d ≤ 3 → bitOf mask d = false) → exec (.spoutSelect p) s = .next t))))

/-- A second-pass frame whose bank pair is FREE is dropped and counted. HEAD_DELIVER at a port whose oldest waiting head
is a second pass, in an enabled pipeline, while the bank pair of the frame's generation is FREE (it is not the current
generation, and the inactive pair is not DRAINING): the head leaves the port, its generation has one frame less in
flight, RECIRC_STALE of PIPE_W counts, and the frame is discarded. -/
def Obligations.StaleSecondPassDropped : Prop :=
  ∀ (s : State) (port r : Nat) (rest : List Nat) (f : Frame), (s.input port).heads = r :: rest → s.frame r = some f → f.fm.pass2 = true →
    s.enabled (uPipe (pipeOf port)) = true → b2n f.fm.gen ≠ s.curGen → s.draining = false →
    exec (.headDeliver port) s = .next ((((s.setInput port { s.input port with heads := rest }).inflightDown (b2n f.fm.gen)).sat (uPipe true) F.pipe_RECIRC_STALE).discardFrame r)

/-- HEAD_DELIVER judges the oldest head, FRAME_END checks the oldest whole frame. HEAD_DELIVER without a waiting head does
nothing; at a pipeline that does not count as enabled a first-pass head is discarded; else a first-pass head is judged
under the current generation if the port's admission takes it, and discarded if not. FRAME_END at an E-port: a
fragment that belongs to no frame (assembly 3) counts in RX_SMD_ERR; with no frame that has ended nothing happens; a
frame that began with the receiver off is dropped without a count, one shorter than 64 bytes counts in RX_RUNT. A
longer one that has a record, all of whose cells are in the buffer, counts in RX_FRAMES and the octets, its cut-
through copies get their final accounting, and: ended at MAX_LEN + 1 it counts in RX_OVERSIZE and is bad; else, with
no size check left to its end: with a bad FCS it counts in RX_FCS_ERR and is bad; with MACsec passed and the length
not agreeing it counts in RX_LEN_BAD and is bad; with both right it ends well. (A frame that was no fragment: assembly
0.) -/
def Obligations.HeadsAndFrameEnds : Prop :=
  ∀ (s : State),
    (∀ port, (s.input port).heads = [] → exec (.headDeliver port) s = .next s) ∧
    (∀ port r rest f q, (s.input port).heads = r :: rest → s.frame r = some f → f.fm.pass2 = false → q = s.setInput port { s.input port with heads := rest } →
      (s.enabled (uPipe (pipeOf port)) = false → exec (.headDeliver port) s = .next (q.discardFrame r)) ∧
      (s.enabled (uPipe (pipeOf port)) = true →
        (∀ t, q.admitHead port = (true, t) → exec (.headDeliver port) s = .next (t.judgeFrame (pipeOf port) r { f with fm := { f.fm with gen := t.curGen != 0 } })) ∧
        (∀ t, q.admitHead port = (false, t) → exec (.headDeliver port) s = .next (t.discardFrame r)))) ∧
    (∀ p, p < 12 →
      exec (.frameEnd p 3) s = .next (s.sat (uMac p) F.mac_RX_SMD_ERR) ∧
      (s.macFirst p = none → exec (.frameEnd p 0) s = .next s) ∧
      (∀ f, s.macFirst p = some f →
        (f.off = true → exec (.frameEnd p 0) s = .next (s.macDone p)) ∧
        (f.off = false → f.raw.length < 64 → exec (.frameEnd p 0) s = .next ((s.macDone p).sat (uMac p) F.mac_RX_RUNT)) ∧
        (∀ q b r x, f.off = false → 64 ≤ f.raw.length → be16 f.raw 12 ≠ 0x8808 → s.macReady p f = true → f.record = some r →
          b = (s.macDone p).macPlain p f → q = (((s.macDone p).inc (uMac p) F.mac_RX_FRAMES).countRxOctets p b.length).correctAcct r →
          (f.cut = true → (q.sat (uMac p) F.mac_RX_OVERSIZE).frame r = some x →
            exec (.frameEnd p 0) s = .next ((q.sat (uMac p) F.mac_RX_OVERSIZE).frameBad p r f.cut x)) ∧
          (∀ y, f.cut = false → q.frame r = some y → q.sduFails y = (false, q) →
            (fcsGood f.raw = false → (q.sat (uMac p) F.mac_RX_FCS_ERR).frame r = some x →
              exec (.frameEnd p 0) s = .next ((q.sat (uMac p) F.mac_RX_FCS_ERR).frameBad p r f.cut x)) ∧
            (∀ t, fcsGood f.raw = true → q.macsecCheck p f = (.pass, t) →
              (t.lenBadAtEnd p b = true → (t.sat (uMac p) F.mac_RX_LEN_BAD).frame r = some x →
                exec (.frameEnd p 0) s = .next ((t.sat (uMac p) F.mac_RX_LEN_BAD).frameBad p r f.cut x)) ∧
              (t.lenBadAtEnd p b = false → t.frame r = some x → exec (.frameEnd p 0) s = .next (t.frameGood r x)))))))

/-- Received pauses stop classes, and PFC is sent again while a class stays filled. PAUSE_FRAME_RECEIVE that brings the
bytes which end the frame writes them as CELL_WRITE does and then acts as without. At an E-port whose oldest received
frame is a MAC control frame (EtherType 0x8808, at least 64 bytes, begun with the receiver on) PAUSE_FRAME_RECEIVE
takes it from the MAC: ended at MAX_LEN + 1 it counts in RX_OVERSIZE, with a bad FCS in RX_FCS_ERR, and neither has
another effect; a good one counts in RX_PAUSE. A good PFC frame then sets the timers of the priorities it names if
PFC_CFG.RX_EN is set, a good PAUSE frame the port's timer (0 quanta stops it) if RX_PAUSE_EN is set.
PAUSE_TIMER_EXPIRY removes a timer whose end has come and does nothing before. PAUSE_STATE then shows TC0 to TC5 under
PAUSE, else TC4 and TC5 by the priorities mapped to them. PFC_REFRESH puts the PFC frame of a class in back-pressure
on the port's line again when half of QUANTA has passed since the last one and its count is not below XON; otherwise
it does nothing. The frame made waits on the line as an express message of 64 bytes with the QUANTA of the port for
the priorities mapped to the class, and the time of its making is noted. (Log entry 107.) (Log entry 90 for the end of
a pause on a port without a link.) -/
def Obligations.PausesAndPfc : Prop :=
  ∀ (s : State) (p : Nat), p < 12 →
    (∀ b sof eof wc, b.isEmpty = false → exec (.pauseFrameReceive p b sof eof wc) s =
      exec (.pauseFrameReceive p [] sof eof wc) (cellWriteStep p (some ⟨b, sof, eof, wc⟩) s)) ∧
    (∀ f sof eof wc, s.macFirst p = some f → f.off = false → 64 ≤ f.raw.length → be16 f.raw 12 = 0x8808 →
      (f.cut = true → exec (.pauseFrameReceive p [] sof eof wc) s = .next ((s.macDone p).sat (uMac p) F.mac_RX_OVERSIZE)) ∧
      (f.cut = false → fcsGood f.raw = false → exec (.pauseFrameReceive p [] sof eof wc) s = .next ((s.macDone p).sat (uMac p) F.mac_RX_FCS_ERR)) ∧
      (∀ q, f.cut = false → fcsGood f.raw = true → q = (s.macDone p).sat (uMac p) F.mac_RX_PAUSE →
        (be16 f.raw 14 = 0x0101 → q.flag uFab F.fab_PFC_CFG_RX_EN p = true → exec (.pauseFrameReceive p [] sof eof wc) s = .next (q.setPause p (q.applyPfc p (pfcQuanta f.raw)))) ∧
        (be16 f.raw 14 = 0x0101 → q.flag uFab F.fab_PFC_CFG_RX_EN p = false → exec (.pauseFrameReceive p [] sof eof wc) s = .next q) ∧
        (be16 f.raw 14 = 0x0001 → q.flag uFab F.fab_PFC_CFG_RX_PAUSE_EN p = true → exec (.pauseFrameReceive p [] sof eof wc) s =
          .next (q.setPause p { q.pauseOf p with all := if be16 f.raw 16 = 0 then none else some (q.pauseEnd p (be16 f.raw 16)) })) ∧
        (be16 f.raw 14 = 0x0001 → q.flag uFab F.fab_PFC_CFG_RX_PAUSE_EN p = false → exec (.pauseFrameReceive p [] sof eof wc) s = .next q))) ∧
    (∀ k e, pmGet (s.pauseOf p).prio k = some e →
      (e ≤ s.clk.wc → exec (.pauseTimerExpiry p (some k)) s = .next (s.setPause p { s.pauseOf p with prio := pmDel (s.pauseOf p).prio k })) ∧
      (s.clk.wc < e → exec (.pauseTimerExpiry p (some k)) s = .next s)) ∧
    (∀ e, (s.pauseOf p).all = some e →
      (e ≤ s.clk.wc → exec (.pauseTimerExpiry p none) s = .next (s.setPause p { s.pauseOf p with all := none })) ∧
      (s.clk.wc < e → exec (.pauseTimerExpiry p none) s = .next s)) ∧
    (∀ x, (s.setPause p x).rd uFab F.fab_PAUSE_STATE_TC p = (if x.all.isSome then 0x3F else
      (if x.prio.any (fun e => bitOf (s.rd uFab F.fab_PFC_CFG_PRIO_TC4 p) e.1) then 16 else 0) +
      (if x.prio.any (fun e => bitOf (s.rd uFab F.fab_PFC_CFG_PRIO_TC5 p) e.1) then 32 else 0)) % 2 ^ F.fab_PAUSE_STATE_TC.width) ∧
    (∀ c, (c = 4 ∨ c = 5) → s.flag uFab F.fab_PFC_CFG_EN p = true → s.fab.pfcOn.contains (8 * p + c) = true →
      (s.pfcDue p c = true → s.xon p ≤ s.rd uFab (losslessFld c) p → exec (.pfcRefresh p c) s =
        .next (s.sendPfc p c (s.rd uFab F.fab_PFC_HEAD_QUANTA p))) ∧
      ((s.pfcDue p c = false ∨ s.rd uFab (losslessFld c) p < s.xon p) → exec (.pfcRefresh p c) s = .next s)) ∧
    (∀ c quanta, ((s.sendPfc p c quanta).spoutAt p).line = (s.spoutAt p).line ++
        [⟨9, s.clk.wc, none, 0, [], none, 0, 64, some (pfcFrame p (s.prioMask p c) quanta), s.clk.wc, false, none, none, 0, true, none⟩] ∧
      pmGet (s.sendPfc p c quanta).fab.pfcAt (8 * p + c) = some s.clk.wc)

/-- The inactive bank pair is released when nothing of its generation is in flight, or by time-out. While the inactive
pair is DRAINING: with no frame of its generation in flight and at least 64 fabric cycles since the swap BANK_RELEASE
makes it FREE and changes nothing else; before that it does nothing. Once RELEASE_TIMEOUT boundaries (0 acting as 1)
have passed, RELEASE_TIMEOUT forces the count of that generation to 0, makes the pair FREE and is the generation
detector (3) of PIPE_W finding an error; before that it does nothing. While the pair is FREE neither does anything. -/
def Obligations.BankPairRelease : Prop :=
  ∀ (s : State),
    (s.draining = true → s.rd (uPipe true) F.pipe_GEN_INFLIGHT_COUNT (1 - s.curGen) = 0 → 64 ≤ (s.fabCycle + 2 ^ 32 - s.gen.swapCycle) % 2 ^ 32 →
      exec .bankRelease s = .next (s.wr (uPipe true) F.pipe_GEN_STATUS_INACTIVE 0) ∧ (s.wr (uPipe true) F.pipe_GEN_STATUS_INACTIVE 0).draining = false) ∧
    ((s.draining = false ∨ s.rd (uPipe true) F.pipe_GEN_INFLIGHT_COUNT (1 - s.curGen) ≠ 0 ∨ (s.fabCycle + 2 ^ 32 - s.gen.swapCycle) % 2 ^ 32 < 64) →
      exec .bankRelease s = .next s) ∧
    (s.draining = true → max 1 (s.rd (uPipe true) F.pipe_GEN_STATUS_RELEASE_TIMEOUT) ≤ s.gen.drainTicks →
      exec .releaseTimeout s = .next (((s.wr (uPipe true) F.pipe_GEN_INFLIGHT_COUNT 0 (1 - s.curGen)).wr (uPipe true) F.pipe_GEN_STATUS_INACTIVE 0).check (uPipe true) 3 true)) ∧
    ((s.draining = false ∨ s.gen.drainTicks < max 1 (s.rd (uPipe true) F.pipe_GEN_STATUS_RELEASE_TIMEOUT)) → exec .releaseTimeout s = .next s)

/-- Source events refresh, queue for learning, or are ignored; queued keys get HIT; learn requests insert or move. With no
code error in the tables: SOURCE_EVENT takes the oldest event of the table's FIFO; of an unknown address it makes a
learn request (queued under LEARN_LIMIT, else counted in LEARN_DROP); of a static entry nothing more; of a learnt
entry with that source and HIT 0 it queues the key for HIT, if fewer than 32 wait; with HIT 1 nothing more; with
another source it makes a learn request. HIT_UPDATE sets HIT on every copy of the next queued key. LEARN_INSERT, with
no key waiting for HIT, takes the next request: a known learnt address of another source is moved there in place and
counted in MOVES; an unknown one is inserted, counted in LEARNED, or in LEARN_FAIL when the table is full. With
nothing queued each does nothing. -/
def Obligations.LearningFollowsEvents : Prop :=
  ∀ (s : State) (w : Bool),
    ((s.pipe w).eventFifo = [] → exec (.sourceEvent w) s = .next s) ∧
    (∀ e rest q, (s.pipe w).eventFifo = e :: rest → s.upsets = [] → q = s.setPipe w { s.pipe w with eventFifo := rest } →
      (q.findKey w (fdbKey e.sa e.fid) = none → exec (.sourceEvent w) s = .next (q.learnRequest w e)) ∧
      (∀ slot, q.findKey w (fdbKey e.sa e.fid) = some slot →
        ((q.fdbAt w slot).static = true → exec (.sourceEvent w) s = .next q) ∧
        ((q.fdbAt w slot).static = false → (q.fdbAt w slot).sourceIs e.port e.sub = false → exec (.sourceEvent w) s = .next (q.learnRequest w e)) ∧
        ((q.fdbAt w slot).static = false → (q.fdbAt w slot).sourceIs e.port e.sub = true →
          ((q.fdbAt w slot).hit = true → exec (.sourceEvent w) s = .next q) ∧
          ((q.fdbAt w slot).hit = false → (q.pipe w).hitQ.length < 32 →
            exec (.sourceEvent w) s = .next (q.setPipe w { q.pipe w with hitQ := (q.pipe w).hitQ ++ [fdbKey e.sa e.fid] }))))) ∧
    (∀ e, (s.pipe w).learnAdmitted < s.rd (uPipe w) F.pipe_FDB_CFG_LEARN_LIMIT → (s.pipe w).learnQ.length < 64 →
      s.learnRequest w e = s.setPipe w { s.pipe w with learnQ := (s.pipe w).learnQ ++ [e], learnAdmitted := (s.pipe w).learnAdmitted + 1 }) ∧
    (∀ e, (s.rd (uPipe w) F.pipe_FDB_CFG_LEARN_LIMIT ≤ (s.pipe w).learnAdmitted ∨ 64 ≤ (s.pipe w).learnQ.length) →
      s.learnRequest w e = (s.setPipe w { s.pipe w with learnShed := true }).sat (uPipe w) F.pipe_LEARN_DROP) ∧
    (∀ key rest q, (s.pipe w).hitQ = key :: rest → q = s.setPipe w { s.pipe w with hitQ := rest } →
      exec (.hitUpdate w) s = .next ((q.slotsFor w key).foldl (fun s slot => if s.holds w key slot
        then s.putFdb w slot ((s.fdbAt w slot).setHit true) else s) q)) ∧
    (∀ e rest q, (s.pipe w).hitQ = [] → (s.pipe w).learnQ = e :: rest → s.upsets = [] → q = s.setPipe w { s.pipe w with learnQ := rest } →
      (∀ slot, q.findKey w (fdbKey e.sa e.fid) = some slot → (q.fdbAt w slot).static = false → (q.fdbAt w slot).sourceIs e.port e.sub = false →
        exec (.learnInsert w) s = .next ((q.putFdb w slot { q.fdbAt w slot with
          res := setNbits (q.fdbAt w slot).res 29 29 (nbits (learntRes e.port e.sub) 29 29) }).inc (uPipe w) F.pipe_MOVES)) ∧
      (q.findKey w (fdbKey e.sa e.fid) = none →
        (∀ t b slot, q.insertEntry w (fdbKey e.sa e.fid) (learntRes e.port e.sub) = (some slot, b, t) → exec (.learnInsert w) s = .next (t.inc (uPipe w) F.pipe_LEARNED)) ∧
        (∀ t b, q.insertEntry w (fdbKey e.sa e.fid) (learntRes e.port e.sub) = (none, b, t) → exec (.learnInsert w) s = .next (t.sat (uPipe w) F.pipe_LEARN_FAIL))))

/-- INSERT, DELETE, LOOKUP, READ_SLOT and FLUSH of the forwarding tables. For a pipeline that takes commands from the
master, with FDB_CMD not BUSY and no code error standing in any memory; the command is BUSY from now on, and its
status shows when it completes. NOP is OK. INSERT of a key of TYPE 1 with RES bit 57 clear writes the key and the
result at the place the insertion finds, gives it in SLOT and is OK, or is FULL without one; of another TYPE, or with
bit 57 set, BAD_ARG. DELETE removes the entry of the key, OK, or is NOT_FOUND. LOOKUP gives the entry's result and
slot, OK, or is NOT_FOUND and changes nothing. READ_SLOT up to 32,831 gives the entry there, OK; above it is BAD_ARG.
FLUSH with a key of TYPE 2 or more is BAD_ARG. An opcode outside the table is BAD_ARG. While BUSY the write of any of
them is refused. COMPLETE clears BUSY and shows the status. -/
def Obligations.FdbCommandsOnEntries : Prop :=
  ∀ (s : State) (w : Bool) (m : Nat),
    (s.takes (uPipe w) m = true → s.flag (uPipe w) F.pipe_FDB_CMD_BUSY = true → ∀ run, s.fdbCommand w m run = s.refuse m (fdbCmdAddr w)) ∧
    (s.takes (uPipe w) m = true → s.flag (uPipe w) F.pipe_FDB_CMD_BUSY = false → s.upsets = [] → ∀ q, q = s.wr (uPipe w) F.pipe_FDB_CMD_BUSY 1 →
      exec (.fdbNop w m) s = .next (q.fdbStatus w fdbOk) ∧
      exec (.fdbCmdInvalid w m) s = .next (q.fdbStatus w fdbBadArg) ∧
      ((q.fdbKeyReg w % 16 ≠ 1 ∨ nbits (q.fdbResReg w) 57 1 ≠ 0) → exec (.fdbInsert w m) s = .next (q.fdbStatus w fdbBadArg)) ∧
      (q.fdbKeyReg w % 16 = 1 → nbits (q.fdbResReg w) 57 1 = 0 →
        (∀ slot t, q.placeFor w (q.fdbKeyReg w) = (some slot, false, t) →
          exec (.fdbInsert w m) s = .next (((t.putFdb w slot ⟨q.fdbKeyReg w, q.fdbResReg w⟩).wr (uPipe w) F.pipe_FDB_SLOT slot).fdbStatus w fdbOk)) ∧
        (∀ t, q.placeFor w (q.fdbKeyReg w) = (none, false, t) → exec (.fdbInsert w m) s = .next (t.fdbStatus w fdbFull))) ∧
      (q.findKey w (q.fdbKeyReg w) = none →
        exec (.fdbDelete w m) s = .next (q.fdbStatus w fdbNotFound) ∧ exec (.fdbLookup w m) s = .next (q.fdbStatus w fdbNotFound)) ∧
      (∀ slot, q.findKey w (q.fdbKeyReg w) = some slot →
        exec (.fdbDelete w m) s = .next ((q.removeAt w slot).fdbStatus w fdbOk) ∧
        exec (.fdbLookup w m) s = .next (((q.putRes w (q.fdbAt w slot).res).wr (uPipe w) F.pipe_FDB_SLOT slot).fdbStatus w fdbOk)) ∧
      (∀ i, i ≤ 32831 → exec (.fdbReadSlot w i m) s = .next ((q.putKeyRes w (q.fdbAt w i)).fdbStatus w fdbOk)) ∧
      (∀ i, 32831 < i → exec (.fdbReadSlot w i m) s = .next (q.fdbStatus w fdbBadArg)) ∧
      (2 ≤ q.fdbKeyReg w % 16 → exec (.fdbFlush w m) s = .next (q.fdbStatus w fdbBadArg)) ∧
      (q.fdbKeyReg w % 16 < 2 → ∀ gone, gone = (q.listedSlots w 0 32832).filter (fun k => flushes (q.fdbKeyReg w) (nbits (q.fdbResReg w) 42 16) (q.fdbAt w k)) →
        exec (.fdbFlush w m) s = .next ((gone.foldl (fun s k => s.stashMove w k) (gone.foldl (fun s k => s.putFdb w k {}) q)).fdbStatus w fdbOk))) ∧
    (s.flag (uPipe w) F.pipe_FDB_CMD_BUSY = true → exec (.fdbCmdComplete w) s =
      .next ((s.wr (uPipe w) F.pipe_FDB_CMD_BUSY 0).wr (uPipe w) F.pipe_FDB_CMD_STATUS (s.pipe w).cmdStatus)) ∧
    (s.flag (uPipe w) F.pipe_FDB_CMD_BUSY = false → exec (.fdbCmdComplete w) s = .next s)

/-- Commands on the shadow copies and the VLAN table. For a pipeline that takes commands from the master, with FDB_CMD not
BUSY and no code error standing; the command is BUSY from now on. SHADOW_WRITE of an index to 4,095 stores the key and
result there when the key has TYPE 0 or RES bit 61 is set, OK; else, and above 4,095, BAD_ARG. SHADOW_READ gives key
and result of an index to 4,095, OK. VLAN_WRITE stores the result register as the entry of a VLAN to 4,095 whose word
is not retired (into a retired one nothing goes), VLAN_READ gives it, OK; above, BAD_ARG. INSERT_SHADOWED of a key of
TYPE 1 with bit 57 clear and bit 61 set inserts the entry and stores its shadow copy, gives the slot and is OK, or is
FULL and stores nothing; otherwise BAD_ARG. DELETE_SHADOWED clears the TYPE of the shadow copy and removes the entry
of the key, OK, or NOT_FOUND; with an index above 4,095 it is BAD_ARG. -/
def Obligations.FdbSideTables : Prop :=
  ∀ (s : State) (w : Bool) (m i : Nat), s.takes (uPipe w) m = true → s.flag (uPipe w) F.pipe_FDB_CMD_BUSY = false → s.upsets = [] →
    ∀ q, q = s.wr (uPipe w) F.pipe_FDB_CMD_BUSY 1 →
    (4095 < i → exec (.fdbShadowWrite w i m) s = .next (q.fdbStatus w fdbBadArg) ∧ exec (.fdbShadowRead w i m) s = .next (q.fdbStatus w fdbBadArg) ∧
      exec (.fdbVlanWrite w i m) s = .next (q.fdbStatus w fdbBadArg) ∧ exec (.fdbVlanRead w i m) s = .next (q.fdbStatus w fdbBadArg) ∧
      exec (.fdbInsertShadowed w i m) s = .next (q.fdbStatus w fdbBadArg) ∧ exec (.fdbDeleteShadowed w i m) s = .next (q.fdbStatus w fdbBadArg)) ∧
    (i ≤ 4095 →
      (nbits (q.fdbResReg w) 61 1 = 0 → q.fdbKeyReg w % 16 ≠ 0 → exec (.fdbShadowWrite w i m) s = .next (q.fdbStatus w fdbBadArg)) ∧
      ((nbits (q.fdbResReg w) 61 1 ≠ 0 ∨ q.fdbKeyReg w % 16 = 0) →
        exec (.fdbShadowWrite w i m) s = .next ((q.putShadow w i ⟨q.fdbKeyReg w, q.fdbResReg w⟩).fdbStatus w fdbOk)) ∧
      exec (.fdbShadowRead w i m) s = .next ((q.putKeyRes w (smGet noEntry (q.pipe w).shadow i)).fdbStatus w fdbOk) ∧
      (q.retiredWord (memVlan w) i = true → exec (.fdbVlanWrite w i m) s = .next (q.fdbStatus w fdbOk)) ∧
      (q.retiredWord (memVlan w) i = false → exec (.fdbVlanWrite w i m) s = .next (((q.setPipe w { q.pipe w with vlan := smSet noVlan (q.pipe w).vlan i (q.fdbResReg w) }).clearUpset (memVlan w) i).fdbStatus w fdbOk)) ∧
      exec (.fdbVlanRead w i m) s = .next ((q.putRes w (smGet noVlan (q.pipe w).vlan i)).fdbStatus w fdbOk) ∧
      ((q.fdbKeyReg w % 16 ≠ 1 ∨ nbits (q.fdbResReg w) 57 1 ≠ 0 ∨ nbits (q.fdbResReg w) 61 1 = 0) → exec (.fdbInsertShadowed w i m) s = .next (q.fdbStatus w fdbBadArg)) ∧
      (q.fdbKeyReg w % 16 = 1 → nbits (q.fdbResReg w) 57 1 = 0 → nbits (q.fdbResReg w) 61 1 ≠ 0 →
        (∀ slot t, q.placeFor w (q.fdbKeyReg w) = (some slot, false, t) → exec (.fdbInsertShadowed w i m) s =
          .next ((((t.putFdb w slot ⟨q.fdbKeyReg w, q.fdbResReg w⟩).putShadow w i ⟨q.fdbKeyReg w, q.fdbResReg w⟩).wr (uPipe w) F.pipe_FDB_SLOT slot).fdbStatus w fdbOk)) ∧
        (∀ t, q.placeFor w (q.fdbKeyReg w) = (none, false, t) → exec (.fdbInsertShadowed w i m) s = .next (t.fdbStatus w fdbFull))) ∧
      (∀ t, t = q.putShadow w i { smGet noEntry (q.pipe w).shadow i with key := setNbits (smGet noEntry (q.pipe w).shadow i).key 0 4 0 } →
        (t.findKey w (q.fdbKeyReg w) = none → exec (.fdbDeleteShadowed w i m) s = .next (t.fdbStatus w fdbNotFound)) ∧
        (∀ slot, t.findKey w (q.fdbKeyReg w) = some slot → exec (.fdbDeleteShadowed w i m) s = .next ((t.removeAt w slot).fdbStatus w fdbOk))))

/-- RULE_CMD writes and reads the rule banks. For a Strainer that takes commands from the master, with RULE_CMD not BUSY;
the command is BUSY from now on. With the Strainer disabled a write goes to the selected bank (enabled: to the bank
that is not current, unless the pair is DRAINING, when every write is refused with BANK_BUSY, an access error and a
count in REJECTS). A row index to 4,095: WRITE_RULE stores key, mask and action with a count of 0 as a valid row when
the pair passes the checks, OK; CLEAR_RULE leaves the row with VALID 0 and count 0. WRITE_ZPAIR (to 255), WRITE_ZMAP
(to 127) and WRITE_PFX (to 62) store their operand, OK; READ_ZPAIR, READ_ZMAP and READ_PFX give it. Beyond their index
each is BAD_ARG, as an opcode outside the table is. COPY_ACTIVE of an undrained pair copies the current bank. NOP is
OK. READ_RULE of a row whose staging word reads right, with no injection armed in that check, gives all of it.
COMPLETE clears BUSY and shows the status. -/
def Obligations.RuleCommandsWriteBanks : Prop :=
  ∀ (s : State) (w b : Bool) (m i : Nat),
    (s.takes (uStrain w) m = true → s.flag (uStrain w) F.strain_RULE_CMD_BUSY = true → ∀ run, s.ruleCommand w m run = s.refuse m (ruleCmdAddr w)) ∧
    (s.takes (uStrain w) m = true → s.flag (uStrain w) F.strain_RULE_CMD_BUSY = false → ∀ q g, q = s.wr (uStrain w) F.strain_RULE_CMD_BUSY 1 →
      g = (if q.enabled (uStrain w) then 1 - q.curGen else q.readBank b) →
      exec (.ruleNop w m) s = .next (q.ruleStatus w ruleOk) ∧
      exec (.ruleCmdInvalid w m) s = .next (q.ruleStatus w ruleBadArg) ∧
      (q.enabled (uStrain w) = true → q.draining = true →
        ∀ t, t = ((q.sat (uPipe true) F.pipe_GEN_STATUS_REJECTS).refuse m (ruleCmdAddr w)).ruleStatus w ruleBankBusy →
        exec (.writeRule w i b m) s = .next t ∧ exec (.clearRule w i b m) s = .next t ∧ exec (.writeZpair w i b m) s = .next t ∧
        exec (.writeZmap w i b m) s = .next t ∧ exec (.writePfx w i b m) s = .next t ∧ exec (.copyActive w m) s = .next t) ∧
      ((q.enabled (uStrain w) = false ∨ q.draining = false) →
        (i ≤ 4095 → ruleBad (q.ruleOperand w F.strain_RULE_KEY) (q.ruleAct w) = false → exec (.writeRule w i b m) s =
          .next ((q.putRow w g i ⟨true, q.ruleOperand w F.strain_RULE_KEY, q.ruleOperand w F.strain_RULE_MASK, q.ruleAct w, 0⟩).ruleStatus w ruleOk)) ∧
        ((4095 < i ∨ ruleBad (q.ruleOperand w F.strain_RULE_KEY) (q.ruleAct w) = true) → exec (.writeRule w i b m) s = .next (q.ruleStatus w ruleBadArg)) ∧
        (i ≤ 4095 → exec (.clearRule w i b m) s = .next ((q.putRow w g i { smGet noRow (q.bank w g).rows i with valid := false, count := 0 }).ruleStatus w ruleOk)) ∧
        (i ≤ 255 → exec (.writeZpair w i b m) s = .next ((q.setBank w g { q.bank w g with zpair := smSet zero0 (q.bank w g).zpair i (q.ruleAct w % 4) }).ruleStatus w ruleOk)) ∧
        (i ≤ 127 → exec (.writeZmap w i b m) s = .next ((q.setBank w g { q.bank w g with zmap := smSet zero0 (q.bank w g).zmap i (q.ruleAct w % 16) }).ruleStatus w ruleOk)) ∧
        (i ≤ 62 → exec (.writePfx w i b m) s = .next ((q.setBank w g { q.bank w g with
          pfx := smSet noPfx (q.bank w g).pfx i (q.ruleOperand w F.strain_RULE_KEY % 2 ^ 64, bitOf (q.ruleAct w) 0) }).ruleStatus w ruleOk)) ∧
        exec (.copyActive w m) s = .next (copyActiveRun w q)) ∧
      (i ≤ 255 → exec (.readZpair w i b m) s = .next ((q.wr (uStrain w) F.strain_RULE_ACT_LO (smGet zero0 (q.bank w (q.readBank b)).zpair i)).ruleStatus w ruleOk)) ∧
      (i ≤ 127 → exec (.readZmap w i b m) s = .next ((q.wr (uStrain w) F.strain_RULE_ACT_LO (smGet zero0 (q.bank w (q.readBank b)).zmap i)).ruleStatus w ruleOk)) ∧
      (i ≤ 62 → ∀ v, v = smGet noPfx (q.bank w (q.readBank b)).pfx i → exec (.readPfx w i b m) s =
        .next ((((q.wr (uStrain w) F.strain_RULE_KEY v.1).wr (uStrain w) F.strain_RULE_KEY (v.1 / 2 ^ 32) 1).wr (uStrain w) F.strain_RULE_ACT_LO (b2n v.2)).ruleStatus w ruleOk)) ∧
      (i ≤ 4095 → q.codeOf (memStaging w) (4096 * q.readBank b + i) = .good → q.armed (uStrain w) 0 = false → ∀ r t, r = smGet noRow (q.bank w (q.readBank b)).rows i →
        t = (q.putRuleOperand w F.strain_RULE_KEY r.value).putRuleOperand w F.strain_RULE_MASK r.mask →
        exec (.readRule w i b m) s = .next (((((t.wr (uStrain w) F.strain_RULE_ACT_HI (r.act / 2 ^ 32)).wr (uStrain w) F.strain_RULE_ACT_LO r.act).wr
          (uStrain w) F.strain_RULE_CMD_VALID (b2n r.valid)).wr (uStrain w) F.strain_RULE_COUNT r.count).ruleStatus w ruleOk))) ∧
    (s.flag (uStrain w) F.strain_RULE_CMD_BUSY = true → exec (.ruleCmdComplete w) s =
      .next ((s.wr (uStrain w) F.strain_RULE_CMD_BUSY 0).wr (uStrain w) F.strain_RULE_CMD_STATUS (s.strain w).cmdStatus)) ∧
    (s.flag (uStrain w) F.strain_RULE_CMD_BUSY = false → exec (.ruleCmdComplete w) s = .next s)

/-- Stream gates, CAN keys, the TCAM scrub and the guards act. STREAM_GATE_CYCLE_START of an enabled gate whose next start
has come begins its cycle at that instant, carried over to the domain it is set to; before that instant, or disabled,
nothing. STREAM_GATE_ENTRY_EXPIRY of a running gate whose entry has ended, with an entry left in its list before its
next start, goes to the next entry; before that nothing. CAN_KEY_SUBMIT puts the key that an infuser waits with, not
yet asked, into the FIFO of fewer than 64, and does nothing without one, or for a signal job that stopped with its
gateway disabled. CAN_KEY_JUDGE judges the oldest key and gives the infuser the verdict; with an empty FIFO nothing.
TCAM_RESCAN of a row whose word reads right goes on to the next row of 4,096. GUARD_MATCH of a frame of another node
that the list and the mask pick counts in GUARD_HITS and drives the error flag, or counts in GUARD_CAPPED at the limit
of the tick; of an own frame nothing. GUARD_FLAG_END ends the flag; GUARD_DRIVE_FAULT ends it and fires the detector. -/
def Obligations.GatesKeysAndGuards : Prop :=
  ∀ (s : State) (w : Bool) (g n : Nat),
    (∀ x, x = s.gateAt w g → g < 64 → s.flag (uStrain w) F.strain_GATE_CTRL_EN g = true →
      (x.nextStart ≤ s.domNs x.td → exec (.streamGateCycleStart w g) s =
        .next (s.gateBegin w g (s.acrossDomains x.td (s.rd (uStrain w) F.strain_GATE_CTRL_TD g) x.nextStart))) ∧
      (s.domNs x.td < x.nextStart → exec (.streamGateCycleStart w g) s = .next s)) ∧
    (s.flag (uStrain w) F.strain_GATE_CTRL_EN g = false → exec (.streamGateCycleStart w g) s = .next s) ∧
    (∀ x, x = s.gateAt w g → x.running = true → x.entry + 1 < x.list.length → x.entryEnd < x.nextStart →
      (x.entryEnd ≤ s.domNs x.td → exec (.streamGateEntryExpiry w g) s =
        .next (s.setGate w g { x with entry := x.entry + 1, entryEnd := x.entryEnd + entryNs (x.list.getD (x.entry + 1) 1) })) ∧
      (s.domNs x.td < x.entryEnd → exec (.streamGateEntryExpiry w g) s = .next s)) ∧
    (∀ a l k, (s.engine n).work = a :: l → s.keyOf n a = some k → (s.engine n).asked = false → (s.strain true).canFifo.length < 64 → s.sigStopped n = false →
      exec (.canKeySubmit n) s = .next ((s.setStrain true { s.strain true with canFifo := (s.strain true).canFifo ++ [k] }).setEngine n { s.engine n with asked := true })) ∧
    (((s.engine n).work = [] ∨ s.sigStopped n = true) → exec (.canKeySubmit n) s = .next s) ∧
    (∀ k l v t, (s.strain true).canFifo = k :: l → (s.setStrain true { s.strain true with canFifo := l }).judgeCan k = (v, t) →
      exec .canKeyJudge s = .next (t.giveVerdict k.infuser v)) ∧
    ((s.strain true).canFifo = [] → exec .canKeyJudge s = .next s) ∧
    (∀ b : Bool, s.armed (uStrain w) 0 = false → s.codeOf (memTcam w) (4096 * b2n b + (s.bank w (b2n b)).rescan) = .good →
      exec (.tcamRescan w b) s = .next (s.setBank w (b2n b) { s.bank w (b2n b) with rescan := ((s.bank w (b2n b)).rescan + 1) % 4096 })) ∧
    (n < 16 → s.enabled (uCan n) = true → s.flag (uCan n) F.can_GUARD_CTRL_EN = true → s.guardDrives n = true → ∀ id full age,
      guardHit (s.guardListAt n (s.clk.wc - age)) (s.rd (uCan n) F.can_GUARD_MASK_MASK) id full = true →
      ((s.canAt n).guardUsed < max 1 (s.rd (uCan n) F.can_GUARD_CTRL_MAX_PER_TICK) → exec (.guardMatch n id ⟨full, age⟩ false) s =
        .next ((s.inc (uCan n) F.can_GUARD_HITS).setCan n { s.canAt n with guardUsed := (s.canAt n).guardUsed + 1, guardFlag := true })) ∧
      (max 1 (s.rd (uCan n) F.can_GUARD_CTRL_MAX_PER_TICK) ≤ (s.canAt n).guardUsed → exec (.guardMatch n id ⟨full, age⟩ false) s =
        .next (s.sat (uCan n) F.can_GUARD_CAPPED))) ∧
    (∀ id full age, exec (.guardMatch n id ⟨full, age⟩ true) s = .next s) ∧
    (n < 16 → (s.canAt n).guardFlag = true →
      exec (.guardFlagEnd n) s = .next ((s.setCan n { s.canAt n with guardFlag := false }).check (uCan n) 0 false) ∧
      exec (.guardDriveFault n) s = .next ((s.setCan n { s.canAt n with guardFlag := false }).check (uCan n) 0 true)) ∧
    ((s.canAt n).guardFlag = false → exec (.guardFlagEnd n) s = .next s ∧ exec (.guardDriveFault n) s = .next s)

/-- Gate cycles, gate control lists, preemption and links of the E-ports. At an E-port: GATE_CYCLE_START takes the pending
change over when its time has come, else begins the next cycle of the running list when its start has come, else does
nothing. GATE_ENTRY_EXPIRY goes to the next entry of the list when the present one has ended, else nothing.
GCL_DATA_WRITE, with the administrative list selected and no change pending, stores the 64 bits at the index and steps
the index; otherwise it is an access error counted in GCL_REJECTS. GCL_DATA_READ gives the entry of the selected list
and steps the index. FRAME_PREEMPT cuts the preemptable fragment on the wire at the next point, when preemption is
active and something waits for it; otherwise nothing. PREEMPT_VERIFY: with preemption off or unverified VERIFY is 0;
else it shows in progress (2), succeeded (3) or failed (4), the failed and lost attempts counted. E_PORT_LINK_CHANGE
sets the rate, and a lost link ends preemption. -/
def Obligations.GatesOfTheSpouts : Prop :=
  ∀ (s : State) (p : Nat), p < 12 →
    (∀ x, x = (s.spoutAt p).gate →
      (s.swapDue x = true → exec (.gateCycleStart p) s = .next (s.gateCycle p x.swap x.swapAt)) ∧
      (∀ c, s.swapDue x = false → x.oper = some c →
        (x.cycleStart + Int.ofNat c.cycle ≤ s.domNs c.td → exec (.gateCycleStart p) s = .next (s.gateCycle p x (x.cycleStart + Int.ofNat c.cycle))) ∧
        (s.domNs c.td < x.cycleStart + Int.ofNat c.cycle → exec (.gateCycleStart p) s = .next s)) ∧
      (∀ c, x.oper = some c → x.entry + 1 < x.entries.length →
        (x.entryEnd ≤ s.domNs c.td → exec (.gateEntryExpiry p) s =
          .next (s.setGates p (x.enter (s.preemptActive p) (x.entry + 1) (x.entryEnd + entryNs (x.entries.getD (x.entry + 1) 1))))) ∧
        (s.domNs c.td < x.entryEnd → exec (.gateEntryExpiry p) s = .next s)) ∧
      (∀ m v, s.takes (uSpout p) m = true →
        (s.flag (uSpout p) F.spout_GCL_ADDR_OPER = false → x.pending = none → exec (.gclDataWrite p v m) s = .next
          (((s.setSpout p { s.spoutAt p with gate := x.putAdmin (s.rd (uSpout p) F.spout_GCL_ADDR_INDEX) (s.rd (uSpout p) F.spout_GCL_DATA_HI * 2 ^ 32 + v.toNat) }).wr
            (uSpout p) F.spout_GCL_DATA_LO v.toNat).gclNext p)) ∧
        ((s.flag (uSpout p) F.spout_GCL_ADDR_OPER = true ∨ x.pending.isSome = true) → exec (.gclDataWrite p v m) s =
          .next ((s.sat (uSpout p) F.spout_GATE_STATUS_GCL_REJECTS).refuse m (gclAddr p)))) ∧
      (∀ e, e = smGet zero0 (if s.flag (uSpout p) F.spout_GCL_ADDR_OPER then x.operList else x.adminList) (s.rd (uSpout p) F.spout_GCL_ADDR_INDEX) →
        exec (.gclDataRead p) s = .next (({ (s.wr (uSpout p) F.spout_GCL_DATA_HI (e / 2 ^ 32)).wr (uSpout p) F.spout_GCL_DATA_LO e with
          readData := BitVec.ofNat 32 e } : State).gclNext p))) ∧
    (s.preemptActive p = true → ∀ e n age, s.onWire p = some e → s.nextPoint p e (e.start.getD 0 + age) = some n → e.tc < 6 → e.cut = none →
      ((s.readingOf p).any (fun r => decide (6 ≤ r.tc)) || (s.spoutAt p).line.any (fun e => decide (6 ≤ e.tc) && e.tc != 9) || s.held p) = true →
      exec (.framePreempt p age) s = .next (s.setSpout p { s.spoutAt p with line := (s.spoutAt p).line.map (fun y => if y.start.isSome then { y with cut := some n } else y) })) ∧
    (s.preemptActive p = false → ∀ age, exec (.framePreempt p age) s = .next s) ∧
    ((s.flag (uMac p) F.mac_PREEMPT_CFG_EN = false ∨ s.flag (uMac p) F.mac_PREEMPT_CFG_VERIFY_DIS = true) → ∀ o,
      exec (.preemptVerify p o) s = .next (s.wr (uMac p) F.mac_PREEMPT_STATUS_VERIFY 0)) ∧
    (s.flag (uMac p) F.mac_PREEMPT_CFG_EN = true → s.flag (uMac p) F.mac_PREEMPT_CFG_VERIFY_DIS = false →
      exec (.preemptVerify p 0) s = .next ((s.wr (uMac p) F.mac_PREEMPT_STATUS_VERIFY 2).holdEnd p) ∧
      exec (.preemptVerify p 1) s = .next (s.wr (uMac p) F.mac_PREEMPT_STATUS_VERIFY 3) ∧
      exec (.preemptVerify p 2) s = .next (((s.sat (uMac p) F.mac_VERIFY_FAIL).wr (uMac p) F.mac_PREEMPT_STATUS_VERIFY 2).holdEnd p) ∧
      exec (.preemptVerify p 3) s = .next (((s.sat (uMac p) F.mac_VERIFY_FAIL).wr (uMac p) F.mac_PREEMPT_STATUS_VERIFY 4).holdEnd p)) ∧
    (∀ mbps, ∀ t, t = ({ s with fab := { s.fab with links := smSet zero0 s.fab.links p mbps } } : State) →
      exec (.ePortLinkChange p mbps) s = .next (if mbps = 0 then (t.preemptCfg p).holdEnd p else t))

/-- The time engine's messages: Pdelay, Announce, Signaling and Sync. With TIME counting as enabled, at an E-port. A
command that brings the bytes which end its message receives and ends them as CELL_WRITE and FRAME_END do, and then
acts as without. PDELAY_REQ_SEND with room in the port's queue (fewer than 4 frames wait, and no follow-up stands
before it) queues a Pdelay_Req with the next sequence number and forgets the last one's send time. PDELAY_RESP_SEND
answers the oldest received request. PDELAY_EXCHANGE, after responses that were not asked for are dropped, takes a
response and its follow-up, computes mean delay and neighbour rate ratio from the four times, shows both and sets
asCapable by the threshold. PDELAY_RESP_TIMEOUT, once the interval has passed since the request, counts the lost
response, and clears asCapable beyond ALLOWED_LOST. ANNOUNCE_RECEIVE of a foreign message of a domain that the port
takes part in, under 255 steps, keeps its vector and selects states anew; ANNOUNCE_RECEIPT_TIMEOUT forgets the port's
vector and selects anew. ANNOUNCE_TRANSMIT and SYNC_TRANSMIT of a master port queue their message where there is room;
a Sync waits while one of its domain, or its Follow_Up, has not left the port. SIGNALING_RECEIVE honours the requested
intervals. SYNC_PROCESS executes a command its domain is BUSY with and then takes the Sync. With TIME disabled nothing
is sent. -/
def Obligations.TimeMessages : Prop :=
  ∀ (s : State) (p n : Nat), p < 12 → n < 4 → s.enabled uTime = true →
    (∀ seq t, s.txRoom p = true → s.nextSeq .pdelayReq (s.pdelayNum p) p = (seq, t) →
      exec (.pdelayReqSend p) s = .next ((t.setPdelay p { t.pdelayAt p with sent := none, seq := seq }).ptpQueue
        { port := p, kind := .pdelayReq, domain := 0, data := ptpFrame p (ptpMessage .pdelayReq (s.pdelayMajor p) (s.pdelayNum p) (ptpFlags false) p seq (ofSigned 8 (s.logPdelay p)) (List.replicate 20 0#8)) })) ∧
    (s.txRoom p = false → exec (.pdelayReqSend p) s = .next s) ∧
    (s.txRoom p = true ↔ (s.txQueue p).length < 4 ∧ s.txWaiting p = []) ∧
    (∀ m, s.rxFind p .pdelayReq (fun _ => true) = some m → s.txRoom p = true →
      ∃ b, exec (.pdelayRespSend p) s = .next ((s.rxTake m).ptpQueue { port := p, kind := .pdelayResp, domain := 0, data := b })) ∧
    (∀ q r f t1 x t, q = s.rxUnasked p → q.rxFind p .pdelayResp (fun _ => true) = some r → q.rxFind p .pdelayRespFollowUp (fun _ => true) = some f →
      (q.pdelayAt p).sent = some t1 → x = pdelayNext (q.pdelayAt p) (q.rd uTime F.time_PDELAY_CFG_AVG_SHIFT p) (Int.ofNat t1) r.stamp f.stamp (Int.ofNat r.wc) →
      t = ((((q.rxTake r).rxTake f).setPdelay p x).wr uTime F.time_MEAN_DELAY_DELAY (word32 (quot (x.delay.getD 0) 4096)) p).wr uTime F.time_PORT_NRR_RATE (word32 (quot (x.nrr.getD 0) 128)) p →
      exec (.pdelayExchange p none none) s = .next (t.setAsCapable p (decide (x.delay.getD 0 ≤ Int.ofNat (t.rd uTime F.time_PDELAY_CFG_THRESH p) * 65536) && x.nrr.isSome))) ∧
    (∀ t1 x, (s.pdelayAt p).sent = some t1 → intervalWc 1 (s.logPdelay p) ≤ s.wcSince t1 → x = { s.pdelayAt p with lost := (s.pdelayAt p).lost + 1, sent := none } →
      (x.lost ≤ s.rd uTime F.time_PDELAY_CFG_ALLOWED_LOST p → exec (.pdelayRespTimeout p) s = .next (s.setPdelay p x)) ∧
      (s.rd uTime F.time_PDELAY_CFG_ALLOWED_LOST p < x.lost → exec (.pdelayRespTimeout p) s =
        .next (((s.setPdelay p { x with prev := none }).sat uTime F.time_PDELAY_LOST_COUNT p).setAsCapable p false))) ∧
    (∀ num m, s.rxFind p .announce (fun m => m.num == num) = some m → (s.rxTake m).domOf num = some n → m.own = false → m.steps < 255 → (s.rxTake m).takesPart n p = true →
      exec (.announceReceive p num none) s = .next (((s.rxTake m).setDom n { (s.rxTake m).dom n with
        announced := pmSet ((s.rxTake m).dom n).announced p ⟨vectorOf m.system m.steps m.source, m.system % 2 ^ 64, byteAt m.data 7, be16 m.data 44, byteAt m.data 63, m.path⟩ }).selectStates n)) ∧
    exec (.announceReceiptTimeout n p) s = .next ((s.setDom n { s.dom n with announced := pmDel (s.dom n).announced p }).selectStates n) ∧
    (∀ seq t, s.role n p = 1 → s.takesPart n p = true → s.txRoom p = true → s.nextSeq .announce (s.rd uTime F.time_DOM_CFG_DOMAIN_NUMBER n) p = (seq, t) →
      ∀ b, b = ptpMessage .announce 1 (s.rd uTime F.time_DOM_CFG_DOMAIN_NUMBER n) (s.announceFlags n) p seq (ofSigned 8 (s.logAnnounce p)) (s.announceBody n) →
      exec (.announceTransmit n p) s = .next (t.ptpQueue { port := p, kind := .announce, domain := n, data := ptpFrame p b })) ∧
    (∀ seq t, s.role n p = 1 → s.takesPart n p = true → s.txRoom p = true → s.domState n = domGm →
      s.syncUnsent n p = false →
      s.nextSeq .sync (s.rd uTime F.time_DOM_CFG_DOMAIN_NUMBER n) p = (seq, t) →
      exec (.syncTransmit n p) s = .next (t.ptpQueue { port := p, kind := .sync, domain := n, data := s.syncData n p seq 0 0 (s.dom n).rate [], oneStep := s.flag uTime F.time_PORT_CFG_ONE_STEP p && s.flag uTime F.time_PORT_STATUS_PARTNER_1STEP p, rate := (s.dom n).rate })) ∧
    (∀ m one pd sy an i j t, s.rxFind p .signaling (fun _ => true) = some m → m.request = some (one, pd, sy, an) →
      t = (s.rxTake m).wr uTime F.time_PORT_STATUS_PARTNER_1STEP (b2n one) p → i = t.intervalsAt p →
      j = { i with sync := honour (-7) 0 sy i.sync, pdelay := honour (-3) 3 pd i.pdelay, announce := honour (-3) 3 an i.announce } →
      exec (.signalingReceive p none) s = .next { t with time := { t.time with intervals := smSet noIntervals t.time.intervals p j } }) ∧
    (∀ num a, exec (.announceReceive p num a) s = exec (.announceReceive p num none) (s.arrive p a) ∧ exec (.signalingReceive p a) s = exec (.signalingReceive p none) (s.arrive p a) ∧
      exec (.syncProcess p num a) s = exec (.syncProcess p num none) (s.arrive p a) ∧
      ∀ b, exec (.pdelayExchange p a b) s = exec (.pdelayExchange p none none) ((s.arrive p a).arrive p b)) ∧
    (∀ num, exec (.syncProcess p num none) s = .next ((match s.domOf num with | some n => s.runDomCmd n | none => s).takeSync p num))

/-- DOM_CMD is held BUSY until the engine executes it; holdover, time-outs and snapshots. For a domain. A write of
DOM_CMD, where TIME takes writes of the master and no command of that domain waits, makes it BUSY with the opcode;
while BUSY it is refused. The engine then executes it: ACCEPT in FREE or HOLDOVER with a refused Sync and the recorded
sequence number steps the domain by the recorded offset, to LOCKED, STATUS 0; with another number it only gives STATUS
1, in another state STATUS 2. SET in FREE or GM sets the domain's time and counts a step, STATUS 0; otherwise STATUS
2. RESET_GUARD clears the records and goes to FREE, STATUS 0. Another opcode gives STATUS 2. SYNC_TIMEOUT of a LOCKED
domain whose Sync is late enters HOLDOVER; HOLD_EXPIRY of one that has been in HOLDOVER too long sets HOLD_EXPIRED and
sends an event; neither does anything before its time. SNAPSHOT_TAKE puts WC and the four domain times into the
snapshot registers. -/
def Obligations.TimeDomainsAndCommands : Prop :=
  ∀ (s : State) (n : Nat), n < 4 →
    (∀ m seq, s.takes uTime m = true →
      (∀ run, (run = exec (.domAccept n seq m) s ∨ run = exec (.domSet n m) s ∨ run = exec (.domResetGuard n m) s ∨ run = exec (.domCmdInvalid n m) s) →
        (pmGet s.time.cmds n).isSome = true → run = .next (s.refuse m (domCmdAddr n))) ∧
      (pmGet s.time.cmds n = none →
        exec (.domAccept n seq m) s = .next (({ s with time := { s.time with cmds := pmSet s.time.cmds n (1, seq) } } : State).wr uTime F.time_DOM_CMD_BUSY 1 n) ∧
        exec (.domSet n m) s = .next (({ s with time := { s.time with cmds := pmSet s.time.cmds n (2, 0) } } : State).wr uTime F.time_DOM_CMD_BUSY 1 n) ∧
        exec (.domResetGuard n m) s = .next (({ s with time := { s.time with cmds := pmSet s.time.cmds n (3, 0) } } : State).wr uTime F.time_DOM_CMD_BUSY 1 n) ∧
        exec (.domCmdInvalid n m) s = .next (({ s with time := { s.time with cmds := pmSet s.time.cmds n (0, 0) } } : State).wr uTime F.time_DOM_CMD_BUSY 1 n))) ∧
    (∀ op seq q, pmGet s.time.cmds n = some (op, seq) → q = ({ s with time := { s.time with cmds := pmDel s.time.cmds n } } : State) →
      (op = 1 → (q.domState n = domFree ∨ q.domState n = domHoldover) → q.flag uTime F.time_DOM_STATUS_REFUSED n = true →
        (q.rd uTime F.time_REC_SEQ_SEQ n ≠ seq → s.runDomCmd n = q.domStatus n 1) ∧
        (∀ t, q.rd uTime F.time_REC_SEQ_SEQ n = seq →
          t = (q.stepBy n (q.recOfs n * 2 ^ 47)).setRate n (q.dom n).syncRate →
          s.runDomCmd n = ((((((t.setDom n { t.dom n with lastRate := (q.dom n).syncRate }).inc uTime F.time_STEPS_COUNT n).closeRefusal n).setDomState n domLocked).showOffset n
            (q.recOfs n * 2 ^ 47)).domStatus n 0).tickAfter n (q.synced n) false true)) ∧
      (op = 1 → (q.domState n ≠ domFree ∧ q.domState n ≠ domHoldover ∨ q.flag uTime F.time_DOM_STATUS_REFUSED n = false) → s.runDomCmd n = q.domStatus n 2) ∧
      (op = 2 → (q.domState n = domFree ∨ q.domState n = domGm) → s.runDomCmd n =
        ((((q.setDom n { q.dom n with time := Int.ofNat (q.rd uTime F.time_SET_HI_NS n * 2 ^ 32 + q.rd uTime F.time_SET_LO_NS n) * 2 ^ 47 }).stepConsumers n).inc uTime
          F.time_STEPS_COUNT n).domStatus n 0).tickAfter n (q.synced n) false true) ∧
      (op = 2 → q.domState n ≠ domFree → q.domState n ≠ domGm → s.runDomCmd n = q.domStatus n 2) ∧
      (op = 3 → s.runDomCmd n = domResetGuardStep n q) ∧
      ((op = 0 ∨ 4 ≤ op) → s.runDomCmd n = q.domStatus n 2)) ∧
    (s.enabled uTime = true → s.domState n = domLocked → s.syncLate n = true → exec (.syncTimeout n) s = .next ((s.enterHoldover n).tickAfter n true false false)) ∧
    ((s.domState n ≠ domLocked ∨ s.syncLate n = false) → exec (.syncTimeout n) s = .next s) ∧
    (s.enabled uTime = true → s.domState n = domHoldover → s.holdLate n = true → s.flag uTime F.time_DOM_STATUS_HOLD_EXPIRED n = false →
      exec (.holdExpiry n) s = .next ((s.wr uTime F.time_DOM_STATUS_HOLD_EXPIRED 1 n).event uTime)) ∧
    ((s.domState n ≠ domHoldover ∨ s.holdLate n = false) → exec (.holdExpiry n) s = .next s) ∧
    (∀ m, s.takes uTime m = true → exec (.snapshotTake m) s = .next
      ([0, 1, 2, 3].foldl (fun s n => s.snapOne (n + 1) ((s.dom n).time / 2 ^ 31 % 2 ^ 80).toNat) (s.snapOne 0 s.clk.wc)))

/-- Timestamped pins, and the transceivers of the buses. TSIN_CAPTURE of an enabled input at a time pin, of an edge it is
set to, appends the time of its clock to the captures unless 16 wait or the last edge was under 8 ns before (each
counted in LOST); an edge it is not set to does nothing. TSIN_POP gives the oldest capture, or 0 with none. TSOUT_EDGE
shows an output as active when its interval says so, and marks a single interval that has ended. XCVR_MODE_WRITE,
after the earlier posted writes of its master have been resolved, sets the mode register and clears the dominant flags
written 1; in the Safe state and without the Ulis link it is refused. XCVR_MODE_CHANGE makes a written mode effective.
TXD_DOMINANT_TIMEOUT of a NORMAL CAN transceiver of a running Brew die sets TXD_DOM, switches its driver off and fires
detector 0; TXD_RECESSIVE_RETURN switches it on. BUS_DOMINANT_TIMEOUT sets BUS_DOM and holds RXD recessive,
BUS_RECESSIVE_RETURN releases it. VBAT_UNDERVOLTAGE and VBAT_UV_RECOVERY set and clear VBAT_UV and its effects.
VBAT_MEASUREMENT with the always-on clock running shows the value, to 1,023, and keeps the least in VBAT_MIN. -/
def Obligations.PinsAndTransceivers : Prop :=
  ∀ (s : State) (i x : Nat),
    (∀ rising phase c now, i < 16 → s.enabled uTsio = true → s.flag uTsio F.tsio_TSIN_CFG_EN i = true → s.timePin i = true →
      bitOf (s.rd uTsio F.tsio_TSIN_CFG_EDGE i) (if rising then 0 else 1) = true → c = (if s.rd uTsio F.tsio_TSIN_CFG_CLOCK i < 4 then s.rd uTsio F.tsio_TSIN_CFG_CLOCK i else 4) →
      now = s.clk.wc / 32768 + phase % 4 →
      ((∀ l, pmGet s.time.lastEdge i = some l → l + 16 ≤ now) → (s.captures i).length < 16 → exec (.tsinCapture i rising phase) s =
        .next (({ s with time := { s.time with lastEdge := pmSet s.time.lastEdge i now } } : State).setCaptures i
          (s.captures i ++ [⟨((s.clockTime c / 2 ^ 46 + Int.ofNat (phase % 4)) % 2 ^ 65).toNat, rising, c⟩]))) ∧
      (16 ≤ (s.captures i).length → exec (.tsinCapture i rising phase) s = .next (s.sat uTsio F.tsio_TSIN_STATUS_LOST i))) ∧
    (∀ rising phase, bitOf (s.rd uTsio F.tsio_TSIN_CFG_EDGE i) (if rising then 0 else 1) = false → exec (.tsinCapture i rising phase) s = .next s) ∧
    (∀ c l w, i < 16 → s.captures i = c :: l → w = 2 ^ 31 + b2n c.rising * 2 ^ 30 + c.clock * 2 ^ 27 + c.half % 2 → exec (.tsinPop i) s =
      .next { ((((s.setCaptures i l).wr uTsio F.tsio_TSIN_DATA_HI_NS (c.half / 2 / 2 ^ 32) i).wr uTsio F.tsio_TSIN_DATA_LO_NS (c.half / 2) i).wr uTsio F.tsio_TSIN_DATA_X w i) with
        readData := BitVec.ofNat 32 w }) ∧
    (i < 16 → s.captures i = [] → exec (.tsinPop i) s = .next { (((s.wr uTsio F.tsio_TSIN_DATA_HI_NS 0 i).wr uTsio F.tsio_TSIN_DATA_LO_NS 0 i).wr uTsio F.tsio_TSIN_DATA_X 0 i) with
      readData := 0#32 }) ∧
    (i < 8 → (s.tsActive i = true ∨ s.flag uTsio F.tsio_TSOUT_STATUS_ACTIVE i = false) → exec (.tsoutEdge i) s = .next (s.wr uTsio F.tsio_TSOUT_STATUS_ACTIVE (b2n (s.tsActive i)) i)) ∧
    (∀ m v q t r, q = s.drain m → xcvrExists x = true → q.safe = false → q.flag uUlis F.ulis_ULIS_STATUS_UP = true →
      t = ({ q with edge := { q.edge with xcvrReq := withNat q.edge.xcvrReq x } } : State).wr uCosy F.cosy_XCVR_MODE (getBits v 0 2) x →
      r = (if getBits v 11 1 = 1 then t.wr uCosy F.cosy_XCVR_TXD_DOM 0 x else t) →
      exec (.xcvrModeWrite x v m) s = .next (if getBits v 10 1 = 1 then r.wr uCosy F.cosy_XCVR_BUS_DOM 0 x else r)) ∧
    (∀ m v q, q = s.drain m → xcvrExists x = true → (q.safe = true ∨ q.flag uUlis F.ulis_ULIS_STATUS_UP = false) → exec (.xcvrModeWrite x v m) s = .next (q.refuse m (xcvrAddr x))) ∧
    (∀ m, xcvrExists x = true → s.safe = false → s.edge.xcvrReq.contains x = true → m = s.rd uCosy F.cosy_XCVR_MODE x →
      exec (.xcvrModeChange x) s = .next (({ s with edge := { s.edge with xcvrReq := withoutNat s.edge.xcvrReq x } } : State).setXcvr x (if 16 ≤ x ∧ m ≠ 0 then 3 else m))) ∧
    (s.edge.xcvrReq.contains x = false → exec (.xcvrModeChange x) s = .next s) ∧
    (∀ t, x < 12 → s.xcvr x = 0 → s.cosy.brewRun = true → t = s.wr uCosy F.cosy_XCVR_TXD_DOM 1 x →
      exec (.txdDominantTimeout x) s = .next (({ t with edge := { t.edge with txdOff := withNat t.edge.txdOff x } } : State).check uCosy 0 true { addr := x })) ∧
    ((s.xcvr x ≠ 0 ∨ s.cosy.brewRun = false) → exec (.txdDominantTimeout x) s = .next s) ∧
    exec (.txdRecessiveReturn x) s = .next { s with edge := { s.edge with txdOff := withoutNat s.edge.txdOff x } } ∧
    (∀ t, x < 12 → s.xcvr x ≤ 1 → t = s.wr uCosy F.cosy_XCVR_BUS_DOM 1 x → exec (.busDominantTimeout x) s =
      .next { t with edge := { t.edge with rxHeld := withNat t.edge.rxHeld x } }) ∧
    exec (.busRecessiveReturn x) s = .next { s with edge := { s.edge with rxHeld := withoutNat s.edge.rxHeld x } } ∧
    exec .vbatUndervoltage s = .next (s.vbatUv true) ∧ exec .vbatUvRecovery s = .next (s.vbatUv false) ∧
    (∀ v t, s.aonRuns = true → t = s.wr uCosy F.cosy_PWR_STATUS_VBAT (min v 1023) → exec (.vbatMeasurement v) s =
      .next (t.wr uCosy F.cosy_VBAT_MIN_MIN (min (min v 1023) (t.rd uCosy F.cosy_VBAT_MIN_MIN)))) ∧
    (∀ v, s.aonRuns = false → exec (.vbatMeasurement v) s = .next s)

/-- What the events of a CAN bus do to its channel: receptions, transmissions, errors, states. For a channel n under 16. A
frame received without error on an enabled channel that is on is counted and joins the receive buffer where its slots
fit in 64 (CANsec off), else counts RX_OVF and is lost; a frame with its hand-off passes the whole buffer to the
infuser. Where nothing is on the bus, a waiting OPMODE takes effect, and where the channel then may send, a
transmission starts with the queued frame of lowest arbitration, unless the senders are stopped; its end without a
measured delay sends it where the channel may send; its failure is a failed attempt in any state: with ONE_SHOT the
frame leaves the queue and counts in TX_ABORT, else it waits for the next attempt and a waiting OPMODE takes effect.
An error of kinds 1 to 7 on a channel that is on is counted and moves the error counters. Integration leads from STATE
1 to 2, recovery from 4 to 5 (by command, or by itself with BUSOFF_AUTO), its end to 2 with both counters 0, a waiting
OPMODE having taken effect. OPMODE 0 switches the channel off, another value on. A shaper release moves the next frame
into the transmit queue, unless its credit is negative (it is then held, counted once) or the queue is full. -/
def Obligations.CanNodes : Prop :=
  ∀ (s : State) (n : Nat), n < 16 →
    (s.enabled (uCan n) = true → s.canOn n = true → ∀ f age t, f.format = 0 → t = (s.canRecDown n).canIdle n →
      (64 < slotsOf (t.canAt n).rxb + frameSlots f → exec (.canFrameReceive n (some f) none ⟨age, false⟩) s = .next (t.sat (uCan n) F.can_RX_OVF)) ∧
      (slotsOf (t.canAt n).rxb + frameSlots f ≤ 64 → ∀ g x, g = { f with cansec := false, td0 := t.td0Stamp age } → x = t.canAt n →
        ((t.setCan n { x with rxb := x.rxb ++ [g] }).inc (uCan n) F.can_RX_FRAMES).ringCanFrame n f = false →
        exec (.canFrameReceive n (some f) none ⟨age, false⟩) s = .next ((t.setCan n { x with rxb := x.rxb ++ [g] }).inc (uCan n) F.can_RX_FRAMES))) ∧
    (s.enabled (uCan n) = true → exec (.canFrameReceive n none none ⟨0, true⟩) s = .next (s.canPass n)) ∧
    (s.enabled (uCan n) = false → ∀ f c r, exec (.canFrameReceive n f c r) s = .next s) ∧
    (s.safe = false → ∀ i f,
      (∀ q, q = s.canIdle n → (s.canAt n).active = none → q.canMaySend n = true → lowestArb (q.canAt n).txq 0 none = some i → (q.canAt n).txq[i]? = some f →
        q.txStopped = false → q.canProtects n f = false →
        ∀ x, x = q.canAt n → exec (.canFrameTransmit n 0 none) s = .next (q.setCan n { x with active := some i })) ∧
      ((s.canAt n).active = some i → (s.canAt n).txq[i]? = some f →
        (s.canMaySend n = true → exec (.canFrameTransmit n 1 none) s = .next (s.canSent n i f)) ∧
        (s.flag (uCan n) F.can_CAN_CFG_ONE_SHOT = true → exec (.canFrameTransmit n 2 none) s = .next ((s.canDequeue n i).sat (uCan n) F.can_TX_ABORT)) ∧
        (s.flag (uCan n) F.can_CAN_CFG_ONE_SHOT = false → ∀ x, x = s.canAt n → exec (.canFrameTransmit n 2 none) s = .next ((s.setCan n { x with active := none }).canIdle n)))) ∧
    (∀ e, s.canOn n = true → 1 ≤ e.kind → e.kind ≤ 7 → exec (.canError n e) s = .next (s.canErrorCount n e)) ∧
    (s.canState n = 1 → exec (.canIntegrated n) s = .next ((s.canIdle n).wr (uCan n) F.can_CAN_STATUS_STATE 2)) ∧
    (s.canState n = 4 → (∀ m, s.takes (uCan n) m = true → exec (.canRecover n (some m)) s = .next (s.wr (uCan n) F.can_CAN_STATUS_STATE 5)) ∧
      (s.flag (uCan n) F.can_CAN_CFG_BUSOFF_AUTO = true → exec (.canRecover n none) s = .next (s.wr (uCan n) F.can_CAN_STATUS_STATE 5)) ∧
      (s.flag (uCan n) F.can_CAN_CFG_BUSOFF_AUTO = false → exec (.canRecover n none) s = .next s)) ∧
    (s.canState n = 5 → exec (.canRecoveryDone n) s =
      .next ((((s.canIdle n).wr (uCan n) F.can_CAN_STATUS_TEC 0).wr (uCan n) F.can_CAN_STATUS_REC 0).wr (uCan n) F.can_CAN_STATUS_STATE 2)) ∧
    (∀ m mode t, s.takes (uCan n) m = true → t = s.wr (uCan n) F.can_CAN_CTRL_OPMODE mode →
      (mode % 4 = 0 → ∀ x, x = t.canAt n → exec (.canOpmode n mode m) s = .next ((t.setCan n { x with active := none }).wr (uCan n) F.can_CAN_STATUS_STATE 0)) ∧
      (mode % 4 ≠ 0 → exec (.canOpmode n mode m) s = .next ((t.canSwitchOn n).canIdle n))) ∧
    (s.enabled (uCan n) = true → ∀ t x, t = s.canSettle n → x = t.canAt n →
      (t.canNext n = none → exec (.canShaperRelease n) s = .next t) ∧
      (∀ e, t.canNext n = some e → t.flag (uCan n) F.can_TX_PCS_CFG_EN = true → x.credit < 0 → x.held = false →
        exec (.canShaperRelease n) s = .next ((t.setCan n { x with held := true }).inc (uCan n) F.can_TX_PCS_HELD)) ∧
      (∀ e, t.canNext n = some e → t.flag (uCan n) F.can_TX_PCS_CFG_EN = false → (16 ≤ x.txq.length ∨ 128 < slotsOf x.txq + frameSlots e.2) →
        exec (.canShaperRelease n) s = .next t) ∧
      (∀ f r, t.canNext n = some (none, f) → t.flag (uCan n) F.can_TX_PCS_CFG_EN = false → x.txq.length < 16 → slotsOf x.txq + frameSlots f ≤ 128 →
        r = (t.setOutQ n (t.outQ n).tail).inc uGwAny F.gw_OUT_FRAMES n →
        exec (.canShaperRelease n) s = .next ((r.setCan n { x with txq := x.txq ++ [f], credit := x.credit, lastSig := false, held := false }).canSettle n)))

/-- LIN slots, SENT messages and QSPI transfers. For LIN channel n under 8, on. A commander whose transceiver drives,
whose senders run and that is not stopped takes the requested table at a slot start: with no entry the slot is empty;
with entry e it opens e's slot, counts a header and goes on at e + 1. A responder takes a header within 15 % of its
rate, counts it and opens the slot of its entry; a header beyond that counts SYNC_ERR. A response that does not come
counts NO_RESP with LAST_ERR 1. A complete response with the right checksum is counted and passed on; with a wrong one
counts CHK_ERR, LAST_ERR 2; a collision in an event-triggered slot counts ET_COLL, LAST_ERR 5. A published response
that the bus carried is counted and sent. In phase 3 the commander sends go-to-sleep (frame 0x3C, a 0 byte and seven
0xFF) and stops. A SENT message whose calibration pulse is off is rejected with error 0; one with the wrong number of
nibbles with error 1; an enabled channel off takes nothing. A QSPI transfer keeps the word's bits received and counts. -/
def Obligations.LinSentAndQspi : Prop :=
  ∀ (s : State) (n : Nat), n < 8 →
    (s.linOn n = true → s.rd uLin F.lin_LIN_CFG_ROLE n = 0 → s.txStopped = false → s.linDrives n = true → (s.linAt n).stopped = false → ∀ req t, req = s.rd uLin F.lin_LIN_SCHED_REQ n →
      t = s.wr uLin F.lin_LIN_SCHED_ACTIVE req n → ∀ x p, x = t.linAt n → p = (if req = s.rd uLin F.lin_LIN_SCHED_ACTIVE n then x.next else 0) →
        (t.linNext n req p = none → exec (.linSlotStart n) s = .next (t.setLin n { x with slot := none })) ∧
        (∀ e, t.linNext n req p = some e → exec (.linSlotStart n) s =
          .next (((t.setLin n { x with next := (e + 1) % 32, slot := some (t.linSlotOf n (t.linEntry n req e)) }).wr uLin F.lin_LIN_STATUS_ENTRY e n).inc uLin F.lin_HEADERS n))) ∧
    (s.linOn n = true → s.rd uLin F.lin_LIN_CFG_ROLE n = 1 → ∀ id baud,
      (115 * s.linBaud n < 100 * baud ∨ 100 * baud < 85 * s.linBaud n → exec (.linHeaderReceive n id baud) s = .next ((s.sat uLin F.lin_SYNC_ERR n).wr uLin F.lin_LIN_STATUS_LAST_ERR 4 n)) ∧
      (100 * baud ≤ 115 * s.linBaud n → 85 * s.linBaud n ≤ 100 * baud → exec (.linHeaderReceive n id baud) s = .next ((s.inc uLin F.lin_HEADERS n).linOpenSlot n (s.linFind n id)))) ∧
    (∀ sl x, (s.linAt n).slot = some sl → s.linOn n = true → x = s.linAt n → sl.pub = false →
      exec (.linResponseTimeout n) s = .next (((s.setLin n { x with slot := none }).sat uLin F.lin_NO_RESP n).wr uLin F.lin_LIN_STATUS_LAST_ERR 1 n) ∧
      (sl.type ≠ 1 → ∀ data chk age t, t = s.setLin n { x with slot := none } → data.length = sl.len →
        (chk = s.linChecksum n sl.id data → exec (.linResponseComplete n data chk false false age) s = .next
          ((t.inc uLin F.lin_RESP_OK n).handOff (16 + n) { format := 3, id := sl.id * 2 ^ 18, data := data, td0 := s.td0Stamp age })) ∧
        (chk ≠ s.linChecksum n sl.id data → exec (.linResponseComplete n data chk false false age) s = .next ((t.sat uLin F.lin_CHK_ERR n).wr uLin F.lin_LIN_STATUS_LAST_ERR 2 n)))) ∧
    (∀ sl x t, (s.linAt n).slot = some sl → s.linOn n = true → x = s.linAt n → t = s.setLin n { x with slot := none } →
      (sl.type = 1 → ∀ data chk be age r, r = (t.sat uLin F.lin_ET_COLL n).wr uLin F.lin_LIN_STATUS_LAST_ERR 5 n → exec (.linResponseComplete n data chk be true age) s =
        .next { r with gw := { r.gw with collisions := r.gw.collisions ++ [16 + n] } }) ∧
      (∀ d data chk age r, sl.pub = true → sl.resp = some d → s.linHold n = false → s.safe = false → s.linDrives n = true → r = t.inc uLin F.lin_RESP_OK n →
        exec (.linResponseComplete n data chk false false age) s =
        .next { r with edge := { r.edge with busSent := r.edge.busSent ++ [(16 + n, { format := 3, id := sl.id * 2 ^ 18, data := d })] } })) ∧
    (s.linOn n = true → s.rd uLin F.lin_LIN_CFG_ROLE n = 0 → s.linDrives n = true → s.txStopped = false → s.rd uNetm F.netm_NETM_STATUS_PHASE = 3 → (s.linAt n).stopped = false → ∀ x r, x = s.linAt n →
      r = (s.setLin n { x with slot := none, stopped := true }).inc uLin F.lin_HEADERS n → exec (.linGoToSleep n) s =
      .next { r with edge := { r.edge with busSent := r.edge.busSent ++ [(16 + n, { format := 3, id := 0x3C * 2 ^ 18, data := 0#8 :: List.replicate 7 0xFF#8 })] } }) ∧
    (s.flag uSent F.sent_SENT_CFG_EN n = false → ∀ m, exec (.sentMessage n m) s = .next s) ∧
    (s.enabled uSent = true → s.flag uSent F.sent_SENT_CFG_EN n = true → ∀ m w, w = 56 * 16 * clampNat 120 3600 (s.rd uSent F.sent_SENT_CFG_TICK n) →
      (w < 5 * m.sync - 5 * w + (5 * w - 5 * m.sync) → exec (.sentMessage n m) s = .next (s.sentReject n 0)) ∧
      (5 * m.sync - 5 * w + (5 * w - 5 * m.sync) ≤ w → (s.sentAt n).lastSync = none → s.rd uSent F.sent_SENT_CFG_NIBBLES n = 6 → m.nibbles.length ≠ 6 →
        exec (.sentMessage n m) s = .next (s.sentReject n 1))) ∧
    (∀ q rx r, q < 4 → s.enabled uSent = true → s.flag uSent F.sent_QSPI_CFG_EN q = true → s.safe = false → r = s.inc uSent F.sent_QSPI_COUNT q →
      exec (.qspiTransfer q rx) s = .next { r with edge := { r.edge with spi := pmSet r.edge.spi q (rx % 2 ^ (max 7 (s.rd uSent F.sent_QSPI_CFG_WORD q) + 1)) } })

/-- A good SENT message is shown, timed, counted and passed on. A SENT message on an enabled channel whose calibration
pulse of m.sync (with no pulse before it) is within a fifth of nominal, of six nibbles each between 12 and 27 ticks as
its status and check nibbles are, whose checksum fits and without a pause pulse, is shown: SENT_FAST holds the status
and the data, the time of reception and the measured tick are recorded, MSG_OK counts it, and the gateway takes it as
a frame of four bytes from bus 24 + n; its status nibble then joins the slow channel. The frame carries TD0's time of
reception. -/
def Obligations.SentMessageAccepted : Prop :=
  ∀ (s : State) (n : Nat) (m : SentIn) (w : Nat), n < 8 → s.enabled uSent = true → s.flag uSent F.sent_SENT_CFG_EN n = true →
    w = 56 * 16 * clampNat 120 3600 (s.rd uSent F.sent_SENT_CFG_TICK n) → 5 * m.sync - 5 * w + (5 * w - 5 * m.sync) ≤ w → (s.sentAt n).lastSync = none →
    s.rd uSent F.sent_SENT_CFG_NIBBLES n = 6 → ∀ ns st cr, ns = m.nibbles.map (sentTicks m.sync) → st = sentTicks m.sync m.status → cr = sentTicks m.sync m.crc →
    ns.length = 6 → (∀ v, v ∈ st :: cr :: ns → 12 ≤ v ∧ v ≤ 27) → crc4 (s.flag uSent F.sent_SENT_CFG_CRC_MODE n) (ns.map (· - 12)) = cr - 12 → s.flag uSent F.sent_SENT_CFG_PAUSE n = false →
    ∀ x t r td0, x = s.sentAt n → t = s.setSent n { x with lastSync := some m.sync } →
    r = (((t.wr uSent F.sent_SENT_FAST_STAT (st - 12) n).wr uSent F.sent_SENT_FAST_DATA ((List.range 6).foldl (fun a i => a * 16 + (ns.map (· - 12)).getD i 0) 0) n).wr uSent F.sent_SENT_FAST_TS_NS m.wcNs n).wr
      uSent F.sent_SENT_STATUS_MEAS_TICK (m.sync / 56) n →
    td0 = r.td0Stamp (r.clk.wc - m.wcNs * 65536) →
    exec (.sentMessage n m) s = .next ((((r.inc uSent F.sent_MSG_OK n).handOff (24 + n)
      { format := 3, data := beBytes 4 (r.word (fldAddr uSent F.sent_SENT_FAST n 0)).toNat, td0 := td0 })).sentSlow n (st - 12) td0)

/-- FlexRay's protocol commands and slots, and the 10BASE-T1S segments. With the FlexRay controller enabled and taking
commands of the master, CONFIG acts in POC states 0 and 2 (to 1), READY in 1, 3 to 6 (to 2), WAKEUP and RUN in 2 (to
3, 4), ALL_SLOTS in 5 and 6 (no change), HALT in 5 and 6 (to 7), FREEZE in every state (to 7), each clearing CMD_ERR;
in another state a command only sets CMD_ERR. A slot of a running controller shows the cycle, and the state (6 if
passive); with its senders stopped it sends nothing and only receives. A segment that is on takes a frame of 64 to
1,522 bytes that fits its 4,096, with its class and time, and counts RX_DROP for another or one of bad FCS. At an
opportunity a collision without PLCA is counted; a lost beacon with PLCA is counted and clears PLCA_ACTIVE; a beacon
of another makes it active; without PLCA a segment that drives sends one frame; the coordinator with PLCA not active
sends the beacon; at its own opportunity with PLCA active a node sends up to 1 and BURST_COUNT frames. -/
def Obligations.FlexRayAndT1s : Prop :=
  ∀ s : State,
    (∀ m, s.enabled uFlx = true → s.takes uFlx m = true → ∀ t, t = s.wr uFlx F.flx_FLX_STATUS_CMD_ERR 0 →
      ((s.poc = 0 ∨ s.poc = 2) → exec (.flxConfig m) s = .next (t.wr uFlx F.flx_FLX_STATUS_POC_STATE 1)) ∧
      ((s.poc = 1 ∨ s.poc = 3 ∨ s.poc = 4 ∨ s.poc = 5 ∨ s.poc = 6) → exec (.flxReady m) s = .next (t.wr uFlx F.flx_FLX_STATUS_POC_STATE 2)) ∧
      (s.poc = 2 → exec (.flxWakeup m) s = .next (t.wr uFlx F.flx_FLX_STATUS_POC_STATE 3) ∧ exec (.flxRun m) s = .next (t.wr uFlx F.flx_FLX_STATUS_POC_STATE 4)) ∧
      ((s.poc = 5 ∨ s.poc = 6) → exec (.flxAllSlots m) s = .next t ∧ exec (.flxHalt m) s = .next (t.wr uFlx F.flx_FLX_STATUS_POC_STATE 7)) ∧
      (s.poc ≤ 7 → exec (.flxFreeze m) s = .next (t.wr uFlx F.flx_FLX_STATUS_POC_STATE 7))) ∧
    (∀ m, s.takes uFlx m = true → ∀ t, t = s.wr uFlx F.flx_FLX_STATUS_CMD_ERR 1 →
      ((s.poc = 1 ∨ 3 ≤ s.poc) → exec (.flxConfig m) s = .next t) ∧ (s.poc ≠ 2 → exec (.flxWakeup m) s = .next t ∧ exec (.flxRun m) s = .next t) ∧
      ((s.poc < 5 ∨ 6 < s.poc) → exec (.flxAllSlots m) s = .next t ∧ exec (.flxHalt m) s = .next t) ∧ ((s.poc = 0 ∨ s.poc = 2 ∨ s.poc = 7) → exec (.flxReady m) s = .next t)) ∧
    (∀ slot cycle passive age t, s.enabled uFlx = true → 4 ≤ s.poc → s.poc ≤ 6 →
      t = (s.wr uFlx F.flx_FLX_STATUS_POC_STATE (if passive then 6 else 5)).wr uFlx F.flx_FLX_STATUS_CYCLE cycle →
      t.rd uFlx F.flx_FLX_NODE_CHANNELS = 1 → (passive = true ∨ t.txStopped = true) → ∀ rx, exec (.flxSlot slot cycle false passive rx none age) s = .next (t.flxReceive slot cycle 0 age rx)) ∧
    (s.enabled uFlx = false → ∀ slot cycle first passive a b age, exec (.flxSlot slot cycle first passive a b age) s = .next s) ∧
    (∀ g, g < 8 → s.segOn g = true →
      (∀ b, exec (.t1sFrameReceive g b true) s = .next (s.sat uT1s F.t1s_RX_DROP g)) ∧
      (∀ b bad, (b.length < 64 ∨ 1522 < b.length ∨ 4096 < s.segRxUsed g + b.length) → exec (.t1sFrameReceive g b bad) s = .next (s.sat uT1s F.t1s_RX_DROP g)) ∧
      (∀ b, 64 ≤ b.length → b.length ≤ 1522 → s.segRxUsed g + b.length ≤ 4096 →
        exec (.t1sFrameReceive g b false) s = .next (s.offer 12 { inPort := 12, inSub := g, tc := s.segClass g b, ts := s.wcNs % 2 ^ 32 } b)) ∧
      (s.plca g = false → ∀ node, exec (.t1sTxOpportunity g 1 node) s = .next (s.sat uT1s F.t1s_COLLISIONS g) ∧
        (s.segDrives g = true → exec (.t1sTxOpportunity g 0 node) s = .next (s.segSend g 1)) ∧
        (s.segDrives g = false → exec (.t1sTxOpportunity g 0 node) s = .next s)) ∧
      (s.plca g = true → ∀ node, exec (.t1sTxOpportunity g 2 node) s = .next ((s.sat uT1s F.t1s_BEACON_LOSS g).wr uT1s F.t1s_T1S_STATUS_PLCA_ACTIVE 0 g) ∧
        (s.rd uT1s F.t1s_T1S_CFG_NODE_ID g ≠ 0 → exec (.t1sTxOpportunity g 3 node) s = .next (s.segBeacon g)) ∧
        (s.rd uT1s F.t1s_T1S_CFG_NODE_ID g = 0 → s.flag uT1s F.t1s_T1S_STATUS_PLCA_ACTIVE g = false → s.segDrives g = true → exec (.t1sTxOpportunity g 0 node) s = .next (s.segBeacon g)) ∧
        (∀ t, t = s.wr uT1s F.t1s_T1S_STATUS_CUR_ID node g → s.flag uT1s F.t1s_T1S_STATUS_PLCA_ACTIVE g = true → node = t.rd uT1s F.t1s_T1S_CFG_NODE_ID g → t.flag uT1s F.t1s_T1S_STATUS_PLCA_ACTIVE g = true →
          t.segDrives g = true → exec (.t1sTxOpportunity g 0 node) s = .next (t.segSend g (1 + t.rd uT1s F.t1s_T1S_BURST_BURST_COUNT g)))))

/-- The infusers' items: frames, Ethernet, sideband, management and signal steps; port 13. For a running engine n and its
own order of items. A frame at the head of the chosen source leaves it, the source is remembered for the round robin,
and the frame is routed; an Ethernet frame is taken with the AVTP message of its tunnel unpacked, or with none
dropped; a sideband event is taken and the turn of the signals is unchanged, unless nothing is left to do; a
management read is a read of the register by the engine, and a change of a LIN schedule stages the register's staged
word with the table in it (log entry 110); each counts one item. A SIG step does the first job of the engine's list
where the order gives signals their turn; a time-out or a due PDU only where it is the one of that number. An enabled
engine hands port 13 its first PDU whose class is not stalled, tagged with the engine and the time. A frame read out
for port 13 goes to the engine that owns its tunnel, unless eight wait there or it has over 1,522 bytes (IN_DROP);
with no stream known for it, NO_STREAM counts it. -/
def Obligations.GatewayItems : Prop :=
  ∀ (s : State) (n : Nat),
    (s.engRuns n = true →
      (∀ b f t r x, s.nextItem n false = .src b → b ≠ 38 → s.inQ b = f :: t → r = (s.item n false).setInQ b t → x = r.engine n →
        exec (.infuserRxItem n) s = .next ((r.setEngine n { x with rr := b }).routeFrame n b f)) ∧
      (∀ k b t r x y, s.nextItem n false = .src 38 → (s.engine n).ethIn = (k, b) :: t → r = s.item n false → x = r.engine n → y = r.setEngine n { x with ethIn := t, rr := 38 } →
        (y.avtpOf b = none → exec (.infuserEthItem n) s = .next y) ∧
        (∀ a j, y.avtpOf b = some a → y.inboundTunnel a = some j → exec (.infuserEthItem n) s = .next (y.unpack n j a))) ∧
      (∀ r x, s.nextItem n false = .sb → r = s.item n (s.engine n).lastSig → x = r.engine n → exec (.infuserSbItem n) s = .next ((r.setEngine n { x with sb := x.sb.tail }).idlePass n)) ∧
      (s.nextItem n true = .mgmt → ∀ r, r = s.item n false →
        (∀ a, exec (.infuserMgmtItem n (.read a)) s = .next (r.regReadTo (32 + n) a)) ∧
        (∀ ch table a, ch < 8 → a = fldAddr uLin F.lin_LIN_SCHED_REQ ch 0 → r.takes uLin (32 + n) = true → exec (.infuserMgmtItem n (.linSched ch table)) s = .next (r.stage uLin (32 + n) a
          (setBits (r.stagedWord a) F.lin_LIN_SCHED_REQ.lsb F.lin_LIN_SCHED_REQ.width table)))) ∧
      (∀ turn j l, s.nextItem n false = .sig turn → (s.engine n).job = j :: l → exec (.sigStep n) s = .next ((s.item n turn).sigStep n) ∧
        (∀ p, j.2 = (1, p) → exec (.signalTimeout n p) s = .next ((s.item n turn).sigStep n)) ∧ (∀ p, j.2 = (2, p) → exec (.pduDue n p) s = .next ((s.item n turn).sigStep n)) ∧
        (∀ p, (j.2.1 ≠ 1 ∨ j.2.2 ≠ p) → exec (.signalTimeout n p) s = .next s) ∧ (∀ p, (j.2.1 ≠ 2 ∨ j.2.2 ≠ p) → exec (.pduDue n p) s = .next s))) ∧
    (s.engRuns n = false → exec (.infuserRxItem n) s = .next s ∧ exec (.infuserEthItem n) s = .next s ∧ exec (.infuserSbItem n) s = .next s ∧ exec (.sigStep n) s = .next s) ∧
    (n < 13 → s.enabled (uGw n) = true → ∀ x, x = s.engine n →
      (∀ i p, findIdx1 (fun (p : Nat × List Byte) => !s.stalledClass 13 p.1) x.p13Out 0 = some (i, p) → exec (.p13PduHandoff n) s =
        .next ((s.setEngine n { x with p13Out := x.p13Out.eraseIdx i }).offer 13 { inPort := 13, inSub := n, tc := p.1, ts := s.wcNs % 2 ^ 32 } p.2)) ∧
      (findIdx1 (fun (p : Nat × List Byte) => !s.stalledClass 13 p.1) x.p13Out 0 = none → exec (.p13PduHandoff n) s = .next s)) ∧
    (findIdx1 (fun (d : Delivered) => d.port == 13) s.fab.delivered 0 = none → exec .p13Dispatch s = .next s) ∧
    (∀ i d f q, findIdx1 (fun (d : Delivered) => d.port == 13) s.fab.delivered 0 = some (i, d) → f = s.fab → q = { s with fab := { f with delivered := f.delivered.eraseIdx i } } →
      ((q.avtpOf d.bytes).bind q.inboundTunnel = none → exec .p13Dispatch s = .next (q.sat uGwAny F.gw_NO_STREAM_COUNT)) ∧
      (∀ t x, (q.avtpOf d.bytes).bind q.inboundTunnel = some t → q.engineOf (tunOwner (q.tblAt 1 t)) = some n → x = q.engine n →
        ((8 ≤ x.ethIn.length ∨ 1522 < d.bytes.length) → exec .p13Dispatch s = .next (q.sat (uGw n) F.gw_ETH_IN_DROP)) ∧
        (x.ethIn.length < 8 → d.bytes.length ≤ 1522 → exec .p13Dispatch s = .next (q.setEngine n { x with ethIn := x.ethIn ++ [(t, d.bytes)] }))))

/-- TBL_CMD on the gateway's tables, and the window on its memory. For engine n under 13 that takes writes of the master.
NOP is OK. WRITE, READ and CLEAR of a table over 3 or an index outside it are BAD_ARG, as is an opcode outside the
table. READ puts the entry into TBL_DATA, OK, or is ECC_ERR where its word fails the code check (without an injection:
where the word has the error). CLEAR empties the entry, OK. WRITE stores TBL_DATA, OK, but is BAD_ARG for a route that
would break the order of the routes. MEM_DATA of a disabled engine writes the word at the window's index and goes on
to the next; of an enabled one a write of the same value does nothing, and a differing one is refused. A read gives
the word and goes on to the next. -/
def Obligations.GatewayTables : Prop :=
  ∀ (s : State) (n m : Nat), n < 13 → s.takes (uGw n) m = true →
    exec (.tblNop n m) s = .next (s.tblStatus tblOk) ∧ exec (.tblCmdInvalid n m) s = .next (s.tblStatus tblBadArg) ∧
    (∀ t i, (4 ≤ t ∨ tblSize t ≤ i) → exec (.tblWrite n t i m) s = .next (s.tblStatus tblBadArg) ∧ exec (.tblRead n t i m) s = .next (s.tblStatus tblBadArg) ∧
      exec (.tblClear n t i m) s = .next (s.tblStatus tblBadArg)) ∧
    (∀ t i, t < 4 → i < tblSize t →
      (t ≠ 0 ∨ s.routeOrdered i (s.tblData t) = true → exec (.tblWrite n t i m) s = .next ((s.putTbl t i (s.tblData t)).tblStatus tblOk)) ∧
      (t = 0 → s.routeOrdered i (s.tblData t) = false → exec (.tblWrite n t i m) s = .next (s.tblStatus tblBadArg)) ∧
      (∀ q, s.tblCheck n t i = (false, q) → exec (.tblRead n t i m) s = .next ((q.setTblData t (q.tblAt t i)).tblStatus tblOk)) ∧
      (∀ q, s.tblCheck n t i = (true, q) → exec (.tblRead n t i m) s = .next (q.tblStatus tblEccErr)) ∧
      (s.armed (uGw n) 0 = false → (s.tblFailed t i = false → s.tblCheck n t i = (false, s)) ∧ (s.tblFailed t i = true → s.tblCheck n t i = (true, s.tblFault n t i))) ∧
      exec (.tblClear n t i m) s = .next ((s.putTbl t i 0).tblStatus tblOk)) ∧
    (∀ v g, g = s.gw → s.enabled (uGw n) = false → exec (.memDataWrite n v m) s = .next ((({ s with gw := { g with mem := smSet zero0 g.mem (s.memIndex n) v.toNat } } : State)).memNext n)) ∧
    (∀ v, s.enabled (uGw n) = true →
      (v = BitVec.ofNat 32 (smGet zero0 s.gw.mem (s.memIndex n)) → exec (.memDataWrite n v m) s = .next s) ∧
      (v ≠ BitVec.ofNat 32 (smGet zero0 s.gw.mem (s.memIndex n)) → exec (.memDataWrite n v m) s = .next (s.refuse m (fldAddr (uGw n) F.gw_MEM_DATA_DATA 0 0)))) ∧
    (∀ inj q, s.codeCheck (uGw n) 0 .good = (.good, inj, q) → exec (.memDataRead n) s = .next { (q.memNext n) with readData := BitVec.ofNat 32 (smGet zero0 s.gw.mem (s.memIndex n)) })

/-- The rings' rounds, tokens, phase messages and times. For a ring r that runs. A round starts where the device begins
the rounds of r and none has yet run since Awake, or none waits and its interval has passed; a token that does not
come in its time counts TOKEN_LOST and starts the next round; neither does anything else. A token of the ring in phase
Awake, not the device's own, that fits is taken, else BAD_MSG counts it; a message of another ring, or one that fits
no type, counts BAD_MSG. A follower of the ring (r = 0: the backbone, whose messages are noted) records AGREE in
Awake, DRAIN with its length in Agreed and COMMIT in Draining. WAKE takes the ring's consent back and aborts with
reason 8. The device that drives the backbone enters Draining when the agreement time has passed, Committed when the
drain has; one that waits for the driver in vain aborts with reason 10. -/
def Obligations.RingMessages : Prop :=
  ∀ (s : State) (r : Nat) (m : RingIn),
    (s.roundsAt r = true → ((s.ring r).fresh = true ∨ ((s.ring r).waiting = false ∧ max 1 (s.rd uNetm F.netm_NETM_TIMING_ROUND_TICKS) ≤ (s.ring r).since)) → exec (.roundStart r) s = .next (s.startRound r)) ∧
    (s.roundsAt r = true → (s.ring r).waiting = true → max 1 (s.rd uNetm F.netm_NETM_TIMING_TOKEN_TIMEOUT) ≤ (s.ring r).since →
      exec (.tokenTimeout r) s = .next ((s.sat uNetm F.netm_TOKEN_LOST).startRound r)) ∧
    (s.roundsAt r = false → exec (.roundStart r) s = .next s ∧ exec (.tokenTimeout r) s = .next s) ∧
    (s.ringRuns r = false → exec (.ringToken r m) s = .next s ∧ exec (.ringAgree r m) s = .next s ∧ exec (.ringDrain r m) s = .next s ∧ exec (.ringCommit r m) s = .next s ∧ exec (.ringWake r m) s = .next s ∧ exec (.ringBadMsg r) s = .next s) ∧
    (s.ringRuns r = true → exec (.ringBadMsg r) s = .next (s.sat uNetm F.netm_BAD_MSG) ∧
      (m.ring % 256 ≠ s.ringId r → exec (.ringToken r m) s = .next (s.sat uNetm F.netm_BAD_MSG) ∧ exec (.ringAgree r m) s = .next (s.sat uNetm F.netm_BAD_MSG) ∧ exec (.ringDrain r m) s = .next (s.sat uNetm F.netm_BAD_MSG) ∧
        exec (.ringCommit r m) s = .next (s.sat uNetm F.netm_BAD_MSG) ∧ exec (.ringWake r m) s = .next (s.sat uNetm F.netm_BAD_MSG)) ∧
      (m.ring % 256 = s.ringId r → m.sender % 64 = s.ringPos r → exec (.ringToken r m) s = .next s ∧ exec (.ringAgree r m) s = .next s ∧ exec (.ringDrain r m) s = .next s ∧ exec (.ringCommit r m) s = .next s ∧ exec (.ringWake r m) s = .next s) ∧
      (m.ring % 256 = s.ringId r → m.sender % 64 ≠ s.ringPos r → ∀ t, t = (if r = 0 then ({ s with netm := { s.netm with bbSince := 0 } } : State).wr uNetm F.netm_NETM_STATUS_BB_SEEN 1 else s) →
        (s.phase ≠ phAwake → exec (.ringToken r m) s = .next s) ∧ (s.phase = phAwake → s.tokenFits r m = false → exec (.ringToken r m) s = .next (s.sat uNetm F.netm_BAD_MSG)) ∧
        (s.phase = phAwake → s.tokenFits r m = true → exec (.ringToken r m) s = .next (t.takeToken r m)) ∧
        (t.followsIn r phAwake = true → ∀ x, x = t.netm → exec (.ringAgree r m) s = .next { t with netm := { x with agreeSeen := true } }) ∧
        (t.followsIn r phAgreed = true → ∀ x, x = t.netm → exec (.ringDrain r m) s = .next { t with netm := { x with drainSeen := some (m.arg % 256) } }) ∧
        (t.followsIn r phDraining = true → ∀ x, x = t.netm → exec (.ringCommit r m) s = .next { t with netm := { x with commitSeen := true } }) ∧
        exec (.ringWake r m) s = .next ((if r = 0 then t else t.setRingOk r false).ringAbort 8 r))) ∧
    (s.ringsRun = true → s.phase = phAgreed → s.drives = true → max 1 (s.rd uNetm F.netm_NETM_TIMING_AGREE_TICKS) ≤ s.netm.timer → exec .agreeTicksExpiry s = .next (s.enterDraining (s.rd uNetm F.netm_NETM_TIMING_DRAIN_TICKS))) ∧
    (s.ringsRun = true → s.phase = phDraining → s.drives = true → s.netm.drainLen ≤ s.netm.timer → exec .drainExpiry s = .next s.enterCommitted) ∧
    (s.drives = false → exec .agreeTicksExpiry s = .next s ∧ exec .drainExpiry s = .next s) ∧
    (s.drives = false → s.phase = phAgreed → s.netm.drainSeen = none → max 1 (s.rd uNetm F.netm_NETM_TIMING_AGREE_TICKS) + max 1 (s.rd uNetm F.netm_NETM_TIMING_TOKEN_TIMEOUT) ≤ s.netm.timer →
      exec .backboneTimeout s = .next (s.ringAbort 10 0)) ∧
    (s.drives = true → exec .backboneTimeout s = .next s)

/-- The commit to Sleep and the wake sources. A commit requested while no wake is latched and the state may sleep is
taken: an armed update is cancelled (reason 7), the die is locked, the wake timer runs where enabled. Its delay over,
the queued edge frames count as discarded and the device goes to Standby or Sleep by TARGET. A WAKE pin under 4 keeps
its level and is a wake event of reason 1 where enabled and at its active level; a CAN wake-up pattern one of reason
2, a LIN wake of reason 5, where enabled; a selective wake frame that matches a filter one of reason 3 with 4n + k and
counts ERR_CNT down; an erroneous classical frame counts ERR_CNT up, the 32nd a wake event of reason 4; the running
timer one of reason 6. A wake command aborts the phase with reason 9; LOCAL_HOLD keeps its value and acts on the
phase. -/
def Obligations.SleepAndWake : Prop :=
  ∀ s : State,
    (s.cosy.commitReq = false → exec .commitRequest s = .next s) ∧
    (s.cosy.commitReq = true → s.cosy.latched = false → s.maySleep = true → ∀ t c, t = s.cancelActivation 7 → c = t.cosy →
      exec .commitRequest s = .next { t with cosy := { c with commitReq := false, committed := true, locked := true, timerOn := t.flag uCosy F.cosy_WAKE_CFG_TIMER_EN } }) ∧
    (s.cosy.committed = false → exec .commitDelayExpiry s = .next s) ∧
    (s.cosy.committed = true → s.maySleep = true → ∀ tg t c, tg = s.flag uCosy F.cosy_SLEEP_CFG_TARGET →
      t = ((s.sat uNetm F.netm_COMMIT_DISCARD 0 0 s.queuedEdge).xcvrSleep tg).powerDown (if tg then pwStandby else pwSleep) → c = t.cosy →
      exec .commitDelayExpiry s = .next { t with cosy := { c with committed := false } }) ∧
    (∀ p level c t, c = s.cosy → t = { s with cosy := { c with wakePins := if level then setBit c.wakePins p else clearBit c.wakePins p } } → p < 4 →
      (bitOf (s.rd uCosy F.cosy_WAKE_CFG_PIN_EN) p = true → t.pinActive p = true → exec (.wakeDetect (.pin p level)) s = .next (t.wakeEvent 1 p)) ∧
      (t.pinActive p = false → exec (.wakeDetect (.pin p level)) s = .next t)) ∧
    (∀ c, c < 8 → bitOf (s.rd uCosy F.cosy_WAKE_CFG_WUP_EN) c = true → exec (.wakeDetect (.wup c)) s = .next (s.wakeEvent 2 c)) ∧
    (∀ c, bitOf (s.rd uCosy F.cosy_WAKE_CFG_WUP_EN) c = false → exec (.wakeDetect (.wup c)) s = .next s) ∧
    (∀ c, c < 4 → bitOf (s.rd uCosy F.cosy_WAKE_CFG_LWAKE_EN) c = true → exec (.wakeDetect (.lin c)) s = .next (s.wakeEvent 5 c)) ∧
    (∀ n, n < 8 → s.cosy.armed = true → s.flag uCosy F.cosy_SW_CFG_EN n = true → 2 ≤ s.cosy.power → ∀ f c, c = s.rd uCosy F.cosy_SW_CFG_ERR_CNT n →
      (f.format ≠ 0 → ∀ e, exec (.selectiveWakeFrame n f e) s = .next s) ∧
      (f.format = 0 → c ≠ 31 → exec (.selectiveWakeFrame n f true) s = .next (s.wr uCosy F.cosy_SW_CFG_ERR_CNT (min 63 (c + 1)) n)) ∧
      (f.format = 0 → c = 31 → exec (.selectiveWakeFrame n f true) s = .next ((s.wr uCosy F.cosy_SW_CFG_ERR_CNT (min 63 (c + 1)) n).wakeEvent 4 n)) ∧
      (f.format = 0 → ∀ t, t = s.wr uCosy F.cosy_SW_CFG_ERR_CNT (c - 1) n →
        (f.remote = true → exec (.selectiveWakeFrame n f false) s = .next t) ∧
        (∀ k, f.remote = false → [0, 1, 2, 3].find? (fun k => t.swfMatch n k f) = some k → exec (.selectiveWakeFrame n f false) s = .next (t.wakeEvent 3 (4 * n + k))) ∧
        (f.remote = false → [0, 1, 2, 3].find? (fun k => t.swfMatch n k f) = none → exec (.selectiveWakeFrame n f false) s = .next t))) ∧
    (s.cosy.timerOn = true → exec .wakeTimerExpiry s = .next (s.wakeEvent 6 0)) ∧ (s.cosy.timerOn = false → exec .wakeTimerExpiry s = .next s) ∧
    (∀ m, s.takes uNetm m = true → exec (.localWake m) s = .next (s.ringAbort 9 0) ∧
      ∀ v, exec (.localHold v m) s = .next ((s.wr uNetm F.netm_NETM_LOCAL_HOLD v.toNat).netmLocal 9))

/-- The events of the supplies, the reset pin, the clock and power itself. Cosy power-on of a device that is Off leaves
the reset state but for the one-time memory, the free-value count and the queue; power off clears everything else and
leaves it Off; in another state power-on does nothing. PMIC_PG high, in Ready or above with INH asserted, clears the
tries, shows it and releases the Brew die. A PG time-out in Ready with the die held, INH asserted and PG low counts;
the PG_RETRIES-th goes to Sleep, an earlier one drops INH for a retry, after which INH is asserted again. A lost PG of
a running die counts and restarts it with cause 1; a lost clock one with cause 2, and its return releases the die;
RST_N falling one with cause 3, and its release releases the die. FORCE_SLEEP, after the earlier posted writes of its
master have been resolved, with key 0x57A9 in Active or Fallback arms the detectors and requests the commit before a
wake pin that is active is reported; with another key it is refused. The crystal check shows X32_OK where enabled and
the always-on clock runs. -/
def Obligations.PowerStates : Prop :=
  ∀ s : State,
    (s.cosy.power = pwOff → exec .cosyPowerOn s = .next { State.reset with otp := s.otp, readData := s.readData, free := s.free, pending := s.pending }) ∧
    (s.cosy.power ≠ pwOff → exec .cosyPowerOn s = .next s) ∧
    exec .powerOff s = .next { State.reset with otp := s.otp, readData := s.readData, free := s.free, pending := s.pending, cosy := { power := pwOff } } ∧
    (pwReady ≤ s.cosy.power → s.flag uCosy F.cosy_PWR_STATUS_INH = true → ∀ c, c = s.cosy → exec .pmicPgHigh s = .next ((({ s with cosy := { c with pgFails := 0 } } : State).wr uCosy F.cosy_PWR_STATUS_PMIC_PG 1).brewRelease)) ∧
    (s.cosy.power = pwReady → s.cosy.brewRun = false → s.flag uCosy F.cosy_PWR_STATUS_INH = true → s.pgHigh = false → ∀ t n c u d, t = s.sat uCosy F.cosy_PG_FAIL_COUNT → n = t.cosy.pgFails + 1 → c = t.cosy →
      u = (t.brewReset false).wr uCosy F.cosy_PWR_STATUS_INH 0 → d = u.cosy →
      (max 1 (t.rd uCosy F.cosy_PWR_CFG_PG_RETRIES) ≤ n → exec .pgTimeout s = .next (((({ t with cosy := { c with pgFails := 0 } } : State).xcvrSleep false).powerDown pwSleep).arm)) ∧
      (n < max 1 (t.rd uCosy F.cosy_PWR_CFG_PG_RETRIES) → exec .pgTimeout s = .next { u with cosy := { d with pgFails := n, inhLow := true } })) ∧
    (s.pgHigh = true → exec .pgTimeout s = .next s) ∧
    (s.cosy.inhLow = true → ∀ t c, t = s.wr uCosy F.cosy_PWR_STATUS_INH 1 → c = s.cosy → exec .inhRetryExpiry s = .next { t with cosy := { c with inhLow := false } }) ∧
    (s.cosy.inhLow = false → exec .inhRetryExpiry s = .next s) ∧
    (pwReady ≤ s.cosy.power → s.pgHigh = true → ∀ t, t = s.wr uCosy F.cosy_PWR_STATUS_PMIC_PG 0 →
      (t.cosy.brewRun = true → exec .pgLoss s = .next ((t.sat uCosy F.cosy_PG_DROP_COUNT).brewRestart 1)) ∧ (t.cosy.brewRun = false → exec .pgLoss s = .next (t.brewReset false))) ∧
    (s.cosy.brewRun = true → ∀ t c, t = s.sat uCosy F.cosy_CLK_LOSS_COUNT → c = s.cosy → exec .clockLoss s = .next (({ t with cosy := { c with clockLost := true } } : State).brewRestart 2)) ∧
    (s.cosy.clockLost = true → ∀ c, c = s.cosy → exec .clockRestored s = .next ({ s with cosy := { c with clockLost := false } } : State).brewRelease) ∧
    (s.cosy.clockLost = false → exec .clockRestored s = .next s) ∧
    (s.flag uCosy F.cosy_PWR_STATUS_RST_N = true → ∀ t, t = s.wr uCosy F.cosy_PWR_STATUS_RST_N 0 → pwReady ≤ t.cosy.power → exec .rstPin s = .next ((t.sat uCosy F.cosy_RST_PIN_COUNT).brewRestart 3)) ∧
    exec .rstNRelease s = .next (s.wr uCosy F.cosy_PWR_STATUS_RST_N 1).brewRelease ∧
    (∀ m q, q = s.drain m → q.flag uUlis F.ulis_ULIS_STATUS_UP = true →
      ((q.cosy.power = pwActive ∨ q.cosy.power = pwFallback) → q.cosy.committed = false → ∀ t c, t = q.armOnly → c = t.cosy →
        exec (.forceSleep 0x57A9 m) s = .next ({ t with cosy := { c with commitReq := true } } : State).reportActive) ∧
      (∀ key, key ≠ 0x57A9 → exec (.forceSleep key m) s = .next (q.refuse m pwrCmdAddr))) ∧
    (∀ ok, s.aonRuns = true → s.flag uCosy F.cosy_PWR_CFG_X32_EN = true → exec (.x32Check ok) s = .next (s.wr uCosy F.cosy_PWR_STATUS_X32_OK (b2n ok))) ∧
    (∀ ok, s.aonRuns = false → exec (.x32Check ok) s = .next s)

/-- The stages of a start: from the released die to boot complete. A released Brew die that has not started starts: its
state is cleared, the detectors are disarmed, the straps read; in test mode nothing more happens, else the boot
begins. The self-test's end in its stage maps the failures, clears the memories, applies the ledger and shows that it
ran. A manifest with a failing check fails the segment with its reason; with none, the essential header is awaited; an
essential header that fails likewise, and one of a barred version with reason 7. A block that does not have the length
due fails the segment with reason 6; a good one of the essential segment is taken and its sections loaded, the last
ending the body. When the essential segment is loaded its units and the bus guards are enabled, its time is shown and
the primary header is awaited. The hand-over after the primary segment, at a tick boundary with the time engine ready
and the triad ready (or none), swaps the banks, commits everything, enables the units and powers the lanes; it waits
for them. Boot complete after it, with the lanes powered, sets COMPLETE, phase 6 and the time, clears the attempts and
the deadline, ends a trial and enters Active. In another stage each does nothing. A failure event with a reason 1 to 8
in a loading stage fails the segment; the running deadline fails the start with 9. -/
def Obligations.StartOfTheDevice : Prop :=
  ∀ s : State,
    (∀ x, (s.cosy.brewRun = false ∨ s.cosy.brewStarted = true) → exec (.brewStart x) s = .next s) ∧
    (∀ x c t, s.cosy.brewRun = true → s.cosy.brewStarted = false → c = s.cosy → ∀ u, u = ({ s with cosy := { c with brewStarted := true, locked := false } } : State) →
      t = ((u.setKettle { startWc := u.clk.wc }).disarm.netmRestart).readStraps x →
      (x.testEn = true → exec (.brewStart x) s = .next t) ∧ (x.testEn = false → exec (.brewStart x) s = .next (t.startBoot x))) ∧
    (∀ x, s.kettle.stage ≠ stTest → exec (.selftestDone x) s = .next s) ∧
    (∀ x v, s.kettle.stage = stTest → v = (s.mapFailures x).clearMemories.applyLedger.wr uKettle F.kettle_STATUS_SELFTEST_RAN 1 →
      exec (.selftestDone x) s = .next (((v.wr uSaucer F.saucer_ST_STATUS_RAN 1).wr uCosy F.cosy_SAUCER_RET_REPAIR_PENDING 0).begin)) ∧
    (∀ x, s.kettle.stage = stManifest →
      (s.manifestReason x ≠ 0 → exec (.segmentHeaderCheck x) s = .next (s.segmentFail (s.manifestReason x) 0 0 0)) ∧
      (∀ k, s.manifestReason x = 0 → k = s.kettle → exec (.segmentHeaderCheck x) s =
        .next (((s.setKettle { k with manifest := be32 x.header 0x0C, parts := partsOf x.table }).setPhaseOf 2).setStage stEssHead))) ∧
    (∀ x, s.kettle.stage = stEssHead →
      (s.headReason 1 x ≠ 0 → exec (.segmentHeaderCheck x) s = .next (s.segmentFail (s.headReason 1 x) 1 0 15)) ∧
      (s.headReason 1 x = 0 → s.versionOk (be32 x.header 0x10) = false → exec (.segmentHeaderCheck x) s = .next (s.segmentFail 7 1 0 0))) ∧
    (∀ x k, k = s.kettle → k.stage = stEssBody → x.data.length ≠ min 65536 (k.bodyLen - 65536 * k.next) → exec (.flashBlockArrive x) s = .next (s.segmentFail 6 1 k.next 15)) ∧
    (∀ x k t u, k = s.kettle → k.stage = stEssBody → x.data.length = min 65536 (k.bodyLen - 65536 * k.next) → k.digests[k.next]? = some (beNat (sha256 x.data)) →
      t = s.setKettle { k with buf := k.buf ++ x.data, next := k.next + 1 } → t.loadSections true (t.kettle.buf.length + 1) = (true, u) →
      (u.kettle.next = u.kettle.digests.length → exec (.flashBlockArrive x) s = .next (u.bodyEnd x)) ∧ (u.kettle.next ≠ u.kettle.digests.length → exec (.flashBlockArrive x) s = .next u)) ∧
    (∀ x, s.kettle.stage = stTest → exec (.flashBlockArrive x) s = .next s ∧ ∀ y, exec (.segmentHeaderCheck y) s = .next s) ∧
    (∀ t, s.kettle.stage = stEssDone → t = s.enableEssential.enableGuards → exec .essentialEnable s = .next (((t.wr uKettle F.kettle_TIME_ESS_US (t.sinceStart % 2 ^ 32)).setPhaseOf 3).setStage stPriHead)) ∧
    (s.kettle.stage ≠ stEssDone → exec .essentialEnable s = .next s) ∧
    (s.handOverDue = true ↔ s.atBoundary = true ∧ s.kettle.timeReady = true ∧ (s.flag uTriad F.triad_TRIAD_STATUS_READY = true ∨ s.triadMode = mdNone)) ∧
    (∀ t u k, s.kettle.stage = stPriDone → s.handOverDue = true → t = (s.genSwap 0x18).commitAll.fullMicrocode →
      u = (t.applyEnables (fun _ => true)).switchProgram → k = u.kettle → exec .handOver s = .next ((u.setKettle { k with lanes := true }).setStage stHanded)) ∧
    ((s.kettle.stage ≠ stPriDone ∨ s.handOverDue = false) → exec .handOver s = .next s) ∧
    (∀ t u v, s.kettle.stage = stHanded → s.kettle.lanes = true → t = (s.imageHeld.wr uKettle F.kettle_STATUS_COMPLETE 1).setPhaseOf 6 → u = (t.wr uKettle F.kettle_TIME_DONE_US (t.sinceStart % 2 ^ 32)).event uKettle →
      v = (u.wr uCosy F.cosy_BOOT_RET_ATTEMPTS 0).wr uCosy F.cosy_BOOT_RET_DEADLINE_RUN 0 → exec .bootComplete s = .next ((v.endTrial.toPower pwActive).setStage stComplete)) ∧
    ((s.kettle.stage ≠ stHanded ∨ s.kettle.lanes = false) → exec .bootComplete s = .next s) ∧
    (∀ reason seg d p, (reason = 0 ∨ 8 < reason) → exec (.startFail reason seg d p) s = .next s) ∧
    (∀ reason seg d p, 1 ≤ reason → reason ≤ 8 → stManifest ≤ s.kettle.stage → s.kettle.stage ≤ stHanded → exec (.startFail reason seg d p) s = .next (s.segmentFail reason seg d p)) ∧
    (s.flag uCosy F.cosy_BOOT_RET_DEADLINE_RUN = true → exec .bootDeadline s = .next (s.failStart 9 0 0 15)) ∧
    (s.flag uCosy F.cosy_BOOT_RET_DEADLINE_RUN = false → exec .bootDeadline s = .next s)

/-- The update service's commands and the activation. With the boot registers taking writes of the master. KEY_REVOKE with
key 0x6B3D and a slot under 3 that is not barred adds the slot to the revoked ones once; of a barred slot it is
refused; another key or slot does nothing. RETRY with key 0x3C81 clears ATTEMPTS. UPD_CMD ARM with no cause against it
and no activation fired arms the activation and keeps the time that the registers give and the tick; with a cause it
records a failed arm of that cause. CANCEL with key 0x9E12 cancels with cause 5; with another key it records cause 1.
A due activation fires (or, in the Safe state, is cancelled with 8), one that has fired restarts the die with cause 6
as a trial, and in Fallback clears the attempts first; a commit cancels with 7. An activation that is not due or has
not fired does nothing. -/
def Obligations.UpdateCommands : Prop :=
  ∀ (s : State) (m : Nat), s.takes uKettle m = true →
    (∀ slot, slot < 3 →
      (s.revokeBarred slot = true → exec (.keyRevoke 0x6B3D slot m) s = .next (s.refuse m revokeAddr)) ∧
      (s.revokeBarred slot = false → s.otp.revoked.contains slot = true → exec (.keyRevoke 0x6B3D slot m) s = .next s) ∧
      (∀ o, s.revokeBarred slot = false → s.otp.revoked.contains slot = false → o = s.otp → exec (.keyRevoke 0x6B3D slot m) s = .next { s with otp := { o with revoked := o.revoked ++ [slot] } })) ∧
    (∀ key slot, (key ≠ 0x6B3D ∨ 3 ≤ slot) → exec (.keyRevoke key slot m) s = .next s) ∧
    exec (.retry 0x3C81 m) s = .next (s.wr uCosy F.cosy_BOOT_RET_ATTEMPTS 0) ∧ (∀ key, key ≠ 0x3C81 → exec (.retry key m) s = .next s) ∧
    (∀ key, s.armCause key ≠ 0 → exec (.updArm key m) s = .next (s.slotResult 4 0 (s.armCause key) 15)) ∧
    (∀ key k, s.armCause key = 0 → s.updState < 2 → k = s.kettle →
      exec (.updArm key m) s = .next ((({ s with kettle := { k with armedAt := s.updTime, armedTick := s.rd uTick F.tick_COUNT_COUNT } } : State)).setUpdState 1)) ∧
    (∀ key, s.armCause key = 0 → 2 ≤ s.updState → exec (.updArm key m) s = .next s) ∧
    exec (.updCancel 0x9E12 m) s = .next (s.cancelActivation 5) ∧ (∀ key, key ≠ 0x9E12 → exec (.updCancel key m) s = .next (s.slotResult 4 0 1 15)) ∧
    (s.activationDue = true → s.safe = false → exec .activationFire s = .next (s.setUpdState 2)) ∧
    (s.activationDue = true → s.safe = true → exec .activationFire s = .next (s.cancelActivation 8)) ∧
    (s.activationDue = false → exec .activationFire s = .next s) ∧
    (s.updState = 2 → s.fallback = false → exec .activationRestart s = .next ((s.brewRestart 6).wr uCosy F.cosy_SLOT_RET_TRIAL 1)) ∧
    (s.updState = 2 → s.fallback = true → exec .activationRestart s = .next (((s.wr uCosy F.cosy_BOOT_RET_ATTEMPTS 0).brewRestart 6).wr uCosy F.cosy_SLOT_RET_TRIAL 1)) ∧
    (s.updState ≠ 2 → exec .activationRestart s = .next s) ∧
    (s.cosy.committed = true → exec .activationCancel s = .next (s.cancelActivation 7)) ∧
    (s.cosy.committed = false → s.safe = false → exec .activationCancel s = .next s)

/-- The triad's transactions, events, digests and mailboxes. A transaction of a running triad, or a write back of one in
resynchronisation, that the votes settle is done as the vote's master; one that they stop leaves what the vote left;
any other does nothing. An event latched by the cores in BYPASS is taken as agreed at once, and an agreed doorbell of
a mailbox with a request puts it in line for service; else, once an offer of the event with no exchange left has
ended, one core's latch is offered for 4 exchanges, two agree it, the second of an offer agrees it late, none changes
nothing; an offer that has none left counts AGREE_MASKED and is reported by detector 5. Digests are compared outside
BYPASS; a resynchronisation's end shows its cycles and compares them with the minority core known. A debug halt with
debug access open in a voting mode goes to BYPASS, shows DEBUG_SPLIT and is reported by detector 8. A doorbell of a
mailbox under 4 from its owner in state 0 takes the request's words into state 1; from another or in another state it
is refused. An acknowledgement of the owner in state 2 gives state 0. A response to the mailbox first in line writes
status (1 for an unknown service, 3 for a barred one), tag, length and, with status 0, the words into the response,
does the service's work if the status is 0, and ends the request; with none in line, or for another mailbox, it does
nothing. -/
def Obligations.TriadAndMailboxes : Prop :=
  ∀ s : State,
    (∀ t m u, (s.triadRuns = true ∨ (s.triadUp = true ∧ writeBack t.access = true)) → s.vote t = (some m, u) → exec (.triadTransaction t) s = .next (u.triadAccess m t.access)) ∧
    (∀ t u, (s.triadRuns = true ∨ (s.triadUp = true ∧ writeBack t.access = true)) → s.vote t = (none, u) → exec (.triadTransaction t) s = .next u) ∧
    (s.triadRuns = false → ∀ t, (s.triadUp = false ∨ writeBack t.access = false) → exec (.triadTransaction t) s = .next s) ∧
    (s.triadUp = true → ∀ ev c q x, q = agreeOfferExpiryStep ev s → x = q.triad →
      (s.triadMode = mdBypass → exec (.triadEventLatch ev c) s = .next (s.deliver [(ev, c % 8)])) ∧
      (s.triadMode ≠ mdBypass → x.latched.find? (fun e => e.1 == ev) = none → ∀ mask, mask = maskOf (q.running.filter (fun n => bitOf c n || false)) →
        ((bitsOf 3 mask).length = 0 → exec (.triadEventLatch ev c) s = .next q) ∧
        ((bitsOf 3 mask).length = 1 → exec (.triadEventLatch ev c) s = .next (q.setTriad { x with latched := x.latched ++ [(ev, mask, 4)] })) ∧
        ((bitsOf 3 mask).length = 2 → exec (.triadEventLatch ev c) s = .next (q.agree ev mask false))) ∧
      (s.triadMode ≠ mdBypass → ∀ e, x.latched.find? (fun e => e.1 == ev) = some e → ∀ mask, mask = maskOf (q.running.filter (fun n => bitOf c n || bitOf e.2.1 n)) →
        (bitsOf 3 mask).length = 2 → exec (.triadEventLatch ev c) s = .next (q.agree ev mask true))) ∧
    (∀ l x, x = s.triad → s.deliver l = s.setTriad { x with
      agreed := x.agreed ++ l
      served := x.served ++ (l.map (·.1)).filter (fun e => e < 4 && s.mbState e == 1 && !x.served.contains e) }) ∧
    (∀ ev e x, s.triad.latched.find? (fun e => e.1 == ev) = some e → x = s.triad →
      (e.2.2 = 0 → exec (.agreeOfferExpiry ev) s = .next (((s.setTriad { x with latched := x.latched.filter (fun y => y.1 != ev) }).sat uTriad F.triad_AGREE_MASKED).check uTriad 5 true { addr := ev })) ∧
      (e.2.2 ≠ 0 → exec (.agreeOfferExpiry ev) s = .next s)) ∧
    (∀ a b c, (s.triadRuns = true → s.triadMode ≠ mdBypass → exec (.digestCompare a b c) s = .next (s.compareDigests a b c none)) ∧
      (s.triadRuns = false → exec (.digestCompare a b c) s = .next s) ∧
      (∀ n cy, s.triad.minority = some n → s.enabled uTriad = true → s.triadHeld = false →
        exec (.resyncDone a b c cy) s = .next ((s.wr uTriad F.triad_RESYNC_TIME cy).compareDigests a b c (some n))) ∧
      (∀ cy, s.triad.minority = none → exec (.resyncDone a b c cy) s = .next s)) ∧
    (s.cosy.brewRun = true → s.debugOpen = true → (s.triadMode = mdTriple ∨ s.triadMode = mdReduced ∨ s.triadMode = mdSplit) →
      exec .debugHalt s = .next (((s.setMode mdBypass).wr uTriad F.triad_TRIAD_STATUS_DEBUG_SPLIT 1).check uTriad 8 true)) ∧
    (s.debugOpen = false → exec .debugHalt s = .next s) ∧
    (∀ b m, b < 4 → s.takes uTriad m = true →
      ((m ≠ mbOwner b ∨ s.mbState b ≠ 0) → exec (.mailboxDoorbell b m) s = .next (s.refuse m (mbCtrlAddr b))) ∧
      (∀ t x, m = mbOwner b → s.mbState b = 0 → t = s.wr uTriad F.triad_MB_STATUS_STATE 1 b → x = s.triad →
        ∀ u, u = t.setTriad { x with requests := x.requests ++ [(b, (List.range (min 127 (nbits (s.rd uTriad F.triad_MB_REQ_DATA b 0) 0 8) + 1)).map (fun k => s.rd uTriad F.triad_MB_REQ_DATA b k))] } →
        u.triadHeld = false → u.triadMode ≠ mdNone → exec (.mailboxDoorbell b m) s = .next u) ∧
      (m ≠ mbOwner b → exec (.mailboxAck b m) s = .next (s.refuse m (mbCtrlAddr b))) ∧
      (m = mbOwner b → s.mbState b = 2 → exec (.mailboxAck b m) s = .next (s.wr uTriad F.triad_MB_STATUS_STATE 0 b)) ∧
      (m = mbOwner b → s.mbState b ≠ 2 → exec (.mailboxAck b m) s = .next s)) ∧
    (∀ b st w, (s.triad.served = [] ∨ (∃ q l, s.triad.served = q :: l ∧ q ≠ b)) → exec (.mailboxResponse b st w) s = .next s) ∧
    (∀ b st w l svc r v rsp t, s.triad.served = b :: l → s.triadRuns = true → svc = nbits (s.mbHead b) 16 16 →
      r = (if serviceKnown svc = false then 1 else if s.serviceBarred b svc = true then 3 else st) →
      v = (if r = 0 then (w.map (· % 2 ^ 32)).take 63 else []) → rsp = (r % 65536 * 65536 + nbits (s.mbHead b) 8 8 * 256 + v.length) :: v →
      t = (List.range rsp.length).foldl (fun s k => s.wr uTriad F.triad_MB_RSP_DATA (rsp.getD k 0) b k) s →
      exec (.mailboxResponse b st w) s = .next ((if r = 0 then t.serviceDone b svc else t).mbDone b))

/-- The Saucer: reports, the ladder's steps, the end of an episode and the restarts. A report waiting on a running Brew
die is taken out of the waiting ones and each of its errors is handled, after the items that it reads and updates have
been checked; with none waiting, or the die held, nothing happens. An open episode below step 2 whose grace, as it
stood at the last boundary, has run goes to step 2, the Safe state; one whose grace has run twice goes to step 3 and,
with the Ulis link up, restarts the die with the recorded source and detector. EPISODE_END with key 0xC1E4 from a
master that may: with no open episode gives STATUS 3; with another sequence number STATUS 1, counted; from the triad
while HOST_ONLY STATUS 2, counted and refused; else it ends the episode: OPEN, STEP, GRACE_COUNT and HOST_ONLY are 0,
STATUS 0, and with the Ulis link up the Cosy die learns it. From another master it is refused; another key does
nothing. The Cosy die restarts a running Brew die by itself where it saw the Safe state and the grace and 16 messages
have passed, or where no tick message has come for 10 ms in an episode it saw. -/
def Obligations.SaucerLadder : Prop :=
  ∀ s : State,
    (s.cosy.brewRun = false → exec .saucerReport s = .next s) ∧
    (nextReport s.reports = none → exec .saucerReport s = .next s) ∧
    (∀ r t, s.cosy.brewRun = true → nextReport s.reports = some r → t = ({ s with reports := s.reports.filter (fun q => !(q.unit == r.unit && q.det == r.det)) } : State) →
      exec .saucerReport s = .next (iter (fun s => s.takeChecked r) r.count t)) ∧
    (∀ r, s.upsets = [] → s.takeChecked r = s.takeError r) ∧
    (s.cosy.brewRun = true → s.episodeOpen = true → s.episodeStep < 2 → s.saucer.grace ≤ s.graceCount → exec .safeStateEntry s = .next s.stepSafe) ∧
    ((s.episodeOpen = false ∨ 2 ≤ s.episodeStep ∨ s.graceCount < s.saucer.grace) → exec .safeStateEntry s = .next s) ∧
    (s.cosy.brewRun = true → s.episodeOpen = true → 2 * s.saucer.grace ≤ s.graceCount → s.flag uUlis F.ulis_ULIS_STATUS_UP = true → exec .saucerRestart s =
      .next ((s.wr uSaucer F.saucer_EPISODE_STEP 3).saucerRestart false (s.rd uSaucer F.saucer_REC_INFO_SOURCE 0) (s.rd uSaucer F.saucer_REC_INFO_DETECTOR 0))) ∧
    ((s.graceCount < 2 * s.saucer.grace ∨ s.flag uUlis F.ulis_ULIS_STATUS_UP = false) → exec .saucerRestart s = .next s) ∧
    (∀ m, s.takes uSaucer m = true →
      (m ≠ 1 → m ≠ 8 → m ≠ 16 → ∀ key seq, exec (.episodeEnd key seq m) s = .next (s.refuse m endAddr)) ∧
      ((m = 1 ∨ m = 8 ∨ m = 16) → ∀ key seq,
        (key ≠ 0xC1E4 → exec (.episodeEnd key seq m) s = .next s) ∧
        (s.episodeOpen = false → exec (.episodeEnd 0xC1E4 seq m) s = .next (s.wr uSaucer F.saucer_EPISODE_END_STATUS 3)) ∧
        (s.episodeOpen = true → seq % 256 ≠ s.rd uSaucer F.saucer_EPISODE_SEQ → exec (.episodeEnd 0xC1E4 seq m) s = .next ((s.wr uSaucer F.saucer_EPISODE_END_STATUS 1).sat uSaucer F.saucer_END_REFUSED)) ∧
        (s.episodeOpen = true → seq % 256 = s.rd uSaucer F.saucer_EPISODE_SEQ → m = 16 → s.flag uSaucer F.saucer_EPISODE_HOST_ONLY = true →
          exec (.episodeEnd 0xC1E4 seq m) s = .next (((s.wr uSaucer F.saucer_EPISODE_END_STATUS 2).sat uSaucer F.saucer_END_REFUSED).refuse m endAddr)) ∧
        (s.episodeOpen = true → seq % 256 = s.rd uSaucer F.saucer_EPISODE_SEQ → (m ≠ 16 ∨ s.flag uSaucer F.saucer_EPISODE_HOST_ONLY = false) →
          ∀ t, t = (((((s.wr uSaucer F.saucer_EPISODE_OPEN 0).wr uSaucer F.saucer_EPISODE_STEP 0).wr uSaucer F.saucer_EPISODE_GRACE_COUNT 0).wr uSaucer F.saucer_EPISODE_HOST_ONLY 0).wr uSaucer F.saucer_EPISODE_END_STATUS 0) →
          exec (.episodeEnd 0xC1E4 seq m) s = .next t.tellCosy))) ∧
    (s.flag uUlis F.ulis_ULIS_STATUS_UP = false → s.tellCosy = s) ∧
    (s.cosy.brewRun = true → s.cosy.sawSafe = true → s.grace + 16 ≤ s.cosy.graceMsgs → exec .cosyGraceTimeout s = .next (s.saucerRestart true s.cosy.lastSource s.cosy.lastDet)) ∧
    (s.cosy.sawSafe = false → exec .cosyGraceTimeout s = .next s) ∧
    (s.cosy.brewRun = true → s.cosy.sawOpen = true → 655360000000 ≤ (s.clk.wc + 2 ^ 80 - s.cosy.tickAt) % 2 ^ 80 → exec .tickMessageTimeout s = .next (s.saucerRestart true s.cosy.lastSource s.cosy.lastDet)) ∧
    ((s.cosy.sawOpen = false ∨ (s.clk.wc + 2 ^ 80 - s.cosy.tickAt) % 2 ^ 80 < 655360000000) → exec .tickMessageTimeout s = .next s)

/-- The key commands, the submission of jobs, and each operation of the crypto service. With the key unit taking writes of
a master that owns a key register set that is not BUSY, and the key bus working and no alarm: KEY_WRITE fills the slot
with the key and attribute of the set, status 0 (an attribute over 127: status 1, nothing written); KEY_ERASE empties
the slot, KEY_ERASE_ALL every slot, status 0, and the set is BUSY until time next passes; while it is BUSY the write
is refused; during an alarm each only gives status 2; from another master each is refused. The owner of ring r under 4
submits the descriptors up to a TAIL other than HEAD and the service takes the next job; otherwise the write is
refused. For the running job of ring r with operation number op, exactly the command of that operation completes it:
arguments that break a rule end it with BAD_ARG; else the operation's own result is written, and the job ends with its
status. SHA-256's result is the digest of the input, at the auxiliary area. A CANsec fetch loads the channel's key, or
drops it where the sequencer refuses. With no running job none of the operations does anything. -/
def Obligations.KeysAndJobs : Prop :=
  ∀ s : State,
    (∀ m set slot, s.takes uCaddy m = true → keySet m = some set → s.sec.busySets.contains set = true → exec (.keyWrite slot m) s = .next (s.refuse m keyCmdAddr) ∧
      exec (.keyErase slot m) s = .next (s.refuse m keyCmdAddr) ∧ exec (.keyEraseAll m) s = .next (s.refuse m keyCmdAddr)) ∧
    (∀ m set slot, s.takes uCaddy m = true → keySet m = some set → s.sec.busySets.contains set = false → s.keyOps = true →
      (s.alarmActive = true → exec (.keyWrite slot m) s = .next (s.keyDone set 2) ∧ exec (.keyErase slot m) s = .next (s.keyDone set 2) ∧ exec (.keyEraseAll m) s = .next (s.keyDone set 2)) ∧
      (s.alarmActive = false → ∀ x, x = s.sec →
        (128 ≤ s.keyReg set 8 → exec (.keyWrite slot m) s = .next ((s.keyDone set 1).keyBusy set)) ∧
        (s.keyReg set 8 < 128 → exec (.keyWrite slot m) s = .next (((s.fillSlot (slot % 256) (s.keyDataKey set (s.keyReg set 8)) (s.keyReg set 8) 0 0).keyDone set 0).keyBusy set)) ∧
        exec (.keyErase slot m) s = .next (((s.setSec { x with slots := pmDel x.slots (slot % 256) }).keyDone set 0).keyBusy set) ∧
        exec (.keyEraseAll m) s = .next (((s.setSec { x with slots := [] }).keyDone set 0).keyBusy set))) ∧
    (∀ m slot, s.takes uCaddy m = true → keySet m = none → exec (.keyWrite slot m) s = .next (s.refuse m keyCmdAddr) ∧ exec (.keyErase slot m) s = .next (s.refuse m keyCmdAddr) ∧
      exec (.keyEraseAll m) s = .next (s.refuse m keyCmdAddr)) ∧
    (∀ r t m, r < 4 → s.takes uCrypt m = true →
      (ringOwner r m = true → t % 16 ≠ s.ringHead r → exec (.jobSubmit r t m) s = .next (((s.wr uCrypt F.crypt_RING_CTRL_TAIL t r).takeJob).skipBadOps 64)) ∧
      ((ringOwner r m = false ∨ t % 16 = s.ringHead r) → exec (.jobSubmit r t m) s = .next (s.refuse m (ringTailAddr r)))) ∧
    (s.sec.running = none → exec .gcmEnc s = .next s ∧ exec .sha256 s = .next s ∧ exec .importKey s = .next s) ∧
    (∀ r d, s.sec.running = some r → d = s.desc r (s.ringHead r) → s.enabled uCrypt = true →
      (d.argsOk = false → (d.op = 1 → exec .gcmEnc s = .next ((s.endJob r jobBadArg 0).skipBadOps 64)) ∧ (d.op = 7 → exec .sha256 s = .next ((s.endJob r jobBadArg 0).skipBadOps 64))) ∧
      (d.argsOk = true → s.keyOps = true → s.alarmActive = false → ∀ x t u,
        u = ((x.writes.foldl (fun s w => s.putData r w.1 w.2) t).endJob r x.status x.out).skipBadOps 64 →
        (d.op = 1 → jobGcmEnc s r d = (x, t) → exec .gcmEnc s = .next u) ∧ (d.op = 2 → jobGcmDec s r d = (x, t) → exec .gcmDec s = .next u) ∧
        (d.op = 3 → jobCmac false s r d = (x, t) → exec .cmacGen s = .next u) ∧ (d.op = 4 → jobCmac true s r d = (x, t) → exec .cmacVer s = .next u) ∧
        (d.op = 5 → jobHmac false s r d = (x, t) → exec .hmacGen s = .next u) ∧ (d.op = 6 → jobHmac true s r d = (x, t) → exec .hmacVer s = .next u) ∧
        (d.op = 8 → jobEcdsa s r d = (x, t) → exec .ecdsaVer s = .next u) ∧ (d.op = 9 → jobKdf s r d = (x, t) → exec .kdf s = .next u) ∧
        (d.op = 10 → jobRandom s r d = (x, t) → exec .random s = .next u) ∧ (d.op = 11 → jobGenKey s r d = (x, t) → exec .genKey s = .next u) ∧
        (d.op = 12 → jobLoadBlob s r d = (x, t) → exec .loadBlob s = .next u) ∧ (d.op = 13 → jobWrap s r d = (x, t) → exec .wrapSlot s = .next u) ∧
        (d.op = 14 → jobImport s r d = (x, t) → exec .importKey s = .next u) ∧
        (d.op = 7 → exec .sha256 s = .next (((s.putData r d.auxOfs (sha256 (s.dataBytes r d.inOfs d.inLen))).endJob r jobOk 0).skipBadOps 64)))) ∧
    (s.sec.fetches = [] → exec .keyFetch s = .next s) ∧
    (∀ n c l x t slot k q, n < 16 → c = 4 → x = s.sec → x.fetches = (1024 + 8 * n + c) :: l → t = s.setSec { x with fetches := l } → slot = t.rd (uCan n) F.can_CS_CFG_TX_KEY_SLOT →
      t.fetchKey 0 slot attrEncrypt useCansec (some (t.flag (uCan n) F.can_CS_CFG_LEN256)) = (k, q) →
      exec .keyFetch s = .next (match k with | none => q.dropEngineKey (1024 + 8 * n + c) | some k => q.setEngineKey (1024 + 8 * n + c) k.key))

/-- MACsec associations, the random source, alarms, the life cycle and debug authentication. INSTALL of an association of
port under 12 that takes writes of the master first keeps the slot; of a valid association it is refused; where the
sequencer yields the key, the association has it with its salt and is valid, a transmit one with the next PN at 1;
where it does not, nothing more changes. RETIRE makes it not valid and drops the key. A reseed that fails, or is
injected to, is reported by detector 1, counted and leaves the source bad; one that succeeds when due instantiates the
source afresh, drawing the challenge of a start that lacks one. An alarm of a running die is raised, a tamper one
counted, and one of a source that has ended (8 more than the source) clears its bit of PRESENT; a tamper of an
unpowered Brew die is only noted by the Cosy die. ALARM_CLEAR with key 0xA17E from a master with a key set and no
cause present clears ACTIVE, derives the keys again and reseeds; else it sets CLEAR_REFUSED. A life-cycle command
while BUSY is refused; with key 0xC7C, its conditions met and not Safe, it changes the OTP as it says with STATUS 0
and BUSY 1, else STATUS 1. Debug authentication outside its states, or without a challenge, does nothing; with the
right signature debug opens after an erasure. -/
def Obligations.AssociationsAlarmsLifeCycle : Prop :=
  ∀ s : State,
    (∀ p rx an slot m t, saOk p rx an = true → s.takes (uMac p) m = true → t = s.setSaSlot p rx an slot →
      (t.saValid p rx an = true → exec (.saInstall p rx an slot m) s = .next (t.refuse m (saCtrlAddr p rx an))) ∧
      (t.saValid p rx an = false → ∀ k q, t.fetchKey 0 (t.saSlot p rx an) (if rx.isNone then attrEncrypt else attrDecrypt) useMacsec (some (t.longKey p)) = (k, q) →
        (k = none → exec (.saInstall p rx an slot m) s = .next q) ∧
        (∀ c u v, k = some c → u = q.setEngineKey (saKeyNo p rx an) c.key → v = (u.takeSalt (saKeyNo p rx an) (q.saSalt p rx an)).setSaValid p rx an 1 →
          (rx.isNone = true → exec (.saInstall p rx an slot m) s = .next ((v.wr (uMac p) F.mac_TXSA_PN_HI 0 an).wr (uMac p) F.mac_TXSA_PN_LO 1 an)) ∧
          (rx.isNone = false → exec (.saInstall p rx an slot m) s = .next v)))) ∧
    (∀ p rx an m, saOk p rx an = true → s.takes (uMac p) m = true → exec (.saRetire p rx an m) s = .next ((s.setSaValid p rx an 0).dropEngineKey (saKeyNo p rx an))) ∧
    (∀ t x, t = (s.check uCrypt 1 true).sat uCrypt F.crypt_ENTROPY_FAIL_COUNT → x = t.sec → exec (.drbgReseed false) s = .next (t.setSec { x with entropyBad := true })) ∧
    (s.armed uCrypt 1 = false → s.alarmActive = false → ∀ x, x = s.sec → (x.entropyBad = true ∨ x.drbg = none) → exec (.drbgReseed true) s = .next s.reseed) ∧
    (∀ src, src < 5 → (bitOf (s.rd uCaddy F.caddy_ALARM_STATUS_PRESENT) src = true → exec (.alarm (8 + src)) s =
        .next (s.wr uCaddy F.caddy_ALARM_STATUS_PRESENT (s.rd uCaddy F.caddy_ALARM_STATUS_PRESENT - 2 ^ src))) ∧
      (bitOf (s.rd uCaddy F.caddy_ALARM_STATUS_PRESENT) src = false → exec (.alarm (8 + src)) s = .next s)) ∧
    (∀ src, src < 5 → src ≠ 0 → 3 ≤ s.cosy.power → (s.cosy.brewRun = true → exec (.alarm src) s = .next (s.raiseAlarm src)) ∧ (s.cosy.brewRun = false → exec (.alarm src) s = .next s)) ∧
    ((s.cosy.power = 1 ∨ s.cosy.power = 2) → exec .tamperUnpowered s = .next ((s.wr uCosy F.cosy_TAMPER_RET_SEEN 1).sat uCosy F.cosy_TAMPER_RET_COUNT)) ∧
    ((s.cosy.power = 0 ∨ 3 ≤ s.cosy.power) → exec .tamperUnpowered s = .next s) ∧
    (∀ m, s.takes uCaddy m = true → ∀ key pr t, t = s.wr uCaddy F.caddy_ALARM_STATUS_PRESENT pr →
      (key = 0xA17E → (keySet m).isSome = true → pr % 32 = 0 → exec (.alarmClear key pr m) s = .next (t.wr uCaddy F.caddy_ALARM_STATUS_ACTIVE 0).deriveKeys.reseed) ∧
      ((key ≠ 0xA17E ∨ (keySet m).isSome = false ∨ pr % 32 ≠ 0) → exec (.alarmClear key pr m) s = .next (t.wr uCaddy F.caddy_ALARM_STATUS_CLEAR_REFUSED 1))) ∧
    (∀ m, s.takes uCaddy m = true → s.flag uCaddy F.caddy_LC_CMD_BUSY = true → ∀ key, exec (.advance key m) s = .next (s.refuse m lcCmdAddr) ∧ exec (.progFb key m) s = .next (s.refuse m lcCmdAddr) ∧
      exec (.progDbg key m) s = .next (s.refuse m lcCmdAddr) ∧ ∀ i, exec (.progSign key i m) s = .next (s.refuse m lcCmdAddr)) ∧
    (∀ m o, s.takes uCaddy m = true → s.flag uCaddy F.caddy_LC_CMD_BUSY = false → o = s.otp →
      (s.safe = false → (keySet m).isSome = true →
        (s.advanceOk = true → exec (.advance 0xC7C m) s = .next ((({ s with otp := { o with lc := o.lc + 1 } } : State).wr uCaddy F.caddy_LC_CMD_STATUS 0).wr uCaddy F.caddy_LC_CMD_BUSY 1)) ∧
        (∀ i, s.progSignOk i = true → exec (.progSign 0xC7C i m) s = .next ((({ s with otp := { o with signHash := pmSet o.signHash i s.hashData } } : State).wr uCaddy F.caddy_LC_CMD_STATUS 0).wr uCaddy F.caddy_LC_CMD_BUSY 1)) ∧
        (s.progFbOk = true → exec (.progFb 0xC7C m) s = .next ((({ s with otp := { o with fbHash := some s.hashData } } : State).wr uCaddy F.caddy_LC_CMD_STATUS 0).wr uCaddy F.caddy_LC_CMD_BUSY 1)) ∧
        (s.progDbgOk = true → exec (.progDbg 0xC7C m) s = .next ((({ s with otp := { o with dbgHash := some s.hashData } } : State).wr uCaddy F.caddy_LC_CMD_STATUS 0).wr uCaddy F.caddy_LC_CMD_BUSY 1))) ∧
      (∀ key, (key ≠ 0xC7C ∨ s.safe = true) → exec (.advance key m) s = .next (s.wr uCaddy F.caddy_LC_CMD_STATUS 1) ∧ exec (.progFb key m) s = .next (s.wr uCaddy F.caddy_LC_CMD_STATUS 1) ∧
        exec (.progDbg key m) s = .next (s.wr uCaddy F.caddy_LC_CMD_STATUS 1) ∧ ∀ i, exec (.progSign key i m) s = .next (s.wr uCaddy F.caddy_LC_CMD_STATUS 1))) ∧
    (∀ x y r g, (s.dbg ≠ 0 ∨ s.cosy.brewStarted = false ∨ s.sec.challenge = none) → exec (.dbgAuth x y r g) s = .next s) ∧
    (∀ x y r g ch, s.sec.challenge = some ch → s.cosy.brewStarted = true → s.dbg = 0 → (s.lc = 2 ∨ s.lc = 3) → s.rd uCaddy F.caddy_LC_STATUS_AUTH_FAILS < 3 → s.otp.dbgHash = some (beNat (sha256 (beBytes 32 x ++ beBytes 32 y))) →
      ecdsaOk (beNat (sha256 (beBytes 32 ch ++ beBytes 16 s.otp.uid ++ [BitVec.ofNat 8 s.lc]))) x y r g = true → exec (.dbgAuth x y r g) s = .next (((s.wr uCaddy F.caddy_LC_STATUS_DBG 1).erase).deriveWrap))

/-- PCIe, MSPI and the Ulis link. A PCIe memory request of a function that is served begins with an empty completion,
unless one still waits, and does its double words in order; of a function in D3hot, or of a VF that VF Enable does not
cover, nothing is done. The next ready transmit descriptor, round robin, of 60 to 9,212 bytes is offered to port 14
with its function, class, time and FCS, counted, marked done and signalled; of another length it is marked bad and
counted; with none ready nothing happens. A frame read for port 14 goes to each function its sub-field names, but not
in the Safe state; with none waiting nothing happens. A function's reset under 5 clears its configuration and resets
its unit (of function 0 the VFs end with it); PERST does so for all five with the link down; a link change shows UP,
SPEED and WIDTH (0 when down), and a link that goes down flushes the reads of the functions. An MSPI transfer shifts
out the status word, shows it and counts; a WRITE with the right CRC writes the register as master 8; with a wrong
one, or a frame error of kind 1, counts CRC_ERR and sets the error; a READ with the right CRC reads the register, its
response following when the read completes; while MSPI still waits for its reads or for room for its writes each of
them is a frame error; a transfer that ends before the response counts ABANDONED with the error set, and the read is
done. The sixteenth failure of one Ulis packet takes the link down; each retry counts. When the link goes down every
write on its way is refused to its master and every read across is flushed. A failed challenge with a link secret
takes it down and raises alarm 3; a good one sets AUTH and ends alarm source 3. The link comes up only with the Brew
die started; the Cosy die then learns the Saucer's episode. -/
def Obligations.HostPorts : Prop :=
  ∀ s : State,
    (∀ fn bar off w dws x t, x = s.host → t = (if x.reads.any (fun r => r.dest == .pcie) then s else s.setHost { x with completion := [] }) →
      (t.fnServed fn = true → exec (.pcieMemoryRequest fn bar off w dws) s = .next (t.pcieDws fn bar off w dws)) ∧
      (t.fnServed fn = false → exec (.pcieMemoryRequest fn bar off w dws) s = .next t)) ∧
    (∀ fn, s.fnServed fn = true ↔ (s.fnCfg fn).d3hot = false ∧ (fn = 0 ∨ (s.fnCfg 0).vfEnable = true ∧ fn ≤ (s.fnCfg 0).numVfs)) ∧
    (∀ len fr, (List.range 80).find? (fun i => s.txReady ((s.host.txNext + i) % 80 / 16) ((s.host.txNext + i) % 80 % 16)) = none → exec (.txDescriptor len fr) s = .next s) ∧
    (∀ len fr i k x t, (List.range 80).find? (fun i => s.txReady ((s.host.txNext + i) % 80 / 16) ((s.host.txNext + i) % 80 % 16)) = some i → k = (s.host.txNext + i) % 80 → x = s.host →
      t = s.setHost { x with txNext := (k + 1) % 80 } →
      (∀ w, 60 ≤ len → len ≤ 9212 → w = t.offer 14 { inPort := 14, inSub := k / 16, tc := s.rd (uFn (k / 16)) F.fn_RING_CFG_TC (k % 16), ts := t.wcNs % 2 ^ 32 } (fr ++ fcsBytes fr false) →
        exec (.txDescriptor len fr) s = .next ((((w.inc (uFn (k / 16)) F.fn_TX_FRAMES).dmaWrite (s.descAddr (k / 16) (k % 16) + 12) (le32 (2 ^ 31))).fnAdvance (k / 16) (k % 16)).signal (k / 16) (16 + k % 16))) ∧
      ((len < 60 ∨ 9212 < len) → exec (.txDescriptor len fr) s = .next ((((t.dmaWrite (s.descAddr (k / 16) (k % 16) + 12) (le32 (2 ^ 30))).sat (uFn (k / 16)) F.fn_TX_BAD_DESC).fnAdvance (k / 16) (k % 16)).event (uFn (k / 16))))) ∧
    (∀ b, findIdx1 (fun (d : Delivered) => d.port == 14) s.fab.delivered 0 = none → exec (.rxDelivery b) s = .next s) ∧
    (∀ b i d f t, findIdx1 (fun (d : Delivered) => d.port == 14) s.fab.delivered 0 = some (i, d) → f = s.fab → t = ({ s with fab := { f with delivered := f.delivered.eraseIdx i } } : State) →
      (s.safe = true → exec (.rxDelivery b) s = .next s) ∧
      (s.safe = false → exec (.rxDelivery b) s = .next (((List.range 5).filter (bitOf d.copy.subH)).foldl (fun t f => t.rxTo d f (b.getD f (0, 0))) t))) ∧
    (∀ f t, f < 5 → (t = if f = 0 then s.vfsEnd else s) → exec (.functionLevelReset f) s = .next ((t.fnConfig f false false {}).unitReset (uFn f))) ∧
    (∀ f b e m t, f < 5 → (t = if f = 0 ∧ m.vfEnable = false then s.vfsEnd else s) → exec (.pcieConfigWrite f b e m) s = .next ((t.fnConfig f b e m).msixFlush f)) ∧
    ((s.fnCfg 0).vfEnable = false → s.vfsEnd = s) ∧
    exec .pciePerst s = .next ((List.range 5).foldl (fun s f => functionLevelResetStep f s) (pcieLinkChangeStep false 0 0 s)) ∧
    (∀ sp w, exec (.pcieLinkChange true sp w) s = .next ((List.range 5).foldl (fun s f => s.msixFlush f)
        (((s.wr uPcie F.pcie_LINK_STATUS_UP 1).wr uPcie F.pcie_LINK_STATUS_SPEED sp).wr uPcie F.pcie_LINK_STATUS_WIDTH w)) ∧
      exec (.pcieLinkChange false sp w) s = .next ((List.range 5).foldl (fun s f => s.msixFlush f)
        ((((s.flushReads (fun r => decide (1 ≤ r.master) && decide (r.master ≤ 5))).wr uPcie F.pcie_LINK_STATUS_UP 0).wr uPcie F.pcie_LINK_STATUS_SPEED 0).wr uPcie F.pcie_LINK_STATUS_WIDTH 0))) ∧
    (∀ t w x, w = s.mspiLeave → x = w.host → t = (w.setHost { x with mspiStatus := w.mspiWord, mspiErr := false, miso := beBytes 2 w.mspiWord }).inc uMspi F.mspi_TRANSFERS →
      exec .mspiNop s = .next t ∧
      (∀ a v crc u, crc = crc8 ([0x02#8] ++ beBytes 4 a ++ beBytes 4 v.toNat) → u = t.shiftOut (List.replicate 8 0#8) →
        (u.mspiBusy = false → exec (.mspiWrite a v crc) s = .next (u.regWrite 8 a v)) ∧ (u.mspiBusy = true → exec (.mspiWrite a v crc) s = .next (u.mspiRefused false))) ∧
      (∀ a v crc u y, crc ≠ crc8 ([0x02#8] ++ beBytes 4 a ++ beBytes 4 v.toNat) → u = (t.shiftOut (List.replicate 8 0#8)).sat uMspi F.mspi_CRC_ERR → y = u.host → exec (.mspiWrite a v crc) s = .next (u.setHost { y with mspiErr := true })) ∧
      (∀ a crc u, crc = crc8 ([0x0B#8] ++ beBytes 4 a) → u = t.shiftOut (List.replicate 4 0#8) →
        (u.mspiBusy = false → exec (.mspiRead a crc) s = .next (u.askRead 8 a true .mspi)) ∧ (u.mspiBusy = true → exec (.mspiRead a crc) s = .next (u.mspiRefused false))) ∧
      (∀ v r, r = [0xD2#8] ++ beBytes 4 v.toNat → s.answer .mspi v = { (s.shiftOut r).shiftOut (beBytes 1 (crc8 r)) with readData := v }) ∧
      (∀ u y, u = t.sat uMspi F.mspi_CRC_ERR → y = u.host → exec (.mspiFrameError 1) s = .next (u.setHost { y with mspiErr := true })) ∧
      (∀ kind u y, kind ≠ 1 → u = t.sat uMspi F.mspi_FRAME_ERR → y = u.host → exec (.mspiFrameError kind) s = .next (u.setHost { y with mspiErr := true })) ∧
      (∀ a u y, t.mspiBusy = false → u = t.askRead 8 a true .lost → y = u.host → exec (.mspiAbandon a) s = .next ((u.setHost { y with mspiErr := true }).sat uMspi F.mspi_ABANDONED)) ∧
      (∀ a, t.mspiBusy = true → exec (.mspiAbandon a) s = .next (t.mspiRefused false))) ∧
    (s.flag uUlis F.ulis_ULIS_STATUS_UP = true → ∀ again n t x, t = s.inc uUlis F.ulis_RETRIES → x = s.host → n = (if again then x.ulisFails + 1 else 1) →
      (16 ≤ n → exec (.ulisPacketRetry again) s = .next (t.setHost { x with ulisFails := n }).ulisDown) ∧ (n < 16 → exec (.ulisPacketRetry again) s = .next (t.setHost { x with ulisFails := n }))) ∧
    (s.flag uUlis F.ulis_ULIS_STATUS_UP = false → (∀ again, exec (.ulisPacketRetry again) s = .next s) ∧ exec .ulisLinkDown s = .next s) ∧
    (s.flag uUlis F.ulis_ULIS_STATUS_UP = true → ∀ x t, x = s.host → t = ((s.wr uUlis F.ulis_ULIS_STATUS_UP 0).inc uUlis F.ulis_LINK_DOWNS).inc uUlis F.ulis_FLUSHES → ∀ y, y = t.host →
      exec .ulisLinkDown s = .next (((x.posted.foldl (fun s p => (s.refuse p.master p.addr).lastErrOf s p.master p.transfer) (t.setHost { y with posted := [], ulisFails := 0 })).flushReads (fun r => cosyAddr r.addr)).check uUlis 0 true)) ∧
    (s.cosy.brewStarted = true → exec .ulisLinkUp s = .next (s.wr uUlis F.ulis_ULIS_STATUS_UP 1).tellCosy) ∧ (s.cosy.brewStarted = false → exec .ulisLinkUp s = .next s) ∧
    (s.otp.linkSecret.isNone = false → s.flag uUlis F.ulis_ULIS_STATUS_UP = true → exec (.ulisAuthExchange true) s = .next ((s.wr uUlis F.ulis_ULIS_STATUS_AUTH 1).alarmEnd 3) ∧
      exec (.ulisAuthExchange false) s = .next ((((s.wr uUlis F.ulis_ULIS_STATUS_AUTH 0).sat uUlis F.ulis_AUTH_FAIL).ulisDown).raiseAlarm 3)) ∧
    (∀ ok, s.otp.linkSecret.isNone = true → exec (.ulisAuthExchange ok) s = .next s)
end

