-- ==== Sys2Proof/Laws/Bits.lean ====
section
/-! SUPPORT. Bit fields of a word: a field just set reads as set, and disjoint fields do not touch. -/

namespace Sys2Proof.Machine

theorem getBits_lt (w : Word) (l n : Nat) : getBits w l n < 2 ^ n := Nat.mod_lt _ (Nat.two_pow_pos n)

theorem setBits_toNat (w : Word) (l n v : Nat) (h : l + n ≤ 32) :
    (setBits w l n v).toNat = w.toNat % 2 ^ l + (v % 2 ^ n) * 2 ^ l + (w.toNat >>> (l + n)) * 2 ^ (l + n) := by
  unfold setBits
  rw [BitVec.toNat_ofNat]
  apply Nat.mod_eq_of_lt
  have h1 : w.toNat % 2 ^ l < 2 ^ l := Nat.mod_lt _ (Nat.two_pow_pos l)
  have h2 : v % 2 ^ n < 2 ^ n := Nat.mod_lt _ (Nat.two_pow_pos n)
  have h3 : w.toNat >>> (l + n) < 2 ^ (32 - (l + n)) := by
    rw [Nat.shiftRight_eq_div_pow]
    apply Nat.div_lt_of_lt_mul
    rw [← Nat.pow_add]
    have : l + n + (32 - (l + n)) = 32 := by omega
    rw [this]
    exact w.isLt
  have e1 : (2 : Nat) ^ (l + n) = 2 ^ l * 2 ^ n := Nat.pow_add 2 l n
  have e2 : (2 : Nat) ^ 32 = 2 ^ (32 - (l + n)) * 2 ^ (l + n) := by
    rw [← Nat.pow_add]; congr 1; omega
  have b1 : (v % 2 ^ n) * 2 ^ l + 2 ^ l ≤ 2 ^ n * 2 ^ l := by
    have := Nat.mul_le_mul_right (2 ^ l) (Nat.succ_le_of_lt h2)
    simpa [Nat.succ_mul] using this
  have b2 : (w.toNat >>> (l + n)) * 2 ^ (l + n) + 2 ^ (l + n) ≤ 2 ^ (32 - (l + n)) * 2 ^ (l + n) := by
    have := Nat.mul_le_mul_right (2 ^ (l + n)) (Nat.succ_le_of_lt h3)
    simpa [Nat.succ_mul] using this
  have e3 : (2 : Nat) ^ n * 2 ^ l = 2 ^ (l + n) := by rw [e1, Nat.mul_comm]
  omega

/-- A field reads as it was just set, to its width. -/
theorem getBits_setBits_self (w : Word) (l n v : Nat) (h : l + n ≤ 32) : getBits (setBits w l n v) l n = v % 2 ^ n := by
  unfold getBits
  rw [setBits_toNat w l n v h, Nat.shiftRight_eq_div_pow]
  have h1 : w.toNat % 2 ^ l < 2 ^ l := Nat.mod_lt _ (Nat.two_pow_pos l)
  have e : w.toNat % 2 ^ l + v % 2 ^ n * 2 ^ l + w.toNat >>> (l + n) * 2 ^ (l + n)
      = w.toNat % 2 ^ l + 2 ^ l * (v % 2 ^ n + 2 ^ n * (w.toNat >>> (l + n))) := by
    rw [Nat.pow_add, Nat.mul_add, Nat.mul_comm (v % 2 ^ n), ← Nat.mul_assoc (2 ^ l) (2 ^ n), Nat.mul_comm _ (2 ^ l * 2 ^ n), Nat.add_assoc]
  rw [e, Nat.add_mul_div_left _ _ (Nat.two_pow_pos l), Nat.div_eq_of_lt h1, Nat.zero_add, Nat.add_mul_mod_self_left, Nat.mod_mod]

/-- A field below the one that was set keeps its value. -/
theorem getBits_setBits_below (w : Word) (l n v l' n' : Nat) (h : l + n ≤ 32) (d : l' + n' ≤ l) :
    getBits (setBits w l n v) l' n' = getBits w l' n' := by
  unfold getBits
  rw [setBits_toNat w l n v h]
  simp only [Nat.shiftRight_eq_div_pow]
  obtain ⟨k, rfl⟩ : ∃ k, l = l' + n' + k := ⟨l - (l' + n'), by omega⟩
  have p1 : (2 : Nat) ^ (l' + n' + k) = 2 ^ l' * (2 ^ n' * 2 ^ k) := by rw [Nat.pow_add, Nat.pow_add, Nat.mul_assoc]
  have p2 : (2 : Nat) ^ (l' + n' + k + n) = 2 ^ l' * (2 ^ n' * (2 ^ k * 2 ^ n)) := by
    rw [Nat.pow_add, p1, Nat.mul_assoc, Nat.mul_assoc]
  rw [p2, p1]
  generalize w.toNat = x
  generalize hq : x / (2 ^ l' * (2 ^ n' * (2 ^ k * 2 ^ n))) = q
  have s1 : x % (2 ^ l' * (2 ^ n' * 2 ^ k)) + v % 2 ^ n * (2 ^ l' * (2 ^ n' * 2 ^ k)) + q * (2 ^ l' * (2 ^ n' * (2 ^ k * 2 ^ n)))
      = x % (2 ^ l' * (2 ^ n' * 2 ^ k)) + 2 ^ l' * (2 ^ n' * (2 ^ k * (v % 2 ^ n + q * 2 ^ n))) := by
    rw [Nat.add_assoc]
    congr 1
    generalize v % 2 ^ n = y
    rw [Nat.mul_add, Nat.mul_add, Nat.mul_add]
    congr 1
    · rw [Nat.mul_comm y, Nat.mul_assoc, Nat.mul_assoc]
    · rw [Nat.mul_comm q, Nat.mul_assoc, Nat.mul_assoc, Nat.mul_assoc, Nat.mul_comm (2 ^ n) q]
  rw [s1, Nat.add_mul_div_left _ _ (Nat.two_pow_pos l'), Nat.add_mul_mod_self_left, Nat.mod_mul_right_div_self,
    Nat.mod_mul_right_mod]

/-- A field above the one that was set keeps its value. -/
theorem getBits_setBits_above (w : Word) (l n v l' n' : Nat) (h : l + n ≤ 32) (d : l + n ≤ l') :
    getBits (setBits w l n v) l' n' = getBits w l' n' := by
  unfold getBits
  rw [setBits_toNat w l n v h]
  simp only [Nat.shiftRight_eq_div_pow]
  have h1 : w.toNat % 2 ^ l < 2 ^ l := Nat.mod_lt _ (Nat.two_pow_pos l)
  have h2 : v % 2 ^ n < 2 ^ n := Nat.mod_lt _ (Nat.two_pow_pos n)
  have b1 : (v % 2 ^ n) * 2 ^ l + 2 ^ l ≤ 2 ^ n * 2 ^ l := by
    have := Nat.mul_le_mul_right (2 ^ l) (Nat.succ_le_of_lt h2)
    simpa [Nat.succ_mul] using this
  have e3 : (2 : Nat) ^ n * 2 ^ l = 2 ^ (l + n) := by rw [Nat.pow_add, Nat.mul_comm]
  have low : w.toNat % 2 ^ l + v % 2 ^ n * 2 ^ l < 2 ^ (l + n) := by omega
  obtain ⟨k, rfl⟩ : ∃ k, l' = l + n + k := ⟨l' - (l + n), by omega⟩
  rw [Nat.pow_add 2 (l + n) k, ← Nat.div_div_eq_div_mul, ← Nat.div_div_eq_div_mul,
    Nat.mul_comm _ (2 ^ (l + n)), Nat.add_mul_div_left _ _ (Nat.two_pow_pos _), Nat.div_eq_of_lt low, Nat.zero_add]

/-- What `findIdx1` finds: the first element for which the test holds. -/
theorem findIdx1_some {α : Type} (p : α → Bool) (l : List α) (k j : Nat) (x : α) (h : findIdx1 p l k = some (j, x)) :
    ∃ n, j = k + n ∧ l[n]? = some x ∧ p x = true ∧ ∀ m < n, ∀ y, l[m]? = some y → p y = false := by
  induction l generalizing k with
  | nil => cases h
  | cons a t ih =>
    unfold findIdx1 at h
    by_cases c : p a = true
    · rw [if_pos c] at h
      obtain ⟨rfl, rfl⟩ := Prod.mk.inj (Option.some.inj h)
      exact ⟨0, rfl, rfl, c, fun m hm => absurd hm (Nat.not_lt_zero m)⟩
    · rw [if_neg c] at h
      obtain ⟨n, rfl, hn, hp, hb⟩ := ih _ h
      refine ⟨n + 1, by omega, hn, hp, fun m hm y hy => ?_⟩
      cases m with
      | zero =>
        obtain rfl := Option.some.inj hy
        simpa using c
      | succ m => exact hb m (by omega) y hy

/-- It finds one where there is one. -/
theorem findIdx1_isSome {α : Type} (p : α → Bool) (l : List α) (k : Nat) (x : α) (m : x ∈ l) (h : p x = true) :
    (findIdx1 p l k).isSome = true := by
  induction l generalizing k with
  | nil => cases m
  | cons a t ih =>
    unfold findIdx1
    by_cases c : p a = true
    · rw [if_pos c]; rfl
    · rw [if_neg c]
      rcases List.mem_cons.mp m with rfl | m
      · exact absurd h c
      · exact ih _ m

end Sys2Proof.Machine
end

