-- ==== Sys2Proof/Laws/Sparse.lean ====
section
/-! SUPPORT. Sparse tables: what a read gives after a write, and that every write keeps the canonical form. -/

namespace Sys2Proof.Machine

variable {α : Type}

theorem smGet_filter_ne (d : Nat → α) (m : List (Nat × α)) (k j : Nat) (h : j ≠ k) :
    smGet d (m.filter (fun e => e.1 != k)) j = smGet d m j := by
  induction m with
  | nil => rfl
  | cons e t ih =>
    by_cases he : e.1 = k
    · have hj : e.1 ≠ j := by omega
      simp [he, smGet, ih]
      intro hkj; omega
    · simp [he, smGet, ih]

theorem smGet_filter_self (d : Nat → α) (m : List (Nat × α)) (k : Nat) :
    smGet d (m.filter (fun e => e.1 != k)) k = d k := by
  induction m with
  | nil => rfl
  | cons e t ih =>
    by_cases he : e.1 = k
    · simp [he, ih]
    · simp [he, smGet, ih]

theorem smGet_insert_self (d : Nat → α) (m : List (Nat × α)) (k : Nat) (v : α) (h : ∀ e ∈ m, e.1 ≠ k) :
    smGet d (smInsert k v m) k = v := by
  induction m with
  | nil => simp [smInsert, smGet]
  | cons e t ih =>
    have h1 := h e (by simp)
    have h2 := ih (fun x hx => h x (by simp [hx]))
    unfold smInsert
    split
    · simp [smGet]
    · simp [smGet, h1, h2]

theorem smGet_insert_ne (d : Nat → α) (m : List (Nat × α)) (k j : Nat) (v : α) (h : j ≠ k) :
    smGet d (smInsert k v m) j = smGet d m j := by
  induction m with
  | nil => simp [smInsert, smGet]; intro; omega
  | cons e t ih =>
    unfold smInsert
    split
    · simp [smGet]; intro; omega
    · simp [smGet, ih]

theorem filter_ne_key (m : List (Nat × α)) (k : Nat) : ∀ e ∈ m.filter (fun e => e.1 != k), e.1 ≠ k := by
  intro e he
  simpa using (List.mem_filter.mp he).2

/-- A read at the index just written gives the value written. -/
theorem smGet_smSet_self [DecidableEq α] (d : Nat → α) (m : List (Nat × α)) (k : Nat) (v : α) :
    smGet d (smSet d m k v) k = v := by
  unfold smSet
  by_cases h : v = d k
  · simp [h, smGet_filter_self]
  · simp only [h, if_false]
    exact smGet_insert_self d _ k v (filter_ne_key m k)

/-- A write leaves every other index alone. -/
theorem smGet_smSet_ne [DecidableEq α] (d : Nat → α) (m : List (Nat × α)) (k j : Nat) (v : α) (h : j ≠ k) :
    smGet d (smSet d m k v) j = smGet d m j := by
  unfold smSet
  by_cases hv : v = d k
  · simp [hv, smGet_filter_ne d m k j h]
  · simp only [hv, if_false]
    rw [smGet_insert_ne d _ k j v h, smGet_filter_ne d m k j h]

theorem smGet_smSet [DecidableEq α] (d : Nat → α) (m : List (Nat × α)) (k j : Nat) (v : α) :
    smGet d (smSet d m k v) j = if j = k then v else smGet d m j := by
  by_cases h : j = k
  · subst h; simp [smGet_smSet_self]
  · simp [h, smGet_smSet_ne d m k j v h]

/-! ### The canonical form -/

/-- Every index of the list lies above `k`. -/
def smAbove (k : Nat) (m : List (Nat × α)) : Prop := ∀ e ∈ m, k < e.1

theorem smRising_cons (a : Nat × α) (t : List (Nat × α)) :
    smRising (a :: t) = true ↔ smAbove a.1 t ∧ smRising t = true := by
  induction t generalizing a with
  | nil => simp [smRising, smAbove]
  | cons b t ih =>
    simp only [smRising, Bool.and_eq_true, decide_eq_true_eq]
    constructor
    · intro ⟨h1, h2⟩
      refine ⟨?_, h2⟩
      intro e he
      rcases List.mem_cons.mp he with rfl | he
      · exact h1
      · have := ((ih b).mp h2).1 e he
        omega
    · intro ⟨h1, h2⟩
      exact ⟨h1 b (by simp), h2⟩

theorem smRising_filter (p : Nat × α → Bool) (m : List (Nat × α)) (h : smRising m = true) :
    smRising (m.filter p) = true := by
  induction m with
  | nil => rfl
  | cons a t ih =>
    have h' := (smRising_cons a t).mp h
    by_cases hp : p a = true
    · rw [List.filter_cons_of_pos hp, smRising_cons]
      exact ⟨fun e he => h'.1 e (List.mem_filter.mp he).1, ih h'.2⟩
    · rw [List.filter_cons_of_neg hp]
      exact ih h'.2

theorem smInsert_mem {k : Nat} {v : α} {m : List (Nat × α)} {e : Nat × α} (h : e ∈ smInsert k v m) :
    e = (k, v) ∨ e ∈ m := by
  induction m with
  | nil => simpa [smInsert] using h
  | cons a t ih =>
    unfold smInsert at h
    split at h
    · simpa using h
    · rcases List.mem_cons.mp h with rfl | h
      · simp
      · rcases ih h with h | h
        · exact .inl h
        · exact .inr (by simp [h])

theorem smRising_insert (k : Nat) (v : α) (m : List (Nat × α)) (h : smRising m = true) (hk : ∀ e ∈ m, e.1 ≠ k) :
    smRising (smInsert k v m) = true := by
  induction m with
  | nil => rfl
  | cons a t ih =>
    have h' := (smRising_cons a t).mp h
    have ha := hk a (by simp)
    unfold smInsert
    split
    · rename_i hlt
      rw [smRising_cons]
      refine ⟨?_, h⟩
      intro e he
      rcases List.mem_cons.mp he with rfl | he
      · exact hlt
      · have := h'.1 e he
        show k < e.1
        omega
    · rename_i hlt
      rw [smRising_cons]
      refine ⟨?_, ih h'.2 (fun e he => hk e (by simp [he]))⟩
      intro e he
      rcases smInsert_mem he with rfl | he
      · show a.1 < k
        omega
      · exact h'.1 e he

theorem smWf_filter [DecidableEq α] (d : Nat → α) (p : Nat × α → Bool) (m : List (Nat × α)) (h : smWf d m = true) :
    smWf d (m.filter p) = true := by
  simp only [smWf, Bool.and_eq_true, List.all_eq_true] at *
  exact ⟨smRising_filter p m h.1, fun e he => h.2 e (List.mem_filter.mp he).1⟩

/-- A write keeps the canonical form. -/
theorem smWf_smSet [DecidableEq α] (d : Nat → α) (m : List (Nat × α)) (k : Nat) (v : α) (h : smWf d m = true) :
    smWf d (smSet d m k v) = true := by
  have hf := smWf_filter d (fun e => e.1 != k) m h
  unfold smSet
  by_cases hv : v = d k
  · simpa [hv] using hf
  · simp only [hv, if_false]
    simp only [smWf, Bool.and_eq_true, List.all_eq_true] at *
    refine ⟨smRising_insert k v _ hf.1 (filter_ne_key m k), ?_⟩
    intro e he
    rcases smInsert_mem he with rfl | he
    · simp [hv]
    · exact hf.2 e he

theorem smWf_nil [DecidableEq α] (d : Nat → α) : smWf d ([] : List (Nat × α)) = true := rfl

/-! ### Tables in which unlisted indices hold nothing -/

theorem pmGet_nil (k : Nat) : pmGet ([] : List (Nat × α)) k = none := rfl

theorem pmGet_cons (e : Nat × α) (t : List (Nat × α)) (k : Nat) :
    pmGet (e :: t) k = if e.1 = k then some e.2 else pmGet t k := by
  unfold pmGet
  by_cases h : e.1 = k
  · simp [h]
  · simp [h]

theorem pmGet_filter_ne (m : List (Nat × α)) (k j : Nat) (h : j ≠ k) :
    pmGet (m.filter (fun e => e.1 != k)) j = pmGet m j := by
  induction m with
  | nil => rfl
  | cons e t ih =>
    by_cases he : e.1 = k
    · have hj : e.1 ≠ j := by omega
      simp [he, pmGet_cons, ih]
      intro; omega
    · simp [he, pmGet_cons, ih]

/-- An entry removed is not found. -/
theorem pmGet_pmDel_self (m : List (Nat × α)) (k : Nat) : pmGet (pmDel m k) k = none := by
  unfold pmDel
  induction m with
  | nil => rfl
  | cons e t ih =>
    by_cases he : e.1 = k
    · simpa [he] using ih
    · simp [he, pmGet_cons, ih]

theorem pmGet_pmDel_ne (m : List (Nat × α)) (k j : Nat) (h : j ≠ k) : pmGet (pmDel m k) j = pmGet m j :=
  pmGet_filter_ne m k j h

theorem pmGet_insert (m : List (Nat × α)) (k j : Nat) (v : α) (h : ∀ e ∈ m, e.1 ≠ k) :
    pmGet (smInsert k v m) j = if j = k then some v else pmGet m j := by
  induction m with
  | nil => simp [smInsert, pmGet_cons, pmGet_nil, eq_comm]
  | cons e t ih =>
    have h1 := h e (by simp)
    have h2 := ih (fun x hx => h x (by simp [hx]))
    unfold smInsert
    split
    · simp [pmGet_cons, eq_comm]
    · simp only [pmGet_cons, h2]
      by_cases hj : j = k
      · subst hj; simp [h1]
      · simp [hj]

/-- An entry put is found. -/
theorem pmGet_pmSet_self (m : List (Nat × α)) (k : Nat) (v : α) : pmGet (pmSet m k v) k = some v := by
  unfold pmSet
  simp [pmGet_insert _ k k v (filter_ne_key m k)]

theorem mem_smInsert_of_mem (k : Nat) (v : α) (m : List (Nat × α)) (e : Nat × α) (h : e ∈ m) : e ∈ smInsert k v m := by
  induction m with
  | nil => cases h
  | cons a t ih =>
    unfold smInsert
    split
    · exact List.mem_cons_of_mem _ h
    · rcases List.mem_cons.mp h with rfl | h
      · exact List.mem_cons_self
      · exact List.mem_cons_of_mem _ (ih h)

theorem key_ne_of_pmGet_none (m : List (Nat × α)) (k : Nat) (h : pmGet m k = none) (e : Nat × α) (he : e ∈ m) : e.1 ≠ k := by
  induction m with
  | nil => cases he
  | cons a t ih =>
    rw [pmGet_cons] at h
    split at h
    · cases h
    · rcases List.mem_cons.mp he with rfl | he
      · assumption
      · exact ih h he

/-- An entry put at an index that has none loses no entry. -/
theorem mem_pmSet_of_mem (m : List (Nat × α)) (k : Nat) (v : α) (h : pmGet m k = none) (e : Nat × α) (he : e ∈ m) :
    e ∈ pmSet m k v := by
  unfold pmSet
  apply mem_smInsert_of_mem
  exact List.mem_filter.mpr ⟨he, by simpa using key_ne_of_pmGet_none m k h e he⟩

theorem pmGet_pmSet_ne (m : List (Nat × α)) (k j : Nat) (v : α) (h : j ≠ k) : pmGet (pmSet m k v) j = pmGet m j := by
  unfold pmSet
  rw [pmGet_insert _ k j v (filter_ne_key m k)]
  simp [h, pmGet_filter_ne m k j h]

end Sys2Proof.Machine
end

