-- ==== Sys2Proof/Laws/State.lean ====
section
/-! SUPPORT. One lemma per field of State and per operation that writes registers: the field is as before. Operations that write one
field of State: every other field, and every register, is as before. -/

namespace Sys2Proof.Machine

@[simp] theorem State.setWord_staged (s : State) (a : Nat) (w : Word) : (s.setWord a w).staged = s.staged := id rfl
@[simp] theorem State.setWord_reports (s : State) (a : Nat) (w : Word) : (s.setWord a w).reports = s.reports := id rfl
@[simp] theorem State.setWord_jobs (s : State) (a : Nat) (w : Word) : (s.setWord a w).jobs = s.jobs := id rfl
@[simp] theorem State.setWord_resetPs (s : State) (a : Nat) (w : Word) : (s.setWord a w).resetPs = s.resetPs := id rfl
@[simp] theorem State.setWord_otp (s : State) (a : Nat) (w : Word) : (s.setWord a w).otp = s.otp := id rfl
@[simp] theorem State.setWord_upsets (s : State) (a : Nat) (w : Word) : (s.setWord a w).upsets = s.upsets := id rfl
@[simp] theorem State.setWord_clk (s : State) (a : Nat) (w : Word) : (s.setWord a w).clk = s.clk := id rfl
@[simp] theorem State.setWord_pipeE (s : State) (a : Nat) (w : Word) : (s.setWord a w).pipeE = s.pipeE := id rfl
@[simp] theorem State.setWord_pipeW (s : State) (a : Nat) (w : Word) : (s.setWord a w).pipeW = s.pipeW := id rfl
@[simp] theorem State.setWord_strainE (s : State) (a : Nat) (w : Word) : (s.setWord a w).strainE = s.strainE := id rfl
@[simp] theorem State.setWord_strainW (s : State) (a : Nat) (w : Word) : (s.setWord a w).strainW = s.strainW := id rfl
@[simp] theorem State.setWord_gen (s : State) (a : Nat) (w : Word) : (s.setWord a w).gen = s.gen := id rfl
@[simp] theorem State.setWord_fab (s : State) (a : Nat) (w : Word) : (s.setWord a w).fab = s.fab := id rfl
@[simp] theorem State.setWord_spout (s : State) (a : Nat) (w : Word) : (s.setWord a w).spout = s.spout := id rfl
@[simp] theorem State.setWord_time (s : State) (a : Nat) (w : Word) : (s.setWord a w).time = s.time := id rfl
@[simp] theorem State.setWord_edge (s : State) (a : Nat) (w : Word) : (s.setWord a w).edge = s.edge := id rfl
@[simp] theorem State.setWord_gw (s : State) (a : Nat) (w : Word) : (s.setWord a w).gw = s.gw := id rfl
@[simp] theorem State.setWord_safe (s : State) (a : Nat) (w : Word) : (s.setWord a w).safe = s.safe := id rfl
@[simp] theorem State.setWord_netm (s : State) (a : Nat) (w : Word) : (s.setWord a w).netm = s.netm := id rfl
@[simp] theorem State.setWord_cosy (s : State) (a : Nat) (w : Word) : (s.setWord a w).cosy = s.cosy := id rfl
@[simp] theorem State.setWord_sec (s : State) (a : Nat) (w : Word) : (s.setWord a w).sec = s.sec := id rfl
@[simp] theorem State.setWord_triad (s : State) (a : Nat) (w : Word) : (s.setWord a w).triad = s.triad := id rfl
@[simp] theorem State.setWord_saucer (s : State) (a : Nat) (w : Word) : (s.setWord a w).saucer = s.saucer := id rfl
@[simp] theorem State.setWord_kettle (s : State) (a : Nat) (w : Word) : (s.setWord a w).kettle = s.kettle := id rfl
@[simp] theorem State.setWord_host (s : State) (a : Nat) (w : Word) : (s.setWord a w).host = s.host := id rfl
@[simp] theorem State.setWord_readData (s : State) (a : Nat) (w : Word) : (s.setWord a w).readData = s.readData := id rfl
@[simp] theorem State.setWord_free (s : State) (a : Nat) (w : Word) : (s.setWord a w).free = s.free := id rfl
@[simp] theorem State.setWord_pending (s : State) (a : Nat) (w : Word) : (s.setWord a w).pending = s.pending := id rfl

@[simp] theorem State.wr_staged (s : State) (u : UnitNo) (f : Fld) (v i j : Nat) : (s.wr u f v i j).staged = s.staged := id rfl
@[simp] theorem State.wr_reports (s : State) (u : UnitNo) (f : Fld) (v i j : Nat) : (s.wr u f v i j).reports = s.reports := id rfl
@[simp] theorem State.wr_jobs (s : State) (u : UnitNo) (f : Fld) (v i j : Nat) : (s.wr u f v i j).jobs = s.jobs := id rfl
@[simp] theorem State.wr_resetPs (s : State) (u : UnitNo) (f : Fld) (v i j : Nat) : (s.wr u f v i j).resetPs = s.resetPs := id rfl
@[simp] theorem State.wr_otp (s : State) (u : UnitNo) (f : Fld) (v i j : Nat) : (s.wr u f v i j).otp = s.otp := id rfl
@[simp] theorem State.wr_upsets (s : State) (u : UnitNo) (f : Fld) (v i j : Nat) : (s.wr u f v i j).upsets = s.upsets := id rfl
@[simp] theorem State.wr_clk (s : State) (u : UnitNo) (f : Fld) (v i j : Nat) : (s.wr u f v i j).clk = s.clk := id rfl
@[simp] theorem State.wr_pipeE (s : State) (u : UnitNo) (f : Fld) (v i j : Nat) : (s.wr u f v i j).pipeE = s.pipeE := id rfl
@[simp] theorem State.wr_pipeW (s : State) (u : UnitNo) (f : Fld) (v i j : Nat) : (s.wr u f v i j).pipeW = s.pipeW := id rfl
@[simp] theorem State.wr_strainE (s : State) (u : UnitNo) (f : Fld) (v i j : Nat) : (s.wr u f v i j).strainE = s.strainE := id rfl
@[simp] theorem State.wr_strainW (s : State) (u : UnitNo) (f : Fld) (v i j : Nat) : (s.wr u f v i j).strainW = s.strainW := id rfl
@[simp] theorem State.wr_gen (s : State) (u : UnitNo) (f : Fld) (v i j : Nat) : (s.wr u f v i j).gen = s.gen := id rfl
@[simp] theorem State.wr_fab (s : State) (u : UnitNo) (f : Fld) (v i j : Nat) : (s.wr u f v i j).fab = s.fab := id rfl
@[simp] theorem State.wr_spout (s : State) (u : UnitNo) (f : Fld) (v i j : Nat) : (s.wr u f v i j).spout = s.spout := id rfl
@[simp] theorem State.wr_time (s : State) (u : UnitNo) (f : Fld) (v i j : Nat) : (s.wr u f v i j).time = s.time := id rfl
@[simp] theorem State.wr_edge (s : State) (u : UnitNo) (f : Fld) (v i j : Nat) : (s.wr u f v i j).edge = s.edge := id rfl
@[simp] theorem State.wr_gw (s : State) (u : UnitNo) (f : Fld) (v i j : Nat) : (s.wr u f v i j).gw = s.gw := id rfl
@[simp] theorem State.wr_safe (s : State) (u : UnitNo) (f : Fld) (v i j : Nat) : (s.wr u f v i j).safe = s.safe := id rfl
@[simp] theorem State.wr_netm (s : State) (u : UnitNo) (f : Fld) (v i j : Nat) : (s.wr u f v i j).netm = s.netm := id rfl
@[simp] theorem State.wr_cosy (s : State) (u : UnitNo) (f : Fld) (v i j : Nat) : (s.wr u f v i j).cosy = s.cosy := id rfl
@[simp] theorem State.wr_sec (s : State) (u : UnitNo) (f : Fld) (v i j : Nat) : (s.wr u f v i j).sec = s.sec := id rfl
@[simp] theorem State.wr_triad (s : State) (u : UnitNo) (f : Fld) (v i j : Nat) : (s.wr u f v i j).triad = s.triad := id rfl
@[simp] theorem State.wr_saucer (s : State) (u : UnitNo) (f : Fld) (v i j : Nat) : (s.wr u f v i j).saucer = s.saucer := id rfl
@[simp] theorem State.wr_kettle (s : State) (u : UnitNo) (f : Fld) (v i j : Nat) : (s.wr u f v i j).kettle = s.kettle := id rfl
@[simp] theorem State.wr_host (s : State) (u : UnitNo) (f : Fld) (v i j : Nat) : (s.wr u f v i j).host = s.host := id rfl
@[simp] theorem State.wr_readData (s : State) (u : UnitNo) (f : Fld) (v i j : Nat) : (s.wr u f v i j).readData = s.readData := id rfl
@[simp] theorem State.wr_free (s : State) (u : UnitNo) (f : Fld) (v i j : Nat) : (s.wr u f v i j).free = s.free := id rfl
@[simp] theorem State.wr_pending (s : State) (u : UnitNo) (f : Fld) (v i j : Nat) : (s.wr u f v i j).pending = s.pending := id rfl

@[simp] theorem State.inc_staged (s : State) (u : UnitNo) (f : Fld) (i j n : Nat) : (s.inc u f i j n).staged = s.staged := id rfl
@[simp] theorem State.inc_reports (s : State) (u : UnitNo) (f : Fld) (i j n : Nat) : (s.inc u f i j n).reports = s.reports := id rfl
@[simp] theorem State.inc_jobs (s : State) (u : UnitNo) (f : Fld) (i j n : Nat) : (s.inc u f i j n).jobs = s.jobs := id rfl
@[simp] theorem State.inc_resetPs (s : State) (u : UnitNo) (f : Fld) (i j n : Nat) : (s.inc u f i j n).resetPs = s.resetPs := id rfl
@[simp] theorem State.inc_otp (s : State) (u : UnitNo) (f : Fld) (i j n : Nat) : (s.inc u f i j n).otp = s.otp := id rfl
@[simp] theorem State.inc_upsets (s : State) (u : UnitNo) (f : Fld) (i j n : Nat) : (s.inc u f i j n).upsets = s.upsets := id rfl
@[simp] theorem State.inc_clk (s : State) (u : UnitNo) (f : Fld) (i j n : Nat) : (s.inc u f i j n).clk = s.clk := id rfl
@[simp] theorem State.inc_pipeE (s : State) (u : UnitNo) (f : Fld) (i j n : Nat) : (s.inc u f i j n).pipeE = s.pipeE := id rfl
@[simp] theorem State.inc_pipeW (s : State) (u : UnitNo) (f : Fld) (i j n : Nat) : (s.inc u f i j n).pipeW = s.pipeW := id rfl
@[simp] theorem State.inc_strainE (s : State) (u : UnitNo) (f : Fld) (i j n : Nat) : (s.inc u f i j n).strainE = s.strainE := id rfl
@[simp] theorem State.inc_strainW (s : State) (u : UnitNo) (f : Fld) (i j n : Nat) : (s.inc u f i j n).strainW = s.strainW := id rfl
@[simp] theorem State.inc_gen (s : State) (u : UnitNo) (f : Fld) (i j n : Nat) : (s.inc u f i j n).gen = s.gen := id rfl
@[simp] theorem State.inc_fab (s : State) (u : UnitNo) (f : Fld) (i j n : Nat) : (s.inc u f i j n).fab = s.fab := id rfl
@[simp] theorem State.inc_spout (s : State) (u : UnitNo) (f : Fld) (i j n : Nat) : (s.inc u f i j n).spout = s.spout := id rfl
@[simp] theorem State.inc_time (s : State) (u : UnitNo) (f : Fld) (i j n : Nat) : (s.inc u f i j n).time = s.time := id rfl
@[simp] theorem State.inc_edge (s : State) (u : UnitNo) (f : Fld) (i j n : Nat) : (s.inc u f i j n).edge = s.edge := id rfl
@[simp] theorem State.inc_gw (s : State) (u : UnitNo) (f : Fld) (i j n : Nat) : (s.inc u f i j n).gw = s.gw := id rfl
@[simp] theorem State.inc_safe (s : State) (u : UnitNo) (f : Fld) (i j n : Nat) : (s.inc u f i j n).safe = s.safe := id rfl
@[simp] theorem State.inc_netm (s : State) (u : UnitNo) (f : Fld) (i j n : Nat) : (s.inc u f i j n).netm = s.netm := id rfl
@[simp] theorem State.inc_cosy (s : State) (u : UnitNo) (f : Fld) (i j n : Nat) : (s.inc u f i j n).cosy = s.cosy := id rfl
@[simp] theorem State.inc_sec (s : State) (u : UnitNo) (f : Fld) (i j n : Nat) : (s.inc u f i j n).sec = s.sec := id rfl
@[simp] theorem State.inc_triad (s : State) (u : UnitNo) (f : Fld) (i j n : Nat) : (s.inc u f i j n).triad = s.triad := id rfl
@[simp] theorem State.inc_saucer (s : State) (u : UnitNo) (f : Fld) (i j n : Nat) : (s.inc u f i j n).saucer = s.saucer := id rfl
@[simp] theorem State.inc_kettle (s : State) (u : UnitNo) (f : Fld) (i j n : Nat) : (s.inc u f i j n).kettle = s.kettle := id rfl
@[simp] theorem State.inc_host (s : State) (u : UnitNo) (f : Fld) (i j n : Nat) : (s.inc u f i j n).host = s.host := id rfl
@[simp] theorem State.inc_readData (s : State) (u : UnitNo) (f : Fld) (i j n : Nat) : (s.inc u f i j n).readData = s.readData := id rfl
@[simp] theorem State.inc_free (s : State) (u : UnitNo) (f : Fld) (i j n : Nat) : (s.inc u f i j n).free = s.free := id rfl
@[simp] theorem State.inc_pending (s : State) (u : UnitNo) (f : Fld) (i j n : Nat) : (s.inc u f i j n).pending = s.pending := id rfl

@[simp] theorem State.sat_staged (s : State) (u : UnitNo) (f : Fld) (i j n : Nat) : (s.sat u f i j n).staged = s.staged := id rfl
@[simp] theorem State.sat_reports (s : State) (u : UnitNo) (f : Fld) (i j n : Nat) : (s.sat u f i j n).reports = s.reports := id rfl
@[simp] theorem State.sat_jobs (s : State) (u : UnitNo) (f : Fld) (i j n : Nat) : (s.sat u f i j n).jobs = s.jobs := id rfl
@[simp] theorem State.sat_resetPs (s : State) (u : UnitNo) (f : Fld) (i j n : Nat) : (s.sat u f i j n).resetPs = s.resetPs := id rfl
@[simp] theorem State.sat_otp (s : State) (u : UnitNo) (f : Fld) (i j n : Nat) : (s.sat u f i j n).otp = s.otp := id rfl
@[simp] theorem State.sat_upsets (s : State) (u : UnitNo) (f : Fld) (i j n : Nat) : (s.sat u f i j n).upsets = s.upsets := id rfl
@[simp] theorem State.sat_clk (s : State) (u : UnitNo) (f : Fld) (i j n : Nat) : (s.sat u f i j n).clk = s.clk := id rfl
@[simp] theorem State.sat_pipeE (s : State) (u : UnitNo) (f : Fld) (i j n : Nat) : (s.sat u f i j n).pipeE = s.pipeE := id rfl
@[simp] theorem State.sat_pipeW (s : State) (u : UnitNo) (f : Fld) (i j n : Nat) : (s.sat u f i j n).pipeW = s.pipeW := id rfl
@[simp] theorem State.sat_strainE (s : State) (u : UnitNo) (f : Fld) (i j n : Nat) : (s.sat u f i j n).strainE = s.strainE := id rfl
@[simp] theorem State.sat_strainW (s : State) (u : UnitNo) (f : Fld) (i j n : Nat) : (s.sat u f i j n).strainW = s.strainW := id rfl
@[simp] theorem State.sat_gen (s : State) (u : UnitNo) (f : Fld) (i j n : Nat) : (s.sat u f i j n).gen = s.gen := id rfl
@[simp] theorem State.sat_fab (s : State) (u : UnitNo) (f : Fld) (i j n : Nat) : (s.sat u f i j n).fab = s.fab := id rfl
@[simp] theorem State.sat_spout (s : State) (u : UnitNo) (f : Fld) (i j n : Nat) : (s.sat u f i j n).spout = s.spout := id rfl
@[simp] theorem State.sat_time (s : State) (u : UnitNo) (f : Fld) (i j n : Nat) : (s.sat u f i j n).time = s.time := id rfl
@[simp] theorem State.sat_edge (s : State) (u : UnitNo) (f : Fld) (i j n : Nat) : (s.sat u f i j n).edge = s.edge := id rfl
@[simp] theorem State.sat_gw (s : State) (u : UnitNo) (f : Fld) (i j n : Nat) : (s.sat u f i j n).gw = s.gw := id rfl
@[simp] theorem State.sat_safe (s : State) (u : UnitNo) (f : Fld) (i j n : Nat) : (s.sat u f i j n).safe = s.safe := id rfl
@[simp] theorem State.sat_netm (s : State) (u : UnitNo) (f : Fld) (i j n : Nat) : (s.sat u f i j n).netm = s.netm := id rfl
@[simp] theorem State.sat_cosy (s : State) (u : UnitNo) (f : Fld) (i j n : Nat) : (s.sat u f i j n).cosy = s.cosy := id rfl
@[simp] theorem State.sat_sec (s : State) (u : UnitNo) (f : Fld) (i j n : Nat) : (s.sat u f i j n).sec = s.sec := id rfl
@[simp] theorem State.sat_triad (s : State) (u : UnitNo) (f : Fld) (i j n : Nat) : (s.sat u f i j n).triad = s.triad := id rfl
@[simp] theorem State.sat_saucer (s : State) (u : UnitNo) (f : Fld) (i j n : Nat) : (s.sat u f i j n).saucer = s.saucer := id rfl
@[simp] theorem State.sat_kettle (s : State) (u : UnitNo) (f : Fld) (i j n : Nat) : (s.sat u f i j n).kettle = s.kettle := id rfl
@[simp] theorem State.sat_host (s : State) (u : UnitNo) (f : Fld) (i j n : Nat) : (s.sat u f i j n).host = s.host := id rfl
@[simp] theorem State.sat_readData (s : State) (u : UnitNo) (f : Fld) (i j n : Nat) : (s.sat u f i j n).readData = s.readData := id rfl
@[simp] theorem State.sat_free (s : State) (u : UnitNo) (f : Fld) (i j n : Nat) : (s.sat u f i j n).free = s.free := id rfl
@[simp] theorem State.sat_pending (s : State) (u : UnitNo) (f : Fld) (i j n : Nat) : (s.sat u f i j n).pending = s.pending := id rfl

@[simp] theorem State.orBit_staged (s : State) (u : UnitNo) (f : Fld) (b i j : Nat) : (s.orBit u f b i j).staged = s.staged := id rfl
@[simp] theorem State.orBit_reports (s : State) (u : UnitNo) (f : Fld) (b i j : Nat) : (s.orBit u f b i j).reports = s.reports := id rfl
@[simp] theorem State.orBit_jobs (s : State) (u : UnitNo) (f : Fld) (b i j : Nat) : (s.orBit u f b i j).jobs = s.jobs := id rfl
@[simp] theorem State.orBit_resetPs (s : State) (u : UnitNo) (f : Fld) (b i j : Nat) : (s.orBit u f b i j).resetPs = s.resetPs := id rfl
@[simp] theorem State.orBit_otp (s : State) (u : UnitNo) (f : Fld) (b i j : Nat) : (s.orBit u f b i j).otp = s.otp := id rfl
@[simp] theorem State.orBit_upsets (s : State) (u : UnitNo) (f : Fld) (b i j : Nat) : (s.orBit u f b i j).upsets = s.upsets := id rfl
@[simp] theorem State.orBit_clk (s : State) (u : UnitNo) (f : Fld) (b i j : Nat) : (s.orBit u f b i j).clk = s.clk := id rfl
@[simp] theorem State.orBit_pipeE (s : State) (u : UnitNo) (f : Fld) (b i j : Nat) : (s.orBit u f b i j).pipeE = s.pipeE := id rfl
@[simp] theorem State.orBit_pipeW (s : State) (u : UnitNo) (f : Fld) (b i j : Nat) : (s.orBit u f b i j).pipeW = s.pipeW := id rfl
@[simp] theorem State.orBit_strainE (s : State) (u : UnitNo) (f : Fld) (b i j : Nat) : (s.orBit u f b i j).strainE = s.strainE := id rfl
@[simp] theorem State.orBit_strainW (s : State) (u : UnitNo) (f : Fld) (b i j : Nat) : (s.orBit u f b i j).strainW = s.strainW := id rfl
@[simp] theorem State.orBit_gen (s : State) (u : UnitNo) (f : Fld) (b i j : Nat) : (s.orBit u f b i j).gen = s.gen := id rfl
@[simp] theorem State.orBit_fab (s : State) (u : UnitNo) (f : Fld) (b i j : Nat) : (s.orBit u f b i j).fab = s.fab := id rfl
@[simp] theorem State.orBit_spout (s : State) (u : UnitNo) (f : Fld) (b i j : Nat) : (s.orBit u f b i j).spout = s.spout := id rfl
@[simp] theorem State.orBit_time (s : State) (u : UnitNo) (f : Fld) (b i j : Nat) : (s.orBit u f b i j).time = s.time := id rfl
@[simp] theorem State.orBit_edge (s : State) (u : UnitNo) (f : Fld) (b i j : Nat) : (s.orBit u f b i j).edge = s.edge := id rfl
@[simp] theorem State.orBit_gw (s : State) (u : UnitNo) (f : Fld) (b i j : Nat) : (s.orBit u f b i j).gw = s.gw := id rfl
@[simp] theorem State.orBit_safe (s : State) (u : UnitNo) (f : Fld) (b i j : Nat) : (s.orBit u f b i j).safe = s.safe := id rfl
@[simp] theorem State.orBit_netm (s : State) (u : UnitNo) (f : Fld) (b i j : Nat) : (s.orBit u f b i j).netm = s.netm := id rfl
@[simp] theorem State.orBit_cosy (s : State) (u : UnitNo) (f : Fld) (b i j : Nat) : (s.orBit u f b i j).cosy = s.cosy := id rfl
@[simp] theorem State.orBit_sec (s : State) (u : UnitNo) (f : Fld) (b i j : Nat) : (s.orBit u f b i j).sec = s.sec := id rfl
@[simp] theorem State.orBit_triad (s : State) (u : UnitNo) (f : Fld) (b i j : Nat) : (s.orBit u f b i j).triad = s.triad := id rfl
@[simp] theorem State.orBit_saucer (s : State) (u : UnitNo) (f : Fld) (b i j : Nat) : (s.orBit u f b i j).saucer = s.saucer := id rfl
@[simp] theorem State.orBit_kettle (s : State) (u : UnitNo) (f : Fld) (b i j : Nat) : (s.orBit u f b i j).kettle = s.kettle := id rfl
@[simp] theorem State.orBit_host (s : State) (u : UnitNo) (f : Fld) (b i j : Nat) : (s.orBit u f b i j).host = s.host := id rfl
@[simp] theorem State.orBit_readData (s : State) (u : UnitNo) (f : Fld) (b i j : Nat) : (s.orBit u f b i j).readData = s.readData := id rfl
@[simp] theorem State.orBit_free (s : State) (u : UnitNo) (f : Fld) (b i j : Nat) : (s.orBit u f b i j).free = s.free := id rfl
@[simp] theorem State.orBit_pending (s : State) (u : UnitNo) (f : Fld) (b i j : Nat) : (s.orBit u f b i j).pending = s.pending := id rfl

@[simp] theorem State.clrBit_staged (s : State) (u : UnitNo) (f : Fld) (b i j : Nat) : (s.clrBit u f b i j).staged = s.staged := id rfl
@[simp] theorem State.clrBit_reports (s : State) (u : UnitNo) (f : Fld) (b i j : Nat) : (s.clrBit u f b i j).reports = s.reports := id rfl
@[simp] theorem State.clrBit_jobs (s : State) (u : UnitNo) (f : Fld) (b i j : Nat) : (s.clrBit u f b i j).jobs = s.jobs := id rfl
@[simp] theorem State.clrBit_resetPs (s : State) (u : UnitNo) (f : Fld) (b i j : Nat) : (s.clrBit u f b i j).resetPs = s.resetPs := id rfl
@[simp] theorem State.clrBit_otp (s : State) (u : UnitNo) (f : Fld) (b i j : Nat) : (s.clrBit u f b i j).otp = s.otp := id rfl
@[simp] theorem State.clrBit_upsets (s : State) (u : UnitNo) (f : Fld) (b i j : Nat) : (s.clrBit u f b i j).upsets = s.upsets := id rfl
@[simp] theorem State.clrBit_clk (s : State) (u : UnitNo) (f : Fld) (b i j : Nat) : (s.clrBit u f b i j).clk = s.clk := id rfl
@[simp] theorem State.clrBit_pipeE (s : State) (u : UnitNo) (f : Fld) (b i j : Nat) : (s.clrBit u f b i j).pipeE = s.pipeE := id rfl
@[simp] theorem State.clrBit_pipeW (s : State) (u : UnitNo) (f : Fld) (b i j : Nat) : (s.clrBit u f b i j).pipeW = s.pipeW := id rfl
@[simp] theorem State.clrBit_strainE (s : State) (u : UnitNo) (f : Fld) (b i j : Nat) : (s.clrBit u f b i j).strainE = s.strainE := id rfl
@[simp] theorem State.clrBit_strainW (s : State) (u : UnitNo) (f : Fld) (b i j : Nat) : (s.clrBit u f b i j).strainW = s.strainW := id rfl
@[simp] theorem State.clrBit_gen (s : State) (u : UnitNo) (f : Fld) (b i j : Nat) : (s.clrBit u f b i j).gen = s.gen := id rfl
@[simp] theorem State.clrBit_fab (s : State) (u : UnitNo) (f : Fld) (b i j : Nat) : (s.clrBit u f b i j).fab = s.fab := id rfl
@[simp] theorem State.clrBit_spout (s : State) (u : UnitNo) (f : Fld) (b i j : Nat) : (s.clrBit u f b i j).spout = s.spout := id rfl
@[simp] theorem State.clrBit_time (s : State) (u : UnitNo) (f : Fld) (b i j : Nat) : (s.clrBit u f b i j).time = s.time := id rfl
@[simp] theorem State.clrBit_edge (s : State) (u : UnitNo) (f : Fld) (b i j : Nat) : (s.clrBit u f b i j).edge = s.edge := id rfl
@[simp] theorem State.clrBit_gw (s : State) (u : UnitNo) (f : Fld) (b i j : Nat) : (s.clrBit u f b i j).gw = s.gw := id rfl
@[simp] theorem State.clrBit_safe (s : State) (u : UnitNo) (f : Fld) (b i j : Nat) : (s.clrBit u f b i j).safe = s.safe := id rfl
@[simp] theorem State.clrBit_netm (s : State) (u : UnitNo) (f : Fld) (b i j : Nat) : (s.clrBit u f b i j).netm = s.netm := id rfl
@[simp] theorem State.clrBit_cosy (s : State) (u : UnitNo) (f : Fld) (b i j : Nat) : (s.clrBit u f b i j).cosy = s.cosy := id rfl
@[simp] theorem State.clrBit_sec (s : State) (u : UnitNo) (f : Fld) (b i j : Nat) : (s.clrBit u f b i j).sec = s.sec := id rfl
@[simp] theorem State.clrBit_triad (s : State) (u : UnitNo) (f : Fld) (b i j : Nat) : (s.clrBit u f b i j).triad = s.triad := id rfl
@[simp] theorem State.clrBit_saucer (s : State) (u : UnitNo) (f : Fld) (b i j : Nat) : (s.clrBit u f b i j).saucer = s.saucer := id rfl
@[simp] theorem State.clrBit_kettle (s : State) (u : UnitNo) (f : Fld) (b i j : Nat) : (s.clrBit u f b i j).kettle = s.kettle := id rfl
@[simp] theorem State.clrBit_host (s : State) (u : UnitNo) (f : Fld) (b i j : Nat) : (s.clrBit u f b i j).host = s.host := id rfl
@[simp] theorem State.clrBit_readData (s : State) (u : UnitNo) (f : Fld) (b i j : Nat) : (s.clrBit u f b i j).readData = s.readData := id rfl
@[simp] theorem State.clrBit_free (s : State) (u : UnitNo) (f : Fld) (b i j : Nat) : (s.clrBit u f b i j).free = s.free := id rfl
@[simp] theorem State.clrBit_pending (s : State) (u : UnitNo) (f : Fld) (b i j : Nat) : (s.clrBit u f b i j).pending = s.pending := id rfl

@[simp] theorem State.jobDone_staged (s : State) (u : UnitNo) : (s.jobDone u).staged = s.staged := (State.wr_staged _ _ _ _ _ _).trans (State.wr_staged _ _ _ _ _ _)
@[simp] theorem State.jobDone_reports (s : State) (u : UnitNo) : (s.jobDone u).reports = s.reports := (State.wr_reports _ _ _ _ _ _).trans (State.wr_reports _ _ _ _ _ _)
@[simp] theorem State.jobDone_jobs (s : State) (u : UnitNo) : (s.jobDone u).jobs = s.jobs := (State.wr_jobs _ _ _ _ _ _).trans (State.wr_jobs _ _ _ _ _ _)
@[simp] theorem State.jobDone_resetPs (s : State) (u : UnitNo) : (s.jobDone u).resetPs = s.resetPs := (State.wr_resetPs _ _ _ _ _ _).trans (State.wr_resetPs _ _ _ _ _ _)
@[simp] theorem State.jobDone_otp (s : State) (u : UnitNo) : (s.jobDone u).otp = s.otp := (State.wr_otp _ _ _ _ _ _).trans (State.wr_otp _ _ _ _ _ _)
@[simp] theorem State.jobDone_upsets (s : State) (u : UnitNo) : (s.jobDone u).upsets = s.upsets := (State.wr_upsets _ _ _ _ _ _).trans (State.wr_upsets _ _ _ _ _ _)
@[simp] theorem State.jobDone_clk (s : State) (u : UnitNo) : (s.jobDone u).clk = s.clk := (State.wr_clk _ _ _ _ _ _).trans (State.wr_clk _ _ _ _ _ _)
@[simp] theorem State.jobDone_pipeE (s : State) (u : UnitNo) : (s.jobDone u).pipeE = s.pipeE := (State.wr_pipeE _ _ _ _ _ _).trans (State.wr_pipeE _ _ _ _ _ _)
@[simp] theorem State.jobDone_pipeW (s : State) (u : UnitNo) : (s.jobDone u).pipeW = s.pipeW := (State.wr_pipeW _ _ _ _ _ _).trans (State.wr_pipeW _ _ _ _ _ _)
@[simp] theorem State.jobDone_strainE (s : State) (u : UnitNo) : (s.jobDone u).strainE = s.strainE := (State.wr_strainE _ _ _ _ _ _).trans (State.wr_strainE _ _ _ _ _ _)
@[simp] theorem State.jobDone_strainW (s : State) (u : UnitNo) : (s.jobDone u).strainW = s.strainW := (State.wr_strainW _ _ _ _ _ _).trans (State.wr_strainW _ _ _ _ _ _)
@[simp] theorem State.jobDone_gen (s : State) (u : UnitNo) : (s.jobDone u).gen = s.gen := (State.wr_gen _ _ _ _ _ _).trans (State.wr_gen _ _ _ _ _ _)
@[simp] theorem State.jobDone_fab (s : State) (u : UnitNo) : (s.jobDone u).fab = s.fab := (State.wr_fab _ _ _ _ _ _).trans (State.wr_fab _ _ _ _ _ _)
@[simp] theorem State.jobDone_spout (s : State) (u : UnitNo) : (s.jobDone u).spout = s.spout := (State.wr_spout _ _ _ _ _ _).trans (State.wr_spout _ _ _ _ _ _)
@[simp] theorem State.jobDone_time (s : State) (u : UnitNo) : (s.jobDone u).time = s.time := (State.wr_time _ _ _ _ _ _).trans (State.wr_time _ _ _ _ _ _)
@[simp] theorem State.jobDone_edge (s : State) (u : UnitNo) : (s.jobDone u).edge = s.edge := (State.wr_edge _ _ _ _ _ _).trans (State.wr_edge _ _ _ _ _ _)
@[simp] theorem State.jobDone_gw (s : State) (u : UnitNo) : (s.jobDone u).gw = s.gw := (State.wr_gw _ _ _ _ _ _).trans (State.wr_gw _ _ _ _ _ _)
@[simp] theorem State.jobDone_safe (s : State) (u : UnitNo) : (s.jobDone u).safe = s.safe := (State.wr_safe _ _ _ _ _ _).trans (State.wr_safe _ _ _ _ _ _)
@[simp] theorem State.jobDone_netm (s : State) (u : UnitNo) : (s.jobDone u).netm = s.netm := (State.wr_netm _ _ _ _ _ _).trans (State.wr_netm _ _ _ _ _ _)
@[simp] theorem State.jobDone_cosy (s : State) (u : UnitNo) : (s.jobDone u).cosy = s.cosy := (State.wr_cosy _ _ _ _ _ _).trans (State.wr_cosy _ _ _ _ _ _)
@[simp] theorem State.jobDone_sec (s : State) (u : UnitNo) : (s.jobDone u).sec = s.sec := (State.wr_sec _ _ _ _ _ _).trans (State.wr_sec _ _ _ _ _ _)
@[simp] theorem State.jobDone_triad (s : State) (u : UnitNo) : (s.jobDone u).triad = s.triad := (State.wr_triad _ _ _ _ _ _).trans (State.wr_triad _ _ _ _ _ _)
@[simp] theorem State.jobDone_saucer (s : State) (u : UnitNo) : (s.jobDone u).saucer = s.saucer := (State.wr_saucer _ _ _ _ _ _).trans (State.wr_saucer _ _ _ _ _ _)
@[simp] theorem State.jobDone_kettle (s : State) (u : UnitNo) : (s.jobDone u).kettle = s.kettle := (State.wr_kettle _ _ _ _ _ _).trans (State.wr_kettle _ _ _ _ _ _)
@[simp] theorem State.jobDone_host (s : State) (u : UnitNo) : (s.jobDone u).host = s.host := (State.wr_host _ _ _ _ _ _).trans (State.wr_host _ _ _ _ _ _)
@[simp] theorem State.jobDone_readData (s : State) (u : UnitNo) : (s.jobDone u).readData = s.readData := (State.wr_readData _ _ _ _ _ _).trans (State.wr_readData _ _ _ _ _ _)
@[simp] theorem State.jobDone_free (s : State) (u : UnitNo) : (s.jobDone u).free = s.free := (State.wr_free _ _ _ _ _ _).trans (State.wr_free _ _ _ _ _ _)
@[simp] theorem State.jobDone_pending (s : State) (u : UnitNo) : (s.jobDone u).pending = s.pending := (State.wr_pending _ _ _ _ _ _).trans (State.wr_pending _ _ _ _ _ _)

@[simp] theorem State.setDom_regs (s : State) (n : Nat) (d : Domain) : (s.setDom n d).regs = s.regs := id rfl
@[simp] theorem State.setDom_staged (s : State) (n : Nat) (d : Domain) : (s.setDom n d).staged = s.staged := id rfl
@[simp] theorem State.setDom_reports (s : State) (n : Nat) (d : Domain) : (s.setDom n d).reports = s.reports := id rfl
@[simp] theorem State.setDom_jobs (s : State) (n : Nat) (d : Domain) : (s.setDom n d).jobs = s.jobs := id rfl
@[simp] theorem State.setDom_resetPs (s : State) (n : Nat) (d : Domain) : (s.setDom n d).resetPs = s.resetPs := id rfl
@[simp] theorem State.setDom_otp (s : State) (n : Nat) (d : Domain) : (s.setDom n d).otp = s.otp := id rfl
@[simp] theorem State.setDom_upsets (s : State) (n : Nat) (d : Domain) : (s.setDom n d).upsets = s.upsets := id rfl
@[simp] theorem State.setDom_clk (s : State) (n : Nat) (d : Domain) : (s.setDom n d).clk = s.clk := id rfl
@[simp] theorem State.setDom_pipeE (s : State) (n : Nat) (d : Domain) : (s.setDom n d).pipeE = s.pipeE := id rfl
@[simp] theorem State.setDom_pipeW (s : State) (n : Nat) (d : Domain) : (s.setDom n d).pipeW = s.pipeW := id rfl
@[simp] theorem State.setDom_strainE (s : State) (n : Nat) (d : Domain) : (s.setDom n d).strainE = s.strainE := id rfl
@[simp] theorem State.setDom_strainW (s : State) (n : Nat) (d : Domain) : (s.setDom n d).strainW = s.strainW := id rfl
@[simp] theorem State.setDom_gen (s : State) (n : Nat) (d : Domain) : (s.setDom n d).gen = s.gen := id rfl
@[simp] theorem State.setDom_fab (s : State) (n : Nat) (d : Domain) : (s.setDom n d).fab = s.fab := id rfl
@[simp] theorem State.setDom_spout (s : State) (n : Nat) (d : Domain) : (s.setDom n d).spout = s.spout := id rfl
@[simp] theorem State.setDom_edge (s : State) (n : Nat) (d : Domain) : (s.setDom n d).edge = s.edge := id rfl
@[simp] theorem State.setDom_gw (s : State) (n : Nat) (d : Domain) : (s.setDom n d).gw = s.gw := id rfl
@[simp] theorem State.setDom_safe (s : State) (n : Nat) (d : Domain) : (s.setDom n d).safe = s.safe := id rfl
@[simp] theorem State.setDom_netm (s : State) (n : Nat) (d : Domain) : (s.setDom n d).netm = s.netm := id rfl
@[simp] theorem State.setDom_cosy (s : State) (n : Nat) (d : Domain) : (s.setDom n d).cosy = s.cosy := id rfl
@[simp] theorem State.setDom_sec (s : State) (n : Nat) (d : Domain) : (s.setDom n d).sec = s.sec := id rfl
@[simp] theorem State.setDom_triad (s : State) (n : Nat) (d : Domain) : (s.setDom n d).triad = s.triad := id rfl
@[simp] theorem State.setDom_saucer (s : State) (n : Nat) (d : Domain) : (s.setDom n d).saucer = s.saucer := id rfl
@[simp] theorem State.setDom_kettle (s : State) (n : Nat) (d : Domain) : (s.setDom n d).kettle = s.kettle := id rfl
@[simp] theorem State.setDom_host (s : State) (n : Nat) (d : Domain) : (s.setDom n d).host = s.host := id rfl
@[simp] theorem State.setDom_readData (s : State) (n : Nat) (d : Domain) : (s.setDom n d).readData = s.readData := id rfl
@[simp] theorem State.setDom_free (s : State) (n : Nat) (d : Domain) : (s.setDom n d).free = s.free := id rfl
@[simp] theorem State.setDom_pending (s : State) (n : Nat) (d : Domain) : (s.setDom n d).pending = s.pending := id rfl

@[simp] theorem State.setTickJob_regs (s : State) (u : UnitNo) (x : TickJob) : (s.setTickJob u x).regs = s.regs := id rfl
@[simp] theorem State.setTickJob_staged (s : State) (u : UnitNo) (x : TickJob) : (s.setTickJob u x).staged = s.staged := id rfl
@[simp] theorem State.setTickJob_reports (s : State) (u : UnitNo) (x : TickJob) : (s.setTickJob u x).reports = s.reports := id rfl
@[simp] theorem State.setTickJob_resetPs (s : State) (u : UnitNo) (x : TickJob) : (s.setTickJob u x).resetPs = s.resetPs := id rfl
@[simp] theorem State.setTickJob_otp (s : State) (u : UnitNo) (x : TickJob) : (s.setTickJob u x).otp = s.otp := id rfl
@[simp] theorem State.setTickJob_upsets (s : State) (u : UnitNo) (x : TickJob) : (s.setTickJob u x).upsets = s.upsets := id rfl
@[simp] theorem State.setTickJob_clk (s : State) (u : UnitNo) (x : TickJob) : (s.setTickJob u x).clk = s.clk := id rfl
@[simp] theorem State.setTickJob_pipeE (s : State) (u : UnitNo) (x : TickJob) : (s.setTickJob u x).pipeE = s.pipeE := id rfl
@[simp] theorem State.setTickJob_pipeW (s : State) (u : UnitNo) (x : TickJob) : (s.setTickJob u x).pipeW = s.pipeW := id rfl
@[simp] theorem State.setTickJob_strainE (s : State) (u : UnitNo) (x : TickJob) : (s.setTickJob u x).strainE = s.strainE := id rfl
@[simp] theorem State.setTickJob_strainW (s : State) (u : UnitNo) (x : TickJob) : (s.setTickJob u x).strainW = s.strainW := id rfl
@[simp] theorem State.setTickJob_gen (s : State) (u : UnitNo) (x : TickJob) : (s.setTickJob u x).gen = s.gen := id rfl
@[simp] theorem State.setTickJob_fab (s : State) (u : UnitNo) (x : TickJob) : (s.setTickJob u x).fab = s.fab := id rfl
@[simp] theorem State.setTickJob_spout (s : State) (u : UnitNo) (x : TickJob) : (s.setTickJob u x).spout = s.spout := id rfl
@[simp] theorem State.setTickJob_time (s : State) (u : UnitNo) (x : TickJob) : (s.setTickJob u x).time = s.time := id rfl
@[simp] theorem State.setTickJob_edge (s : State) (u : UnitNo) (x : TickJob) : (s.setTickJob u x).edge = s.edge := id rfl
@[simp] theorem State.setTickJob_gw (s : State) (u : UnitNo) (x : TickJob) : (s.setTickJob u x).gw = s.gw := id rfl
@[simp] theorem State.setTickJob_safe (s : State) (u : UnitNo) (x : TickJob) : (s.setTickJob u x).safe = s.safe := id rfl
@[simp] theorem State.setTickJob_netm (s : State) (u : UnitNo) (x : TickJob) : (s.setTickJob u x).netm = s.netm := id rfl
@[simp] theorem State.setTickJob_cosy (s : State) (u : UnitNo) (x : TickJob) : (s.setTickJob u x).cosy = s.cosy := id rfl
@[simp] theorem State.setTickJob_sec (s : State) (u : UnitNo) (x : TickJob) : (s.setTickJob u x).sec = s.sec := id rfl
@[simp] theorem State.setTickJob_triad (s : State) (u : UnitNo) (x : TickJob) : (s.setTickJob u x).triad = s.triad := id rfl
@[simp] theorem State.setTickJob_saucer (s : State) (u : UnitNo) (x : TickJob) : (s.setTickJob u x).saucer = s.saucer := id rfl
@[simp] theorem State.setTickJob_kettle (s : State) (u : UnitNo) (x : TickJob) : (s.setTickJob u x).kettle = s.kettle := id rfl
@[simp] theorem State.setTickJob_host (s : State) (u : UnitNo) (x : TickJob) : (s.setTickJob u x).host = s.host := id rfl
@[simp] theorem State.setTickJob_readData (s : State) (u : UnitNo) (x : TickJob) : (s.setTickJob u x).readData = s.readData := id rfl
@[simp] theorem State.setTickJob_free (s : State) (u : UnitNo) (x : TickJob) : (s.setTickJob u x).free = s.free := id rfl
@[simp] theorem State.setTickJob_pending (s : State) (u : UnitNo) (x : TickJob) : (s.setTickJob u x).pending = s.pending := id rfl

@[simp] theorem State.draw_regs (s : State) : (s.draw).regs = s.regs := id rfl
@[simp] theorem State.draw_staged (s : State) : (s.draw).staged = s.staged := id rfl
@[simp] theorem State.draw_reports (s : State) : (s.draw).reports = s.reports := id rfl
@[simp] theorem State.draw_jobs (s : State) : (s.draw).jobs = s.jobs := id rfl
@[simp] theorem State.draw_resetPs (s : State) : (s.draw).resetPs = s.resetPs := id rfl
@[simp] theorem State.draw_otp (s : State) : (s.draw).otp = s.otp := id rfl
@[simp] theorem State.draw_upsets (s : State) : (s.draw).upsets = s.upsets := id rfl
@[simp] theorem State.draw_clk (s : State) : (s.draw).clk = s.clk := id rfl
@[simp] theorem State.draw_pipeE (s : State) : (s.draw).pipeE = s.pipeE := id rfl
@[simp] theorem State.draw_pipeW (s : State) : (s.draw).pipeW = s.pipeW := id rfl
@[simp] theorem State.draw_strainE (s : State) : (s.draw).strainE = s.strainE := id rfl
@[simp] theorem State.draw_strainW (s : State) : (s.draw).strainW = s.strainW := id rfl
@[simp] theorem State.draw_gen (s : State) : (s.draw).gen = s.gen := id rfl
@[simp] theorem State.draw_fab (s : State) : (s.draw).fab = s.fab := id rfl
@[simp] theorem State.draw_spout (s : State) : (s.draw).spout = s.spout := id rfl
@[simp] theorem State.draw_time (s : State) : (s.draw).time = s.time := id rfl
@[simp] theorem State.draw_edge (s : State) : (s.draw).edge = s.edge := id rfl
@[simp] theorem State.draw_gw (s : State) : (s.draw).gw = s.gw := id rfl
@[simp] theorem State.draw_safe (s : State) : (s.draw).safe = s.safe := id rfl
@[simp] theorem State.draw_netm (s : State) : (s.draw).netm = s.netm := id rfl
@[simp] theorem State.draw_cosy (s : State) : (s.draw).cosy = s.cosy := id rfl
@[simp] theorem State.draw_sec (s : State) : (s.draw).sec = s.sec := id rfl
@[simp] theorem State.draw_triad (s : State) : (s.draw).triad = s.triad := id rfl
@[simp] theorem State.draw_saucer (s : State) : (s.draw).saucer = s.saucer := id rfl
@[simp] theorem State.draw_kettle (s : State) : (s.draw).kettle = s.kettle := id rfl
@[simp] theorem State.draw_host (s : State) : (s.draw).host = s.host := id rfl
@[simp] theorem State.draw_readData (s : State) : (s.draw).readData = s.readData := id rfl
@[simp] theorem State.draw_pending (s : State) : (s.draw).pending = s.pending := id rfl

@[simp] theorem State.clearUpset_regs (s : State) (m i : Nat) : (s.clearUpset m i).regs = s.regs := id rfl
@[simp] theorem State.clearUpset_staged (s : State) (m i : Nat) : (s.clearUpset m i).staged = s.staged := id rfl
@[simp] theorem State.clearUpset_reports (s : State) (m i : Nat) : (s.clearUpset m i).reports = s.reports := id rfl
@[simp] theorem State.clearUpset_jobs (s : State) (m i : Nat) : (s.clearUpset m i).jobs = s.jobs := id rfl
@[simp] theorem State.clearUpset_resetPs (s : State) (m i : Nat) : (s.clearUpset m i).resetPs = s.resetPs := id rfl
@[simp] theorem State.clearUpset_otp (s : State) (m i : Nat) : (s.clearUpset m i).otp = s.otp := id rfl
@[simp] theorem State.clearUpset_clk (s : State) (m i : Nat) : (s.clearUpset m i).clk = s.clk := id rfl
@[simp] theorem State.clearUpset_pipeE (s : State) (m i : Nat) : (s.clearUpset m i).pipeE = s.pipeE := id rfl
@[simp] theorem State.clearUpset_pipeW (s : State) (m i : Nat) : (s.clearUpset m i).pipeW = s.pipeW := id rfl
@[simp] theorem State.clearUpset_strainE (s : State) (m i : Nat) : (s.clearUpset m i).strainE = s.strainE := id rfl
@[simp] theorem State.clearUpset_strainW (s : State) (m i : Nat) : (s.clearUpset m i).strainW = s.strainW := id rfl
@[simp] theorem State.clearUpset_gen (s : State) (m i : Nat) : (s.clearUpset m i).gen = s.gen := id rfl
@[simp] theorem State.clearUpset_fab (s : State) (m i : Nat) : (s.clearUpset m i).fab = s.fab := id rfl
@[simp] theorem State.clearUpset_spout (s : State) (m i : Nat) : (s.clearUpset m i).spout = s.spout := id rfl
@[simp] theorem State.clearUpset_time (s : State) (m i : Nat) : (s.clearUpset m i).time = s.time := id rfl
@[simp] theorem State.clearUpset_edge (s : State) (m i : Nat) : (s.clearUpset m i).edge = s.edge := id rfl
@[simp] theorem State.clearUpset_gw (s : State) (m i : Nat) : (s.clearUpset m i).gw = s.gw := id rfl
@[simp] theorem State.clearUpset_safe (s : State) (m i : Nat) : (s.clearUpset m i).safe = s.safe := id rfl
@[simp] theorem State.clearUpset_netm (s : State) (m i : Nat) : (s.clearUpset m i).netm = s.netm := id rfl
@[simp] theorem State.clearUpset_cosy (s : State) (m i : Nat) : (s.clearUpset m i).cosy = s.cosy := id rfl
@[simp] theorem State.clearUpset_sec (s : State) (m i : Nat) : (s.clearUpset m i).sec = s.sec := id rfl
@[simp] theorem State.clearUpset_triad (s : State) (m i : Nat) : (s.clearUpset m i).triad = s.triad := id rfl
@[simp] theorem State.clearUpset_saucer (s : State) (m i : Nat) : (s.clearUpset m i).saucer = s.saucer := id rfl
@[simp] theorem State.clearUpset_kettle (s : State) (m i : Nat) : (s.clearUpset m i).kettle = s.kettle := id rfl
@[simp] theorem State.clearUpset_host (s : State) (m i : Nat) : (s.clearUpset m i).host = s.host := id rfl
@[simp] theorem State.clearUpset_readData (s : State) (m i : Nat) : (s.clearUpset m i).readData = s.readData := id rfl
@[simp] theorem State.clearUpset_free (s : State) (m i : Nat) : (s.clearUpset m i).free = s.free := id rfl
@[simp] theorem State.clearUpset_pending (s : State) (m i : Nat) : (s.clearUpset m i).pending = s.pending := id rfl

@[simp] theorem State.setPipe_regs (s : State) (w : Bool) (p : PipeState) : (s.setPipe w p).regs = s.regs := by cases w <;> exact id rfl
@[simp] theorem State.setPipe_staged (s : State) (w : Bool) (p : PipeState) : (s.setPipe w p).staged = s.staged := by cases w <;> exact id rfl
@[simp] theorem State.setPipe_reports (s : State) (w : Bool) (p : PipeState) : (s.setPipe w p).reports = s.reports := by cases w <;> exact id rfl
@[simp] theorem State.setPipe_jobs (s : State) (w : Bool) (p : PipeState) : (s.setPipe w p).jobs = s.jobs := by cases w <;> exact id rfl
@[simp] theorem State.setPipe_resetPs (s : State) (w : Bool) (p : PipeState) : (s.setPipe w p).resetPs = s.resetPs := by cases w <;> exact id rfl
@[simp] theorem State.setPipe_otp (s : State) (w : Bool) (p : PipeState) : (s.setPipe w p).otp = s.otp := by cases w <;> exact id rfl
@[simp] theorem State.setPipe_upsets (s : State) (w : Bool) (p : PipeState) : (s.setPipe w p).upsets = s.upsets := by cases w <;> exact id rfl
@[simp] theorem State.setPipe_clk (s : State) (w : Bool) (p : PipeState) : (s.setPipe w p).clk = s.clk := by cases w <;> exact id rfl
@[simp] theorem State.setPipe_strainE (s : State) (w : Bool) (p : PipeState) : (s.setPipe w p).strainE = s.strainE := by cases w <;> exact id rfl
@[simp] theorem State.setPipe_strainW (s : State) (w : Bool) (p : PipeState) : (s.setPipe w p).strainW = s.strainW := by cases w <;> exact id rfl
@[simp] theorem State.setPipe_gen (s : State) (w : Bool) (p : PipeState) : (s.setPipe w p).gen = s.gen := by cases w <;> exact id rfl
@[simp] theorem State.setPipe_fab (s : State) (w : Bool) (p : PipeState) : (s.setPipe w p).fab = s.fab := by cases w <;> exact id rfl
@[simp] theorem State.setPipe_spout (s : State) (w : Bool) (p : PipeState) : (s.setPipe w p).spout = s.spout := by cases w <;> exact id rfl
@[simp] theorem State.setPipe_time (s : State) (w : Bool) (p : PipeState) : (s.setPipe w p).time = s.time := by cases w <;> exact id rfl
@[simp] theorem State.setPipe_edge (s : State) (w : Bool) (p : PipeState) : (s.setPipe w p).edge = s.edge := by cases w <;> exact id rfl
@[simp] theorem State.setPipe_gw (s : State) (w : Bool) (p : PipeState) : (s.setPipe w p).gw = s.gw := by cases w <;> exact id rfl
@[simp] theorem State.setPipe_safe (s : State) (w : Bool) (p : PipeState) : (s.setPipe w p).safe = s.safe := by cases w <;> exact id rfl
@[simp] theorem State.setPipe_netm (s : State) (w : Bool) (p : PipeState) : (s.setPipe w p).netm = s.netm := by cases w <;> exact id rfl
@[simp] theorem State.setPipe_cosy (s : State) (w : Bool) (p : PipeState) : (s.setPipe w p).cosy = s.cosy := by cases w <;> exact id rfl
@[simp] theorem State.setPipe_sec (s : State) (w : Bool) (p : PipeState) : (s.setPipe w p).sec = s.sec := by cases w <;> exact id rfl
@[simp] theorem State.setPipe_triad (s : State) (w : Bool) (p : PipeState) : (s.setPipe w p).triad = s.triad := by cases w <;> exact id rfl
@[simp] theorem State.setPipe_saucer (s : State) (w : Bool) (p : PipeState) : (s.setPipe w p).saucer = s.saucer := by cases w <;> exact id rfl
@[simp] theorem State.setPipe_kettle (s : State) (w : Bool) (p : PipeState) : (s.setPipe w p).kettle = s.kettle := by cases w <;> exact id rfl
@[simp] theorem State.setPipe_host (s : State) (w : Bool) (p : PipeState) : (s.setPipe w p).host = s.host := by cases w <;> exact id rfl
@[simp] theorem State.setPipe_readData (s : State) (w : Bool) (p : PipeState) : (s.setPipe w p).readData = s.readData := by cases w <;> exact id rfl
@[simp] theorem State.setPipe_free (s : State) (w : Bool) (p : PipeState) : (s.setPipe w p).free = s.free := by cases w <;> exact id rfl
@[simp] theorem State.setPipe_pending (s : State) (w : Bool) (p : PipeState) : (s.setPipe w p).pending = s.pending := by cases w <;> exact id rfl

@[simp] theorem State.setStrain_regs (s : State) (w : Bool) (p : StrainState) : (s.setStrain w p).regs = s.regs := by cases w <;> exact id rfl
@[simp] theorem State.setStrain_staged (s : State) (w : Bool) (p : StrainState) : (s.setStrain w p).staged = s.staged := by cases w <;> exact id rfl
@[simp] theorem State.setStrain_reports (s : State) (w : Bool) (p : StrainState) : (s.setStrain w p).reports = s.reports := by cases w <;> exact id rfl
@[simp] theorem State.setStrain_jobs (s : State) (w : Bool) (p : StrainState) : (s.setStrain w p).jobs = s.jobs := by cases w <;> exact id rfl
@[simp] theorem State.setStrain_resetPs (s : State) (w : Bool) (p : StrainState) : (s.setStrain w p).resetPs = s.resetPs := by cases w <;> exact id rfl
@[simp] theorem State.setStrain_otp (s : State) (w : Bool) (p : StrainState) : (s.setStrain w p).otp = s.otp := by cases w <;> exact id rfl
@[simp] theorem State.setStrain_upsets (s : State) (w : Bool) (p : StrainState) : (s.setStrain w p).upsets = s.upsets := by cases w <;> exact id rfl
@[simp] theorem State.setStrain_clk (s : State) (w : Bool) (p : StrainState) : (s.setStrain w p).clk = s.clk := by cases w <;> exact id rfl
@[simp] theorem State.setStrain_pipeE (s : State) (w : Bool) (p : StrainState) : (s.setStrain w p).pipeE = s.pipeE := by cases w <;> exact id rfl
@[simp] theorem State.setStrain_pipeW (s : State) (w : Bool) (p : StrainState) : (s.setStrain w p).pipeW = s.pipeW := by cases w <;> exact id rfl
@[simp] theorem State.setStrain_gen (s : State) (w : Bool) (p : StrainState) : (s.setStrain w p).gen = s.gen := by cases w <;> exact id rfl
@[simp] theorem State.setStrain_fab (s : State) (w : Bool) (p : StrainState) : (s.setStrain w p).fab = s.fab := by cases w <;> exact id rfl
@[simp] theorem State.setStrain_spout (s : State) (w : Bool) (p : StrainState) : (s.setStrain w p).spout = s.spout := by cases w <;> exact id rfl
@[simp] theorem State.setStrain_time (s : State) (w : Bool) (p : StrainState) : (s.setStrain w p).time = s.time := by cases w <;> exact id rfl
@[simp] theorem State.setStrain_edge (s : State) (w : Bool) (p : StrainState) : (s.setStrain w p).edge = s.edge := by cases w <;> exact id rfl
@[simp] theorem State.setStrain_gw (s : State) (w : Bool) (p : StrainState) : (s.setStrain w p).gw = s.gw := by cases w <;> exact id rfl
@[simp] theorem State.setStrain_safe (s : State) (w : Bool) (p : StrainState) : (s.setStrain w p).safe = s.safe := by cases w <;> exact id rfl
@[simp] theorem State.setStrain_netm (s : State) (w : Bool) (p : StrainState) : (s.setStrain w p).netm = s.netm := by cases w <;> exact id rfl
@[simp] theorem State.setStrain_cosy (s : State) (w : Bool) (p : StrainState) : (s.setStrain w p).cosy = s.cosy := by cases w <;> exact id rfl
@[simp] theorem State.setStrain_sec (s : State) (w : Bool) (p : StrainState) : (s.setStrain w p).sec = s.sec := by cases w <;> exact id rfl
@[simp] theorem State.setStrain_triad (s : State) (w : Bool) (p : StrainState) : (s.setStrain w p).triad = s.triad := by cases w <;> exact id rfl
@[simp] theorem State.setStrain_saucer (s : State) (w : Bool) (p : StrainState) : (s.setStrain w p).saucer = s.saucer := by cases w <;> exact id rfl
@[simp] theorem State.setStrain_kettle (s : State) (w : Bool) (p : StrainState) : (s.setStrain w p).kettle = s.kettle := by cases w <;> exact id rfl
@[simp] theorem State.setStrain_host (s : State) (w : Bool) (p : StrainState) : (s.setStrain w p).host = s.host := by cases w <;> exact id rfl
@[simp] theorem State.setStrain_readData (s : State) (w : Bool) (p : StrainState) : (s.setStrain w p).readData = s.readData := by cases w <;> exact id rfl
@[simp] theorem State.setStrain_free (s : State) (w : Bool) (p : StrainState) : (s.setStrain w p).free = s.free := by cases w <;> exact id rfl
@[simp] theorem State.setStrain_pending (s : State) (w : Bool) (p : StrainState) : (s.setStrain w p).pending = s.pending := by cases w <;> exact id rfl

end Sys2Proof.Machine
end

