-- ==== Sys2Proof/Laws/Regs.lean ====
section
/-! SUPPORT. Registers and fields: what a register reads after a register or a field has been written. -/

namespace Sys2Proof.Machine

/-- A register after a write of a word (R229: a shared GW register through any instance). -/
theorem State.word_setWord (s : State) (a b : Nat) (w : Word) :
    (s.setWord a w).word b = if canonAddr b = canonAddr a then w else s.word b := by
  unfold State.word State.setWord
  rw [smGet_smSet]

/-- A register after a write of a field. -/
theorem State.word_wr (s : State) (u : UnitNo) (f : Fld) (v i j b : Nat) :
    (s.wr u f v i j).word b
      = if canonAddr b = canonAddr (fldAddr u f i j) then setBits (s.word (fldAddr u f i j)) f.lsb f.width v else s.word b := by
  unfold State.wr
  rw [State.word_setWord]

theorem State.word_wr_ne (s : State) (u : UnitNo) (f : Fld) (v i j b : Nat) (h : canonAddr b ≠ canonAddr (fldAddr u f i j)) :
    (s.wr u f v i j).word b = s.word b := by
  rw [State.word_wr, if_neg h]

theorem State.word_wr_self (s : State) (u : UnitNo) (f : Fld) (v i j : Nat) :
    (s.wr u f v i j).word (fldAddr u f i j) = setBits (s.word (fldAddr u f i j)) f.lsb f.width v := by
  rw [State.word_wr, if_pos rfl]

/-- Two addresses of one register read the same. -/
theorem State.word_congr (s : State) {a b : Nat} (h : canonAddr a = canonAddr b) : s.word a = s.word b := by
  unfold State.word
  rw [h]

/-- Registers are all that `word` looks at. -/
theorem State.word_regs {s t : State} (h : t.regs = s.regs) (a : Nat) : t.word a = s.word a := by
  unfold State.word
  rw [h]

theorem State.rd_regs {s t : State} (h : t.regs = s.regs) (u : UnitNo) (f : Fld) (i j : Nat) : t.rd u f i j = s.rd u f i j := by
  unfold State.rd
  rw [State.word_regs h]

/-- A field after it has been written. -/
theorem State.rd_wr_self (s : State) (u : UnitNo) (f : Fld) (v i j : Nat) (h : f.lsb + f.width ≤ 32) :
    (s.wr u f v i j).rd u f i j = v % 2 ^ f.width := by
  unfold State.rd
  rw [State.word_wr_self, getBits_setBits_self _ _ _ _ h]

/-- A field of another register. -/
theorem State.rd_wr_ne (s : State) (u u' : UnitNo) (f f' : Fld) (v i j i' j' : Nat)
    (h : canonAddr (fldAddr u' f' i' j') ≠ canonAddr (fldAddr u f i j)) :
    (s.wr u f v i j).rd u' f' i' j' = s.rd u' f' i' j' := by
  unfold State.rd
  rw [State.word_wr_ne _ _ _ _ _ _ _ h]

/-- Two fields that share no bit. -/
def apart (u : UnitNo) (f : Fld) (i j : Nat) (u' : UnitNo) (f' : Fld) (i' j' : Nat) : Bool :=
  decide (canonAddr (fldAddr u' f' i' j') ≠ canonAddr (fldAddr u f i j))
    || (decide (f.lsb + f.width ≤ 32) && (decide (f'.lsb + f'.width ≤ f.lsb) || decide (f.lsb + f.width ≤ f'.lsb)))

/-- A field that shares no bit with the one written. -/
theorem State.rd_wr_apart (s : State) (u u' : UnitNo) (f f' : Fld) (v i j i' j' : Nat) (h : apart u f i j u' f' i' j' = true) :
    (s.wr u f v i j).rd u' f' i' j' = s.rd u' f' i' j' := by
  by_cases e : canonAddr (fldAddr u' f' i' j') = canonAddr (fldAddr u f i j)
  · simp only [apart, e, ne_eq, not_true_eq_false, decide_false, Bool.false_or, Bool.and_eq_true, Bool.or_eq_true,
      decide_eq_true_eq] at h
    unfold State.rd
    rw [State.word_congr _ e, State.word_congr s e, State.word_wr_self]
    rcases h with ⟨h, k | k⟩
    · exact getBits_setBits_below _ _ _ _ _ _ h k
    · exact getBits_setBits_above _ _ _ _ _ _ h k
  · exact State.rd_wr_ne _ _ _ _ _ _ _ _ _ _ e

theorem State.rd_lt (s : State) (u : UnitNo) (f : Fld) (i j : Nat) : s.rd u f i j < 2 ^ f.width := getBits_lt _ _ _

/-- A wrapping counter after it has counted. -/
theorem State.rd_inc_self (s : State) (u : UnitNo) (f : Fld) (i j n : Nat) (h : f.lsb + f.width ≤ 32) :
    (s.inc u f i j n).rd u f i j = (s.rd u f i j + n) % 2 ^ f.width := by
  unfold State.inc
  rw [State.rd_wr_self _ _ _ _ _ _ h, Nat.mod_mod]

theorem State.rd_inc_apart (s : State) (u u' : UnitNo) (f f' : Fld) (i j n i' j' : Nat) (h : apart u f i j u' f' i' j' = true) :
    (s.inc u f i j n).rd u' f' i' j' = s.rd u' f' i' j' := State.rd_wr_apart _ _ _ _ _ _ _ _ _ _ h

theorem State.word_inc_ne (s : State) (u : UnitNo) (f : Fld) (i j n b : Nat) (h : canonAddr b ≠ canonAddr (fldAddr u f i j)) :
    (s.inc u f i j n).word b = s.word b := State.word_wr_ne _ _ _ _ _ _ _ h

/-- A saturating counter after it has counted. -/
theorem State.rd_sat_self (s : State) (u : UnitNo) (f : Fld) (i j n : Nat) (h : f.lsb + f.width ≤ 32) :
    (s.sat u f i j n).rd u f i j = min (s.rd u f i j + n) (2 ^ f.width - 1) := by
  unfold State.sat
  rw [State.rd_wr_self _ _ _ _ _ _ h, Nat.mod_eq_of_lt]
  have := Nat.two_pow_pos f.width
  omega

theorem State.rd_sat_apart (s : State) (u u' : UnitNo) (f f' : Fld) (i j n i' j' : Nat) (h : apart u f i j u' f' i' j' = true) :
    (s.sat u f i j n).rd u' f' i' j' = s.rd u' f' i' j' := State.rd_wr_apart _ _ _ _ _ _ _ _ _ _ h

theorem State.word_sat_ne (s : State) (u : UnitNo) (f : Fld) (i j n b : Nat) (h : canonAddr b ≠ canonAddr (fldAddr u f i j)) :
    (s.sat u f i j n).word b = s.word b := State.word_wr_ne _ _ _ _ _ _ _ h

theorem State.word_orBit_ne (s : State) (u : UnitNo) (f : Fld) (n i j b : Nat) (h : canonAddr b ≠ canonAddr (fldAddr u f i j)) :
    (s.orBit u f n i j).word b = s.word b := State.word_wr_ne _ _ _ _ _ _ _ h

theorem State.word_clrBit_ne (s : State) (u : UnitNo) (f : Fld) (n i j b : Nat) (h : canonAddr b ≠ canonAddr (fldAddr u f i j)) :
    (s.clrBit u f n i j).word b = s.word b := State.word_wr_ne _ _ _ _ _ _ _ h

end Sys2Proof.Machine
end

