-- ==== Sys2Proof/Laws/Frame.lean ====
section
/-! SUPPORT. Frames: which registers an operation may change, and how frames compose. -/

namespace Sys2Proof.Machine

theorem OnlyRegs.refl (s : State) : OnlyRegs s s [] := ⟨rfl, fun _ _ => rfl⟩

theorem OnlyRegs.mono {s t : State} {as bs : List Nat} (h : OnlyRegs s t as) (k : ∀ a, a ∈ as → a ∈ bs) : OnlyRegs s t bs :=
  ⟨h.1, fun a m => h.2 a (fun b hb => m b (k b hb))⟩

theorem OnlyRegs.trans {s t r : State} {as bs : List Nat} (h : OnlyRegs s t as) (k : OnlyRegs t r bs) : OnlyRegs s r (as ++ bs) := by
  refine ⟨?_, fun a m => ?_⟩
  · rw [k.1, h.1]
  · rw [k.2 a (fun b hb => m b (List.mem_append_right _ hb)), h.2 a (fun b hb => m b (List.mem_append_left _ hb))]

theorem OnlyRegs.setWord (s : State) (a : Nat) (w : Word) : OnlyRegs s (s.setWord a w) [a] :=
  ⟨rfl, fun b m => by rw [State.word_setWord, if_neg (m a (List.mem_singleton.2 rfl))]⟩

theorem OnlyRegs.wr (s : State) (u : UnitNo) (f : Fld) (v i j : Nat) : OnlyRegs s (s.wr u f v i j) [fldAddr u f i j] :=
  OnlyRegs.setWord _ _ _

theorem OnlyRegs.inc (s : State) (u : UnitNo) (f : Fld) (i j n : Nat) : OnlyRegs s (s.inc u f i j n) [fldAddr u f i j] :=
  OnlyRegs.setWord _ _ _

theorem OnlyRegs.sat (s : State) (u : UnitNo) (f : Fld) (i j n : Nat) : OnlyRegs s (s.sat u f i j n) [fldAddr u f i j] :=
  OnlyRegs.setWord _ _ _

theorem OnlyRegs.orBit (s : State) (u : UnitNo) (f : Fld) (b i j : Nat) : OnlyRegs s (s.orBit u f b i j) [fldAddr u f i j] :=
  OnlyRegs.setWord _ _ _

theorem OnlyRegs.clrBit (s : State) (u : UnitNo) (f : Fld) (b i j : Nat) : OnlyRegs s (s.clrBit u f b i j) [fldAddr u f i j] :=
  OnlyRegs.setWord _ _ _

/-- A frame may be used along a list that is longer. -/
theorem OnlyRegs.wrIn {s t : State} {as : List Nat} (h : OnlyRegs s t as) (u : UnitNo) (f : Fld) (v i j : Nat)
    (m : fldAddr u f i j ∈ as) : OnlyRegs s (t.wr u f v i j) as :=
  (h.trans (OnlyRegs.wr t u f v i j)).mono (fun a k => by
    rcases List.mem_append.1 k with k | k
    · exact k
    · rw [List.mem_singleton.1 k]; exact m)

theorem OnlyRegs.incIn {s t : State} {as : List Nat} (h : OnlyRegs s t as) (u : UnitNo) (f : Fld) (i j n : Nat)
    (m : fldAddr u f i j ∈ as) : OnlyRegs s (t.inc u f i j n) as := h.wrIn _ _ _ _ _ m

theorem OnlyRegs.satIn {s t : State} {as : List Nat} (h : OnlyRegs s t as) (u : UnitNo) (f : Fld) (i j n : Nat)
    (m : fldAddr u f i j ∈ as) : OnlyRegs s (t.sat u f i j n) as := h.wrIn _ _ _ _ _ m

theorem OnlyRegs.toIrq {s t : State} {as : List Nat} (h : OnlyRegs s t as) : OnlyIrq s t as :=
  ⟨by rw [h.1], fun a m => h.2 a (fun b hb => m b (List.mem_append_left _ hb))⟩

theorem OnlyIrq.refl (s : State) : OnlyIrq s s [] := (OnlyRegs.refl s).toIrq

theorem OnlyIrq.mono {s t : State} {as bs : List Nat} (h : OnlyIrq s t as) (k : ∀ a, a ∈ as → a ∈ bs) : OnlyIrq s t bs :=
  ⟨h.1, fun a m => h.2 a (fun b hb => m b (by
    rcases List.mem_append.1 hb with hb | hb
    · exact List.mem_append_left _ (k b hb)
    · exact List.mem_append_right _ hb))⟩

theorem OnlyIrq.trans {s t r : State} {as bs : List Nat} (h : OnlyIrq s t as) (k : OnlyIrq t r bs) : OnlyIrq s r (as ++ bs) := by
  refine ⟨?_, fun a m => ?_⟩
  · rw [k.1, h.1]
  · rw [k.2 a (fun b hb => m b (by
      rcases List.mem_append.1 hb with hb | hb
      · exact List.mem_append_left _ (List.mem_append_right _ hb)
      · exact List.mem_append_right _ hb)), h.2 a (fun b hb => m b (by
      rcases List.mem_append.1 hb with hb | hb
      · exact List.mem_append_left _ (List.mem_append_left _ hb)
      · exact List.mem_append_right _ hb))]

theorem OnlyIrq.wrIn {s t : State} {as : List Nat} (h : OnlyIrq s t as) (u : UnitNo) (f : Fld) (v i j : Nat)
    (m : fldAddr u f i j ∈ as) : OnlyIrq s (t.wr u f v i j) as :=
  (h.trans (OnlyRegs.wr t u f v i j).toIrq).mono (fun a k => by
    rcases List.mem_append.1 k with k | k
    · exact k
    · rw [List.mem_singleton.1 k]; exact m)

theorem OnlyIrq.pba (s : State) (u : UnitNo) (f : Fld) (v i j : Nat) (h : fldAddr u f i j ∈ pbaAddrs) :
    OnlyIrq s (s.wr u f v i j) [] :=
  ⟨rfl, fun a m => (OnlyRegs.wr s u f v i j).2 a (fun b hb => m b (by rw [List.mem_singleton.1 hb]; exact h))⟩

/-- A signalled vector 32 of a function leaves nothing but a message or its pending bit. -/
theorem OnlyIrq.signal (s : State) (f : Nat) (h : f < 5) : OnlyIrq s (s.signal f 32) [] := by
  unfold State.signal
  split
  · exact OnlyIrq.refl s
  · split
    · exact ⟨rfl, fun _ _ => rfl⟩
    · unfold State.orBit
      exact OnlyIrq.pba s _ _ _ _ _ (List.mem_map.2 ⟨f, List.mem_range.2 h, rfl⟩)

theorem OnlyIrq.ite {s t r : State} {as : List Nat} {p : Prop} [Decidable p] (h : OnlyIrq s t as) (k : OnlyIrq s r as) :
    OnlyIrq s (if p then t else r) as := by
  split <;> assumption

theorem OnlyIrq.step {s t r : State} {as : List Nat} (h : OnlyIrq s t as) (k : OnlyIrq t r []) : OnlyIrq s r as := by
  have := h.trans k
  rwa [List.append_nil] at this

/-- What `withIrq` adds to a changed state. -/
theorem OnlyIrq.withIrq_tail (s : State) (run : State → State) : OnlyIrq (run s) (s.withIrq run) [] := by
  unfold State.withIrq
  have e : ∀ (l : List Nat) (t : State), (∀ f ∈ l, f < 5) →
      OnlyIrq t (l.foldl (fun t f => if !s.irq (uFn f) && t.irq (uFn f) then t.signal f 32 else t) t) [] := by
    intro l
    induction l with
    | nil => exact fun t _ => OnlyIrq.refl t
    | cons f l ih =>
      intro t m
      refine OnlyIrq.step ?_ (ih _ (fun g hg => m g (List.mem_cons_of_mem _ hg)))
      exact OnlyIrq.ite (OnlyIrq.signal _ _ (m f (List.mem_cons_self))) (OnlyIrq.refl _)
  exact OnlyIrq.step (OnlyIrq.ite (OnlyIrq.signal _ 0 (by decide)) (OnlyIrq.refl _)) (e _ _ (by decide))

/-- What `withIrq` adds to a change. -/
theorem OnlyIrq.withIrq {s : State} {run : State → State} {as : List Nat} (h : OnlyIrq s (run s) as) : OnlyIrq s (s.withIrq run) as :=
  h.step (OnlyIrq.withIrq_tail s run)

theorem OnlyIrq.event (s : State) (u : UnitNo) : OnlyIrq s (s.event u) [fldAddr u F.unit_STATUS_EVENT 0 0] :=
  OnlyIrq.withIrq (OnlyRegs.wr s u F.unit_STATUS_EVENT 1 0 0).toIrq

theorem OnlyIrq.eventIn {s t : State} {as : List Nat} (h : OnlyIrq s t as) (u : UnitNo)
    (m : fldAddr u F.unit_STATUS_EVENT 0 0 ∈ as) : OnlyIrq s (t.event u) as :=
  (h.trans (OnlyIrq.event t u)).mono (fun a k => by
    rcases List.mem_append.1 k with k | k
    · exact k
    · rw [List.mem_singleton.1 k]; exact m)

/-- A register outside a frame. -/
theorem OnlyIrq.word {s t : State} {as : List Nat} (h : OnlyIrq s t as) (a : Nat)
    (m : (as ++ pbaAddrs).all (fun b => decide (canonAddr a ≠ canonAddr b)) = true) : t.word a = s.word a :=
  h.2 a (fun b hb => by simpa using List.all_eq_true.1 m b hb)

theorem OnlyIrq.rd {s t : State} {as : List Nat} (h : OnlyIrq s t as) (u : UnitNo) (f : Fld) (i j : Nat)
    (m : (as ++ pbaAddrs).all (fun b => decide (canonAddr (fldAddr u f i j) ≠ canonAddr b)) = true) :
    t.rd u f i j = s.rd u f i j := by
  unfold State.rd
  rw [h.word _ m]

theorem OnlyRegs.rd {s t : State} {as : List Nat} (h : OnlyRegs s t as) (u : UnitNo) (f : Fld) (i j : Nat)
    (m : as.all (fun b => decide (canonAddr (fldAddr u f i j) ≠ canonAddr b)) = true) : t.rd u f i j = s.rd u f i j := by
  unfold State.rd
  rw [h.2 _ (fun b hb => by simpa using List.all_eq_true.1 m b hb)]

/-- The event bit of a unit after an event. -/
theorem State.event_flag (s : State) (u : UnitNo) (h : (pbaAddrs).all (fun b => decide (canonAddr (fldAddr u F.unit_STATUS_EVENT 0 0) ≠ canonAddr b)) = true) :
    (s.event u).rd u F.unit_STATUS_EVENT = 1 := by
  unfold State.event
  rw [(OnlyIrq.withIrq_tail s _).rd _ _ _ _ h, State.rd_wr_self _ _ _ _ _ _ (by decide)]
  rfl

/-- A register of a unit that is no PCIe function holds no pending bits. -/
theorem pba_apart {a : Nat} {f : Found} (h : findReg a = some f) (k : kindOf f.unit ≠ .fn) :
    ∀ b ∈ pbaAddrs, canonAddr a ≠ canonAddr b := by
  intro b hb e
  have hb' : canonAddr b = b ∧ ¬ (0x40300000 ≤ b ∧ b < 0x403D0000) ∧
      (match findReg b with | some f => decide (kindOf f.unit = .fn) | none => true) = true := by
    have : pbaAddrs.all (fun b => decide (canonAddr b = b ∧ ¬ (0x40300000 ≤ b ∧ b < 0x403D0000)) &&
      (match findReg b with | some f => decide (kindOf f.unit = .fn) | none => true)) = true := by decide
    have := List.all_eq_true.1 this b hb
    rw [Bool.and_eq_true, decide_eq_true_eq] at this
    exact ⟨this.1.1, this.1.2, this.2⟩
  obtain ⟨h1, h2, h3⟩ := hb'
  rw [h1] at e
  unfold canonAddr at e
  split at e
  · dsimp only at e
    split at e
    · exact h2 (by omega)
    · exact h2 (by omega)
  · subst e
    rw [h] at h3
    exact k (by simpa using h3)

/-- A detector that fires sets its fault bit and sends its report (R318, R401). -/
theorem State.fireInj_eq (s : State) (u : UnitNo) (d : Nat) (x : Detail) (inj : Bool) :
    s.fireInj u d x inj = { s.orBit u F.unit_FAULT d with
      reports := joinReport ⟨u, d, 1, x.access, x.master, x.addr, x.syndrome, s.wcNs, inj⟩ s.reports } := by
  unfold State.fireInj
  dsimp only
  unfold State.wcNs
  rw [State.orBit_clk, State.orBit_reports]

theorem State.fire_eq (s : State) (u : UnitNo) (d : Nat) (x : Detail) :
    s.fire u d x = { s.orBit u F.unit_FAULT d with
      reports := joinReport ⟨u, d, 1, x.access, x.master, x.addr, x.syndrome, s.wcNs, false⟩ s.reports } :=
  State.fireInj_eq s u d x false

/-- A detector without an injection, evaluated on its condition. -/
theorem State.check_unarmed (s : State) (u : UnitNo) (d : Nat) (c : Bool) (x : Detail) (h : s.armed u d = false) :
    s.check u d c x = if c then s.fire u d x else s := by
  unfold State.check
  rw [h, if_neg (by simp)]

/-- A detector that fires changes its fault bits and the waiting reports, nothing else. -/
theorem OnlyRegs.fireInj (s : State) (u : UnitNo) (d : Nat) (x : Detail) (inj : Bool) :
    OnlyRegs { s with reports := joinReport ⟨u, d, 1, x.access, x.master, x.addr, x.syndrome, s.wcNs, inj⟩ s.reports }
      (s.fireInj u d x inj) [fldAddr u F.unit_FAULT 0 0] := by
  rw [State.fireInj_eq]
  generalize joinReport _ _ = r
  refine ⟨rfl, fun b hb => ?_⟩
  have := (OnlyRegs.orBit s u F.unit_FAULT d 0 0).2 b hb
  unfold State.word at this ⊢
  exact this

theorem OnlyRegs.fire (s : State) (u : UnitNo) (d : Nat) (x : Detail) :
    OnlyRegs { s with reports := joinReport ⟨u, d, 1, x.access, x.master, x.addr, x.syndrome, s.wcNs, false⟩ s.reports }
      (s.fire u d x) [fldAddr u F.unit_FAULT 0 0] := OnlyRegs.fireInj s u d x false

end Sys2Proof.Machine
end

