-- ==== Sys2Proof/Laws/Fabric.lean ====
section
/-! SUPPORT. What the fabric's small operations change: the count of free cells, a cell freed, a cell released (R112, R120, R121). -/

namespace Sys2Proof.Machine

/-- The count of free cells is a register. -/
@[simp] theorem State.setFree_fab (s : State) (n : Nat) : (s.setFree n).fab = s.fab := by
  unfold State.setFree
  dsimp only
  split <;> simp only [State.wr_fab]

@[simp] theorem State.setFree_upsets (s : State) (n : Nat) : (s.setFree n).upsets = s.upsets := by
  unfold State.setFree
  dsimp only
  split <;> simp only [State.wr_upsets]

theorem State.rd_setFree (s : State) (n : Nat) :
    (s.setFree n).rd uFab F.fab_BUF_FREE_FREE = n % 2 ^ F.fab_BUF_FREE_FREE.width := by
  unfold State.setFree
  dsimp only
  split
  · rw [State.rd_wr_apart _ _ _ _ _ _ _ _ _ _ (by decide), State.rd_wr_self _ _ _ _ _ _ (by decide)]
  · rw [State.rd_wr_self _ _ _ _ _ _ (by decide)]

/-- No field but those of the counts of free cells changes with them. -/
theorem State.rd_setFree_apart (s : State) (n : Nat) (u : UnitNo) (f : Fld) (i j : Nat)
    (h1 : apart uFab F.fab_BUF_FREE_FREE 0 0 u f i j = true) (h2 : apart uFab F.fab_BUF_FREE_MIN_MIN 0 0 u f i j = true) :
    (s.setFree n).rd u f i j = s.rd u f i j := by
  unfold State.setFree
  dsimp only
  split
  · rw [State.rd_wr_apart _ _ _ _ _ _ _ _ _ _ h2, State.rd_wr_apart _ _ _ _ _ _ _ _ _ _ h1]
  · rw [State.rd_wr_apart _ _ _ _ _ _ _ _ _ _ h1]

/-- Which free cell is found does not hang on what a port has done in this FAB cycle. -/
theorem State.freeCellFrom_usePort (s : State) (k slice n i : Nat) :
    (s.usePort k).freeCellFrom slice n i = s.freeCellFrom slice n i := by
  induction n generalizing i with
  | zero => rfl
  | succ n ih =>
    unfold State.freeCellFrom
    rw [ih]
    rfl

/-- A cell freed: it is not in use, and BUF_FREE counts it. -/
theorem State.freeCell_fab (s : State) (ptr : Nat) :
    (s.freeCell ptr).fab = { s.fab with cells := pmDel s.fab.cells ptr } := by
  unfold State.freeCell
  dsimp only
  rw [State.setFree_fab]
  split
  · split
    · rw [State.wr_fab]
    · rfl
  · rfl

@[simp] theorem State.freeCell_upsets (s : State) (ptr : Nat) : (s.freeCell ptr).upsets = s.upsets := by
  unfold State.freeCell
  dsimp only
  rw [State.setFree_upsets]
  split
  · split
    · rw [State.wr_upsets]
    · rfl
  · rfl

/-- A release leaves the fabric as it was but for its cells. -/
theorem State.release_fab (s : State) (copies ptr : Nat) :
    ∃ c, (s.release copies ptr).fab = { s.fab with cells := c } := by
  unfold State.release
  split
  · exact ⟨_, rfl⟩
  · split
    · exact ⟨_, State.freeCell_fab _ _⟩
    · exact ⟨_, rfl⟩

@[simp] theorem State.release_upsets (s : State) (copies ptr : Nat) : (s.release copies ptr).upsets = s.upsets := by
  unfold State.release
  split
  · rfl
  · split
    · exact State.freeCell_upsets _ _
    · rfl

@[simp] theorem State.release_readingOf (s : State) (copies ptr p : Nat) : (s.release copies ptr).readingOf p = s.readingOf p := by
  obtain ⟨c, e⟩ := s.release_fab copies ptr
  unfold State.readingOf
  rw [e]

end Sys2Proof.Machine
end

