-- ==== Sys2Proof/Laws/Time.lean ====
section
/-! SUPPORT. Time passing: what `advance` changes. -/

namespace Sys2Proof.Machine

/-- Only the times of the domains change. -/
theorem State.domsPass_eq (s : State) (n : Nat) : ∃ d, s.domsPass n = { s with time := { s.time with domains := d } } := by
  unfold State.domsPass
  generalize [0, 1, 2, 3] = l
  induction l generalizing s with
  | nil => exact ⟨_, rfl⟩
  | cons d l ih =>
    rw [List.foldl_cons]
    split
    · exact ih s
    · obtain ⟨x, hx⟩ := ih (s.setDom d { s.dom d with time := wrapTime ((s.dom d).time + Int.ofNat n * (2 ^ 48 + (s.dom d).rate)) })
      exact ⟨x, hx⟩

/-- Without a command in DOM_CMD none is executed. -/
theorem State.runDomCmds_none (s : State) (h : s.time.cmds = []) : s.runDomCmds = s := by
  have k (d : Nat) : s.runDomCmd d = s := by
    unfold State.runDomCmd
    rw [h]
    rfl
  unfold State.runDomCmds
  simp only [List.foldl_cons, List.foldl_nil, k]

/-- A port with nothing to send and no shaper on is as before. -/
theorem State.lineTo_quiet (s : State) (p : Nat) (h : (s.spoutAt p).line = []) (c : s.cbsOn p = false) : s.lineTo p = s := by
  unfold State.lineTo
  rw [if_pos ⟨by rw [h]; rfl, by rw [c]; rfl⟩]

/-- The E-ports have nothing to send, no shaper of theirs is on. -/
theorem State.linesTo_quiet (s : State) (l : List Nat) (h : ∀ p ∈ l, (s.spoutAt p).line = [] ∧ s.cbsOn p = false) :
    l.foldl (fun t p => t.lineTo p) s = s := by
  induction l with
  | nil => rfl
  | cons p l ih =>
    rw [List.foldl_cons, s.lineTo_quiet p (h p List.mem_cons_self).1 (h p List.mem_cons_self).2]
    exact ih (fun q hq => h q (List.mem_cons_of_mem _ hq))

/-- FAB.CYCLE is no shaper's enable. -/
theorem State.cbsOn_fabPass (s : State) (c : Nat) (p : Nat) (hp : p < 12) : (s.fabPass c).cbsOn p = s.cbsOn p := by
  have a : ∀ p < 12, ∀ i < 4, apart uFab F.fab_CYCLE 0 0 (uSpout p) F.spout_CBS_CFG_EN i 0 = true := by decide
  have k (i : Nat) (hi : i < 4) : (s.fabPass c).flag (uSpout p) F.spout_CBS_CFG_EN i = s.flag (uSpout p) F.spout_CBS_CFG_EN i := by
    unfold State.fabPass State.flag
    rw [State.rd_wr_apart _ _ _ _ _ _ _ _ _ _ (a p hp i hi)]
    rfl
  unfold State.cbsOn
  simp only [List.any_cons, List.any_nil, k 0 (by decide), k 1 (by decide), k 2 (by decide), k 3 (by decide)]

/-- With room in the CAN key FIFO no infuser waits for it. -/
theorem State.keyWaits_room (s : State) (n : Nat) (h : (s.strain true).canFifo.length < 64) : s.keyWaits n = s := by
  unfold State.keyWaits
  rw [if_pos h]

/-- With no command in progress none completes. -/
theorem State.busyDone_none (s : State) (h : s.sec.busySets = []) (k : s.flag uCaddy F.caddy_LC_CMD_BUSY = false) : s.busyDone = s := by
  unfold State.busyDone
  rw [if_pos ⟨h, by rw [k]; rfl⟩]

/-- On a quiet Brew die the clocks alone pass. -/
theorem State.pass_quiet (s : State) (n : Nat) (h : s.clocked = true) (q : s.quiet) :
    s.pass n = (if s.fabCycles n = 0 then (s.clocksPass n).domsPass (s.timeCycles n)
      else ((s.clocksPass n).domsPass (s.timeCycles n)).fabPass (s.fabCycles n)) := by
  unfold State.pass
  rw [h, if_neg (by decide)]
  dsimp only
  rw [s.busyDone_none q.1.1 q.1.2, s.keyWaits_room _ q.2.2.1, s.runDomCmds_none q.2.1]
  apply State.linesTo_quiet
  intro p hp
  have hp := List.mem_range.mp hp
  obtain ⟨d, hd⟩ := (s.clocksPass n).domsPass_eq (s.timeCycles n)
  rw [hd]
  split
  · exact q.2.2.2 p hp
  · rw [State.cbsOn_fabPass _ _ _ hp]
    unfold State.fabPass State.spoutAt
    rw [State.wr_spout]
    exact q.2.2.2 p hp

/-- What time passing leaves as it was on a quiet die. -/
theorem State.pass_frame (s : State) (n : Nat) (h : s.clocked = true) (q : s.quiet) :
    OnlyRegs { s with clk := (s.pass n).clk, resetPs := (s.pass n).resetPs
                      time := { s.time with domains := (s.pass n).time.domains }
                      fab := { s.fab with
                        lfsr := (s.pass n).fab.lfsr, used := (s.pass n).fab.used, reading := (s.pass n).fab.reading } }
      (s.pass n) [fldAddr uFab F.fab_CYCLE 0 0] := by
  rw [s.pass_quiet n h q]
  obtain ⟨d, hd⟩ := (s.clocksPass n).domsPass_eq (s.timeCycles n)
  simp only [hd]
  split
  · exact ⟨rfl, fun _ _ => rfl⟩
  · unfold State.fabPass
    simp only [State.wr_clk, State.wr_resetPs, State.wr_time, State.wr_fab]
    exact OnlyRegs.wr _ _ _ _ _ _

/-- WC and FAB.CYCLE on a quiet die that has its clock (R111, R161). -/
theorem State.pass_wc (s : State) (n : Nat) (h : s.clocked = true) (q : s.quiet) :
    (s.pass n).clk.wc = (s.clk.wc + s.timeCycles n * 131072) % 2 ^ 80 := by
  rw [s.pass_quiet n h q]
  obtain ⟨d, hd⟩ := (s.clocksPass n).domsPass_eq (s.timeCycles n)
  simp only [hd]
  split
  · rfl
  · unfold State.fabPass
    rw [State.wr_clk]
    rfl

end Sys2Proof.Machine
end

