-- ==== Sys2Proof/Laws/HostWrite.lean ====
section
/-! SUPPORT. What a write of a register does, once for every register whose access kinds say it all. -/

namespace Sys2Proof.Machine

/-- A register write that starts a command, where its unit takes writes of the master. -/
theorem State.command_ok {s : State} {u : UnitNo} {m : Nat} (h : s.takes u m = true) (a : Nat) (run : State → State) :
    s.command u m a run = run s := by
  simp only [State.takes, Bool.and_eq_true, Bool.not_eq_true'] at h
  unfold State.command
  rw [h.1, h.2, if_neg (by decide), if_neg (by decide)]

/-- … and where it does not: it is refused. -/
theorem State.command_barred {s : State} {u : UnitNo} {m : Nat} (d : s.deaf = false) (h : s.barred u m = true) (a : Nat)
    (run : State → State) : s.command u m a run = s.refuse m a := by
  unfold State.command
  rw [d, h, if_neg (by decide), if_pos rfl]

/-- … and on a die that takes none nothing happens. -/
theorem State.command_deaf {s : State} {u : UnitNo} {m : Nat} (d : s.deaf = true) (a : Nat) (run : State → State) :
    s.command u m a run = s := by
  unfold State.command
  rw [d, if_pos rfl]

theorem merge_zero (w v : Word) : merge w v 0#32 = w := by
  simp only [merge, BitVec.and_zero, BitVec.or_zero]
  exact BitVec.and_allOnes

theorem State.rwTaken_plain (s : State) (f : Found) (old v mask : Word) (h : kindOf f.unit ≠ .fn) :
    s.rwTaken f old v mask = ⟨merge old v mask, false⟩ := by
  unfold State.rwTaken
  rw [if_neg (fun k => h k.1)]

theorem State.rwlTaken_plain (s : State) (f : Found) (old v mask : Word) (h : kindOf f.unit ≠ .mac) (k : kindOf f.unit ≠ .time) :
    s.rwlTaken f old v mask = ⟨merge old v mask, false⟩ := by
  unfold State.rwlTaken
  dsimp only
  split <;> simp_all

theorem State.written_plain (s : State) (f : Found) (old : Word) (h : f.ruled = false) : s.written f old = s := by
  unfold State.written
  unfold Found.ruled at h
  split
  · rfl
  · split
    case h_3 e =>
      rw [if_neg (fun c => by simp [e, c] at h)]
    all_goals simp_all

/-- A command of the unit frame on the Brew die, where its unit takes writes of the master. -/
theorem State.unitWrite_ok {s : State} {u : UnitNo} {m : Nat} (h : s.takes u m = true) (hc : u ≠ uCosy) (off : Nat) (v : Word)
    (run : State → State) : s.unitWrite u m off v run = run s := by
  unfold State.unitWrite
  rw [if_neg hc, State.command_ok h]

/-- With no read waiting none is served. -/
theorem State.serveReads_none (s : State) (h : s.host.reads = []) : s.serveReads = s := by
  unfold State.serveReads State.serveList State.setHost
  rw [h]
  dsimp only
  rw [← h]

/-- … and none is flushed. -/
theorem State.flushReads_none (s : State) (p : NonPosted → Bool) (h : s.host.reads = []) : s.flushReads p = s := by
  unfold State.flushReads
  rw [h]
  dsimp only [List.filter_nil, List.foldl_nil]
  have e : s.setHost { s.host with reads := [] } = s := by
    unfold State.setHost
    rw [← h]
  rw [e, s.serveReads_none h]

/-- A read of a register of the Brew die that need not wait. -/
theorem State.regReadTo_now {s : State} {m a : Nat} (d : s.debugBarred m = false) (h4 : a % 4 = 0) (hl : a < 2 ^ 32)
    (v : s.vfBarred m = false) (hc : cosyAddr a = false) (hw : s.readWaits s.host.reads m a = false) :
    s.regReadTo m a = { (s.readAt m a).2 with readData := (s.readAt m a).1 } := by
  unfold State.regReadTo State.askRead
  rw [hw, if_neg (by decide)]
  unfold State.serveRead State.regRead
  dsimp only
  rw [d, if_neg (by decide), if_neg (by simp [v]; omega), hc, if_neg (by simp)]
  rfl

/-- A master that its unit does not bar is no VF in Fallback mode. -/
theorem State.vfBarred_of_barred {s : State} {u : UnitNo} {m : Nat} (h : s.barred u m = false) : s.vfBarred m = false := by
  simp only [State.barred, Bool.or_eq_false_iff] at h
  exact h.1.2

/-- A write of a register whose access kinds say it all (R8, R431). -/
theorem State.plainWrite_spec (s : State) (m : Nat) (f : Found) (a : Nat) (v : Word) (hf : findReg a = some f)
    (hk : f.ruled = false) :
    ∃ r, s.plainWrite m f a v = (if s.rwlClash a v f then r.refuse m a else r.accessSeen m a 2 f.unit) ∧
      WriteTaken s r m a v f := by
  unfold WriteTaken State.rwlClash
  have hk' := hk
  simp only [Found.ruled, Bool.or_eq_false_iff, List.contains_eq_mem, List.mem_cons, List.not_mem_nil, or_false, not_or,
    decide_eq_false_iff_not] at hk'
  obtain ⟨⟨k1, k2, k3, k4, k5⟩, _⟩ := hk'
  unfold State.plainWrite
  dsimp only
  rw [if_neg k4, BitVec.or_zero, State.rwTaken_plain _ _ _ _ _ k2, State.written_plain _ _ _ hk]
  dsimp only
  generalize hN : merge (merge (s.word a) v (kindMask f .rw)) v (if s.enabled f.unit then 0#32 else kindMask f .rwl)
        &&& ~~~(v &&& kindMask f .w1c) = N
  have hy : (if s.enabled f.unit = true then
      ({ word := merge (s.word a) v (kindMask f .rw), refused := (s.word a ^^^ v) &&& kindMask f .rwl != 0#32 } : Taken)
      else s.rwlTaken f (merge (s.word a) v (kindMask f .rw)) v (kindMask f .rwl)) =
      ⟨merge (merge (s.word a) v (kindMask f .rw)) v (if s.enabled f.unit then 0#32 else kindMask f .rwl),
        s.enabled f.unit && ((s.word a ^^^ v) &&& kindMask f .rwl != 0#32)⟩ := by
    by_cases he : s.enabled f.unit = true
    · simp [he, merge_zero]
    · simp [he, State.rwlTaken_plain _ _ _ _ _ k1 k3]
  rw [hy]
  dsimp only
  rw [hN]
  by_cases hs : kindMask f .rws = 0#32
  · have hw := OnlyIrq.withIrq (s := s) (run := fun s => s.setWord a N) (OnlyRegs.setWord s a N).toIrq
    refine ⟨s.withIrq (fun s => s.setWord a N), ?_, ?_, ?_, ?_⟩
    · simp [hs]
    · rw [(OnlyIrq.withIrq_tail s (fun s => s.setWord a N)).2 a (fun b hb' => pba_apart hf k2 b (by simpa using hb')),
        State.word_setWord, if_pos rfl]
    · rw [hw.1, if_pos hs]
    · exact ⟨by rw [hw.1], fun b hb' => hw.2 b hb'⟩
  · generalize hq : s.stage f.unit m a v = q
    have hw := OnlyIrq.withIrq (s := q) (run := fun s => s.setWord a N) (OnlyRegs.setWord q a N).toIrq
    refine ⟨q.withIrq (fun s => s.setWord a N), ?_, ?_, ?_, ?_, fun b hb' => ?_⟩
    · simp [hs, hq]
    · rw [(OnlyIrq.withIrq_tail q (fun s => s.setWord a N)).2 a (fun b hb' => pba_apart hf k2 b (by simpa using hb')),
        State.word_setWord, if_pos rfl]
    · rw [if_neg hs, hw.1, ← hq]
      rfl
    · rw [hw.1, ← hq]
      rfl
    · rw [hw.2 b hb', ← hq]
      rfl

end Sys2Proof.Machine
end

