-- ==== Sys2Proof/Laws/Keep.lean ====
section
/-! SUPPORT. What no operation does: `Kept a b` says that on the way from `a` to `b` the queue of commands was not touched, nothing in
OTP was lost, no free value was drawn twice, and the register file and the memories stayed canonical. One lemma for each operation says
that it keeps all of this. -/

namespace Sys2Proof.Machine

/-- What stays on the way from `a` to `b`. -/
structure Kept (a b : State) : Prop where
  pending : b.pending = a.pending
  otp : otpLe a.otp b.otp
  free : a.free ≤ b.free
  regs : a.regsWf → b.regsWf
  mem : a.memWf → b.memWf

theorem otpHeld.rfl' {α : Type} (x : Option α) : otpHeld x x := fun _ h => h

theorem otpLe.refl (o : Otp) : otpLe o o where
  lc := Nat.le_refl _
  secret := fun _ h => h
  linkSecret := fun _ h => h
  signHash := fun _ h => h
  revoked := fun _ h => h
  fbHash := fun _ h => h
  dbgHash := fun _ h => h
  uid := rfl
  ledger := List.prefix_refl _

theorem otpLe.trans {a b c : Otp} (h : otpLe a b) (k : otpLe b c) : otpLe a c where
  lc := Nat.le_trans h.lc k.lc
  secret := fun v e => k.secret v (h.secret v e)
  linkSecret := fun v e => k.linkSecret v (h.linkSecret v e)
  signHash := fun e m => k.signHash e (h.signHash e m)
  revoked := fun e m => k.revoked e (h.revoked e m)
  fbHash := fun v e => k.fbHash v (h.fbHash v e)
  dbgHash := fun v e => k.dbgHash v (h.dbgHash v e)
  uid := h.uid.trans k.uid
  ledger := h.ledger.trans k.ledger

theorem Kept.refl (a : State) : Kept a a := ⟨rfl, otpLe.refl _, Nat.le_refl _, id, id⟩

theorem Kept.trans {a b c : State} (h : Kept a b) (k : Kept b c) : Kept a c :=
  ⟨k.pending.trans h.pending, h.otp.trans k.otp, Nat.le_trans h.free k.free, k.regs ∘ h.regs, k.mem ∘ h.mem⟩

/-- The parts of a state that `Kept` looks at, unchanged. -/
theorem Kept.same {a s t : State} (h : Kept a s) (p : t.pending = s.pending) (o : t.otp = s.otp) (f : t.free = s.free)
    (r : t.regs = s.regs) (m : t.triad.sram = s.triad.sram) (g : t.gw.mem = s.gw.mem) (q : t.time.prog = s.time.prog)
    (c : t.cosy.prog = s.cosy.prog) : Kept a t :=
  ⟨p.trans h.pending, o ▸ h.otp, f ▸ h.free, fun x => by
    have := h.regs x
    unfold State.regsWf at *
    rwa [r], fun x => by
    have := h.mem x
    unfold State.memWf at *
    rwa [m, g, q, c]⟩

/-- An update of fields that `Kept` does not look at. -/
theorem Kept.update {a s : State} {staged reports jobs resetPs upsets clk pipeE pipeW strainE strainW gen fab spout time edge gw safe
    netm cosy sec triad saucer kettle host readData} (h : Kept a s) (m : triad.sram = s.triad.sram) (g : gw.mem = s.gw.mem)
    (q : time.prog = s.time.prog) (c : cosy.prog = s.cosy.prog) :
    Kept a ⟨s.regs, staged, reports, jobs, resetPs, s.otp, upsets, clk, pipeE, pipeW, strainE, strainW, gen, fab, spout, time, edge, gw,
      safe, netm, cosy, sec, triad, saucer, kettle, host, readData, s.free, s.pending⟩ :=
  h.same rfl rfl rfl rfl m g q c

theorem Kept.sram {a s : State} (h : Kept a s) (w : a.memWf) : smWf zero0 s.triad.sram := (h.mem w).1

theorem Kept.gwMem {a s : State} (h : Kept a s) (w : a.memWf) : smWf zero0 s.gw.mem := (h.mem w).2.1

theorem Kept.timeProg {a s : State} (h : Kept a s) (w : a.memWf) : smWf zero0 s.time.prog := (h.mem w).2.2.1

theorem Kept.cosyProg {a s : State} (h : Kept a s) (w : a.memWf) : smWf zero0 s.cosy.prog := (h.mem w).2.2.2

/-- An update that may write registers and memories: what remains to show is that they stay canonical. -/
theorem Kept.upd {a s : State} {regs staged reports jobs resetPs upsets clk pipeE pipeW strainE strainW gen fab spout time edge gw safe
    netm cosy sec triad saucer kettle host readData} (h : Kept a s) (r : a.regsWf → smWf regReset regs)
    (m : a.memWf → smWf zero0 triad.sram) (g : a.memWf → smWf zero0 gw.mem) (q : a.memWf → smWf zero0 time.prog)
    (c : a.memWf → smWf zero0 cosy.prog) :
    Kept a ⟨regs, staged, reports, jobs, resetPs, s.otp, upsets, clk, pipeE, pipeW, strainE, strainW, gen, fab, spout, time, edge, gw,
      safe, netm, cosy, sec, triad, saucer, kettle, host, readData, s.free, s.pending⟩ :=
  ⟨h.pending, h.otp, h.free, r, fun w => ⟨m w, g w, q w, c w⟩⟩

theorem Kept.updFrom {a s t : State} (h : Kept a s) (k : Kept a s → Kept a t) : Kept a t := k h

/-- An update of OTP that loses nothing. -/
theorem Kept.putOtp {a s : State} {o : Otp} (h : Kept a s) (k : otpLe s.otp o) : Kept a { s with otp := o } :=
  ⟨h.pending, h.otp.trans k, h.free, h.regs, h.mem⟩

theorem Kept.ite {a s t : State} {p : Prop} [Decidable p] (h : Kept a s) (k : Kept a t) : Kept a (if p then s else t) := by
  split <;> assumption

theorem Kept.ite_snd {β : Type} {a : State} {s t : β × State} {p : Prop} [Decidable p] (h : Kept a s.2) (k : Kept a t.2) :
    Kept a (if p then s else t).2 := by
  split <;> assumption

theorem Kept.ite_snd2 {β γ : Type} {a : State} {s t : β × γ × State} {p : Prop} [Decidable p] (h : Kept a s.2.2) (k : Kept a t.2.2) :
    Kept a (if p then s else t).2.2 := by
  split <;> assumption

/-- A step of a proof. -/
theorem Kept.cut {a t : State} {P : Prop} (v : Kept a t) (k : Kept a t → P) : P := k v

/-- The state in a pair. -/
theorem Kept.ofEq {β : Type} {a t : State} {p : β × State} {x : β} (e : p = (x, t)) (h : Kept a p.2) : Kept a t := by
  subst e
  exact h

/-- The state in a triple. -/
theorem Kept.ofEq3 {β γ : Type} {a t : State} {p : β × γ × State} {x : β} {y : γ} (e : p = (x, y, t)) (h : Kept a p.2.2) : Kept a t := by
  subst e
  exact h

/-- A loop over a list. -/
theorem Kept.foldl {β : Type} {a s : State} (g : State → β → State) (l : List β) (h : Kept a s)
    (k : ∀ t x, Kept a t → Kept a (g t x)) : Kept a (l.foldl g s) := by
  induction l generalizing s with
  | nil => exact h
  | cons x l ih => exact ih (k s x h)

/-- A loop that may stop. -/
theorem Kept.foldlOpt {β : Type} {a s t : State} (g : Option State → β → Option State) (l : List β) (h : Kept a s)
    (k : ∀ u x v, Kept a u → g (some u) x = some v → Kept a v) (n : ∀ x, g none x = none)
    (e : l.foldl g (some s) = some t) : Kept a t := by
  have stuck (l : List β) : l.foldl g none = none := by
    induction l with
    | nil => rfl
    | cons x l ih => rw [List.foldl_cons, n, ih]
  induction l generalizing s with
  | nil => exact Option.some.inj e ▸ h
  | cons x l ih =>
    rw [List.foldl_cons] at e
    cases c : g (some s) x with
    | none =>
      rw [c, stuck] at e
      cases e
    | some u =>
      rw [c] at e
      exact ih (k s x u h c) e

/-- A loop that carries a state as the second part of its accumulator. -/
theorem Kept.foldl_snd {β γ : Type} {a : State} {s : γ × State} (g : γ × State → β → γ × State) (l : List β) (h : Kept a s.2)
    (k : ∀ t x, Kept a t.2 → Kept a (g t x).2) : Kept a (l.foldl g s).2 := by
  induction l generalizing s with
  | nil => exact h
  | cons x l ih => exact ih (k s x h)

theorem Kept.iter {a s : State} (g : State → State) (n : Nat) (h : Kept a s) (k : ∀ t, Kept a t → Kept a (g t)) :
    Kept a (iter g n s) := by
  induction n generalizing s with
  | zero => exact h
  | succ n ih => exact ih (k s h)

/-- A register written. -/
theorem State.setWord_kept {a : State} (s : State) (x : Nat) (w : Word) (h : Kept a s) : Kept a (s.setWord x w) :=
  ⟨h.pending, h.otp, h.free, fun r => smWf_smSet regReset _ _ _ (h.regs r), h.mem⟩

/-- A free value drawn. -/
theorem State.draw_kept {a : State} (s : State) (h : Kept a s) : Kept a s.draw :=
  ⟨h.pending, h.otp, Nat.le_succ_of_le h.free, h.regs, h.mem⟩

end Sys2Proof.Machine
end

