-- ==== Sys2Proof/Laws/KeepOps.lean ====
section
/-! SUPPORT. The operations of Machine/Ops.lean keep what `Kept` says. -/

namespace Sys2Proof.Machine

set_option maxRecDepth 20000

theorem State.wr_kept {a : State} (s : State) (u : UnitNo) (f : Fld) (v : Nat) (i : Nat) (j : Nat) (h : Kept a s) : Kept a (State.wr s u f v i j) := by
  unfold State.wr
  try lift_lets
  repeat' first
    | with_reducible assumption
    | with_reducible apply State.setWord_kept

theorem State.inc_kept {a : State} (s : State) (u : UnitNo) (f : Fld) (i : Nat) (j : Nat) (n : Nat) (h : Kept a s) : Kept a (State.inc s u f i j n) := by
  unfold State.inc
  try lift_lets
  repeat' first
    | with_reducible assumption
    | with_reducible apply State.wr_kept

theorem State.sat_kept {a : State} (s : State) (u : UnitNo) (f : Fld) (i : Nat) (j : Nat) (n : Nat) (h : Kept a s) : Kept a (State.sat s u f i j n) := by
  unfold State.sat
  try lift_lets
  repeat' first
    | with_reducible assumption
    | with_reducible apply State.wr_kept

theorem State.orBit_kept {a : State} (s : State) (u : UnitNo) (f : Fld) (b : Nat) (i : Nat) (j : Nat) (h : Kept a s) : Kept a (State.orBit s u f b i j) := by
  unfold State.orBit
  try lift_lets
  repeat' first
    | with_reducible assumption
    | with_reducible apply State.wr_kept

theorem State.clrBit_kept {a : State} (s : State) (u : UnitNo) (f : Fld) (b : Nat) (i : Nat) (j : Nat) (h : Kept a s) : Kept a (State.clrBit s u f b i j) := by
  unfold State.clrBit
  try lift_lets
  repeat' first
    | with_reducible assumption
    | with_reducible apply State.wr_kept

theorem State.stage_kept {a : State} (s : State) (u : UnitNo) (m : Nat) (x3 : Nat) (v : Word) (h : Kept a s) : Kept a (State.stage s u m x3 v) := by
  unfold State.stage
  try lift_lets
  repeat' with_reducible exact Kept.update (by with_reducible assumption) (by rfl) (by rfl) (by rfl) (by rfl)

theorem State.setHost_kept {a : State} (s : State) (x1 : HostState) (h : Kept a s) : Kept a (State.setHost s x1) := by
  unfold State.setHost
  try lift_lets
  repeat' with_reducible exact Kept.update (by with_reducible assumption) (by rfl) (by rfl) (by rfl) (by rfl)

theorem State.setDom_kept {a : State} (s : State) (n : Nat) (d : Domain) (h : Kept a s) : Kept a (State.setDom s n d) := by
  unfold State.setDom
  try lift_lets
  repeat' with_reducible exact Kept.update (by with_reducible assumption) (by rfl) (by rfl) (by rfl) (by rfl)

theorem State.fireInj_kept {a : State} (s : State) (u : UnitNo) (d : Nat) (x : Detail) (inj : Bool) (h : Kept a s) : Kept a (State.fireInj s u d x inj) := by
  unfold State.fireInj
  try lift_lets
  repeat' first
    | with_reducible assumption
    | with_reducible exact Kept.update (by with_reducible assumption) (by rfl) (by rfl) (by rfl) (by rfl)
    | with_reducible apply State.orBit_kept
    | (intro t; refine Kept.cut (a := a) (t := t) ?_ ?_ <;> first | (intro ht; clear_value t) | subst t)

theorem State.fire_kept {a : State} (s : State) (u : UnitNo) (d : Nat) (x : Detail) (h : Kept a s) : Kept a (State.fire s u d x) := by
  unfold State.fire
  try lift_lets
  repeat' first
    | with_reducible assumption
    | with_reducible apply State.fireInj_kept

theorem State.check_kept {a : State} (s : State) (u : UnitNo) (d : Nat) (cond : Bool) (x : Detail) (h : Kept a s) : Kept a (State.check s u d cond x) := by
  unfold State.check
  try lift_lets
  repeat' first
    | with_reducible assumption
    | with_reducible apply Kept.ite
    | with_reducible apply State.clrBit_kept
    | with_reducible apply State.fire_kept
    | with_reducible apply State.fireInj_kept

theorem State.codeCheck_kept {a : State} (s : State) (u : UnitNo) (d : Nat) (found : CodeResult) (h : Kept a s) : Kept a (State.codeCheck s u d found).2.2 := by
  unfold State.codeCheck
  try lift_lets
  repeat' first
    | with_reducible assumption
    | with_reducible apply Kept.ite_snd2
    | with_reducible apply State.clrBit_kept

theorem State.cipherCheck_kept {a : State} (s : State) (u : UnitNo) (d : Nat) (h : Kept a s) : Kept a (State.cipherCheck s u d).2 := by
  unfold State.cipherCheck
  try lift_lets
  repeat' first
    | with_reducible assumption
    | with_reducible apply Kept.ite_snd
    | with_reducible apply State.check_kept
    | with_reducible apply State.sat_kept

theorem State.codeFail_kept {a : State} (s : State) (u : UnitNo) (d : Nat) (x : Detail) (inj : Bool) (h : Kept a s) : Kept a (State.codeFail s u d x inj) := by
  unfold State.codeFail
  try lift_lets
  repeat' first
    | with_reducible assumption
    | with_reducible apply State.draw_kept
    | with_reducible apply State.fireInj_kept

theorem State.accessError_kept {a : State} (s : State) (m : Nat) (x2 : Nat) (access : Nat) (syndrome : Nat) (h : Kept a s) : Kept a (State.accessError s m x2 access syndrome) := by
  unfold State.accessError
  try lift_lets
  repeat' first
    | with_reducible assumption
    | with_reducible apply State.check_kept

theorem State.fenceCount_kept {a : State} (s : State) (m : Nat) (x2 : Nat) (h : Kept a s) : Kept a (State.fenceCount s m x2) := by
  unfold State.fenceCount
  try lift_lets
  repeat' first
    | with_reducible assumption
    | with_reducible apply Kept.ite
    | with_reducible apply State.sat_kept
    | with_reducible apply State.wr_kept
    | lift_lets
    | (with_reducible refine Kept.update ?_ (by rfl) (by rfl) (by rfl) (by rfl); with_reducible apply State.wr_kept)

theorem State.refuse_kept {a : State} (s : State) (m : Nat) (x2 : Nat) (h : Kept a s) : Kept a (State.refuse s m x2) := by
  unfold State.refuse
  try lift_lets
  repeat' first
    | with_reducible assumption
    | with_reducible apply State.accessError_kept
    | with_reducible apply State.fenceCount_kept

theorem State.lastErrOf_kept {a : State} (r s : State) (m transfer : Nat) (h : Kept a r) :
    Kept a (State.lastErrOf r s m transfer) := by
  unfold State.lastErrOf
  exact Kept.ite (h.update rfl rfl rfl rfl) h

theorem State.setKettle_kept {a : State} (s : State) (k : KettleState) (h : Kept a s) : Kept a (State.setKettle s k) := by
  unfold State.setKettle
  try lift_lets
  repeat' with_reducible exact Kept.update (by with_reducible assumption) (by rfl) (by rfl) (by rfl) (by rfl)

theorem State.cosyWrite_kept {a : State} (s : State) (m : Nat) (x2 : Nat) (ok : Bool) (run : State → State) (h : Kept a s) (k4 : ∀ (y0 : State), Kept a y0 → Kept a (run y0)) : Kept a (State.cosyWrite s m x2 ok run) := by
  unfold State.cosyWrite
  try lift_lets
  repeat' first
    | with_reducible assumption
    | with_reducible apply Kept.ite
    | apply k4
    | with_reducible apply State.refuse_kept

theorem State.signal_kept {a : State} (s : State) (f : Nat) (v : Nat) (h : Kept a s) : Kept a (State.signal s f v) := by
  unfold State.signal
  try lift_lets
  repeat' first
    | with_reducible assumption
    | with_reducible apply Kept.ite
    | with_reducible exact Kept.update (by with_reducible assumption) (by rfl) (by rfl) (by rfl) (by rfl)
    | with_reducible apply State.orBit_kept

theorem State.msixFlush_kept {a : State} (s : State) (f : Nat) (h : Kept a s) : Kept a (State.msixFlush s f) := by
  unfold State.msixFlush
  try lift_lets
  repeat' first
    | with_reducible assumption
    | with_reducible apply Kept.ite
    | with_reducible apply Kept.foldl
    | with_reducible apply State.clrBit_kept
    | with_reducible apply State.signal_kept
    | (intro t x (ht : Kept a t))

theorem State.withIrq_kept {a : State} (s : State) (run : State → State) (h : Kept a s) (k1 : ∀ (y0 : State), Kept a y0 → Kept a (run y0)) : Kept a (State.withIrq s run) := by
  unfold State.withIrq
  try lift_lets
  repeat' first
    | with_reducible assumption
    | with_reducible apply Kept.ite
    | with_reducible apply Kept.foldl
    | apply k1
    | with_reducible apply State.signal_kept
    | (intro t x (ht : Kept a t))

theorem State.event_kept {a : State} (s : State) (u : UnitNo) (h : Kept a s) : Kept a (State.event s u) := by
  unfold State.event
  try lift_lets
  repeat' first
    | with_reducible assumption
    | with_reducible apply State.withIrq_kept
    | with_reducible apply State.wr_kept
    | (intro t (ht : Kept a t))

theorem State.setTickJob_kept {a : State} (s : State) (u : UnitNo) (j : TickJob) (h : Kept a s) : Kept a (State.setTickJob s u j) := by
  unfold State.setTickJob
  try lift_lets
  repeat' with_reducible exact Kept.update (by with_reducible assumption) (by rfl) (by rfl) (by rfl) (by rfl)

theorem State.jobDone_kept {a : State} (s : State) (u : UnitNo) (h : Kept a s) : Kept a (State.jobDone s u) := by
  unfold State.jobDone
  try lift_lets
  repeat' first
    | with_reducible assumption
    | with_reducible apply State.wr_kept

theorem State.clearUpset_kept {a : State} (s : State) (mem : Nat) (idx : Nat) (h : Kept a s) : Kept a (State.clearUpset s mem idx) := by
  unfold State.clearUpset
  try lift_lets
  repeat' with_reducible exact Kept.update (by with_reducible assumption) (by rfl) (by rfl) (by rfl) (by rfl)

theorem State.setPipe_kept {a : State} (s : State) (w : Bool) (p : PipeState) (h : Kept a s) : Kept a (State.setPipe s w p) := by
  unfold State.setPipe
  try lift_lets
  repeat' first
    | with_reducible apply Kept.ite
    | with_reducible exact Kept.update (by with_reducible assumption) (by rfl) (by rfl) (by rfl) (by rfl)

theorem State.setStrain_kept {a : State} (s : State) (w : Bool) (p : StrainState) (h : Kept a s) : Kept a (State.setStrain s w p) := by
  unfold State.setStrain
  try lift_lets
  repeat' first
    | with_reducible apply Kept.ite
    | with_reducible exact Kept.update (by with_reducible assumption) (by rfl) (by rfl) (by rfl) (by rfl)

end Sys2Proof.Machine
end

