-- ==== Sys2Proof/Laws/KeepFdb.lean ====
section
/-! SUPPORT. The operations of Machine/Fdb.lean keep what `Kept` says. -/

namespace Sys2Proof.Machine

set_option maxRecDepth 20000

theorem State.putFdb_kept {a : State} (s : State) (w : Bool) (slot : Nat) (x3 : FdbEntry) (h : Kept a s) : Kept a (State.putFdb s w slot x3) := by
  unfold State.putFdb
  try lift_lets
  repeat' first
    | with_reducible assumption
    | with_reducible apply Kept.ite
    | with_reducible apply State.clearUpset_kept
    | with_reducible apply State.setPipe_kept
    | with_reducible apply State.wr_kept

theorem State.fdbFail_kept {a : State} (s : State) (w : Bool) (slot : Nat) (inj : Bool) (h : Kept a s) : Kept a (State.fdbFail s w slot inj) := by
  unfold State.fdbFail
  try lift_lets
  repeat' first
    | with_reducible assumption
    | with_reducible apply State.clearUpset_kept
    | with_reducible apply State.codeFail_kept
    | with_reducible apply State.putFdb_kept

theorem State.fdbCheck_kept {a : State} (s : State) (w : Bool) (slots : List Nat) (h : Kept a s) : Kept a (State.fdbCheck s w slots) := by
  unfold State.fdbCheck
  try lift_lets
  repeat' first
    | with_reducible assumption
    | with_reducible apply Kept.ite
    | with_reducible apply Kept.foldl
    | with_reducible apply State.clearUpset_kept
    | with_reducible apply State.fdbFail_kept
    | with_reducible apply State.sat_kept
    | (intro t x (ht : Kept a t))
    | lift_lets
    | split

theorem State.fdbLookup_kept {a : State} (s : State) (w : Bool) (key : Nat) (h : Kept a s) : Kept a (State.fdbLookup s w key).2 := by
  unfold State.fdbLookup
  try lift_lets
  repeat' first
    | with_reducible assumption
    | with_reducible apply State.fdbCheck_kept

theorem State.headLookup_kept {a : State} (s : State) (w : Bool) (key : Nat) (h : Kept a s) : Kept a (State.headLookup s w key).2 := by
  unfold State.headLookup
  try lift_lets
  repeat' first
    | with_reducible assumption
    | with_reducible apply Kept.ite
    | with_reducible apply State.codeCheck_kept
    | with_reducible apply State.fdbFail_kept
    | with_reducible apply State.fdbLookup_kept
    | with_reducible apply State.sat_kept
    | lift_lets
    | split

theorem State.setPtr_kept {a : State} (s : State) (w : Bool) (ptr : Nat) (h : Kept a s) : Kept a (State.setPtr s w ptr) := by
  unfold State.setPtr
  try lift_lets
  repeat' first
    | with_reducible assumption
    | with_reducible apply State.setPipe_kept

theorem State.readSlots_kept {a : State} (s : State) (w : Bool) (slots : List Nat) (h : Kept a s) : Kept a (State.readSlots s w slots).2 := by
  unfold State.readSlots
  try lift_lets
  repeat' first
    | with_reducible assumption
    | with_reducible apply State.fdbCheck_kept

theorem State.findPath_kept {a : State} (w : Bool) (x1 : Nat) (x2 : List Nat) (x3 : Nat) (x4 : Bool) (x5 : State) (h : Kept a x5) : Kept a (State.findPath w x1 x2 x3 x4 x5).2.2 := by
  induction x1 generalizing x2 x3 x4 x5 with
  | zero => exact h
  | succ n ih =>
    unfold State.findPath
    try lift_lets
    repeat' first
      | with_reducible assumption
      | with_reducible apply Kept.ite_snd2
      | apply ih
      | with_reducible apply State.readSlots_kept
      | with_reducible apply State.setPtr_kept
      | lift_lets
      | split
      | dsimp only

theorem State.movePath_kept {a : State} (s : State) (w : Bool) (x2 : List Nat) (x3 : Nat) (h : Kept a s) : Kept a (State.movePath s w x2 x3).2 := by
  induction x2 generalizing s x3 with
  | nil => exact h
  | cons src t ih =>
    unfold State.movePath
    apply ih
    apply State.putFdb_kept
    apply State.putFdb_kept
    exact h

theorem State.placeFor_kept {a : State} (s : State) (w : Bool) (key : Nat) (h : Kept a s) : Kept a (State.placeFor s w key).2.2 := by
  unfold State.placeFor
  try lift_lets
  repeat' first
    | with_reducible assumption
    | with_reducible apply State.findPath_kept
    | with_reducible apply State.movePath_kept
    | with_reducible apply State.readSlots_kept
    | (intro t; clear_value t)
    | lift_lets
    | (split <;> first | (rename_i t heq; refine (fun (ht : Kept a t) => ?_) (Kept.ofEq heq ?_)) | (rename_i t heq; refine (fun (ht : Kept a t) => ?_) (Kept.ofEq3 heq ?_)) | skip)

theorem State.insertEntry_kept {a : State} (s : State) (w : Bool) (key : Nat) (res : Nat) (h : Kept a s) : Kept a (State.insertEntry s w key res).2.2 := by
  unfold State.insertEntry
  try lift_lets
  repeat' first
    | with_reducible assumption
    | with_reducible apply State.placeFor_kept
    | with_reducible apply State.putFdb_kept
    | lift_lets
    | (split <;> first | (rename_i t heq; refine (fun (ht : Kept a t) => ?_) (Kept.ofEq3 heq ?_)) | (rename_i t _ heq; refine (fun (ht : Kept a t) => ?_) (Kept.ofEq3 heq ?_)))

theorem State.stashMove_kept {a : State} (s : State) (w : Bool) (slot : Nat) (h : Kept a s) : Kept a (State.stashMove s w slot) := by
  unfold State.stashMove
  try lift_lets
  repeat' first
    | with_reducible assumption
    | with_reducible apply Kept.ite
    | with_reducible apply State.putFdb_kept
    | lift_lets
    | split

theorem State.removeAt_kept {a : State} (s : State) (w : Bool) (slot : Nat) (h : Kept a s) : Kept a (State.removeAt s w slot) := by
  unfold State.removeAt
  try lift_lets
  repeat' first
    | with_reducible assumption
    | with_reducible apply State.putFdb_kept
    | with_reducible apply State.stashMove_kept

theorem State.pushEvent_kept {a : State} (s : State) (w : Bool) (x2 : SourceEvent) (h : Kept a s) : Kept a (State.pushEvent s w x2) := by
  unfold State.pushEvent
  try lift_lets
  repeat' first
    | with_reducible assumption
    | with_reducible apply Kept.ite
    | with_reducible apply State.sat_kept
    | with_reducible apply State.setPipe_kept

theorem State.sourceEvent_kept {a : State} (s : State) (x1 : SourceEvent) (h : Kept a s) : Kept a (State.sourceEvent s x1) := by
  unfold State.sourceEvent
  try lift_lets
  repeat' first
    | with_reducible assumption
    | with_reducible apply State.pushEvent_kept

theorem State.learnRequest_kept {a : State} (s : State) (w : Bool) (x2 : SourceEvent) (h : Kept a s) : Kept a (State.learnRequest s w x2) := by
  unfold State.learnRequest
  try lift_lets
  repeat' first
    | with_reducible assumption
    | with_reducible apply Kept.ite
    | with_reducible apply State.sat_kept
    | with_reducible apply State.setPipe_kept

theorem sourceEventStep_kept {a : State} (w : Bool) (s : State) (h : Kept a s) : Kept a (sourceEventStep w s) := by
  unfold sourceEventStep
  try lift_lets
  repeat' first
    | with_reducible assumption
    | with_reducible apply Kept.ite
    | with_reducible apply State.fdbLookup_kept
    | with_reducible apply State.learnRequest_kept
    | with_reducible apply State.sat_kept
    | with_reducible apply State.setPipe_kept
    | (intro t; clear_value t)
    | split
    | dsimp only

theorem hitUpdateStep_kept {a : State} (w : Bool) (s : State) (h : Kept a s) : Kept a (hitUpdateStep w s) := by
  unfold hitUpdateStep
  try lift_lets
  repeat' first
    | with_reducible assumption
    | with_reducible apply Kept.ite
    | with_reducible apply Kept.foldl
    | with_reducible apply State.putFdb_kept
    | with_reducible apply State.setPipe_kept
    | (intro t x (ht : Kept a t))
    | (intro t; clear_value t)
    | split

theorem learnInsertStep_kept {a : State} (w : Bool) (s : State) (h : Kept a s) : Kept a (learnInsertStep w s) := by
  unfold learnInsertStep
  try lift_lets
  repeat' first
    | with_reducible assumption
    | with_reducible apply Kept.ite
    | with_reducible apply State.fdbCheck_kept
    | with_reducible apply State.inc_kept
    | with_reducible apply State.insertEntry_kept
    | with_reducible apply State.putFdb_kept
    | with_reducible apply State.sat_kept
    | with_reducible apply State.setPipe_kept
    | (intro t; clear_value t)
    | split
    | dsimp only

theorem State.ageEntry_kept {a : State} (s : State) (w : Bool) (slot : Nat) (h : Kept a s) : Kept a (State.ageEntry s w slot) := by
  unfold State.ageEntry
  try lift_lets
  repeat' first
    | with_reducible assumption
    | with_reducible apply Kept.ite
    | with_reducible apply State.inc_kept
    | with_reducible apply State.putFdb_kept
    | with_reducible apply State.removeAt_kept

theorem State.ageSome_kept {a : State} (s : State) (w : Bool) (left : Nat) (k : Nat) (h : Kept a s) : Kept a (State.ageSome s w left k) := by
  unfold State.ageSome
  try lift_lets
  repeat' first
    | with_reducible assumption
    | with_reducible apply Kept.ite
    | with_reducible apply Kept.foldl
    | with_reducible apply State.ageEntry_kept
    | with_reducible apply State.wr_kept
    | (intro t x (ht : Kept a t))

theorem State.sweepTick_kept {a : State} (s : State) (w : Bool) (h : Kept a s) : Kept a (State.sweepTick s w) := by
  unfold State.sweepTick
  try lift_lets
  repeat' first
    | with_reducible assumption
    | with_reducible apply Kept.ite
    | with_reducible apply State.setPipe_kept
    | with_reducible apply State.setTickJob_kept
    | with_reducible apply State.wr_kept

theorem State.reportWord_kept {a : State} (s : State) (w : Bool) (mem : Nat) (idx : Nat) (h : Kept a s) : Kept a (State.reportWord s w mem idx) := by
  unfold State.reportWord
  try lift_lets
  repeat' first
    | with_reducible assumption
    | with_reducible apply State.codeFail_kept

theorem State.sideRead_kept {a : State} (s : State) (w : Bool) (mem : Nat) (idx : Nat) (h : Kept a s) : Kept a (State.sideRead s w mem idx).2 := by
  unfold State.sideRead
  try lift_lets
  repeat' first
    | with_reducible assumption
    | with_reducible apply Kept.ite
    | with_reducible apply State.clearUpset_kept
    | with_reducible apply State.reportWord_kept
    | with_reducible apply State.sat_kept
    | split

theorem State.shadowCheck_kept {a : State} (s : State) (w : Bool) (i : Nat) (h : Kept a s) : Kept a (State.shadowCheck s w i) := by
  unfold State.shadowCheck
  try lift_lets
  repeat' first
    | with_reducible assumption
    | with_reducible apply Kept.ite
    | with_reducible apply State.check_kept
    | with_reducible apply State.fdbCheck_kept
    | with_reducible apply State.insertEntry_kept
    | with_reducible apply State.sat_kept
    | with_reducible apply State.sideRead_kept
    | with_reducible apply State.wr_kept

theorem State.shadowSome_kept {a : State} (s : State) (w : Bool) (k : Nat) (h : Kept a s) : Kept a (State.shadowSome s w k) := by
  unfold State.shadowSome
  try lift_lets
  repeat' first
    | with_reducible assumption
    | with_reducible apply Kept.foldl
    | with_reducible apply State.setPipe_kept
    | with_reducible apply State.shadowCheck_kept
    | (intro t x (ht : Kept a t))

theorem State.learnTick_kept {a : State} (s : State) (w : Bool) (h : Kept a s) : Kept a (State.learnTick s w) := by
  unfold State.learnTick
  try lift_lets
  repeat' first
    | with_reducible assumption
    | with_reducible apply Kept.ite
    | with_reducible apply State.setPipe_kept
    | with_reducible apply State.wr_kept

theorem State.putRes_kept {a : State} (s : State) (w : Bool) (r : Nat) (h : Kept a s) : Kept a (State.putRes s w r) := by
  unfold State.putRes
  try lift_lets
  repeat' first
    | with_reducible assumption
    | with_reducible apply State.wr_kept

theorem State.putKeyRes_kept {a : State} (s : State) (w : Bool) (x2 : FdbEntry) (h : Kept a s) : Kept a (State.putKeyRes s w x2) := by
  unfold State.putKeyRes
  try lift_lets
  repeat' first
    | with_reducible assumption
    | with_reducible apply State.putRes_kept
    | with_reducible apply State.wr_kept

theorem State.fdbStatus_kept {a : State} (s : State) (w : Bool) (st : Nat) (h : Kept a s) : Kept a (State.fdbStatus s w st) := by
  unfold State.fdbStatus
  try lift_lets
  repeat' first
    | with_reducible assumption
    | with_reducible apply State.setPipe_kept

theorem State.fdbStart_kept {a : State} (s : State) (w : Bool) (master : Nat) (run : State → State) (h : Kept a s) (k3 : ∀ (y0 : State), Kept a y0 → Kept a (run y0)) : Kept a (State.fdbStart s w master run) := by
  unfold State.fdbStart
  try lift_lets
  repeat' first
    | with_reducible assumption
    | with_reducible apply Kept.ite
    | apply k3
    | with_reducible apply State.refuse_kept
    | with_reducible apply State.wr_kept

theorem fdbNopRun_kept {a : State} (w : Bool) (s : State) (h : Kept a s) : Kept a (fdbNopRun w s) := by
  unfold fdbNopRun
  try lift_lets
  repeat' first
    | with_reducible assumption
    | with_reducible apply State.fdbStatus_kept

theorem State.cmdRead_kept {a : State} (s : State) (w : Bool) (key : Nat) (h : Kept a s) : Kept a (State.cmdRead s w key).2 := by
  unfold State.cmdRead
  try lift_lets
  repeat' first
    | with_reducible assumption
    | with_reducible apply State.readSlots_kept

theorem fdbInsertRun_kept {a : State} (w : Bool) (s : State) (h : Kept a s) : Kept a (fdbInsertRun w s) := by
  unfold fdbInsertRun
  try lift_lets
  repeat' first
    | with_reducible assumption
    | with_reducible apply Kept.ite
    | with_reducible apply State.fdbStatus_kept
    | with_reducible apply State.insertEntry_kept
    | with_reducible apply State.wr_kept
    | lift_lets
    | (split <;> first | (rename_i t heq; refine (fun (ht : Kept a t) => ?_) (Kept.ofEq3 heq ?_)) | (rename_i t _ heq; refine (fun (ht : Kept a t) => ?_) (Kept.ofEq3 heq ?_)))

theorem fdbDeleteRun_kept {a : State} (w : Bool) (s : State) (h : Kept a s) : Kept a (fdbDeleteRun w s) := by
  unfold fdbDeleteRun
  try lift_lets
  repeat' first
    | with_reducible assumption
    | with_reducible apply State.cmdRead_kept
    | with_reducible apply State.fdbStatus_kept
    | with_reducible apply State.removeAt_kept
    | (intro t; clear_value t)
    | lift_lets
    | (split <;> first | (rename_i t heq; refine (fun (ht : Kept a t) => ?_) (Kept.ofEq heq ?_)) | skip)

theorem fdbLookupRun_kept {a : State} (w : Bool) (s : State) (h : Kept a s) : Kept a (fdbLookupRun w s) := by
  unfold fdbLookupRun
  try lift_lets
  repeat' first
    | with_reducible assumption
    | with_reducible apply Kept.ite
    | with_reducible apply State.cmdRead_kept
    | with_reducible apply State.fdbStatus_kept
    | with_reducible apply State.putRes_kept
    | with_reducible apply State.wr_kept
    | (intro t; clear_value t)
    | lift_lets
    | (split <;> first | (rename_i t heq; refine (fun (ht : Kept a t) => ?_) (Kept.ofEq heq ?_)) | skip)

theorem fdbReadSlotRun_kept {a : State} (w : Bool) (idx : Nat) (s : State) (h : Kept a s) : Kept a (fdbReadSlotRun w idx s) := by
  unfold fdbReadSlotRun
  try lift_lets
  repeat' first
    | with_reducible assumption
    | with_reducible apply Kept.ite
    | with_reducible apply State.fdbCheck_kept
    | with_reducible apply State.fdbStatus_kept
    | with_reducible apply State.putKeyRes_kept

theorem fdbFlushRun_kept {a : State} (w : Bool) (s : State) (h : Kept a s) : Kept a (fdbFlushRun w s) := by
  unfold fdbFlushRun
  try lift_lets
  repeat' first
    | with_reducible assumption
    | with_reducible apply Kept.ite
    | with_reducible apply Kept.foldl
    | with_reducible apply State.fdbCheck_kept
    | with_reducible apply State.fdbStatus_kept
    | with_reducible apply State.putFdb_kept
    | with_reducible apply State.stashMove_kept
    | (intro t x (ht : Kept a t))

theorem State.putShadow_kept {a : State} (s : State) (w : Bool) (i : Nat) (x3 : FdbEntry) (h : Kept a s) : Kept a (State.putShadow s w i x3) := by
  unfold State.putShadow
  try lift_lets
  repeat' first
    | with_reducible assumption
    | with_reducible apply Kept.ite
    | with_reducible apply State.clearUpset_kept
    | with_reducible apply State.setPipe_kept

theorem fdbShadowWriteRun_kept {a : State} (w : Bool) (idx : Nat) (s : State) (h : Kept a s) : Kept a (fdbShadowWriteRun w idx s) := by
  unfold fdbShadowWriteRun
  try lift_lets
  repeat' first
    | with_reducible assumption
    | with_reducible apply Kept.ite
    | with_reducible apply State.fdbStatus_kept
    | with_reducible apply State.putShadow_kept

theorem fdbShadowReadRun_kept {a : State} (w : Bool) (idx : Nat) (s : State) (h : Kept a s) : Kept a (fdbShadowReadRun w idx s) := by
  unfold fdbShadowReadRun
  try lift_lets
  repeat' first
    | with_reducible assumption
    | with_reducible apply Kept.ite
    | with_reducible apply State.fdbStatus_kept
    | with_reducible apply State.putKeyRes_kept
    | with_reducible apply State.sideRead_kept

theorem fdbVlanWriteRun_kept {a : State} (w : Bool) (idx : Nat) (s : State) (h : Kept a s) : Kept a (fdbVlanWriteRun w idx s) := by
  unfold fdbVlanWriteRun
  try lift_lets
  repeat' first
    | with_reducible assumption
    | with_reducible apply Kept.ite
    | with_reducible apply State.clearUpset_kept
    | with_reducible apply State.fdbStatus_kept
    | with_reducible apply State.setPipe_kept

theorem fdbVlanReadRun_kept {a : State} (w : Bool) (idx : Nat) (s : State) (h : Kept a s) : Kept a (fdbVlanReadRun w idx s) := by
  unfold fdbVlanReadRun
  try lift_lets
  repeat' first
    | with_reducible assumption
    | with_reducible apply Kept.ite
    | with_reducible apply State.fdbStatus_kept
    | with_reducible apply State.putRes_kept
    | with_reducible apply State.sideRead_kept

theorem fdbInsertShadowedRun_kept {a : State} (w : Bool) (idx : Nat) (s : State) (h : Kept a s) : Kept a (fdbInsertShadowedRun w idx s) := by
  unfold fdbInsertShadowedRun
  try lift_lets
  repeat' first
    | with_reducible assumption
    | with_reducible apply Kept.ite
    | with_reducible apply State.fdbStatus_kept
    | with_reducible apply State.insertEntry_kept
    | with_reducible apply State.putShadow_kept
    | with_reducible apply State.wr_kept
    | lift_lets
    | (split <;> first | (rename_i t heq; refine (fun (ht : Kept a t) => ?_) (Kept.ofEq3 heq ?_)) | (rename_i t _ heq; refine (fun (ht : Kept a t) => ?_) (Kept.ofEq3 heq ?_)))

theorem fdbDeleteShadowedRun_kept {a : State} (w : Bool) (idx : Nat) (s : State) (h : Kept a s) : Kept a (fdbDeleteShadowedRun w idx s) := by
  unfold fdbDeleteShadowedRun
  try lift_lets
  repeat' first
    | with_reducible assumption
    | with_reducible apply Kept.ite
    | with_reducible apply State.cmdRead_kept
    | with_reducible apply State.fdbStatus_kept
    | with_reducible apply State.putShadow_kept
    | with_reducible apply State.removeAt_kept
    | (intro t; refine Kept.cut (a := a) (t := t) ?_ ?_ <;> first | (intro ht; clear_value t) | subst t)
    | (intro t; clear_value t)
    | lift_lets
    | (split <;> first | (rename_i t heq; refine (fun (ht : Kept a t) => ?_) (Kept.ofEq heq ?_)) | skip)

theorem fdbInvalidRun_kept {a : State} (w : Bool) (s : State) (h : Kept a s) : Kept a (fdbInvalidRun w s) := by
  unfold fdbInvalidRun
  try lift_lets
  repeat' first
    | with_reducible assumption
    | with_reducible apply State.fdbStatus_kept

theorem fdbCompleteStep_kept {a : State} (w : Bool) (s : State) (h : Kept a s) : Kept a (fdbCompleteStep w s) := by
  unfold fdbCompleteStep
  try lift_lets
  repeat' first
    | with_reducible assumption
    | with_reducible apply Kept.ite
    | with_reducible apply State.wr_kept

end Sys2Proof.Machine
end

