-- ==== Sys2Proof/Laws/KeepStrainer.lean ====
section
/-! SUPPORT. The operations of Machine/Strainer.lean keep what `Kept` says. -/

namespace Sys2Proof.Machine

set_option maxRecDepth 20000

theorem State.setBank_kept {a : State} (s : State) (w : Bool) (g : Nat) (b : Bank) (h : Kept a s) : Kept a (State.setBank s w g b) := by
  unfold State.setBank
  try lift_lets
  repeat' first
    | with_reducible assumption
    | with_reducible apply State.setStrain_kept

theorem State.inflightUp_kept {a : State} (s : State) (g : Nat) (h : Kept a s) : Kept a (State.inflightUp s g) := by
  unfold State.inflightUp
  try lift_lets
  repeat' first
    | with_reducible assumption
    | with_reducible apply State.inc_kept

theorem State.inflightDown_kept {a : State} (s : State) (g : Nat) (h : Kept a s) : Kept a (State.inflightDown s g) := by
  unfold State.inflightDown
  try lift_lets
  repeat' first
    | with_reducible assumption
    | with_reducible apply State.wr_kept

theorem State.rowParity_kept {a : State} (s : State) (w : Bool) (g : Nat) (row : Nat) (inj : Bool) (h : Kept a s) : Kept a (State.rowParity s w g row inj) := by
  unfold State.rowParity
  try lift_lets
  repeat' first
    | with_reducible assumption
    | with_reducible apply State.clearUpset_kept
    | with_reducible apply State.codeFail_kept

theorem State.setMeter_kept {a : State} (s : State) (w : Bool) (n : Nat) (m : Meter) (h : Kept a s) : Kept a (State.setMeter s w n m) := by
  unfold State.setMeter
  try lift_lets
  repeat' first
    | with_reducible assumption
    | with_reducible apply State.setStrain_kept

theorem State.meterRefill_kept {a : State} (s : State) (w : Bool) (n : Nat) (h : Kept a s) : Kept a (State.meterRefill s w n) := by
  unfold State.meterRefill
  try lift_lets
  repeat' first
    | with_reducible assumption
    | with_reducible apply State.setMeter_kept

theorem State.meterRefillAll_kept {a : State} (s : State) (w : Bool) (h : Kept a s) : Kept a (State.meterRefillAll s w) := by
  unfold State.meterRefillAll
  try lift_lets
  repeat' first
    | with_reducible assumption
    | with_reducible apply Kept.foldl
    | with_reducible apply State.meterRefill_kept
    | (intro t x (ht : Kept a t))

theorem State.applyMeter_kept {a : State} (s : State) (w : Bool) (n : Nat) (c : Nat) (honour : Bool) (h : Kept a s) : Kept a (State.applyMeter s w n c honour).2.2 := by
  unfold State.applyMeter
  try lift_lets
  repeat' first
    | with_reducible assumption
    | with_reducible apply Kept.ite
    | with_reducible apply State.sat_kept
    | with_reducible apply State.setMeter_kept

theorem State.setGate_kept {a : State} (s : State) (w : Bool) (g : Nat) (x : StreamGate) (h : Kept a s) : Kept a (State.setGate s w g x) := by
  unfold State.setGate
  try lift_lets
  repeat' first
    | with_reducible assumption
    | with_reducible apply State.setStrain_kept

theorem State.streamFilter_kept {a : State} (s : State) (w : Bool) (x2 : Nat) (tc : Nat) (colour : Nat) (len : Nat) (lenKnown : Bool) (h : Kept a s) : Kept a (State.streamFilter s w x2 tc colour len lenKnown).2 := by
  unfold State.streamFilter
  try lift_lets
  repeat' first
    | with_reducible assumption
    | with_reducible apply Kept.ite
    | with_reducible apply Kept.ite_snd
    | with_reducible apply State.applyMeter_kept
    | with_reducible apply State.inc_kept
    | with_reducible apply State.sat_kept
    | with_reducible apply State.wr_kept

theorem State.search_kept {a : State} (s : State) (w : Bool) (g : Nat) (key : Nat) (h : Kept a s) : Kept a (State.search s w g key).2 := by
  unfold State.search
  try lift_lets
  repeat' first
    | with_reducible assumption
    | with_reducible apply Kept.ite
    | with_reducible apply Kept.ite_snd
    | with_reducible apply State.codeCheck_kept
    | with_reducible apply State.rowParity_kept
    | with_reducible apply State.sat_kept
    | with_reducible apply State.setBank_kept
    | (intro t; clear_value t)
    | split

theorem State.ruleVerdict_kept {a : State} (s : State) (w : Bool) (g : Nat) (srcZone : Nat) (dests : List (Nat × Nat)) (pass2 : Bool) (act : Option Nat) (h : Kept a s) : Kept a (State.ruleVerdict s w g srcZone dests pass2 act).2 := by
  unfold State.ruleVerdict
  try lift_lets
  repeat' first
    | with_reducible assumption
    | with_reducible apply Kept.ite
    | with_reducible apply Kept.ite_snd
    | with_reducible apply State.inc_kept
    | with_reducible apply State.sat_kept

theorem State.finishVerdict_kept {a : State} (s : State) (w : Bool) (x2 : Nat) (m : FrameMeta) (c : KeyCtx) (mirror : Option (Nat × Nat)) (out : RuleOut) (h : Kept a s) : Kept a (State.finishVerdict s w x2 m c mirror out).2 := by
  unfold State.finishVerdict
  try lift_lets
  repeat' first
    | with_reducible assumption
    | with_reducible apply Kept.ite_snd
    | with_reducible apply Kept.ite_snd2
    | with_reducible apply State.applyMeter_kept
    | with_reducible apply State.streamFilter_kept
    | (intro t; refine Kept.cut (a := a) (t := t.2.2) ?_ ?_ <;> first | (intro ht; clear_value t) | subst t)
    | (intro t; clear_value t)
    | split

theorem State.judgeHead_kept {a : State} (s : State) (w : Bool) (g : Nat) (p : Parsed) (m : FrameMeta) (c : KeyCtx) (es : List Nat) (h : Kept a s) : Kept a (State.judgeHead s w g p m c es).2 := by
  unfold State.judgeHead
  try lift_lets
  repeat' first
    | with_reducible assumption
    | with_reducible apply Kept.ite
    | with_reducible apply State.finishVerdict_kept
    | with_reducible apply State.inc_kept
    | with_reducible apply State.ruleVerdict_kept
    | with_reducible apply State.search_kept
    | (intro t; refine Kept.cut (a := a) (t := t) ?_ ?_ <;> first | (intro ht; clear_value t) | subst t)
    | (intro t; clear_value t)
    | lift_lets
    | (split <;> first | (rename_i t heq; refine (fun (ht : Kept a t) => ?_) (Kept.ofEq heq ?_)) | skip)

theorem State.judgeCan_kept {a : State} (s : State) (k : CanKey) (h : Kept a s) : Kept a (State.judgeCan s k).2 := by
  unfold State.judgeCan
  try lift_lets
  repeat' first
    | with_reducible assumption
    | with_reducible apply Kept.ite_snd2
    | with_reducible apply State.applyMeter_kept
    | with_reducible apply State.inc_kept
    | with_reducible apply State.ruleVerdict_kept
    | with_reducible apply State.search_kept
    | (intro t; refine Kept.cut (a := a) (t := t) ?_ ?_ <;> first | (intro ht; clear_value t) | subst t)
    | (intro t; refine Kept.cut (a := a) (t := t.2.2) ?_ ?_ <;> first | (intro ht; clear_value t) | subst t)
    | (intro t; clear_value t)
    | lift_lets
    | (split <;> first | (rename_i t heq; refine (fun (ht : Kept a t) => ?_) (Kept.ofEq heq ?_)) | skip)

theorem State.admitHead_kept {a : State} (s : State) (port : Nat) (h : Kept a s) : Kept a (State.admitHead s port).2 := by
  unfold State.admitHead
  try lift_lets
  repeat' first
    | with_reducible assumption
    | with_reducible apply Kept.ite_snd
    | with_reducible apply State.sat_kept
    | with_reducible apply State.setStrain_kept

theorem State.admitTick_kept {a : State} (s : State) (w : Bool) (h : Kept a s) : Kept a (State.admitTick s w) := by
  unfold State.admitTick
  try lift_lets
  repeat' first
    | with_reducible assumption
    | with_reducible apply State.check_kept
    | with_reducible apply State.setStrain_kept
    | with_reducible apply State.wr_kept

theorem State.gateBegin_kept {a : State} (s : State) (w : Bool) (g : Nat) (at0 : Int) (h : Kept a s) : Kept a (State.gateBegin s w g at0) := by
  unfold State.gateBegin
  try lift_lets
  repeat' first
    | with_reducible assumption
    | with_reducible apply State.setGate_kept

theorem State.gateEnable_kept {a : State} (s : State) (w : Bool) (g : Nat) (h : Kept a s) : Kept a (State.gateEnable s w g) := by
  unfold State.gateEnable
  try lift_lets
  repeat' first
    | with_reducible assumption
    | with_reducible apply State.setGate_kept

theorem streamGateCycleStartStep_kept {a : State} (w : Bool) (g : Nat) (s : State) (h : Kept a s) : Kept a (streamGateCycleStartStep w g s) := by
  unfold streamGateCycleStartStep
  try lift_lets
  repeat' first
    | with_reducible assumption
    | with_reducible apply Kept.ite
    | with_reducible apply State.gateBegin_kept

theorem streamGateEntryExpiryStep_kept {a : State} (w : Bool) (g : Nat) (s : State) (h : Kept a s) : Kept a (streamGateEntryExpiryStep w g s) := by
  unfold streamGateEntryExpiryStep
  try lift_lets
  repeat' first
    | with_reducible assumption
    | with_reducible apply Kept.ite
    | with_reducible apply State.setGate_kept

theorem State.putRuleOperand_kept {a : State} (s : State) (w : Bool) (f : Fld) (v : Nat) (h : Kept a s) : Kept a (State.putRuleOperand s w f v) := by
  unfold State.putRuleOperand
  try lift_lets
  repeat' first
    | with_reducible assumption
    | with_reducible apply Kept.foldl
    | with_reducible apply State.wr_kept
    | (intro t x (ht : Kept a t))

theorem State.ruleStatus_kept {a : State} (s : State) (w : Bool) (st : Nat) (h : Kept a s) : Kept a (State.ruleStatus s w st) := by
  unfold State.ruleStatus
  try lift_lets
  repeat' first
    | with_reducible assumption
    | with_reducible apply State.setStrain_kept

theorem State.ruleStart_kept {a : State} (s : State) (w : Bool) (master : Nat) (run : State → State) (h : Kept a s) (k3 : ∀ (y0 : State), Kept a y0 → Kept a (run y0)) : Kept a (State.ruleStart s w master run) := by
  unfold State.ruleStart
  try lift_lets
  repeat' first
    | with_reducible assumption
    | with_reducible apply Kept.ite
    | apply k3
    | with_reducible apply State.refuse_kept
    | with_reducible apply State.wr_kept

theorem State.ruleDraining_kept {a : State} (s : State) (w : Bool) (master : Nat) (run : State → State) (h : Kept a s) (k3 : ∀ (y0 : State), Kept a y0 → Kept a (run y0)) : Kept a (State.ruleDraining s w master run) := by
  unfold State.ruleDraining
  try lift_lets
  repeat' first
    | with_reducible assumption
    | with_reducible apply Kept.ite
    | apply k3
    | with_reducible apply State.refuse_kept
    | with_reducible apply State.ruleStatus_kept
    | with_reducible apply State.sat_kept

theorem State.ruleWrite_kept {a : State} (s : State) (w : Bool) (master : Nat) (bankSel : Bool) (run : Nat → State → State) (h : Kept a s) (k4 : ∀ (y0 : Nat) (y1 : State), Kept a y1 → Kept a (run y0 y1)) : Kept a (State.ruleWrite s w master bankSel run) := by
  unfold State.ruleWrite
  try lift_lets
  repeat' first
    | with_reducible assumption
    | apply k4
    | with_reducible apply State.ruleDraining_kept
    | (intro t (ht : Kept a t))

theorem State.putRow_kept {a : State} (s : State) (w : Bool) (g : Nat) (row : Nat) (r : RuleRow) (h : Kept a s) : Kept a (State.putRow s w g row r) := by
  unfold State.putRow
  try lift_lets
  repeat' first
    | with_reducible assumption
    | with_reducible apply Kept.ite
    | with_reducible apply State.clearUpset_kept
    | with_reducible apply State.setBank_kept

theorem writeRuleRun_kept {a : State} (w : Bool) (row : Nat) (g : Nat) (s : State) (h : Kept a s) : Kept a (writeRuleRun w row g s) := by
  unfold writeRuleRun
  try lift_lets
  repeat' first
    | with_reducible assumption
    | with_reducible apply Kept.ite
    | with_reducible apply State.putRow_kept
    | with_reducible apply State.ruleStatus_kept

theorem readRuleRun_kept {a : State} (w : Bool) (row : Nat) (bankSel : Bool) (s : State) (h : Kept a s) : Kept a (readRuleRun w row bankSel s) := by
  unfold readRuleRun
  try lift_lets
  repeat' first
    | with_reducible assumption
    | with_reducible apply Kept.ite
    | with_reducible apply State.clearUpset_kept
    | with_reducible apply State.codeCheck_kept
    | with_reducible apply State.codeFail_kept
    | with_reducible apply State.putRuleOperand_kept
    | with_reducible apply State.ruleStatus_kept
    | with_reducible apply State.wr_kept
    | lift_lets
    | (split <;> first | (rename_i t heq; refine (fun (ht : Kept a t) => ?_) (Kept.ofEq3 heq ?_)) | skip)

theorem clearRuleRun_kept {a : State} (w : Bool) (row : Nat) (g : Nat) (s : State) (h : Kept a s) : Kept a (clearRuleRun w row g s) := by
  unfold clearRuleRun
  try lift_lets
  repeat' first
    | with_reducible assumption
    | with_reducible apply Kept.ite
    | with_reducible apply State.putRow_kept
    | with_reducible apply State.ruleStatus_kept

theorem writeZpairRun_kept {a : State} (w : Bool) (idx : Nat) (g : Nat) (s : State) (h : Kept a s) : Kept a (writeZpairRun w idx g s) := by
  unfold writeZpairRun
  try lift_lets
  repeat' first
    | with_reducible assumption
    | with_reducible apply Kept.ite
    | with_reducible apply State.ruleStatus_kept
    | with_reducible apply State.setBank_kept

theorem readZpairRun_kept {a : State} (w : Bool) (idx : Nat) (bankSel : Bool) (s : State) (h : Kept a s) : Kept a (readZpairRun w idx bankSel s) := by
  unfold readZpairRun
  try lift_lets
  repeat' first
    | with_reducible assumption
    | with_reducible apply Kept.ite
    | with_reducible apply State.ruleStatus_kept
    | with_reducible apply State.wr_kept

theorem writeZmapRun_kept {a : State} (w : Bool) (idx : Nat) (g : Nat) (s : State) (h : Kept a s) : Kept a (writeZmapRun w idx g s) := by
  unfold writeZmapRun
  try lift_lets
  repeat' first
    | with_reducible assumption
    | with_reducible apply Kept.ite
    | with_reducible apply State.ruleStatus_kept
    | with_reducible apply State.setBank_kept

theorem readZmapRun_kept {a : State} (w : Bool) (idx : Nat) (bankSel : Bool) (s : State) (h : Kept a s) : Kept a (readZmapRun w idx bankSel s) := by
  unfold readZmapRun
  try lift_lets
  repeat' first
    | with_reducible assumption
    | with_reducible apply Kept.ite
    | with_reducible apply State.ruleStatus_kept
    | with_reducible apply State.wr_kept

theorem writePfxRun_kept {a : State} (w : Bool) (idx : Nat) (g : Nat) (s : State) (h : Kept a s) : Kept a (writePfxRun w idx g s) := by
  unfold writePfxRun
  try lift_lets
  repeat' first
    | with_reducible assumption
    | with_reducible apply Kept.ite
    | with_reducible apply State.ruleStatus_kept
    | with_reducible apply State.setBank_kept

theorem readPfxRun_kept {a : State} (w : Bool) (idx : Nat) (bankSel : Bool) (s : State) (h : Kept a s) : Kept a (readPfxRun w idx bankSel s) := by
  unfold readPfxRun
  try lift_lets
  repeat' first
    | with_reducible assumption
    | with_reducible apply Kept.ite
    | with_reducible apply State.ruleStatus_kept
    | with_reducible apply State.wr_kept

theorem copyActiveRun_kept {a : State} (w : Bool) (s : State) (h : Kept a s) : Kept a (copyActiveRun w s) := by
  unfold copyActiveRun
  try lift_lets
  repeat' first
    | with_reducible assumption
    | with_reducible apply State.ruleStatus_kept
    | lift_lets
    | (with_reducible refine Kept.update ?_ (by rfl) (by rfl) (by rfl) (by rfl); with_reducible apply State.setBank_kept)

theorem ruleCompleteStep_kept {a : State} (w : Bool) (s : State) (h : Kept a s) : Kept a (ruleCompleteStep w s) := by
  unfold ruleCompleteStep
  try lift_lets
  repeat' first
    | with_reducible assumption
    | with_reducible apply Kept.ite
    | with_reducible apply State.wr_kept

theorem tcamRescanStep_kept {a : State} (w : Bool) (g : Nat) (s : State) (h : Kept a s) : Kept a (tcamRescanStep w g s) := by
  unfold tcamRescanStep
  try lift_lets
  repeat' first
    | with_reducible assumption
    | with_reducible apply Kept.ite
    | with_reducible apply State.codeCheck_kept
    | with_reducible apply State.rowParity_kept
    | with_reducible apply State.sat_kept
    | with_reducible apply State.setBank_kept

end Sys2Proof.Machine
end

