-- ==== Sys2Proof/Laws/KeepMacsec.lean ====
section
/-! SUPPORT. The operations of Machine/Macsec.lean keep what `Kept` says. -/

namespace Sys2Proof.Machine

set_option maxRecDepth 20000

theorem State.takePn_kept {a : State} (s : State) (p : Nat) (h : Kept a s) : Kept a (State.takePn s p).2 := by
  unfold State.takePn
  try lift_lets
  repeat' first
    | with_reducible assumption
    | with_reducible apply Kept.ite
    | with_reducible apply Kept.ite_snd
    | with_reducible apply State.event_kept
    | with_reducible apply State.inc_kept
    | with_reducible apply State.sat_kept
    | with_reducible apply State.wr_kept

end Sys2Proof.Machine
end

