-- ==== Sys2Proof/Laws/KeepQueues.lean ====
section
/-! SUPPORT. The operations of Machine/Queues.lean keep what `Kept` says. -/

namespace Sys2Proof.Machine

set_option maxRecDepth 20000

theorem State.setInput_kept {a : State} (s : State) (p : Nat) (x : InPort) (h : Kept a s) : Kept a (State.setInput s p x) := by
  unfold State.setInput
  try lift_lets
  repeat' with_reducible exact Kept.update (by with_reducible assumption) (by rfl) (by rfl) (by rfl) (by rfl)

theorem State.setFrame_kept {a : State} (s : State) (r : Nat) (f : Frame) (h : Kept a s) : Kept a (State.setFrame s r f) := by
  unfold State.setFrame
  try lift_lets
  repeat' with_reducible exact Kept.update (by with_reducible assumption) (by rfl) (by rfl) (by rfl) (by rfl)

theorem State.updFrame_kept {a : State} (s : State) (r : Nat) (g : Frame → Frame) (h : Kept a s) : Kept a (State.updFrame s r g) := by
  unfold State.updFrame
  try lift_lets
  repeat' first
    | with_reducible assumption
    | with_reducible apply State.setFrame_kept
    | split

theorem State.setQueue_kept {a : State} (s : State) (q : Nat) (l : List QEntry) (h : Kept a s) : Kept a (State.setQueue s q l) := by
  unfold State.setQueue
  try lift_lets
  repeat' with_reducible exact Kept.update (by with_reducible assumption) (by rfl) (by rfl) (by rfl) (by rfl)

theorem State.setResvUsed_kept {a : State} (s : State) (q : Nat) (n : Nat) (h : Kept a s) : Kept a (State.setResvUsed s q n) := by
  unfold State.setResvUsed
  try lift_lets
  repeat' with_reducible exact Kept.update (by with_reducible assumption) (by rfl) (by rfl) (by rfl) (by rfl)

theorem State.setReading_kept {a : State} (s : State) (p : Nat) (l : List Reading) (h : Kept a s) : Kept a (State.setReading s p l) := by
  unfold State.setReading
  try lift_lets
  repeat' with_reducible exact Kept.update (by with_reducible assumption) (by rfl) (by rfl) (by rfl) (by rfl)

theorem State.setSpout_kept {a : State} (s : State) (p : Nat) (x : SpoutState) (h : Kept a s) : Kept a (State.setSpout s p x) := by
  unfold State.setSpout
  try lift_lets
  repeat' with_reducible exact Kept.update (by with_reducible assumption) (by rfl) (by rfl) (by rfl) (by rfl)

theorem State.setCbs_kept {a : State} (s : State) (p : Nat) (c : Nat) (z : Int) (h : Kept a s) : Kept a (State.setCbs s p c z) := by
  unfold State.setCbs
  try lift_lets
  repeat' first
    | with_reducible assumption
    | with_reducible apply State.setSpout_kept
    | with_reducible apply State.wr_kept

theorem State.cbsRun_kept {a : State} (s : State) (p : Nat) (d : Nat) (c : Nat) (h : Kept a s) : Kept a (State.cbsRun s p d c) := by
  unfold State.cbsRun
  try lift_lets
  repeat' first
    | with_reducible assumption
    | with_reducible apply Kept.ite
    | with_reducible apply State.setCbs_kept

theorem State.cbsTo_kept {a : State} (s : State) (p : Nat) (x2 : Nat) (h : Kept a s) : Kept a (State.cbsTo s p x2) := by
  unfold State.cbsTo
  try lift_lets
  repeat' first
    | with_reducible assumption
    | with_reducible apply Kept.foldl
    | with_reducible apply State.cbsRun_kept
    | with_reducible apply State.setSpout_kept
    | (intro t x (ht : Kept a t))

theorem State.setPcs_kept {a : State} (s : State) (c : Nat) (z : Int) (h : Kept a s) : Kept a (State.setPcs s c z) := by
  unfold State.setPcs
  try lift_lets
  repeat' first
    | with_reducible assumption
    | with_reducible apply State.setSpout_kept
    | with_reducible apply State.wr_kept

theorem State.pcsSettle_kept {a : State} (s : State) (c : Nat) (h : Kept a s) : Kept a (State.pcsSettle s c) := by
  unfold State.pcsSettle
  try lift_lets
  repeat' first
    | with_reducible assumption
    | with_reducible apply Kept.ite
    | with_reducible apply State.setPcs_kept

theorem State.pcsTick_kept {a : State} (s : State) (h : Kept a s) : Kept a (State.pcsTick s) := by
  unfold State.pcsTick
  try lift_lets
  repeat' first
    | with_reducible assumption
    | with_reducible apply Kept.ite
    | with_reducible apply Kept.foldl
    | with_reducible apply State.setPcs_kept
    | (intro t x (ht : Kept a t))

theorem State.queueLeft_kept {a : State} (s : State) (q : Nat) (h : Kept a s) : Kept a (State.queueLeft s q) := by
  unfold State.queueLeft
  try lift_lets
  repeat' first
    | with_reducible assumption
    | with_reducible apply Kept.ite
    | with_reducible apply State.pcsSettle_kept
    | with_reducible apply State.setCbs_kept
    | with_reducible apply State.setSpout_kept

end Sys2Proof.Machine
end

