-- ==== Sys2Proof/Laws/KeepEgress.lean ====
section
/-! SUPPORT. The operations of Machine/Egress.lean keep what `Kept` says. -/

namespace Sys2Proof.Machine

set_option maxRecDepth 20000

theorem State.closeTx_kept {a : State} (s : State) (p : Nat) (tc : Nat) (body : List Byte) (stomp : Bool) (h : Kept a s) : Kept a (State.closeTx s p tc body stomp) := by
  unfold State.closeTx
  try lift_lets
  repeat' first
    | with_reducible assumption
    | with_reducible apply Kept.ite
    | with_reducible apply State.sat_kept
    | with_reducible apply State.setSpout_kept

theorem State.stompTx_kept {a : State} (s : State) (p : Nat) (r : Reading) (f : Frame) (h : Kept a s) : Kept a (State.stompTx s p r f) := by
  unfold State.stompTx
  try lift_lets
  repeat' first
    | with_reducible assumption
    | with_reducible apply State.closeTx_kept

end Sys2Proof.Machine
end

