-- ==== Sys2Proof/Laws/KeepFabric.lean ====
section
/-! SUPPORT. The operations of Machine/Fabric.lean keep what `Kept` says. -/

namespace Sys2Proof.Machine

set_option maxRecDepth 20000

theorem State.fabCheck_kept {a : State} (s : State) (mem : Nat) (idx : Nat) (rewrite : Bool) (h : Kept a s) : Kept a (State.fabCheck s mem idx rewrite).2 := by
  unfold State.fabCheck
  try lift_lets
  repeat' first
    | with_reducible assumption
    | with_reducible apply Kept.ite
    | with_reducible apply State.clearUpset_kept
    | with_reducible apply State.codeCheck_kept
    | with_reducible apply State.codeFail_kept
    | with_reducible apply State.sat_kept
    | lift_lets
    | (split <;> (rename_i t heq; refine (fun (ht : Kept a t) => ?_) (Kept.ofEq3 heq ?_)))

theorem State.setFree_kept {a : State} (s : State) (n : Nat) (h : Kept a s) : Kept a (State.setFree s n) := by
  unfold State.setFree
  try lift_lets
  repeat' first
    | with_reducible assumption
    | with_reducible apply Kept.ite
    | with_reducible apply State.wr_kept

theorem State.popFree_kept {a : State} (s : State) (slice : Nat) (h : Kept a s) : Kept a (State.popFree s slice).2 := by
  unfold State.popFree
  try lift_lets
  repeat' first
    | with_reducible assumption
    | with_reducible apply State.draw_kept

theorem State.freeCell_kept {a : State} (s : State) (ptr : Nat) (h : Kept a s) : Kept a (State.freeCell s ptr) := by
  unfold State.freeCell
  try lift_lets
  repeat' first
    | with_reducible apply Kept.ite
    | with_reducible exact Kept.update (by with_reducible assumption) (by rfl) (by rfl) (by rfl) (by rfl)
    | with_reducible apply State.setFree_kept
    | with_reducible apply State.wr_kept

theorem State.release_kept {a : State} (s : State) (copies : Nat) (ptr : Nat) (h : Kept a s) : Kept a (State.release s copies ptr) := by
  unfold State.release
  try lift_lets
  repeat' first
    | with_reducible assumption
    | with_reducible apply Kept.ite
    | with_reducible exact Kept.update (by with_reducible assumption) (by rfl) (by rfl) (by rfl) (by rfl)
    | with_reducible apply State.freeCell_kept
    | (intro t; clear_value t)
    | split

theorem State.freeRecord_kept {a : State} (s : State) (r : Nat) (f : Frame) (h : Kept a s) : Kept a (State.freeRecord s r f) := by
  unfold State.freeRecord
  try lift_lets
  repeat' first
    | with_reducible apply Kept.ite
    | with_reducible exact Kept.update (by with_reducible assumption) (by rfl) (by rfl) (by rfl) (by rfl)
    | with_reducible apply State.setInput_kept

theorem State.copyDone_kept {a : State} (s : State) (r : Nat) (h : Kept a s) : Kept a (State.copyDone s r) := by
  unfold State.copyDone
  try lift_lets
  repeat' first
    | with_reducible assumption
    | with_reducible apply Kept.ite
    | with_reducible apply State.freeRecord_kept
    | with_reducible apply State.setFrame_kept
    | split

theorem State.walkFrom_kept {a : State} (s : State) (r : Nat) (skip : List Nat) (h : Kept a s) : Kept a (State.walkFrom s r skip) := by
  unfold State.walkFrom
  try lift_lets
  repeat' with_reducible exact Kept.update (by with_reducible assumption) (by rfl) (by rfl) (by rfl) (by rfl)

theorem State.walk_kept {a : State} (s : State) (r : Nat) (h : Kept a s) : Kept a (State.walk s r) := by
  unfold State.walk
  try lift_lets
  repeat' first
    | with_reducible assumption
    | with_reducible apply State.walkFrom_kept

theorem State.discardFrame_kept {a : State} (s : State) (r : Nat) (h : Kept a s) : Kept a (State.discardFrame s r) := by
  unfold State.discardFrame
  try lift_lets
  repeat' first
    | with_reducible assumption
    | with_reducible apply State.updFrame_kept
    | with_reducible apply State.walk_kept

theorem State.newFrame_kept {a : State} (s : State) (fm : FrameMeta) (h : Kept a s) : Kept a (State.newFrame s fm).2 := by
  unfold State.newFrame
  try lift_lets
  repeat' first
    | with_reducible assumption
    | with_reducible apply State.clearUpset_kept
    | with_reducible apply State.draw_kept
    | with_reducible apply State.setFrame_kept
    | split

theorem State.holdCell_kept {a : State} (s : State) (port : Nat) (c : HeldCell) (h : Kept a s) : Kept a (State.holdCell s port c) := by
  unfold State.holdCell
  try lift_lets
  repeat' first
    | with_reducible assumption
    | with_reducible apply State.setInput_kept

theorem State.setOffers_kept {a : State} (s : State) (port : Nat) (l : List Offer) (h : Kept a s) : Kept a (State.setOffers s port l) := by
  unfold State.setOffers
  try lift_lets
  repeat' with_reducible exact Kept.update (by with_reducible assumption) (by rfl) (by rfl) (by rfl) (by rfl)

theorem State.offer_kept {a : State} (s : State) (port : Nat) (fm : FrameMeta) (b : List Byte) (h : Kept a s) : Kept a (State.offer s port fm b) := by
  unfold State.offer
  try lift_lets
  repeat' first
    | with_reducible assumption
    | with_reducible apply State.setOffers_kept

theorem State.offerNext_kept {a : State} (s : State) (port : Nat) (h : Kept a s) : Kept a (State.offerNext s port) := by
  unfold State.offerNext
  try lift_lets
  repeat' first
    | with_reducible assumption
    | with_reducible apply Kept.ite
    | with_reducible apply Kept.ite_snd
    | with_reducible apply State.holdCell_kept
    | with_reducible apply State.inc_kept
    | with_reducible apply State.newFrame_kept
    | with_reducible apply State.sat_kept
    | with_reducible apply State.setInput_kept
    | with_reducible apply State.setOffers_kept
    | lift_lets
    | (split <;> first | (rename_i t heq; refine (fun (ht : Kept a t) => ?_) (Kept.ofEq heq ?_)) | (rename_i t _ heq; refine (fun (ht : Kept a t) => ?_) (Kept.ofEq heq ?_)) | skip)

theorem State.macReceive_kept {a : State} (s : State) (p : Nat) (c : RxIn) (h : Kept a s) : Kept a (State.macReceive s p c) := by
  unfold State.macReceive
  try lift_lets
  repeat' first
    | with_reducible assumption
    | with_reducible apply State.setInput_kept
    | (intro t; clear_value t)
    | split

theorem State.macHand_kept {a : State} (s : State) (p : Nat) (h : Kept a s) : Kept a (State.macHand s p) := by
  unfold State.macHand
  try lift_lets
  repeat' first
    | with_reducible assumption
    | with_reducible apply Kept.ite
    | with_reducible apply Kept.ite_snd
    | with_reducible apply State.holdCell_kept
    | with_reducible apply State.newFrame_kept
    | with_reducible apply State.sat_kept
    | with_reducible apply State.setInput_kept
    | (intro t; clear_value t)
    | lift_lets
    | split
    | dsimp only

theorem State.usePort_kept {a : State} (s : State) (k : Nat) (h : Kept a s) : Kept a (State.usePort s k) := by
  unfold State.usePort
  try lift_lets
  repeat' with_reducible exact Kept.update (by with_reducible assumption) (by rfl) (by rfl) (by rfl) (by rfl)

theorem State.writeHeld_kept {a : State} (s : State) (port : Nat) (h : Kept a s) : Kept a (State.writeHeld s port) := by
  unfold State.writeHeld
  try lift_lets
  repeat' first
    | with_reducible assumption
    | with_reducible apply State.clearUpset_kept
    | with_reducible apply State.inc_kept
    | with_reducible apply State.popFree_kept
    | with_reducible apply State.setFree_kept
    | with_reducible apply State.setInput_kept
    | with_reducible apply State.updFrame_kept
    | with_reducible apply State.usePort_kept
    | lift_lets
    | (with_reducible refine Kept.update ?_ (by rfl) (by rfl) (by rfl) (by rfl); with_reducible apply State.clearUpset_kept)
    | (split <;> first | (rename_i t heq; refine (fun (ht : Kept a t) => ?_) (Kept.ofEq heq ?_)) | skip)

theorem cellWriteStep_kept {a : State} (port : Nat) (rx : Option RxIn) (s : State) (h : Kept a s) : Kept a (cellWriteStep port rx s) := by
  unfold cellWriteStep
  try lift_lets
  repeat' first
    | with_reducible assumption
    | with_reducible apply Kept.ite
    | with_reducible apply State.macHand_kept
    | with_reducible apply State.macReceive_kept
    | with_reducible apply State.offerNext_kept
    | with_reducible apply State.writeHeld_kept
    | lift_lets
    | split

theorem State.sendPfc_kept {a : State} (s : State) (p : Nat) (c : Nat) (quanta : Nat) (h : Kept a s) : Kept a (State.sendPfc s p c quanta) := by
  unfold State.sendPfc
  try lift_lets
  repeat' first
    | with_reducible exact Kept.update (by with_reducible assumption) (by rfl) (by rfl) (by rfl) (by rfl)
    | with_reducible apply State.setSpout_kept

theorem State.pfcLevel_kept {a : State} (s : State) (p : Nat) (c : Nat) (h : Kept a s) : Kept a (State.pfcLevel s p c) := by
  unfold State.pfcLevel
  try lift_lets
  repeat' first
    | with_reducible assumption
    | with_reducible apply Kept.ite
    | with_reducible exact Kept.update (by with_reducible assumption) (by rfl) (by rfl) (by rfl) (by rfl)
    | with_reducible apply State.sendPfc_kept

theorem State.setLossless_kept {a : State} (s : State) (p : Nat) (c : Nat) (n : Nat) (h : Kept a s) : Kept a (State.setLossless s p c n) := by
  unfold State.setLossless
  try lift_lets
  repeat' first
    | with_reducible assumption
    | with_reducible apply State.pfcLevel_kept
    | with_reducible apply State.wr_kept

theorem pfcRefreshStep_kept {a : State} (p : Nat) (c : Nat) (s : State) (h : Kept a s) : Kept a (pfcRefreshStep p c s) := by
  unfold pfcRefreshStep
  try lift_lets
  repeat' first
    | with_reducible assumption
    | with_reducible apply Kept.ite
    | with_reducible apply State.sendPfc_kept

theorem State.losslessHold_kept {a : State} (s : State) (r : Nat) (c : Nat) (n : Nat) (h : Kept a s) : Kept a (State.losslessHold s r c n) := by
  unfold State.losslessHold
  try lift_lets
  repeat' first
    | with_reducible assumption
    | with_reducible apply State.setFrame_kept
    | with_reducible apply State.setLossless_kept
    | split

theorem State.losslessDrop_kept {a : State} (s : State) (r : Nat) (c : Nat) (h : Kept a s) : Kept a (State.losslessDrop s r c) := by
  unfold State.losslessDrop
  try lift_lets
  repeat' first
    | with_reducible assumption
    | with_reducible apply Kept.ite
    | with_reducible apply State.setFrame_kept
    | with_reducible apply State.setLossless_kept
    | split

theorem State.acctAdd_kept {a : State} (s : State) (q : Nat) (n : Nat) (resv : Bool) (h : Kept a s) : Kept a (State.acctAdd s q n resv) := by
  unfold State.acctAdd
  try lift_lets
  repeat' first
    | with_reducible assumption
    | with_reducible apply Kept.ite
    | with_reducible apply State.setResvUsed_kept
    | with_reducible apply State.wr_kept

theorem State.acctSub_kept {a : State} (s : State) (q : Nat) (n : Nat) (resv : Bool) (h : Kept a s) : Kept a (State.acctSub s q n resv) := by
  unfold State.acctSub
  try lift_lets
  repeat' first
    | with_reducible assumption
    | with_reducible apply Kept.ite
    | with_reducible apply State.setResvUsed_kept
    | with_reducible apply State.wr_kept

theorem State.removeEntry_kept {a : State} (s : State) (q : Nat) (x2 : QEntry) (h : Kept a s) : Kept a (State.removeEntry s q x2) := by
  unfold State.removeEntry
  try lift_lets
  repeat' first
    | with_reducible assumption
    | with_reducible apply Kept.ite
    | with_reducible apply State.acctSub_kept
    | with_reducible apply State.losslessDrop_kept
    | with_reducible apply State.queueLeft_kept
    | with_reducible apply State.setQueue_kept
    | with_reducible apply State.wr_kept

theorem State.copyLost_kept {a : State} (s : State) (r : Nat) (c : Copy) (h : Kept a s) : Kept a (State.copyLost s r c) := by
  unfold State.copyLost
  try lift_lets
  repeat' first
    | with_reducible assumption
    | with_reducible exact Kept.update (by with_reducible assumption) (by rfl) (by rfl) (by rfl) (by rfl)
    | with_reducible apply State.inflightDown_kept
    | (intro t; refine Kept.cut (a := a) (t := t) ?_ ?_ <;> first | (intro ht; clear_value t) | subst t)
    | (intro t; clear_value t)
    | split

theorem State.dropCopy_kept {a : State} (s : State) (r : Nat) (c : Copy) (cnt : Fld) (h : Kept a s) : Kept a (State.dropCopy s r c cnt) := by
  unfold State.dropCopy
  try lift_lets
  repeat' first
    | with_reducible assumption
    | with_reducible apply State.copyLost_kept
    | with_reducible apply State.sat_kept
    | with_reducible apply State.walk_kept

theorem State.unselect_kept {a : State} (s : State) (p : Nat) (tc : Nat) (h : Kept a s) : Kept a (State.unselect s p tc) := by
  unfold State.unselect
  try lift_lets
  repeat' first
    | with_reducible assumption
    | with_reducible apply State.setReading_kept
    | with_reducible apply State.setSpout_kept
    | (intro t; clear_value t)
    | split

theorem State.evict_kept {a : State} (s : State) (q : Nat) (x2 : QEntry) (h : Kept a s) : Kept a (State.evict s q x2) := by
  unfold State.evict
  try lift_lets
  repeat' first
    | with_reducible assumption
    | with_reducible apply Kept.ite
    | with_reducible apply State.copyLost_kept
    | with_reducible apply State.removeEntry_kept
    | with_reducible apply State.sat_kept
    | with_reducible apply State.unselect_kept
    | with_reducible apply State.walkFrom_kept

theorem State.enqueue_kept {a : State} (s : State) (r : Nat) (c : Copy) (n : Nat) (resv : Bool) (lossless : Bool) (h : Kept a s) : Kept a (State.enqueue s r c n resv lossless) := by
  unfold State.enqueue
  try lift_lets
  repeat' first
    | with_reducible assumption
    | with_reducible apply Kept.ite
    | with_reducible apply State.acctAdd_kept
    | with_reducible apply State.clearUpset_kept
    | with_reducible apply State.draw_kept
    | with_reducible apply State.inc_kept
    | with_reducible apply State.losslessHold_kept
    | with_reducible apply State.setQueue_kept
    | with_reducible apply State.wr_kept

theorem State.loseEntry_kept {a : State} (s : State) (f : Frame) (q : Nat) (x3 : QEntry) (h : Kept a s) : Kept a (State.loseEntry s f q x3) := by
  unfold State.loseEntry
  try lift_lets
  repeat' first
    | with_reducible assumption
    | with_reducible apply Kept.ite
    | with_reducible apply State.copyLost_kept
    | with_reducible apply State.removeEntry_kept
    | with_reducible apply State.setReading_kept
    | with_reducible apply State.stompTx_kept
    | lift_lets
    | split

theorem State.loseFrame_kept {a : State} (s : State) (r : Nat) (h : Kept a s) : Kept a (State.loseFrame s r) := by
  unfold State.loseFrame
  try lift_lets
  repeat' first
    | with_reducible assumption
    | with_reducible apply Kept.ite
    | with_reducible apply Kept.foldl
    | with_reducible apply State.copyLost_kept
    | with_reducible apply State.freeRecord_kept
    | with_reducible apply State.loseEntry_kept
    | (intro t x (ht : Kept a t))
    | lift_lets
    | (with_reducible refine Kept.update ?_ (by rfl) (by rfl) (by rfl) (by rfl); with_reducible apply Kept.foldl)
    | split

theorem State.enqueueCopy_kept {a : State} (s : State) (r : Nat) (c : Copy) (h : Kept a s) : Kept a (State.enqueueCopy s r c) := by
  unfold State.enqueueCopy
  try lift_lets
  repeat' first
    | with_reducible assumption
    | with_reducible apply Kept.ite
    | with_reducible apply Kept.foldl
    | with_reducible apply State.copyLost_kept
    | with_reducible apply State.dropCopy_kept
    | with_reducible apply State.enqueue_kept
    | with_reducible apply State.evict_kept
    | with_reducible apply State.fabCheck_kept
    | with_reducible apply State.loseFrame_kept
    | with_reducible apply State.sat_kept
    | with_reducible apply State.setFrame_kept
    | with_reducible apply State.walk_kept
    | (intro t x (ht : Kept a t))
    | (intro t; clear_value t)
    | lift_lets
    | (split <;> first | (rename_i t heq; refine (fun (ht : Kept a t) => ?_) (Kept.ofEq heq ?_)) | (rename_i t _ heq; refine (fun (ht : Kept a t) => ?_) (Kept.ofEq heq ?_)) | skip)

theorem copyEnqueueStep_kept {a : State} (s : State) (h : Kept a s) : Kept a (copyEnqueueStep s) := by
  unfold copyEnqueueStep
  try lift_lets
  repeat' first
    | with_reducible assumption
    | with_reducible exact Kept.update (by with_reducible assumption) (by rfl) (by rfl) (by rfl) (by rfl)
    | with_reducible apply State.enqueueCopy_kept
    | (intro t; clear_value t)
    | split

theorem State.pushCopies_kept {a : State} (s : State) (r : Nat) (l : List Copy) (h : Kept a s) : Kept a (State.pushCopies s r l) := by
  unfold State.pushCopies
  try lift_lets
  repeat' with_reducible exact Kept.update (by with_reducible assumption) (by rfl) (by rfl) (by rfl) (by rfl)

theorem State.walkStep_kept {a : State} (s : State) (k : Walk) (h : Kept a s) : Kept a (State.walkStep s k).2 := by
  unfold State.walkStep
  try lift_lets
  repeat' first
    | with_reducible assumption
    | with_reducible apply Kept.ite
    | with_reducible apply Kept.ite_snd
    | with_reducible apply State.copyDone_kept
    | with_reducible apply State.fabCheck_kept
    | with_reducible apply State.release_kept
    | (intro t; refine Kept.cut (a := a) (t := t) ?_ ?_ <;> first | (intro ht; clear_value t) | subst t)
    | lift_lets
    | (split <;> first | (rename_i t heq; refine (fun (ht : Kept a t) => ?_) (Kept.ofEq heq ?_)) | (rename_i t _ heq; refine (fun (ht : Kept a t) => ?_) (Kept.ofEq heq ?_)) | skip)

theorem discardWalkStep_kept {a : State} (s : State) (h : Kept a s) : Kept a (discardWalkStep s) := by
  unfold discardWalkStep
  try lift_lets
  repeat' first
    | with_reducible assumption
    | with_reducible exact Kept.update (by with_reducible assumption) (by rfl) (by rfl) (by rfl) (by rfl)
    | with_reducible apply Kept.foldl_snd
    | with_reducible apply State.walkStep_kept
    | (intro t x (ht : Kept a t.2))
    | (intro t; refine Kept.cut (a := a) (t := t.2) ?_ ?_ <;> first | (intro ht; clear_value t) | subst t)
    | (intro t; clear_value t)
    | lift_lets
    | (split <;> (rename_i t heq; refine (fun (ht : Kept a t) => ?_) (Kept.ofEq heq ?_)))

theorem State.showPause_kept {a : State} (s : State) (p : Nat) (h : Kept a s) : Kept a (State.showPause s p) := by
  unfold State.showPause
  try lift_lets
  repeat' first
    | with_reducible assumption
    | with_reducible apply State.wr_kept

theorem State.setPause_kept {a : State} (s : State) (p : Nat) (x : PauseTimers) (h : Kept a s) : Kept a (State.setPause s p x) := by
  unfold State.setPause
  try lift_lets
  repeat' first
    | with_reducible exact Kept.update (by with_reducible assumption) (by rfl) (by rfl) (by rfl) (by rfl)
    | with_reducible apply State.showPause_kept

theorem State.takePause_kept {a : State} (s : State) (p : Nat) (b : List Byte) (h : Kept a s) : Kept a (State.takePause s p b) := by
  unfold State.takePause
  try lift_lets
  repeat' first
    | with_reducible assumption
    | with_reducible apply Kept.ite
    | with_reducible apply State.setPause_kept

theorem State.macDone_kept {a : State} (s : State) (p : Nat) (h : Kept a s) : Kept a (State.macDone s p) := by
  unfold State.macDone
  try lift_lets
  repeat' first
    | with_reducible assumption
    | with_reducible apply State.setInput_kept

theorem pauseFrameReceiveStep_kept {a : State} (p : Nat) (s : State) (h : Kept a s) : Kept a (pauseFrameReceiveStep p s) := by
  unfold pauseFrameReceiveStep
  try lift_lets
  repeat' first
    | with_reducible assumption
    | with_reducible apply Kept.ite
    | with_reducible apply State.macDone_kept
    | with_reducible apply State.sat_kept
    | with_reducible apply State.takePause_kept
    | (intro t; refine Kept.cut (a := a) (t := t) ?_ ?_ <;> first | (intro ht; clear_value t) | subst t)
    | (intro t; clear_value t)
    | split

theorem pauseTimerExpiryStep_kept {a : State} (p : Nat) (prio : Option Nat) (s : State) (h : Kept a s) : Kept a (pauseTimerExpiryStep p prio s) := by
  unfold pauseTimerExpiryStep
  try lift_lets
  repeat' first
    | with_reducible assumption
    | with_reducible apply Kept.ite
    | with_reducible apply State.setPause_kept
    | lift_lets
    | split

theorem State.dropTick_kept {a : State} (s : State) (h : Kept a s) : Kept a (State.dropTick s) := by
  unfold State.dropTick
  try lift_lets
  repeat' first
    | with_reducible exact Kept.update (by with_reducible assumption) (by rfl) (by rfl) (by rfl) (by rfl)
    | with_reducible apply State.wr_kept

theorem State.auditCell_kept {a : State} (s : State) (ptr : Nat) (h : Kept a s) : Kept a (State.auditCell s ptr) := by
  unfold State.auditCell
  try lift_lets
  repeat' first
    | with_reducible assumption
    | with_reducible apply Kept.ite
    | with_reducible apply State.fabCheck_kept
    | with_reducible apply State.fire_kept
    | with_reducible apply State.freeCell_kept
    | with_reducible apply State.sat_kept
    | with_reducible apply State.wr_kept
    | lift_lets
    | (with_reducible refine Kept.update ?_ (by rfl) (by rfl) (by rfl) (by rfl); with_reducible apply State.fabCheck_kept)
    | split

theorem State.auditSome_kept {a : State} (s : State) (k : Nat) (h : Kept a s) : Kept a (State.auditSome s k) := by
  unfold State.auditSome
  try lift_lets
  repeat' first
    | with_reducible assumption
    | with_reducible apply Kept.ite
    | with_reducible apply Kept.foldl
    | with_reducible apply State.auditCell_kept
    | with_reducible apply State.check_kept
    | with_reducible apply State.fabCheck_kept
    | with_reducible apply State.inc_kept
    | with_reducible apply State.wr_kept
    | (intro t x (ht : Kept a t))

theorem ingressUnderrunStep_kept {a : State} (p : Nat) (tc : Nat) (s : State) (h : Kept a s) : Kept a (ingressUnderrunStep p tc s) := by
  unfold ingressUnderrunStep
  try lift_lets
  repeat' first
    | with_reducible assumption
    | with_reducible apply Kept.ite
    | with_reducible apply State.removeEntry_kept
    | with_reducible apply State.sat_kept
    | with_reducible apply State.setReading_kept
    | with_reducible apply State.stompTx_kept
    | with_reducible apply State.walkFrom_kept
    | split
    | dsimp only

end Sys2Proof.Machine
end

