-- ==== Sys2Proof/Laws/KeepHeadPath.lean ====
section
/-! SUPPORT. The operations of Machine/HeadPath.lean keep what `Kept` says. -/

namespace Sys2Proof.Machine

set_option maxRecDepth 20000

theorem State.slowAdmit_kept {a : State} (s : State) (w : Bool) (r : Nat) (h : Kept a s) : Kept a (State.slowAdmit s w r).2 := by
  unfold State.slowAdmit
  try lift_lets
  repeat' first
    | with_reducible assumption
    | with_reducible apply Kept.ite_snd
    | with_reducible apply State.inc_kept
    | with_reducible apply State.sat_kept
    | with_reducible apply State.setPipe_kept

theorem State.slowTick_kept {a : State} (s : State) (w : Bool) (h : Kept a s) : Kept a (State.slowTick s w) := by
  unfold State.slowTick
  try lift_lets
  repeat' first
    | with_reducible assumption
    | with_reducible apply Kept.ite
    | with_reducible apply State.check_kept
    | with_reducible apply State.setPipe_kept
    | with_reducible apply State.wr_kept
    | lift_lets
    | (with_reducible refine Kept.update ?_ (by rfl) (by rfl) (by rfl) (by rfl); with_reducible apply State.wr_kept)

theorem State.recircAdmit_kept {a : State} (s : State) (g : Nat) (h : Kept a s) : Kept a (State.recircAdmit s g).2 := by
  unfold State.recircAdmit
  try lift_lets
  repeat' first
    | with_reducible apply Kept.ite_snd
    | with_reducible exact Kept.update (by with_reducible assumption) (by rfl) (by rfl) (by rfl) (by rfl)
    | with_reducible apply State.inflightUp_kept
    | with_reducible apply State.sat_kept

theorem State.vlanEntry_kept {a : State} (s : State) (w : Bool) (vid : Nat) (h : Kept a s) : Kept a (State.vlanEntry s w vid).2 := by
  unfold State.vlanEntry
  try lift_lets
  repeat' first
    | with_reducible assumption
    | with_reducible apply Kept.ite_snd
    | with_reducible apply State.clearUpset_kept
    | with_reducible apply State.reportWord_kept
    | with_reducible apply State.sat_kept
    | lift_lets
    | split

theorem State.resolve_kept {a : State} (s : State) (w : Bool) (p : Parsed) (m : FrameMeta) (v : Nat) (h : Kept a s) : Kept a (State.resolve s w p m v).2 := by
  unfold State.resolve
  try lift_lets
  repeat' first
    | with_reducible assumption
    | with_reducible apply Kept.ite
    | with_reducible apply Kept.ite_snd
    | with_reducible apply State.headLookup_kept
    | with_reducible apply State.inc_kept
    | with_reducible apply State.sat_kept
    | lift_lets
    | split

theorem State.planCopies_kept {a : State} (s : State) (r : Nat) (l : List Copy) (h : Kept a s) : Kept a (State.planCopies s r l) := by
  unfold State.planCopies
  try lift_lets
  repeat' first
    | with_reducible assumption
    | with_reducible apply Kept.ite
    | with_reducible apply Kept.foldl
    | with_reducible apply State.discardFrame_kept
    | with_reducible apply State.inflightDown_kept
    | with_reducible apply State.pushCopies_kept
    | with_reducible apply State.setFrame_kept
    | with_reducible apply State.walk_kept
    | (intro t x (ht : Kept a t))
    | (intro t; clear_value t)
    | split

theorem State.holdEvent_kept {a : State} (s : State) (r : Nat) (x2 : Option SourceEvent) (h : Kept a s) : Kept a (State.holdEvent s r x2) := by
  unfold State.holdEvent
  try lift_lets
  repeat' first
    | with_reducible assumption
    | with_reducible apply Kept.ite
    | with_reducible apply State.setFrame_kept
    | with_reducible apply State.sourceEvent_kept
    | split

theorem State.sduFails_kept {a : State} (s : State) (f : Frame) (h : Kept a s) : Kept a (State.sduFails s f).2 := by
  unfold State.sduFails
  try lift_lets
  repeat' first
    | with_reducible assumption
    | with_reducible apply Kept.ite
    | with_reducible apply Kept.ite_snd
    | with_reducible apply State.inc_kept
    | with_reducible apply State.sat_kept
    | with_reducible apply State.wr_kept
    | (intro t; clear_value t)
    | split

theorem State.sduNow_kept {a : State} (s : State) (r : Nat) (h : Kept a s) : Kept a (State.sduNow s r) := by
  unfold State.sduNow
  try lift_lets
  repeat' first
    | with_reducible assumption
    | with_reducible apply Kept.ite
    | with_reducible apply State.sduFails_kept
    | with_reducible apply State.updFrame_kept
    | split

theorem State.applyVerdict_kept {a : State} (s : State) (w : Bool) (r : Nat) (v : HeadVerdict) (h : Kept a s) : Kept a (State.applyVerdict s w r v) := by
  unfold State.applyVerdict
  try lift_lets
  repeat' first
    | with_reducible assumption
    | with_reducible apply State.planCopies_kept
    | with_reducible apply State.recircAdmit_kept
    | with_reducible apply State.sduNow_kept
    | with_reducible apply State.setFrame_kept
    | with_reducible apply State.slowAdmit_kept
    | with_reducible apply State.updFrame_kept
    | (intro t; refine Kept.cut (a := a) (t := t) ?_ ?_ <;> first | (intro ht; clear_value t) | subst t)
    | (intro t; clear_value t)
    | lift_lets
    | split

theorem State.judgeFrame_kept {a : State} (s : State) (w : Bool) (r : Nat) (f : Frame) (h : Kept a s) : Kept a (State.judgeFrame s w r f) := by
  unfold State.judgeFrame
  try lift_lets
  repeat' first
    | with_reducible assumption
    | with_reducible apply Kept.ite
    | with_reducible apply Kept.ite_snd
    | with_reducible apply State.applyVerdict_kept
    | with_reducible apply State.discardFrame_kept
    | with_reducible apply State.holdEvent_kept
    | with_reducible apply State.inc_kept
    | with_reducible apply State.judgeHead_kept
    | with_reducible apply State.resolve_kept
    | with_reducible apply State.sat_kept
    | with_reducible apply State.setFrame_kept
    | with_reducible apply State.vlanEntry_kept
    | (intro t; refine Kept.cut (a := a) (t := t) ?_ ?_ <;> first | (intro ht; clear_value t) | subst t)
    | (intro t; clear_value t)
    | lift_lets
    | (split <;> first | (rename_i t heq; refine (fun (ht : Kept a t) => ?_) (Kept.ofEq heq ?_)) | skip)

theorem headDeliverStep_kept {a : State} (port : Nat) (s : State) (h : Kept a s) : Kept a (headDeliverStep port s) := by
  unfold headDeliverStep
  try lift_lets
  repeat' first
    | with_reducible assumption
    | with_reducible apply Kept.ite
    | with_reducible apply State.admitHead_kept
    | with_reducible apply State.discardFrame_kept
    | with_reducible apply State.inflightDown_kept
    | with_reducible apply State.judgeFrame_kept
    | with_reducible apply State.sat_kept
    | with_reducible apply State.setInput_kept
    | (intro t; refine Kept.cut (a := a) (t := t) ?_ ?_ <;> first | (intro ht; clear_value t) | subst t)
    | (intro t; clear_value t)
    | lift_lets
    | split

theorem State.macsecFail_kept {a : State} (s : State) (p : Nat) (f : MacFrame) (h : Kept a s) : Kept a (State.macsecFail s p f).2 := by
  unfold State.macsecFail
  try lift_lets
  repeat' first
    | with_reducible assumption
    | with_reducible apply State.sat_kept

theorem State.macsecCheck_kept {a : State} (s : State) (p : Nat) (f : MacFrame) (h : Kept a s) : Kept a (State.macsecCheck s p f).2 := by
  unfold State.macsecCheck
  try lift_lets
  repeat' first
    | with_reducible assumption
    | with_reducible apply Kept.ite_snd
    | with_reducible apply State.cipherCheck_kept
    | with_reducible apply State.macsecFail_kept
    | with_reducible apply State.sat_kept
    | with_reducible apply State.wr_kept
    | (intro t; clear_value t)
    | lift_lets
    | split

theorem State.divertPtp_kept {a : State} (s : State) (p : Nat) (wc : Nat) (b : List Byte) (h : Kept a s) : Kept a (State.divertPtp s p wc b) := by
  unfold State.divertPtp
  try lift_lets
  repeat' first
    | with_reducible assumption
    | with_reducible apply Kept.ite
    | with_reducible exact Kept.update (by with_reducible assumption) (by rfl) (by rfl) (by rfl) (by rfl)
    | with_reducible apply State.sat_kept

theorem State.correctEntry_kept {a : State} (s : State) (q : Nat) (n : Nat) (x3 : QEntry) (h : Kept a s) : Kept a (State.correctEntry s q n x3) := by
  unfold State.correctEntry
  try lift_lets
  repeat' first
    | with_reducible assumption
    | with_reducible apply State.acctAdd_kept
    | with_reducible apply State.acctSub_kept
    | with_reducible apply State.setQueue_kept

theorem State.correctLossless_kept {a : State} (s : State) (r : Nat) (n : Nat) (h : Kept a s) : Kept a (State.correctLossless s r n) := by
  unfold State.correctLossless
  try lift_lets
  repeat' first
    | with_reducible assumption
    | with_reducible apply Kept.ite
    | with_reducible apply Kept.foldl
    | with_reducible apply State.setFrame_kept
    | with_reducible apply State.setLossless_kept
    | (intro t x (ht : Kept a t))
    | split

theorem State.correctDeficit_kept {a : State} (s : State) (p : Nat) (c : Nat) (f : Frame) (h : Kept a s) : Kept a (State.correctDeficit s p c f) := by
  unfold State.correctDeficit
  try lift_lets
  repeat' first
    | with_reducible assumption
    | with_reducible apply State.setSpout_kept
    | (intro t; clear_value t)
    | split

theorem State.correctAcct_kept {a : State} (s : State) (r : Nat) (h : Kept a s) : Kept a (State.correctAcct s r) := by
  unfold State.correctAcct
  try lift_lets
  repeat' first
    | with_reducible assumption
    | with_reducible apply Kept.ite
    | with_reducible apply Kept.foldl
    | with_reducible apply State.correctDeficit_kept
    | with_reducible apply State.correctEntry_kept
    | with_reducible apply State.correctLossless_kept
    | (intro t x (ht : Kept a t))
    | split

theorem State.cutBad_kept {a : State} (s : State) (p : Nat) (f : Frame) (h : Kept a s) : Kept a (State.cutBad s p f) := by
  unfold State.cutBad
  try lift_lets
  repeat' first
    | with_reducible assumption
    | with_reducible apply Kept.ite
    | with_reducible apply State.sat_kept

theorem State.frameBad_kept {a : State} (s : State) (p : Nat) (r : Nat) (cut : Bool) (f : Frame) (h : Kept a s) : Kept a (State.frameBad s p r cut f) := by
  unfold State.frameBad
  try lift_lets
  repeat' first
    | with_reducible assumption
    | with_reducible apply Kept.ite
    | with_reducible apply Kept.foldl
    | with_reducible apply State.cutBad_kept
    | with_reducible apply State.inflightDown_kept
    | with_reducible apply State.updFrame_kept
    | with_reducible apply State.walk_kept
    | (intro t x (ht : Kept a t))
    | lift_lets
    | (with_reducible refine Kept.update ?_ (by rfl) (by rfl) (by rfl) (by rfl); with_reducible apply State.cutBad_kept)
    | split

theorem State.issueEvent_kept {a : State} (s : State) (x1 : Option SourceEvent) (h : Kept a s) : Kept a (State.issueEvent s x1) := by
  unfold State.issueEvent
  try lift_lets
  repeat' first
    | with_reducible assumption
    | with_reducible apply State.sourceEvent_kept
    | split

theorem State.frameGood_kept {a : State} (s : State) (r : Nat) (f : Frame) (h : Kept a s) : Kept a (State.frameGood s r f) := by
  unfold State.frameGood
  try lift_lets
  repeat' first
    | with_reducible assumption
    | with_reducible apply State.issueEvent_kept
    | with_reducible apply State.pushCopies_kept
    | with_reducible apply State.updFrame_kept

theorem State.countAssembly_kept {a : State} (s : State) (p : Nat) (x2 : Nat) (h : Kept a s) : Kept a (State.countAssembly s p x2) := by
  unfold State.countAssembly
  try lift_lets
  repeat' first
    | with_reducible assumption
    | with_reducible apply Kept.ite
    | with_reducible apply State.inc_kept
    | with_reducible apply State.sat_kept

theorem State.countRxOctets_kept {a : State} (s : State) (p : Nat) (n : Nat) (h : Kept a s) : Kept a (State.countRxOctets s p n) := by
  unfold State.countRxOctets
  try lift_lets
  repeat' first
    | with_reducible exact Kept.update (by with_reducible assumption) (by rfl) (by rfl) (by rfl) (by rfl)
    | with_reducible apply State.wr_kept

theorem State.countTxOctets_kept {a : State} (s : State) (p : Nat) (n : Nat) (h : Kept a s) : Kept a (State.countTxOctets s p n) := by
  unfold State.countTxOctets
  try lift_lets
  repeat' first
    | with_reducible exact Kept.update (by with_reducible assumption) (by rfl) (by rfl) (by rfl) (by rfl)
    | with_reducible apply State.wr_kept

theorem State.endChecks_kept {a : State} (s : State) (p : Nat) (x2 : Nat) (f : MacFrame) (b : List Byte) (x : Option Frame) (h : Kept a s) : Kept a (State.endChecks s p x2 f b x).2 := by
  unfold State.endChecks
  try lift_lets
  repeat' first
    | with_reducible assumption
    | with_reducible apply Kept.ite_snd
    | with_reducible apply State.macsecCheck_kept
    | with_reducible apply State.sat_kept
    | with_reducible apply State.sduFails_kept
    | lift_lets
    | (split <;> first | (rename_i t heq; refine (fun (ht : Kept a t) => ?_) (Kept.ofEq heq ?_)) | (rename_i t _ heq; refine (fun (ht : Kept a t) => ?_) (Kept.ofEq heq ?_)) | skip)

theorem State.endFrame_kept {a : State} (s : State) (p : Nat) (x2 : Nat) (f : MacFrame) (h : Kept a s) : Kept a (State.endFrame s p x2 f) := by
  unfold State.endFrame
  try lift_lets
  repeat' first
    | with_reducible assumption
    | with_reducible apply Kept.ite
    | with_reducible apply State.correctAcct_kept
    | with_reducible apply State.countRxOctets_kept
    | with_reducible apply State.cutBad_kept
    | with_reducible apply State.divertPtp_kept
    | with_reducible apply State.endChecks_kept
    | with_reducible apply State.frameBad_kept
    | with_reducible apply State.frameGood_kept
    | with_reducible apply State.inc_kept
    | with_reducible apply State.issueEvent_kept
    | (intro t; refine Kept.cut (a := a) (t := t) ?_ ?_ <;> first | (intro ht; clear_value t) | subst t)
    | (intro t; clear_value t)
    | lift_lets
    | (split <;> first | (rename_i t heq; refine (fun (ht : Kept a t) => ?_) (Kept.ofEq heq ?_)) | (rename_i t _ heq; refine (fun (ht : Kept a t) => ?_) (Kept.ofEq heq ?_)) | skip)

theorem frameEndStep_kept {a : State} (p : Nat) (assembly : Nat) (s : State) (h : Kept a s) : Kept a (frameEndStep p assembly s) := by
  unfold frameEndStep
  try lift_lets
  repeat' first
    | with_reducible assumption
    | with_reducible apply Kept.ite
    | with_reducible apply State.countAssembly_kept
    | with_reducible apply State.endFrame_kept
    | with_reducible apply State.macDone_kept
    | with_reducible apply State.sat_kept
    | lift_lets
    | split

theorem State.arrive_kept {a : State} (s : State) (p : Nat) (x2 : Option RxIn) (h : Kept a s) : Kept a (State.arrive s p x2) := by
  unfold State.arrive
  try lift_lets
  repeat' first
    | with_reducible assumption
    | with_reducible apply cellWriteStep_kept
    | with_reducible apply frameEndStep_kept
    | split

theorem bankReleaseStep_kept {a : State} (s : State) (h : Kept a s) : Kept a (bankReleaseStep s) := by
  unfold bankReleaseStep
  try lift_lets
  repeat' first
    | with_reducible assumption
    | with_reducible apply Kept.ite
    | with_reducible apply State.wr_kept

theorem releaseTimeoutStep_kept {a : State} (s : State) (h : Kept a s) : Kept a (releaseTimeoutStep s) := by
  unfold releaseTimeoutStep
  try lift_lets
  repeat' first
    | with_reducible assumption
    | with_reducible apply Kept.ite
    | with_reducible apply State.check_kept
    | with_reducible apply State.wr_kept

theorem State.genSwap_kept {a : State} (s : State) (master : Nat) (h : Kept a s) : Kept a (State.genSwap s master) := by
  unfold State.genSwap
  try lift_lets
  repeat' first
    | with_reducible assumption
    | with_reducible apply Kept.ite
    | with_reducible apply State.refuse_kept
    | with_reducible apply State.sat_kept
    | with_reducible apply State.wr_kept
    | lift_lets
    | (with_reducible refine Kept.update ?_ (by rfl) (by rfl) (by rfl) (by rfl); with_reducible apply State.wr_kept)

theorem State.drainTick_kept {a : State} (s : State) (h : Kept a s) : Kept a (State.drainTick s) := by
  unfold State.drainTick
  try lift_lets
  repeat' first
    | with_reducible assumption
    | with_reducible apply Kept.ite
    | with_reducible exact Kept.update (by with_reducible assumption) (by rfl) (by rfl) (by rfl) (by rfl)

end Sys2Proof.Machine
end

