-- ==== Sys2Proof/Laws/KeepLine.lean ====
section
/-! SUPPORT. The operations of Machine/Line.lean keep what `Kept` says. -/

namespace Sys2Proof.Machine

set_option maxRecDepth 20000

theorem State.setTxQueue_kept {a : State} (s : State) (p : Nat) (l : List PtpMsg) (h : Kept a s) : Kept a (State.setTxQueue s p l) := by
  unfold State.setTxQueue
  try lift_lets
  repeat' with_reducible exact Kept.update (by with_reducible assumption) (by rfl) (by rfl) (by rfl) (by rfl)

theorem State.setTxWaiting_kept {a : State} (s : State) (p : Nat) (l : List PtpMsg) (h : Kept a s) : Kept a (State.setTxWaiting s p l) := by
  unfold State.setTxWaiting
  try lift_lets
  repeat' with_reducible exact Kept.update (by with_reducible assumption) (by rfl) (by rfl) (by rfl) (by rfl)

theorem State.ptpPut_kept {a : State} (s : State) (m : PtpMsg) (h : Kept a s) : Kept a (State.ptpPut s m) := by
  unfold State.ptpPut
  try lift_lets
  repeat' first
    | with_reducible assumption
    | with_reducible apply Kept.ite
    | with_reducible apply State.setTxQueue_kept
    | with_reducible apply State.setTxWaiting_kept

theorem State.ptpTaken_kept {a : State} (s : State) (p : Nat) (h : Kept a s) : Kept a (State.ptpTaken s p) := by
  unfold State.ptpTaken
  try lift_lets
  repeat' first
    | with_reducible assumption
    | with_reducible apply State.setTxQueue_kept
    | with_reducible apply State.setTxWaiting_kept
    | (intro t; clear_value t)
    | split

theorem State.setPdelay_kept {a : State} (s : State) (p : Nat) (x : PdelayState) (h : Kept a s) : Kept a (State.setPdelay s p x) := by
  unfold State.setPdelay
  try lift_lets
  repeat' with_reducible exact Kept.update (by with_reducible assumption) (by rfl) (by rfl) (by rfl) (by rfl)

theorem State.ptpLeave_kept {a : State} (s : State) (m : PtpMsg) (te : Nat) (h : Kept a s) : Kept a (State.ptpLeave s m te).2 := by
  unfold State.ptpLeave
  try lift_lets
  repeat' first
    | with_reducible assumption
    | with_reducible apply Kept.ite_snd
    | with_reducible apply State.inc_kept
    | with_reducible apply State.ptpPut_kept
    | with_reducible apply State.setPdelay_kept
    | (intro t; refine Kept.cut (a := a) (t := t) ?_ ?_ <;> first | (intro ht; clear_value t) | subst t)
    | (intro t; clear_value t)
    | split

theorem State.finishTx_kept {a : State} (s : State) (p : Nat) (x2 : Tx) (st : Nat) (en : Nat) (h : Kept a s) : Kept a (State.finishTx s p x2 st en) := by
  unfold State.finishTx
  try lift_lets
  repeat' first
    | with_reducible assumption
    | with_reducible apply Kept.ite
    | with_reducible apply Kept.ite_snd
    | with_reducible apply State.cbsTo_kept
    | with_reducible apply State.cipherCheck_kept
    | with_reducible apply State.countTxOctets_kept
    | with_reducible apply State.inc_kept
    | with_reducible apply State.sat_kept
    | with_reducible apply State.setSpout_kept
    | lift_lets
    | (with_reducible refine Kept.update ?_ (by rfl) (by rfl) (by rfl) (by rfl); with_reducible apply Kept.ite)

theorem State.cutTx_kept {a : State} (s : State) (p : Nat) (x2 : Tx) (st : Nat) (en : Nat) (n : Nat) (h : Kept a s) : Kept a (State.cutTx s p x2 st en n) := by
  unfold State.cutTx
  try lift_lets
  repeat' first
    | with_reducible assumption
    | with_reducible apply State.cbsTo_kept
    | with_reducible apply State.inc_kept
    | with_reducible apply State.setSpout_kept

theorem State.setTx_kept {a : State} (s : State) (p : Nat) (i : Nat) (x3 : Tx) (h : Kept a s) : Kept a (State.setTx s p i x3) := by
  unfold State.setTx
  try lift_lets
  repeat' first
    | with_reducible assumption
    | with_reducible apply State.setSpout_kept

theorem State.dropTx_kept {a : State} (s : State) (p : Nat) (i : Nat) (h : Kept a s) : Kept a (State.dropTx s p i) := by
  unfold State.dropTx
  try lift_lets
  repeat' first
    | with_reducible assumption
    | with_reducible apply State.setSpout_kept

theorem State.beginTx_kept {a : State} (s : State) (p : Nat) (i : Nat) (x3 : Tx) (st : Nat) (h : Kept a s) : Kept a (State.beginTx s p i x3 st) := by
  unfold State.beginTx
  try lift_lets
  repeat' first
    | with_reducible assumption
    | with_reducible apply State.ptpLeave_kept
    | with_reducible apply State.setTx_kept
    | (intro t; clear_value t)
    | split

theorem State.startTx_kept {a : State} (s : State) (p : Nat) (i : Nat) (x3 : Tx) (st : Nat) (h : Kept a s) : Kept a (State.startTx s p i x3 st) := by
  unfold State.startTx
  try lift_lets
  repeat' first
    | with_reducible assumption
    | with_reducible apply Kept.ite
    | with_reducible apply State.beginTx_kept
    | with_reducible apply State.cbsTo_kept
    | with_reducible apply State.cipherCheck_kept
    | with_reducible apply State.dropTx_kept
    | with_reducible apply State.setTx_kept
    | with_reducible apply State.takePn_kept
    | lift_lets
    | (split <;> (rename_i t heq; refine (fun (ht : Kept a t) => ?_) (Kept.ofEq heq ?_)))

theorem State.lineRun_kept {a : State} (p : Nat) (x1 : Nat) (x2 : Nat) (x3 : State) (h : Kept a x3) : Kept a (State.lineRun p x1 x2 x3) := by
  induction x2 generalizing x3 with
  | zero => exact State.cbsTo_kept _ _ _ h
  | succ n ih =>
    unfold State.lineRun
    have h0 := State.cbsTo_kept x3 p x1 h
    split
    · dsimp only
      split
      · apply Kept.ite h0
        split <;> apply ih
        · exact State.cutTx_kept _ _ _ _ _ _ h
        · exact State.finishTx_kept _ _ _ _ _ h
      · exact h0
    · split
      · exact Kept.ite h0 (ih _ (State.startTx_kept _ _ _ _ _ h))
      · exact h0

theorem State.lineTo_kept {a : State} (s : State) (p : Nat) (h : Kept a s) : Kept a (State.lineTo s p) := by
  unfold State.lineTo
  try lift_lets
  repeat' first
    | with_reducible assumption
    | with_reducible apply Kept.ite
    | with_reducible apply State.lineRun_kept

end Sys2Proof.Machine
end

