-- ==== Sys2Proof/Laws/KeepSpout.lean ====
section
/-! SUPPORT. The operations of Machine/Spout.lean keep what `Kept` says. -/

namespace Sys2Proof.Machine

set_option maxRecDepth 20000

theorem State.setGates_kept {a : State} (s : State) (p : Nat) (x : GateState) (h : Kept a s) : Kept a (State.setGates s p x) := by
  unfold State.setGates
  try lift_lets
  repeat' first
    | with_reducible assumption
    | with_reducible apply State.setSpout_kept
    | with_reducible apply State.wr_kept

theorem State.gatePend_kept {a : State} (s : State) (p : Nat) (h : Kept a s) : Kept a (State.gatePend s p) := by
  unfold State.gatePend
  try lift_lets
  repeat' first
    | with_reducible assumption
    | with_reducible apply State.setGates_kept

theorem State.gateCycle_kept {a : State} (s : State) (p : Nat) (x : GateState) (x3 : Int) (h : Kept a s) : Kept a (State.gateCycle s p x x3) := by
  unfold State.gateCycle
  try lift_lets
  repeat' first
    | with_reducible assumption
    | with_reducible apply State.setGates_kept

theorem gateCycleStartStep_kept {a : State} (p : Nat) (s : State) (h : Kept a s) : Kept a (gateCycleStartStep p s) := by
  unfold gateCycleStartStep
  try lift_lets
  repeat' first
    | with_reducible assumption
    | with_reducible apply Kept.ite
    | with_reducible apply State.gateCycle_kept
    | lift_lets
    | split

theorem gateEntryExpiryStep_kept {a : State} (p : Nat) (s : State) (h : Kept a s) : Kept a (gateEntryExpiryStep p s) := by
  unfold gateEntryExpiryStep
  try lift_lets
  repeat' first
    | with_reducible assumption
    | with_reducible apply Kept.ite
    | with_reducible apply State.setGates_kept
    | (intro t; clear_value t)
    | split

theorem State.gateOff_kept {a : State} (s : State) (p : Nat) (h : Kept a s) : Kept a (State.gateOff s p) := by
  unfold State.gateOff
  try lift_lets
  repeat' first
    | with_reducible assumption
    | with_reducible apply State.setGates_kept
    | with_reducible apply State.setSpout_kept

theorem State.gateStep_kept {a : State} (s : State) (p : Nat) (td : Nat) (h : Kept a s) : Kept a (State.gateStep s p td) := by
  unfold State.gateStep
  try lift_lets
  repeat' first
    | with_reducible assumption
    | with_reducible apply Kept.ite
    | with_reducible apply State.sat_kept
    | with_reducible apply State.setGates_kept
    | with_reducible apply State.setSpout_kept
    | lift_lets
    | split

theorem State.gclNext_kept {a : State} (s : State) (p : Nat) (h : Kept a s) : Kept a (State.gclNext s p) := by
  unfold State.gclNext
  try lift_lets
  repeat' first
    | with_reducible assumption
    | with_reducible apply State.inc_kept

theorem gclDataWriteStep_kept {a : State} (p : Nat) (v : Word) (master : Nat) (s : State) (h : Kept a s) : Kept a (gclDataWriteStep p v master s) := by
  unfold gclDataWriteStep
  try lift_lets
  repeat' first
    | with_reducible assumption
    | with_reducible apply Kept.ite
    | with_reducible apply State.gclNext_kept
    | with_reducible apply State.refuse_kept
    | with_reducible apply State.sat_kept
    | with_reducible apply State.setSpout_kept
    | with_reducible apply State.wr_kept

theorem gclDataReadStep_kept {a : State} (p : Nat) (s : State) (h : Kept a s) : Kept a (gclDataReadStep p s) := by
  unfold gclDataReadStep
  try lift_lets
  repeat' first
    | with_reducible assumption
    | with_reducible apply Kept.ite
    | with_reducible exact Kept.update (by with_reducible assumption) (by rfl) (by rfl) (by rfl) (by rfl)
    | with_reducible apply State.gclNext_kept
    | with_reducible apply State.wr_kept
    | lift_lets
    | (with_reducible refine Kept.update ?_ (by rfl) (by rfl) (by rfl) (by rfl); with_reducible apply State.wr_kept)

theorem State.eligible_kept {a : State} (s : State) (p : Nat) (c : Nat) (h : Kept a s) : Kept a (State.eligible s p c).2 := by
  unfold State.eligible
  try lift_lets
  repeat' first
    | with_reducible assumption
    | with_reducible apply Kept.ite
    | with_reducible apply State.inc_kept
    | with_reducible apply State.setQueue_kept
    | (intro t; clear_value t)
    | split

theorem State.eligibleMask_kept {a : State} (s : State) (p : Nat) (h : Kept a s) : Kept a (State.eligibleMask s p).2 := by
  unfold State.eligibleMask
  try lift_lets
  repeat' first
    | with_reducible assumption
    | with_reducible apply Kept.foldl_snd
    | with_reducible apply State.eligible_kept
    | with_reducible apply State.wr_kept
    | (intro t x (ht : Kept a t.2))

theorem State.noDeficit_kept {a : State} (s : State) (p : Nat) (c : Nat) (h : Kept a s) : Kept a (State.noDeficit s p c) := by
  unfold State.noDeficit
  try lift_lets
  repeat' first
    | with_reducible assumption
    | with_reducible apply State.setSpout_kept

theorem State.dwrrVisit_kept {a : State} (s : State) (p : Nat) (c : Nat) (h : Kept a s) : Kept a (State.dwrrVisit s p c).2 := by
  unfold State.dwrrVisit
  try lift_lets
  repeat' first
    | with_reducible assumption
    | with_reducible apply Kept.ite_snd
    | with_reducible apply State.setSpout_kept
    | (intro t; clear_value t)
    | split

theorem State.dwrrTurn_kept {a : State} (s : State) (p : Nat) (mask : Nat) (x3 : Nat) (x4 : Nat) (h : Kept a s) : Kept a (State.dwrrTurn s p mask x3 x4).2 := by
  induction x3 generalizing s x4 with
  | zero => exact h
  | succ n ih =>
    unfold State.dwrrTurn
    try lift_lets
    repeat' first
      | with_reducible assumption
      | with_reducible apply Kept.ite_snd
      | apply ih
      | with_reducible apply State.dwrrVisit_kept
      | with_reducible apply State.noDeficit_kept
      | lift_lets
      | (split <;> (rename_i t heq; refine (fun (ht : Kept a t) => ?_) (Kept.ofEq heq ?_)))

theorem State.pick_kept {a : State} (s : State) (p : Nat) (mask : Nat) (h : Kept a s) : Kept a (State.pick s p mask).2 := by
  unfold State.pick
  try lift_lets
  repeat' first
    | with_reducible assumption
    | with_reducible apply Kept.ite_snd
    | with_reducible apply State.dwrrTurn_kept
    | (intro t; clear_value t)
    | split

theorem State.select_kept {a : State} (s : State) (p : Nat) (c : Nat) (before : Int) (h : Kept a s) : Kept a (State.select s p c before) := by
  unfold State.select
  try lift_lets
  repeat' first
    | with_reducible assumption
    | with_reducible apply Kept.ite
    | with_reducible apply State.removeEntry_kept
    | with_reducible apply State.setReading_kept
    | with_reducible apply State.unselect_kept
    | with_reducible apply State.walk_kept
    | (intro t; refine Kept.cut (a := a) (t := t) ?_ ?_ <;> first | (intro ht; clear_value t) | subst t)
    | split

theorem State.sendMsg_kept {a : State} (s : State) (p : Nat) (m : PtpMsg) (h : Kept a s) : Kept a (State.sendMsg s p m) := by
  unfold State.sendMsg
  try lift_lets
  repeat' first
    | with_reducible assumption
    | with_reducible apply State.setSpout_kept

theorem spoutSelectStep_kept {a : State} (p : Nat) (s : State) (h : Kept a s) : Kept a (spoutSelectStep p s) := by
  unfold spoutSelectStep
  try lift_lets
  repeat' first
    | with_reducible assumption
    | with_reducible apply Kept.ite
    | with_reducible apply State.eligibleMask_kept
    | with_reducible apply State.pick_kept
    | with_reducible apply State.ptpTaken_kept
    | with_reducible apply State.select_kept
    | with_reducible apply State.sendMsg_kept
    | (intro t; clear_value t)
    | lift_lets
    | (split <;> first | (rename_i t heq; refine (fun (ht : Kept a t) => ?_) (Kept.ofEq heq ?_)) | skip)

theorem framePreemptStep_kept {a : State} (p : Nat) (age : Nat) (s : State) (h : Kept a s) : Kept a (framePreemptStep p age s) := by
  unfold framePreemptStep
  try lift_lets
  repeat' first
    | with_reducible assumption
    | with_reducible apply Kept.ite
    | with_reducible apply State.setSpout_kept
    | lift_lets
    | split

theorem State.holdEnd_kept {a : State} (s : State) (p : Nat) (h : Kept a s) : Kept a (State.holdEnd s p) := by
  unfold State.holdEnd
  try lift_lets
  repeat' first
    | with_reducible assumption
    | with_reducible apply Kept.ite
    | with_reducible apply State.setGates_kept

theorem preemptVerifyStep_kept {a : State} (p : Nat) (outcome : Nat) (s : State) (h : Kept a s) : Kept a (preemptVerifyStep p outcome s) := by
  unfold preemptVerifyStep
  try lift_lets
  repeat' first
    | with_reducible assumption
    | with_reducible apply Kept.ite
    | with_reducible apply State.holdEnd_kept
    | with_reducible apply State.sat_kept
    | with_reducible apply State.wr_kept

theorem State.preemptCfg_kept {a : State} (s : State) (p : Nat) (h : Kept a s) : Kept a (State.preemptCfg s p) := by
  unfold State.preemptCfg
  try lift_lets
  repeat' first
    | with_reducible assumption
    | with_reducible apply State.wr_kept

theorem ePortLinkChangeStep_kept {a : State} (p : Nat) (mbps : Nat) (s : State) (h : Kept a s) : Kept a (ePortLinkChangeStep p mbps s) := by
  unfold ePortLinkChangeStep
  try lift_lets
  repeat' first
    | with_reducible assumption
    | with_reducible apply Kept.ite
    | with_reducible exact Kept.update (by with_reducible assumption) (by rfl) (by rfl) (by rfl) (by rfl)
    | with_reducible apply State.holdEnd_kept
    | with_reducible apply State.preemptCfg_kept

theorem State.endCopy_kept {a : State} (s : State) (p : Nat) (r : Reading) (x3 : QEntry) (f : Frame) (h : Kept a s) : Kept a (State.endCopy s p r x3 f) := by
  unfold State.endCopy
  try lift_lets
  repeat' first
    | with_reducible assumption
    | with_reducible apply Kept.ite
    | with_reducible apply State.copyLost_kept
    | with_reducible apply State.removeEntry_kept
    | with_reducible apply State.setReading_kept
    | with_reducible apply State.stompTx_kept
    | with_reducible apply State.walkFrom_kept

theorem State.loseQueue_kept {a : State} (s : State) (q : Nat) (h : Kept a s) : Kept a (State.loseQueue s q) := by
  unfold State.loseQueue
  try lift_lets
  repeat' first
    | with_reducible assumption
    | with_reducible apply Kept.foldl
    | with_reducible apply State.copyDone_kept
    | with_reducible apply State.copyLost_kept
    | with_reducible apply State.removeEntry_kept
    | with_reducible apply State.sat_kept
    | with_reducible apply State.unselect_kept
    | (intro t x (ht : Kept a t))

theorem State.lineUp_kept {a : State} (s : State) (p : Nat) (c : Nat) (f : Frame) (h : Kept a s) : Kept a (State.lineUp s p c f) := by
  unfold State.lineUp
  try lift_lets
  repeat' first
    | with_reducible assumption
    | with_reducible apply State.draw_kept
    | with_reducible apply State.setSpout_kept

theorem State.startCopy_kept {a : State} (s : State) (p : Nat) (c : Nat) (x3 : QEntry) (f : Frame) (h : Kept a s) : Kept a (State.startCopy s p c x3 f) := by
  unfold State.startCopy
  try lift_lets
  repeat' first
    | with_reducible assumption
    | with_reducible apply Kept.ite
    | with_reducible apply State.inc_kept
    | with_reducible apply State.lineUp_kept
    | with_reducible apply State.pcsSettle_kept
    | with_reducible apply State.setPcs_kept
    | with_reducible apply State.setQueue_kept
    | with_reducible apply State.updFrame_kept

theorem State.setT1s_kept {a : State} (s : State) (g : Nat) (x : T1sState) (h : Kept a s) : Kept a (State.setT1s s g x) := by
  unfold State.setT1s
  try lift_lets
  repeat' with_reducible exact Kept.update (by with_reducible assumption) (by rfl) (by rfl) (by rfl) (by rfl)

theorem State.toSegments_kept {a : State} (s : State) (mask : Nat) (b : List Byte) (h : Kept a s) : Kept a (State.toSegments s mask b) := by
  unfold State.toSegments
  try lift_lets
  repeat' first
    | with_reducible assumption
    | with_reducible apply Kept.ite
    | with_reducible apply Kept.foldl
    | with_reducible apply State.sat_kept
    | with_reducible apply State.setT1s_kept
    | (intro t x (ht : Kept a t))

theorem State.handOver_kept {a : State} (s : State) (p : Nat) (f : Frame) (copy : Copy) (b : List Byte) (h : Kept a s) : Kept a (State.handOver s p f copy b) := by
  unfold State.handOver
  try lift_lets
  repeat' first
    | with_reducible assumption
    | with_reducible apply Kept.ite
    | with_reducible exact Kept.update (by with_reducible assumption) (by rfl) (by rfl) (by rfl) (by rfl)
    | with_reducible apply State.offer_kept
    | with_reducible apply State.toSegments_kept

theorem State.finishCopy_kept {a : State} (s : State) (p : Nat) (r : Reading) (x3 : QEntry) (f : Frame) (h : Kept a s) : Kept a (State.finishCopy s p r x3 f) := by
  unfold State.finishCopy
  try lift_lets
  repeat' first
    | with_reducible assumption
    | with_reducible apply Kept.ite
    | with_reducible apply State.closeTx_kept
    | with_reducible apply State.copyDone_kept
    | with_reducible apply State.handOver_kept
    | with_reducible apply State.removeEntry_kept
    | with_reducible apply State.setReading_kept
    | with_reducible apply State.setSpout_kept

theorem State.bufferCell_kept {a : State} (s : State) (p : Nat) (tc : Nat) (h : Kept a s) : Kept a (State.bufferCell s p tc) := by
  unfold State.bufferCell
  try lift_lets
  repeat' first
    | with_reducible assumption
    | with_reducible apply State.setSpout_kept

theorem State.takeCell_kept {a : State} (s : State) (p : Nat) (r : Reading) (x3 : QEntry) (f : Frame) (i : Nat) (ptr : Nat) (h : Kept a s) : Kept a (State.takeCell s p r x3 f i ptr) := by
  unfold State.takeCell
  try lift_lets
  repeat' first
    | with_reducible assumption
    | with_reducible apply Kept.ite
    | with_reducible apply State.bufferCell_kept
    | with_reducible apply State.endCopy_kept
    | with_reducible apply State.fabCheck_kept
    | with_reducible apply State.finishCopy_kept
    | with_reducible apply State.release_kept
    | with_reducible apply State.setReading_kept

theorem State.readHead_kept {a t : State} (s : State) (p : Nat) (q : Nat) (r : Reading) (x4 : QEntry) (f : Frame) (i : Nat) (ptr : Nat) (h : Kept a s) (e : State.readHead s p q r x4 f i ptr = some t) : Kept a t := by
  have first (u : State) (k : Kept a u) (b : Bool) (m i : Nat) :
      Kept a (if b then (CodeResult.good, u) else u.fabCheck m i true).2 := by
    split
    · exact k
    · exact State.fabCheck_kept _ _ _ _ k
  unfold State.readHead at e
  have h1 := first s h x4.started memQEntry x4.slot
  revert h1 e
  generalize (if x4.started then (CodeResult.good, s) else s.fabCheck memQEntry x4.slot true) = c
  obtain ⟨k, s1⟩ := c
  intro e h1
  dsimp only at e h1
  split at e
  · cases e
  · split at e
    · obtain rfl := Option.some.inj e
      exact State.loseQueue_kept _ _ h1
    · split at e
      · obtain rfl := Option.some.inj e
        exact State.walk_kept _ _ (State.removeEntry_kept _ _ _ (State.unselect_kept _ _ _ h1))
      · have h2 := first s1 h1 x4.started memRecord x4.frame
        revert h2 e
        generalize (if x4.started then (CodeResult.good, s1) else s1.fabCheck memRecord x4.frame true) = c
        obtain ⟨k', s2⟩ := c
        intro e h2
        dsimp only at e h2
        split at e
        · obtain rfl := Option.some.inj e
          exact State.loseFrame_kept _ _ h2
        · obtain rfl := Option.some.inj e
          apply State.takeCell_kept
          split
          · exact h2
          · exact State.startCopy_kept _ _ _ _ _ h2

theorem State.readOne_kept {a t : State} (s : State) (p : Nat) (r : Reading) (h : Kept a s) (e : State.readOne s p r = some t) : Kept a t := by
  revert e
  unfold State.readOne
  repeat' first
    | with_reducible assumption
    | with_reducible apply State.removeEntry_kept
    | with_reducible apply State.unselect_kept
    | (intro e; exact State.readHead_kept (h := by with_reducible assumption) (e := e))
    | (intro (e : some _ = some _); obtain rfl := Option.some.inj e)
    | (intro (e : none = some _); cases e)
    | split
    | lift_lets
    | (intro t; clear_value t)

theorem cellReadStep_kept {a : State} (p : Nat) (s : State) (h : Kept a s) : Kept a (cellReadStep p s) := by
  unfold cellReadStep
  apply Kept.ite
  · dsimp only
    split
    · exact h
    · rename_i t l heq
      have hm : t ∈ List.filterMap _ _ := heq ▸ List.mem_cons_self
      obtain ⟨r, _, e⟩ := List.mem_filterMap.mp hm
      exact State.readOne_kept (h := State.usePort_kept _ _ h) (e := e)
  · exact h

theorem State.binUp_kept {a : State} (s : State) (u : UnitNo) (lo : Fld) (hi : Fld) (c : Nat) (b : Nat) (h : Kept a s) : Kept a (State.binUp s u lo hi c b) := by
  unfold State.binUp
  try lift_lets
  repeat' first
    | with_reducible assumption
    | with_reducible apply Kept.ite
    | with_reducible apply State.sat_kept

theorem State.depthSample_kept {a : State} (s : State) (p : Nat) (c : Nat) (v : Nat) (h : Kept a s) : Kept a (State.depthSample s p c v) := by
  unfold State.depthSample
  try lift_lets
  repeat' first
    | with_reducible assumption
    | with_reducible apply Kept.ite
    | with_reducible apply State.binUp_kept
    | with_reducible apply State.sat_kept
    | with_reducible apply State.wr_kept

theorem State.sojournSample_kept {a : State} (s : State) (p : Nat) (c : Nat) (v : Nat) (h : Kept a s) : Kept a (State.sojournSample s p c v) := by
  unfold State.sojournSample
  try lift_lets
  repeat' first
    | with_reducible assumption
    | with_reducible apply Kept.ite
    | with_reducible apply State.binUp_kept
    | with_reducible apply State.sat_kept
    | with_reducible apply State.wr_kept

theorem State.sampleQueue_kept {a : State} (s : State) (p : Nat) (c : Nat) (h : Kept a s) : Kept a (State.sampleQueue s p c) := by
  unfold State.sampleQueue
  try lift_lets
  repeat' first
    | with_reducible assumption
    | with_reducible apply State.depthSample_kept
    | with_reducible apply State.sojournSample_kept
    | (intro t; refine Kept.cut (a := a) (t := t) ?_ ?_ <;> first | (intro ht; clear_value t) | subst t)
    | (intro t; clear_value t)
    | split

theorem State.spoutSome_kept {a : State} (s : State) (p : Nat) (c : Nat) (k : Nat) (h : Kept a s) : Kept a (State.spoutSome s p c k) := by
  unfold State.spoutSome
  try lift_lets
  repeat' first
    | with_reducible assumption
    | with_reducible apply Kept.foldl
    | with_reducible apply State.sampleQueue_kept
    | (intro t x (ht : Kept a t))

theorem State.histClear_kept {a : State} (s : State) (p : Nat) (h : Kept a s) : Kept a (State.histClear s p) := by
  unfold State.histClear
  try lift_lets
  repeat' first
    | (intro t; clear_value t)
    | ((with_reducible refine Kept.upd (s := _) (by with_reducible assumption) ?_ ?_ ?_ ?_ ?_) <;> first | exact fun w => Kept.sram (by assumption) w | exact fun w => Kept.gwMem (by assumption) w | exact fun w => Kept.timeProg (by assumption) w | exact fun w => Kept.cosyProg (by assumption) w | exact fun w => smWf_filter _ _ _ (Kept.regs (by assumption) w))

end Sys2Proof.Machine
end

