-- ==== Sys2Proof/Laws/KeepActivation.lean ====
section
/-! SUPPORT. The operations of Machine/Activation.lean keep what `Kept` says. -/

namespace Sys2Proof.Machine

set_option maxRecDepth 20000

theorem State.slotResult_kept {a : State} (s : State) (result : Nat) (reason : Nat) (cause : Nat) (part : Nat) (h : Kept a s) : Kept a (State.slotResult s result reason cause part) := by
  unfold State.slotResult
  try lift_lets
  repeat' first
    | with_reducible assumption
    | with_reducible apply State.wr_kept

theorem State.cancelActivation_kept {a : State} (s : State) (cause : Nat) (h : Kept a s) : Kept a (State.cancelActivation s cause) := by
  unfold State.cancelActivation
  try lift_lets
  repeat' first
    | with_reducible assumption
    | with_reducible apply Kept.ite
    | with_reducible apply State.slotResult_kept
    | with_reducible apply State.wr_kept

theorem State.setUpdState_kept {a : State} (s : State) (v : Nat) (h : Kept a s) : Kept a (State.setUpdState s v) := by
  unfold State.setUpdState
  try lift_lets
  repeat' first
    | with_reducible assumption
    | with_reducible apply State.wr_kept

theorem activationFireStep_kept {a : State} (s : State) (h : Kept a s) : Kept a (activationFireStep s) := by
  unfold activationFireStep
  try lift_lets
  repeat' first
    | with_reducible assumption
    | with_reducible apply Kept.ite
    | with_reducible apply State.cancelActivation_kept
    | with_reducible apply State.setUpdState_kept

end Sys2Proof.Machine
end

