-- ==== Sys2Proof/Laws/KeepTime.lean ====
section
/-! SUPPORT. The operations of Machine/Time.lean keep what `Kept` says. -/

namespace Sys2Proof.Machine

set_option maxRecDepth 20000

theorem State.command_kept {a : State} (s : State) (u : UnitNo) (master : Nat) (addr : Nat) (run : State → State) (h : Kept a s) (k4 : ∀ (y0 : State), Kept a y0 → Kept a (run y0)) : Kept a (State.command s u master addr run) := by
  unfold State.command
  try lift_lets
  repeat' first
    | with_reducible assumption
    | with_reducible apply Kept.ite
    | apply k4
    | with_reducible apply State.refuse_kept

theorem State.setGm_kept {a : State} (s : State) (n : Nat) (id : Nat) (h : Kept a s) : Kept a (State.setGm s n id) := by
  unfold State.setGm
  try lift_lets
  repeat' first
    | with_reducible assumption
    | with_reducible apply Kept.ite
    | with_reducible apply State.inc_kept
    | with_reducible apply State.wr_kept

theorem State.setTick_kept {a : State} (s : State) (x : TickPlan) (h : Kept a s) : Kept a (State.setTick s x) := by
  unfold State.setTick
  try lift_lets
  repeat' with_reducible exact Kept.update (by with_reducible assumption) (by rfl) (by rfl) (by rfl) (by rfl)

theorem State.tickSettle_kept {a : State} (s : State) (h : Kept a s) : Kept a (State.tickSettle s) := by
  unfold State.tickSettle
  try lift_lets
  repeat' first
    | with_reducible assumption
    | with_reducible apply State.setTick_kept

theorem State.tickFollow_kept {a : State} (s : State) (stepped : Bool) (h : Kept a s) : Kept a (State.tickFollow s stepped) := by
  unfold State.tickFollow
  try lift_lets
  repeat' first
    | with_reducible assumption
    | with_reducible apply State.setTick_kept
    | with_reducible apply State.tickSettle_kept
    | with_reducible apply State.wr_kept

theorem State.tickFree_kept {a : State} (s : State) (h : Kept a s) : Kept a (State.tickFree s) := by
  unfold State.tickFree
  try lift_lets
  repeat' first
    | with_reducible assumption
    | with_reducible apply State.setTick_kept
    | with_reducible apply State.tickSettle_kept
    | with_reducible apply State.wr_kept

theorem State.tickAfter_kept {a : State} (s : State) (n : Nat) (was : Bool) (refused : Bool) (stepped : Bool) (h : Kept a s) : Kept a (State.tickAfter s n was refused stepped) := by
  unfold State.tickAfter
  try lift_lets
  repeat' first
    | with_reducible assumption
    | with_reducible apply Kept.ite
    | with_reducible apply State.tickFollow_kept
    | with_reducible apply State.tickFree_kept

theorem State.tickTick_kept {a : State} (s : State) (h : Kept a s) : Kept a (State.tickTick s) := by
  unfold State.tickTick
  try lift_lets
  repeat' first
    | with_reducible assumption
    | with_reducible apply Kept.ite
    | with_reducible apply State.inc_kept
    | with_reducible apply State.setTick_kept
    | with_reducible apply State.tickSettle_kept
    | with_reducible apply State.wr_kept

theorem State.tsEval_kept {a : State} (s : State) (m : Nat) (h : Kept a s) : Kept a (State.tsEval s m) := by
  unfold State.tsEval
  try lift_lets
  repeat' first
    | with_reducible assumption
    | with_reducible apply Kept.ite
    | with_reducible apply State.wr_kept
    | lift_lets
    | (with_reducible refine Kept.update ?_ (by rfl) (by rfl) (by rfl) (by rfl); with_reducible apply State.wr_kept)

theorem State.restepGates_kept {a : State} (s : State) (w : Bool) (n : Nat) (h : Kept a s) : Kept a (State.restepGates s w n) := by
  unfold State.restepGates
  try lift_lets
  repeat' first
    | with_reducible assumption
    | with_reducible apply State.setStrain_kept

theorem State.stepConsumers_kept {a : State} (s : State) (n : Nat) (h : Kept a s) : Kept a (State.stepConsumers s n) := by
  unfold State.stepConsumers
  try lift_lets
  repeat' first
    | with_reducible assumption
    | with_reducible apply Kept.ite
    | with_reducible apply Kept.foldl
    | with_reducible apply State.gateStep_kept
    | with_reducible apply State.restepGates_kept
    | with_reducible apply State.tsEval_kept
    | with_reducible apply activationFireStep_kept
    | (intro t x (ht : Kept a t))

theorem State.setRate_kept {a : State} (s : State) (n : Nat) (r : Int) (h : Kept a s) : Kept a (State.setRate s n r) := by
  unfold State.setRate
  try lift_lets
  repeat' first
    | with_reducible assumption
    | with_reducible apply Kept.ite
    | with_reducible apply State.setDom_kept
    | with_reducible apply State.tickSettle_kept
    | with_reducible apply State.wr_kept

theorem State.setDomState_kept {a : State} (s : State) (n : Nat) (st : Nat) (h : Kept a s) : Kept a (State.setDomState s n st) := by
  unfold State.setDomState
  try lift_lets
  repeat' first
    | with_reducible assumption
    | with_reducible apply Kept.ite
    | with_reducible apply State.setDom_kept
    | with_reducible apply State.wr_kept

theorem State.enterHoldover_kept {a : State} (s : State) (n : Nat) (h : Kept a s) : Kept a (State.enterHoldover s n) := by
  unfold State.enterHoldover
  try lift_lets
  repeat' first
    | with_reducible assumption
    | with_reducible apply State.setDomState_kept
    | with_reducible apply State.setRate_kept

theorem State.showOffset_kept {a : State} (s : State) (n : Nat) (o : Int) (h : Kept a s) : Kept a (State.showOffset s n o) := by
  unfold State.showOffset
  try lift_lets
  repeat' first
    | with_reducible assumption
    | with_reducible apply State.wr_kept

theorem State.stepBy_kept {a : State} (s : State) (n : Nat) (o : Int) (h : Kept a s) : Kept a (State.stepBy s n o) := by
  unfold State.stepBy
  try lift_lets
  repeat' first
    | with_reducible assumption
    | with_reducible apply State.setDom_kept
    | with_reducible apply State.stepConsumers_kept

theorem State.closeRefusal_kept {a : State} (s : State) (n : Nat) (h : Kept a s) : Kept a (State.closeRefusal s n) := by
  unfold State.closeRefusal
  try lift_lets
  repeat' first
    | with_reducible assumption
    | with_reducible apply State.wr_kept

theorem State.setRole_kept {a : State} (s : State) (n : Nat) (p : Nat) (r : Nat) (h : Kept a s) : Kept a (State.setRole s n p r) := by
  unfold State.setRole
  try lift_lets
  repeat' first
    | with_reducible assumption
    | with_reducible apply State.wr_kept

theorem State.selectStates_kept {a : State} (s : State) (n : Nat) (h : Kept a s) : Kept a (State.selectStates s n) := by
  unfold State.selectStates
  try lift_lets
  repeat' first
    | with_reducible assumption
    | with_reducible apply Kept.ite
    | with_reducible apply Kept.foldl
    | with_reducible apply State.enterHoldover_kept
    | with_reducible apply State.setDomState_kept
    | with_reducible apply State.setGm_kept
    | with_reducible apply State.setRole_kept
    | with_reducible apply State.tickAfter_kept
    | with_reducible apply State.wr_kept
    | (intro t x (ht : Kept a t))
    | lift_lets
    | split

theorem State.selectAll_kept {a : State} (s : State) (h : Kept a s) : Kept a (State.selectAll s) := by
  unfold State.selectAll
  try lift_lets
  repeat' first
    | with_reducible assumption
    | with_reducible apply Kept.foldl
    | with_reducible apply State.selectStates_kept

theorem State.nextSeq_kept {a : State} (s : State) (k : PtpKind) (num : Nat) (p : Nat) (h : Kept a s) : Kept a (State.nextSeq s k num p).2 := by
  unfold State.nextSeq
  try lift_lets
  repeat' with_reducible exact Kept.update (by with_reducible assumption) (by rfl) (by rfl) (by rfl) (by rfl)

theorem State.ptpQueue_kept {a : State} (s : State) (m : PtpMsg) (h : Kept a s) : Kept a (State.ptpQueue s m) := by
  unfold State.ptpQueue
  try lift_lets
  repeat' first
    | with_reducible assumption
    | with_reducible apply Kept.ite
    | with_reducible apply State.ptpPut_kept

theorem State.rxTake_kept {a : State} (s : State) (m : PtpRx) (h : Kept a s) : Kept a (State.rxTake s m) := by
  unfold State.rxTake
  try lift_lets
  repeat' with_reducible exact Kept.update (by with_reducible assumption) (by rfl) (by rfl) (by rfl) (by rfl)

theorem State.refuseSync_kept {a : State} (s : State) (n : Nat) (o : Int) (wc : Nat) (h : Kept a s) : Kept a (State.refuseSync s n o wc) := by
  unfold State.refuseSync
  try lift_lets
  repeat' first
    | with_reducible assumption
    | with_reducible apply Kept.ite
    | with_reducible apply State.enterHoldover_kept
    | with_reducible apply State.event_kept
    | with_reducible apply State.inc_kept
    | with_reducible apply State.sat_kept
    | with_reducible apply State.wr_kept

theorem State.guardSync_kept {a : State} (s : State) (n : Nat) (o : Int) (r : Int) (log : Int) (wc : Nat) (h : Kept a s) : Kept a (State.guardSync s n o r log wc) := by
  unfold State.guardSync
  try lift_lets
  repeat' first
    | with_reducible assumption
    | with_reducible apply Kept.ite
    | with_reducible apply State.closeRefusal_kept
    | with_reducible apply State.refuseSync_kept
    | with_reducible apply State.setDom_kept
    | with_reducible apply State.setDomState_kept
    | with_reducible apply State.setRate_kept
    | with_reducible apply State.showOffset_kept
    | with_reducible apply State.stepBy_kept
    | with_reducible apply State.tickAfter_kept

theorem State.runSync_kept {a : State} (s : State) (n : Nat) (p : Nat) (x : PtpRx) (fu : PtpRx) (h : Kept a s) : Kept a (State.runSync s n p x fu) := by
  unfold State.runSync
  try lift_lets
  repeat' first
    | with_reducible assumption
    | with_reducible apply State.guardSync_kept
    | with_reducible apply State.inc_kept
    | with_reducible apply State.setDom_kept

theorem State.rxStale_kept {a : State} (s : State) (p : Nat) (num : Nat) (h : Kept a s) : Kept a (State.rxStale s p num) := by
  unfold State.rxStale
  try lift_lets
  repeat' with_reducible exact Kept.update (by with_reducible assumption) (by rfl) (by rfl) (by rfl) (by rfl)

theorem State.takeSync_kept {a : State} (s : State) (p : Nat) (num : Nat) (h : Kept a s) : Kept a (State.takeSync s p num) := by
  unfold State.takeSync
  try lift_lets
  repeat' first
    | with_reducible assumption
    | with_reducible apply Kept.ite
    | with_reducible apply State.runSync_kept
    | with_reducible apply State.rxStale_kept
    | with_reducible apply State.rxTake_kept
    | (intro t; refine Kept.cut (a := a) (t := t) ?_ ?_ <;> first | (intro ht; clear_value t) | subst t)
    | lift_lets
    | split

theorem syncTransmitStep_kept {a : State} (n : Nat) (p : Nat) (s : State) (h : Kept a s) : Kept a (syncTransmitStep n p s) := by
  unfold syncTransmitStep
  try lift_lets
  repeat' first
    | with_reducible assumption
    | with_reducible apply Kept.ite
    | with_reducible apply State.nextSeq_kept
    | with_reducible apply State.ptpQueue_kept
    | lift_lets
    | split

theorem pdelayReqSendStep_kept {a : State} (p : Nat) (s : State) (h : Kept a s) : Kept a (pdelayReqSendStep p s) := by
  unfold pdelayReqSendStep
  try lift_lets
  repeat' first
    | with_reducible assumption
    | with_reducible apply Kept.ite
    | with_reducible apply State.nextSeq_kept
    | with_reducible apply State.ptpQueue_kept
    | with_reducible apply State.setPdelay_kept

theorem State.sendIntervals_kept {a : State} (s : State) (p : Nat) (h : Kept a s) : Kept a (State.sendIntervals s p) := by
  unfold State.sendIntervals
  try lift_lets
  repeat' first
    | with_reducible assumption
    | with_reducible apply State.nextSeq_kept
    | with_reducible apply State.ptpQueue_kept

theorem State.slaveLost_kept {a : State} (s : State) (p : Nat) (h : Kept a s) : Kept a (State.slaveLost s p) := by
  unfold State.slaveLost
  try lift_lets
  repeat' first
    | with_reducible assumption
    | with_reducible apply Kept.ite
    | with_reducible apply Kept.foldl
    | with_reducible apply State.enterHoldover_kept
    | with_reducible apply State.tickAfter_kept
    | (intro t x (ht : Kept a t))

theorem State.setAsCapable_kept {a : State} (s : State) (p : Nat) (b : Bool) (h : Kept a s) : Kept a (State.setAsCapable s p b) := by
  unfold State.setAsCapable
  try lift_lets
  repeat' first
    | with_reducible assumption
    | with_reducible apply Kept.ite
    | with_reducible apply State.selectAll_kept
    | with_reducible apply State.sendIntervals_kept
    | with_reducible apply State.slaveLost_kept
    | with_reducible apply State.wr_kept

theorem State.rxUnasked_kept {a : State} (s : State) (p : Nat) (h : Kept a s) : Kept a (State.rxUnasked s p) := by
  unfold State.rxUnasked
  try lift_lets
  repeat' with_reducible exact Kept.update (by with_reducible assumption) (by rfl) (by rfl) (by rfl) (by rfl)

theorem pdelayExchangeStep_kept {a : State} (p : Nat) (s : State) (h : Kept a s) : Kept a (pdelayExchangeStep p s) := by
  unfold pdelayExchangeStep
  try lift_lets
  repeat' first
    | with_reducible assumption
    | with_reducible apply Kept.ite
    | with_reducible apply State.rxTake_kept
    | with_reducible apply State.rxUnasked_kept
    | with_reducible apply State.setAsCapable_kept
    | with_reducible apply State.setPdelay_kept
    | with_reducible apply State.wr_kept
    | lift_lets
    | split

theorem pdelayRespTimeoutStep_kept {a : State} (p : Nat) (s : State) (h : Kept a s) : Kept a (pdelayRespTimeoutStep p s) := by
  unfold pdelayRespTimeoutStep
  try lift_lets
  repeat' first
    | with_reducible assumption
    | with_reducible apply Kept.ite
    | with_reducible apply State.sat_kept
    | with_reducible apply State.setAsCapable_kept
    | with_reducible apply State.setPdelay_kept
    | (intro t; clear_value t)
    | split

theorem pdelayRespSendStep_kept {a : State} (p : Nat) (s : State) (h : Kept a s) : Kept a (pdelayRespSendStep p s) := by
  unfold pdelayRespSendStep
  try lift_lets
  repeat' first
    | with_reducible assumption
    | with_reducible apply Kept.ite
    | with_reducible apply State.ptpQueue_kept
    | with_reducible apply State.rxTake_kept
    | split

theorem announceReceiveStep_kept {a : State} (p : Nat) (num : Nat) (s : State) (h : Kept a s) : Kept a (announceReceiveStep p num s) := by
  unfold announceReceiveStep
  try lift_lets
  repeat' first
    | with_reducible assumption
    | with_reducible apply Kept.ite
    | with_reducible apply State.rxTake_kept
    | with_reducible apply State.selectStates_kept
    | with_reducible apply State.setDom_kept
    | lift_lets
    | split

theorem announceTransmitStep_kept {a : State} (n : Nat) (p : Nat) (s : State) (h : Kept a s) : Kept a (announceTransmitStep n p s) := by
  unfold announceTransmitStep
  try lift_lets
  repeat' first
    | with_reducible assumption
    | with_reducible apply Kept.ite
    | with_reducible apply State.nextSeq_kept
    | with_reducible apply State.ptpQueue_kept

theorem announceReceiptTimeoutStep_kept {a : State} (n : Nat) (p : Nat) (s : State) (h : Kept a s) : Kept a (announceReceiptTimeoutStep n p s) := by
  unfold announceReceiptTimeoutStep
  try lift_lets
  repeat' first
    | with_reducible assumption
    | with_reducible apply Kept.ite
    | with_reducible apply State.selectStates_kept
    | with_reducible apply State.setDom_kept

theorem signalingReceiveStep_kept {a : State} (p : Nat) (s : State) (h : Kept a s) : Kept a (signalingReceiveStep p s) := by
  unfold signalingReceiveStep
  try lift_lets
  repeat' first
    | with_reducible assumption
    | with_reducible apply Kept.ite
    | with_reducible apply State.rxTake_kept
    | lift_lets
    | (with_reducible refine Kept.update ?_ (by rfl) (by rfl) (by rfl) (by rfl); with_reducible apply State.wr_kept)
    | split
    | dsimp only

theorem syncTimeoutStep_kept {a : State} (n : Nat) (s : State) (h : Kept a s) : Kept a (syncTimeoutStep n s) := by
  unfold syncTimeoutStep
  try lift_lets
  repeat' first
    | with_reducible assumption
    | with_reducible apply Kept.ite
    | with_reducible apply State.enterHoldover_kept
    | with_reducible apply State.tickAfter_kept

theorem holdExpiryStep_kept {a : State} (n : Nat) (s : State) (h : Kept a s) : Kept a (holdExpiryStep n s) := by
  unfold holdExpiryStep
  try lift_lets
  repeat' first
    | with_reducible assumption
    | with_reducible apply Kept.ite
    | with_reducible apply State.event_kept
    | with_reducible apply State.wr_kept

theorem State.domEnable_kept {a : State} (s : State) (n : Nat) (en : Bool) (h : Kept a s) : Kept a (State.domEnable s n en) := by
  unfold State.domEnable
  try lift_lets
  repeat' first
    | with_reducible assumption
    | with_reducible apply Kept.ite
    | with_reducible apply Kept.foldl
    | with_reducible apply State.setDom_kept
    | with_reducible apply State.setDomState_kept
    | with_reducible apply State.setRate_kept
    | with_reducible apply State.setRole_kept
    | with_reducible apply State.tickAfter_kept
    | with_reducible apply State.wr_kept
    | (intro t x (ht : Kept a t))

theorem State.domStatus_kept {a : State} (s : State) (n : Nat) (st : Nat) (h : Kept a s) : Kept a (State.domStatus s n st) := by
  unfold State.domStatus
  try lift_lets
  repeat' first
    | with_reducible assumption
    | with_reducible apply State.wr_kept

theorem domAcceptStep_kept {a : State} (n : Nat) (seq : Nat) (s : State) (h : Kept a s) : Kept a (domAcceptStep n seq s) := by
  unfold domAcceptStep
  try lift_lets
  repeat' first
    | with_reducible assumption
    | with_reducible apply Kept.ite
    | with_reducible apply State.closeRefusal_kept
    | with_reducible apply State.domStatus_kept
    | with_reducible apply State.inc_kept
    | with_reducible apply State.setDom_kept
    | with_reducible apply State.setDomState_kept
    | with_reducible apply State.setRate_kept
    | with_reducible apply State.showOffset_kept
    | with_reducible apply State.stepBy_kept
    | with_reducible apply State.tickAfter_kept

theorem domSetStep_kept {a : State} (n : Nat) (s : State) (h : Kept a s) : Kept a (domSetStep n s) := by
  unfold domSetStep
  try lift_lets
  repeat' first
    | with_reducible assumption
    | with_reducible apply Kept.ite
    | with_reducible apply State.domStatus_kept
    | with_reducible apply State.inc_kept
    | with_reducible apply State.setDom_kept
    | with_reducible apply State.stepConsumers_kept
    | with_reducible apply State.tickAfter_kept

theorem domResetGuardStep_kept {a : State} (n : Nat) (s : State) (h : Kept a s) : Kept a (domResetGuardStep n s) := by
  unfold domResetGuardStep
  try lift_lets
  repeat' first
    | with_reducible assumption
    | with_reducible apply State.domStatus_kept
    | with_reducible apply State.setDomState_kept
    | with_reducible apply State.tickAfter_kept
    | with_reducible apply State.wr_kept

theorem State.runDomCmd_kept {a : State} (s : State) (n : Nat) (h : Kept a s) : Kept a (State.runDomCmd s n) := by
  unfold State.runDomCmd
  try lift_lets
  repeat' first
    | with_reducible assumption
    | with_reducible apply Kept.ite
    | with_reducible exact Kept.update (by with_reducible assumption) (by rfl) (by rfl) (by rfl) (by rfl)
    | with_reducible apply State.domStatus_kept
    | with_reducible apply domAcceptStep_kept
    | with_reducible apply domResetGuardStep_kept
    | with_reducible apply domSetStep_kept
    | (intro t; refine Kept.cut (a := a) (t := t) ?_ ?_ <;> first | (intro ht; clear_value t) | subst t)
    | (intro t; ((have : TimeState := t)); clear this)
    | split

theorem State.runDomCmds_kept {a : State} (s : State) (h : Kept a s) : Kept a (State.runDomCmds s) := by
  unfold State.runDomCmds
  try lift_lets
  repeat' first
    | with_reducible assumption
    | with_reducible apply Kept.foldl
    | with_reducible apply State.runDomCmd_kept

theorem State.domCommand_kept {a : State} (s : State) (n : Nat) (op : Nat) (seq : Nat) (master : Nat) (h : Kept a s) : Kept a (State.domCommand s n op seq master) := by
  unfold State.domCommand
  try lift_lets
  repeat' first
    | with_reducible assumption
    | with_reducible apply Kept.ite
    | with_reducible exact Kept.update (by with_reducible assumption) (by rfl) (by rfl) (by rfl) (by rfl)
    | with_reducible apply State.command_kept
    | with_reducible apply State.refuse_kept
    | with_reducible apply State.wr_kept
    | (intro t (ht : Kept a t))

theorem syncProcessStep_kept {a : State} (p : Nat) (num : Nat) (s : State) (h : Kept a s) : Kept a (syncProcessStep p num s) := by
  unfold syncProcessStep
  try lift_lets
  repeat' first
    | with_reducible assumption
    | with_reducible apply Kept.ite
    | with_reducible apply State.runDomCmd_kept
    | with_reducible apply State.takeSync_kept
    | lift_lets
    | split

theorem State.snapOne_kept {a : State} (s : State) (k : Nat) (x2 : Nat) (h : Kept a s) : Kept a (State.snapOne s k x2) := by
  unfold State.snapOne
  try lift_lets
  repeat' first
    | with_reducible assumption
    | with_reducible apply State.wr_kept

theorem snapshotTakeStep_kept {a : State} (s : State) (h : Kept a s) : Kept a (snapshotTakeStep s) := by
  unfold snapshotTakeStep
  try lift_lets
  repeat' first
    | with_reducible assumption
    | with_reducible apply Kept.foldl
    | with_reducible apply State.snapOne_kept
    | (intro t x (ht : Kept a t))

theorem State.setCaptures_kept {a : State} (s : State) (i : Nat) (l : List Capture) (h : Kept a s) : Kept a (State.setCaptures s i l) := by
  unfold State.setCaptures
  try lift_lets
  repeat' first
    | with_reducible exact Kept.update (by with_reducible assumption) (by rfl) (by rfl) (by rfl) (by rfl)
    | with_reducible apply State.wr_kept

theorem tsinCaptureStep_kept {a : State} (i : Nat) (rising : Bool) (phase : Nat) (s : State) (h : Kept a s) : Kept a (tsinCaptureStep i rising phase s) := by
  unfold tsinCaptureStep
  try lift_lets
  repeat' first
    | with_reducible assumption
    | with_reducible apply Kept.ite
    | with_reducible exact Kept.update (by with_reducible assumption) (by rfl) (by rfl) (by rfl) (by rfl)
    | with_reducible apply State.sat_kept
    | with_reducible apply State.setCaptures_kept

theorem tsinPopStep_kept {a : State} (i : Nat) (s : State) (h : Kept a s) : Kept a (tsinPopStep i s) := by
  unfold tsinPopStep
  try lift_lets
  repeat' first
    | with_reducible assumption
    | with_reducible apply Kept.ite
    | with_reducible exact Kept.update (by with_reducible assumption) (by rfl) (by rfl) (by rfl) (by rfl)
    | with_reducible apply State.setCaptures_kept
    | with_reducible apply State.wr_kept
    | lift_lets
    | (with_reducible refine Kept.update ?_ (by rfl) (by rfl) (by rfl) (by rfl); with_reducible apply State.wr_kept)
    | split
    | dsimp only

theorem tsoutEdgeStep_kept {a : State} (m : Nat) (s : State) (h : Kept a s) : Kept a (tsoutEdgeStep m s) := by
  unfold tsoutEdgeStep
  try lift_lets
  repeat' first
    | with_reducible assumption
    | with_reducible apply Kept.ite
    | with_reducible apply State.tsEval_kept

theorem State.tsCommitEn_kept {a : State} (s : State) (m : Nat) (h : Kept a s) : Kept a (State.tsCommitEn s m) := by
  unfold State.tsCommitEn
  try lift_lets
  repeat' first
    | with_reducible apply Kept.ite
    | with_reducible exact Kept.update (by with_reducible assumption) (by rfl) (by rfl) (by rfl) (by rfl)
    | with_reducible apply State.wr_kept
    | lift_lets
    | (with_reducible refine Kept.update ?_ (by rfl) (by rfl) (by rfl) (by rfl); with_reducible apply State.wr_kept)

end Sys2Proof.Machine
end

