-- ==== Sys2Proof/Laws/KeepGwBuf.lean ====
section
/-! SUPPORT. The operations of Machine/GwBuf.lean keep what `Kept` says. -/

namespace Sys2Proof.Machine

set_option maxRecDepth 20000

theorem State.setInQ_kept {a : State} (s : State) (b : Nat) (l : List BusFrame) (h : Kept a s) : Kept a (State.setInQ s b l) := by
  unfold State.setInQ
  try lift_lets
  repeat' with_reducible exact Kept.update (by with_reducible assumption) (by rfl) (by rfl) (by rfl) (by rfl)

theorem State.setOutQ_kept {a : State} (s : State) (b : Nat) (l : List BusFrame) (h : Kept a s) : Kept a (State.setOutQ s b l) := by
  unfold State.setOutQ
  try lift_lets
  repeat' with_reducible exact Kept.update (by with_reducible assumption) (by rfl) (by rfl) (by rfl) (by rfl)

theorem State.handOff_kept {a : State} (s : State) (b : Nat) (f : BusFrame) (h : Kept a s) : Kept a (State.handOff s b f) := by
  unfold State.handOff
  try lift_lets
  repeat' first
    | with_reducible assumption
    | with_reducible apply Kept.ite
    | with_reducible exact Kept.update (by with_reducible assumption) (by rfl) (by rfl) (by rfl) (by rfl)
    | with_reducible apply State.inc_kept
    | with_reducible apply State.sat_kept
    | with_reducible apply State.setInQ_kept

theorem State.putOut_kept {a : State} (s : State) (b : Nat) (f : BusFrame) (h : Kept a s) : Kept a (State.putOut s b f) := by
  unfold State.putOut
  try lift_lets
  repeat' first
    | with_reducible assumption
    | with_reducible apply Kept.ite
    | with_reducible apply State.sat_kept
    | with_reducible apply State.setOutQ_kept

theorem State.busAdmitTick_kept {a : State} (s : State) (engineOf : State → Nat → Option Nat) (h : Kept a s) : Kept a (State.busAdmitTick s engineOf) := by
  unfold State.busAdmitTick
  try lift_lets
  repeat' first
    | with_reducible assumption
    | with_reducible apply Kept.ite
    | with_reducible exact Kept.update (by with_reducible assumption) (by rfl) (by rfl) (by rfl) (by rfl)
    | with_reducible apply Kept.foldl
    | with_reducible apply State.fire_kept
    | with_reducible apply State.wr_kept
    | (intro t x (ht : Kept a t))
    | (intro t; refine Kept.cut (a := a) (t := t) ?_ ?_ <;> first | (intro ht; clear_value t) | subst t)
    | (intro t; clear_value t)
    | lift_lets
    | split

end Sys2Proof.Machine
end

