-- ==== Sys2Proof/Laws/KeepEdgeCan.lean ====
section
/-! SUPPORT. The operations of Machine/EdgeCan.lean keep what `Kept` says. -/

namespace Sys2Proof.Machine

set_option maxRecDepth 20000

theorem xcvrModeWriteStep_kept {a : State} (x : Nat) (v : Word) (master : Nat) (s : State) (h : Kept a s) : Kept a (xcvrModeWriteStep x v master s) := by
  unfold xcvrModeWriteStep
  try lift_lets
  repeat' first
    | with_reducible assumption
    | with_reducible apply Kept.ite
    | with_reducible exact Kept.update (by with_reducible assumption) (by rfl) (by rfl) (by rfl) (by rfl)
    | with_reducible apply State.cosyWrite_kept
    | with_reducible apply State.wr_kept
    | (intro t (ht : Kept a t))

theorem txdDominantTimeoutStep_kept {a : State} (x : Nat) (s : State) (h : Kept a s) : Kept a (txdDominantTimeoutStep x s) := by
  unfold txdDominantTimeoutStep
  try lift_lets
  repeat' first
    | with_reducible assumption
    | with_reducible apply Kept.ite
    | with_reducible apply State.check_kept
    | lift_lets
    | (with_reducible refine Kept.update ?_ (by rfl) (by rfl) (by rfl) (by rfl); with_reducible apply State.wr_kept)

theorem txdRecessiveReturnStep_kept {a : State} (x : Nat) (s : State) (h : Kept a s) : Kept a (txdRecessiveReturnStep x s) := by
  unfold txdRecessiveReturnStep
  try lift_lets
  repeat' with_reducible exact Kept.update (by with_reducible assumption) (by rfl) (by rfl) (by rfl) (by rfl)

theorem busDominantTimeoutStep_kept {a : State} (x : Nat) (s : State) (h : Kept a s) : Kept a (busDominantTimeoutStep x s) := by
  unfold busDominantTimeoutStep
  try lift_lets
  repeat' first
    | with_reducible assumption
    | with_reducible apply Kept.ite
    | lift_lets
    | (with_reducible refine Kept.update ?_ (by rfl) (by rfl) (by rfl) (by rfl); with_reducible apply State.wr_kept)

theorem busRecessiveReturnStep_kept {a : State} (x : Nat) (s : State) (h : Kept a s) : Kept a (busRecessiveReturnStep x s) := by
  unfold busRecessiveReturnStep
  try lift_lets
  repeat' with_reducible exact Kept.update (by with_reducible assumption) (by rfl) (by rfl) (by rfl) (by rfl)

theorem State.vbatUv_kept {a : State} (s : State) (b : Bool) (h : Kept a s) : Kept a (State.vbatUv s b) := by
  unfold State.vbatUv
  try lift_lets
  repeat' first
    | with_reducible assumption
    | with_reducible apply Kept.foldl
    | with_reducible apply State.wr_kept
    | (intro t x (ht : Kept a t))

theorem State.setCan_kept {a : State} (s : State) (n : Nat) (x : CanState) (h : Kept a s) : Kept a (State.setCan s n x) := by
  unfold State.setCan
  try lift_lets
  repeat' first
    | with_reducible exact Kept.update (by with_reducible assumption) (by rfl) (by rfl) (by rfl) (by rfl)
    | with_reducible apply State.wr_kept

theorem State.setCanState_kept {a : State} (s : State) (n : Nat) (st : Nat) (h : Kept a s) : Kept a (State.setCanState s n st) := by
  unfold State.setCanState
  try lift_lets
  repeat' first
    | with_reducible assumption
    | with_reducible apply State.wr_kept

theorem State.canIdle_kept {a : State} (s : State) (n : Nat) (h : Kept a s) : Kept a (State.canIdle s n) := by
  unfold State.canIdle
  try lift_lets
  repeat' first
    | with_reducible assumption
    | with_reducible apply Kept.ite
    | with_reducible apply State.setCan_kept

theorem State.setXcvr_kept {a : State} (s : State) (x : Nat) (v : Nat) (h : Kept a s) : Kept a (State.setXcvr s x v) := by
  unfold State.setXcvr
  try lift_lets
  repeat' first
    | with_reducible assumption
    | with_reducible apply Kept.ite
    | with_reducible apply State.canIdle_kept
    | with_reducible apply State.setCan_kept
    | with_reducible apply State.wr_kept

theorem xcvrModeChangeStep_kept {a : State} (x : Nat) (s : State) (h : Kept a s) : Kept a (xcvrModeChangeStep x s) := by
  unfold xcvrModeChangeStep
  try lift_lets
  repeat' first
    | with_reducible assumption
    | with_reducible apply Kept.ite
    | with_reducible exact Kept.update (by with_reducible assumption) (by rfl) (by rfl) (by rfl) (by rfl)
    | with_reducible apply State.setXcvr_kept

theorem State.canSwitchOn_kept {a : State} (s : State) (n : Nat) (h : Kept a s) : Kept a (State.canSwitchOn s n) := by
  unfold State.canSwitchOn
  try lift_lets
  repeat' first
    | with_reducible assumption
    | with_reducible apply Kept.ite
    | with_reducible apply State.setCan_kept
    | with_reducible apply State.setCanState_kept
    | with_reducible apply State.wr_kept

theorem State.canEnable_kept {a : State} (s : State) (n : Nat) (h : Kept a s) : Kept a (State.canEnable s n) := by
  unfold State.canEnable
  try lift_lets
  repeat' first
    | with_reducible assumption
    | with_reducible apply State.canSwitchOn_kept
    | with_reducible apply State.wr_kept

theorem State.canSwitchOff_kept {a : State} (s : State) (n : Nat) (h : Kept a s) : Kept a (State.canSwitchOff s n) := by
  unfold State.canSwitchOff
  try lift_lets
  repeat' first
    | with_reducible assumption
    | with_reducible apply State.setCan_kept
    | with_reducible apply State.setCanState_kept

theorem State.canConfine_kept {a : State} (s : State) (n : Nat) (h : Kept a s) : Kept a (State.canConfine s n) := by
  unfold State.canConfine
  try lift_lets
  repeat' first
    | with_reducible assumption
    | with_reducible apply Kept.ite
    | with_reducible apply State.setCanState_kept

theorem State.canDequeue_kept {a : State} (s : State) (n : Nat) (i : Nat) (h : Kept a s) : Kept a (State.canDequeue s n i) := by
  unfold State.canDequeue
  try lift_lets
  repeat' first
    | with_reducible assumption
    | with_reducible apply State.canIdle_kept
    | with_reducible apply State.setCan_kept

theorem State.canAttemptFailed_kept {a : State} (s : State) (n : Nat) (h : Kept a s) : Kept a (State.canAttemptFailed s n) := by
  unfold State.canAttemptFailed
  try lift_lets
  repeat' first
    | with_reducible assumption
    | with_reducible apply Kept.ite
    | with_reducible apply State.canDequeue_kept
    | with_reducible apply State.canIdle_kept
    | with_reducible apply State.sat_kept
    | with_reducible apply State.setCan_kept
    | (intro t; clear_value t)
    | split

theorem State.canTecUp_kept {a : State} (s : State) (n : Nat) (k : Nat) (h : Kept a s) : Kept a (State.canTecUp s n k) := by
  unfold State.canTecUp
  try lift_lets
  repeat' first
    | with_reducible assumption
    | with_reducible apply Kept.ite
    | with_reducible apply State.canAttemptFailed_kept
    | with_reducible apply State.canConfine_kept
    | with_reducible apply State.event_kept
    | with_reducible apply State.inc_kept
    | with_reducible apply State.setCanState_kept
    | with_reducible apply State.wr_kept

theorem State.canRecUp_kept {a : State} (s : State) (n : Nat) (k : Nat) (h : Kept a s) : Kept a (State.canRecUp s n k) := by
  unfold State.canRecUp
  try lift_lets
  repeat' first
    | with_reducible assumption
    | with_reducible apply State.canConfine_kept
    | with_reducible apply State.wr_kept

theorem State.canErrorCount_kept {a : State} (s : State) (n : Nat) (x2 : CanErrIn) (h : Kept a s) : Kept a (State.canErrorCount s n x2) := by
  unfold State.canErrorCount
  try lift_lets
  repeat' first
    | with_reducible assumption
    | with_reducible apply Kept.ite
    | with_reducible apply State.canRecUp_kept
    | with_reducible apply State.canTecUp_kept
    | with_reducible apply State.sat_kept
    | with_reducible apply State.wr_kept
    | lift_lets
    | split

theorem canErrorStep_kept {a : State} (n : Nat) (x1 : CanErrIn) (s : State) (h : Kept a s) : Kept a (canErrorStep n x1 s) := by
  unfold canErrorStep
  try lift_lets
  repeat' first
    | with_reducible assumption
    | with_reducible apply Kept.ite
    | with_reducible apply State.canErrorCount_kept

theorem canIntegratedStep_kept {a : State} (n : Nat) (s : State) (h : Kept a s) : Kept a (canIntegratedStep n s) := by
  unfold canIntegratedStep
  try lift_lets
  repeat' first
    | with_reducible assumption
    | with_reducible apply Kept.ite
    | with_reducible apply State.canIdle_kept
    | with_reducible apply State.setCanState_kept

theorem canRecoverStep_kept {a : State} (n : Nat) (auto : Bool) (s : State) (h : Kept a s) : Kept a (canRecoverStep n auto s) := by
  unfold canRecoverStep
  try lift_lets
  repeat' first
    | with_reducible assumption
    | with_reducible apply Kept.ite
    | with_reducible apply State.setCanState_kept

theorem canRecoveryDoneStep_kept {a : State} (n : Nat) (s : State) (h : Kept a s) : Kept a (canRecoveryDoneStep n s) := by
  unfold canRecoveryDoneStep
  try lift_lets
  repeat' first
    | with_reducible assumption
    | with_reducible apply Kept.ite
    | with_reducible apply State.canIdle_kept
    | with_reducible apply State.setCanState_kept
    | with_reducible apply State.wr_kept

theorem canOpmodeStep_kept {a : State} (n : Nat) (mode : Nat) (s : State) (h : Kept a s) : Kept a (canOpmodeStep n mode s) := by
  unfold canOpmodeStep
  try lift_lets
  repeat' first
    | with_reducible assumption
    | with_reducible apply Kept.ite
    | with_reducible apply State.canIdle_kept
    | with_reducible apply State.canSwitchOff_kept
    | with_reducible apply State.canSwitchOn_kept
    | with_reducible apply State.wr_kept

theorem State.canTdc_kept {a : State} (s : State) (n : Nat) (f : BusFrame) (x3 : Option Nat) (h : Kept a s) : Kept a (State.canTdc s n f x3).2 := by
  unfold State.canTdc
  try lift_lets
  repeat' first
    | with_reducible assumption
    | with_reducible apply Kept.ite_snd
    | with_reducible apply State.wr_kept
    | (intro t; clear_value t)
    | split

theorem State.canSent_kept {a : State} (s : State) (n : Nat) (i : Nat) (f : BusFrame) (h : Kept a s) : Kept a (State.canSent s n i f) := by
  unfold State.canSent
  try lift_lets
  repeat' first
    | with_reducible assumption
    | with_reducible apply Kept.ite
    | with_reducible apply Kept.ite_snd
    | with_reducible apply State.canConfine_kept
    | with_reducible apply State.canDequeue_kept
    | with_reducible apply State.cipherCheck_kept
    | with_reducible apply State.inc_kept
    | with_reducible apply State.wr_kept
    | lift_lets
    | (with_reducible refine Kept.update ?_ (by rfl) (by rfl) (by rfl) (by rfl); with_reducible apply Kept.ite)

theorem State.canStart_kept {a : State} (s : State) (n : Nat) (h : Kept a s) : Kept a (State.canStart s n) := by
  unfold State.canStart
  try lift_lets
  repeat' first
    | with_reducible assumption
    | with_reducible apply Kept.ite
    | with_reducible apply State.canIdle_kept
    | with_reducible apply State.setCan_kept
    | (intro t; refine Kept.cut (a := a) (t := t) ?_ ?_ <;> first | (intro ht; clear_value t) | subst t)
    | (intro t; clear_value t)
    | split

theorem canFrameTransmitStep_kept {a : State} (n : Nat) (phase : Nat) (tdcv : Option Nat) (s : State) (h : Kept a s) : Kept a (canFrameTransmitStep n phase tdcv s) := by
  unfold canFrameTransmitStep
  try lift_lets
  repeat' first
    | with_reducible assumption
    | with_reducible apply Kept.ite
    | with_reducible apply State.canAttemptFailed_kept
    | with_reducible apply State.canErrorCount_kept
    | with_reducible apply State.canSent_kept
    | with_reducible apply State.canStart_kept
    | with_reducible apply State.canTdc_kept
    | lift_lets
    | split

theorem State.canSecCheck_kept {a : State} (s : State) (n : Nat) (f : BusFrame) (x : Option CanSecIn) (h : Kept a s) : Kept a (State.canSecCheck s n f x).2.2 := by
  unfold State.canSecCheck
  try lift_lets
  repeat' first
    | with_reducible assumption
    | with_reducible apply Kept.ite_snd2
    | with_reducible apply State.cipherCheck_kept
    | with_reducible apply State.sat_kept
    | with_reducible apply State.wr_kept
    | lift_lets
    | split

theorem State.canRecDown_kept {a : State} (s : State) (n : Nat) (h : Kept a s) : Kept a (State.canRecDown s n) := by
  unfold State.canRecDown
  try lift_lets
  repeat' first
    | with_reducible assumption
    | with_reducible apply Kept.ite
    | with_reducible apply State.canConfine_kept
    | with_reducible apply State.draw_kept
    | with_reducible apply State.wr_kept

theorem State.canReceive_kept {a : State} (s : State) (n : Nat) (f : BusFrame) (sec : Option CanSecIn) (age : Nat) (h : Kept a s) : Kept a (State.canReceive s n f sec age).2 := by
  unfold State.canReceive
  try lift_lets
  repeat' first
    | with_reducible assumption
    | with_reducible apply Kept.ite_snd
    | with_reducible apply State.canIdle_kept
    | with_reducible apply State.canRecDown_kept
    | with_reducible apply State.canSecCheck_kept
    | with_reducible apply State.inc_kept
    | with_reducible apply State.sat_kept
    | with_reducible apply State.setCan_kept

theorem State.canPass_kept {a : State} (s : State) (n : Nat) (h : Kept a s) : Kept a (State.canPass s n) := by
  unfold State.canPass
  try lift_lets
  repeat' first
    | with_reducible assumption
    | with_reducible apply Kept.foldl
    | with_reducible apply State.handOff_kept
    | with_reducible apply State.setCan_kept
    | (intro t x (ht : Kept a t))

theorem State.canSettle_kept {a : State} (s : State) (n : Nat) (h : Kept a s) : Kept a (State.canSettle s n) := by
  unfold State.canSettle
  try lift_lets
  repeat' first
    | with_reducible assumption
    | with_reducible apply Kept.ite
    | with_reducible apply State.setCan_kept

theorem canShaperReleaseStep_kept {a : State} (n : Nat) (s : State) (h : Kept a s) : Kept a (canShaperReleaseStep n s) := by
  unfold canShaperReleaseStep
  try lift_lets
  repeat' first
    | with_reducible assumption
    | with_reducible apply Kept.ite
    | with_reducible apply State.canSettle_kept
    | with_reducible apply State.inc_kept
    | with_reducible apply State.setCan_kept
    | with_reducible apply State.setOutQ_kept
    | lift_lets
    | (with_reducible refine Kept.update ?_ (by rfl) (by rfl) (by rfl) (by rfl); with_reducible apply State.canSettle_kept)
    | split
    | dsimp only

theorem State.canTick_kept {a : State} (s : State) (n : Nat) (h : Kept a s) : Kept a (State.canTick s n) := by
  unfold State.canTick
  try lift_lets
  repeat' first
    | with_reducible assumption
    | with_reducible apply State.setCan_kept

theorem guardMatchStep_kept {a : State} (n : Nat) (id : Nat) (full : Bool) (own : Bool) (age : Nat) (s : State) (h : Kept a s) : Kept a (guardMatchStep n id full own age s) := by
  unfold guardMatchStep
  try lift_lets
  repeat' first
    | with_reducible assumption
    | with_reducible apply Kept.ite
    | with_reducible apply State.inc_kept
    | with_reducible apply State.sat_kept
    | with_reducible apply State.setCan_kept

theorem guardFlagEndStep_kept {a : State} (n : Nat) (s : State) (h : Kept a s) : Kept a (guardFlagEndStep n s) := by
  unfold guardFlagEndStep
  try lift_lets
  repeat' first
    | with_reducible assumption
    | with_reducible apply Kept.ite
    | with_reducible apply State.check_kept
    | with_reducible apply State.setCan_kept

theorem guardDriveFaultStep_kept {a : State} (n : Nat) (s : State) (h : Kept a s) : Kept a (guardDriveFaultStep n s) := by
  unfold guardDriveFaultStep
  try lift_lets
  repeat' first
    | with_reducible assumption
    | with_reducible apply Kept.ite
    | with_reducible apply State.check_kept
    | with_reducible apply State.setCan_kept

end Sys2Proof.Machine
end

