-- ==== Sys2Proof/Laws/KeepEdgeBus.lean ====
section
/-! SUPPORT. The operations of Machine/EdgeBus.lean keep what `Kept` says. -/

namespace Sys2Proof.Machine

set_option maxRecDepth 20000

theorem State.setLin_kept {a : State} (s : State) (n : Nat) (x : LinState) (h : Kept a s) : Kept a (State.setLin s n x) := by
  unfold State.setLin
  try lift_lets
  repeat' with_reducible exact Kept.update (by with_reducible assumption) (by rfl) (by rfl) (by rfl) (by rfl)

theorem State.linSync_kept {a : State} (s : State) (n : Nat) (h : Kept a s) : Kept a (State.linSync s n) := by
  unfold State.linSync
  try lift_lets
  repeat' first
    | with_reducible assumption
    | with_reducible apply Kept.ite
    | with_reducible apply State.setLin_kept
    | with_reducible apply State.wr_kept

theorem linSlotStartStep_kept {a : State} (n : Nat) (s : State) (h : Kept a s) : Kept a (linSlotStartStep n s) := by
  unfold linSlotStartStep
  try lift_lets
  repeat' first
    | with_reducible assumption
    | with_reducible apply Kept.ite
    | with_reducible apply State.inc_kept
    | with_reducible apply State.setLin_kept
    | with_reducible apply State.wr_kept
    | lift_lets
    | split

theorem State.linOpenSlot_kept {a : State} (s : State) (n : Nat) (hit : Option Nat) (h : Kept a s) : Kept a (State.linOpenSlot s n hit) := by
  unfold State.linOpenSlot
  try lift_lets
  repeat' first
    | with_reducible assumption
    | with_reducible apply State.setLin_kept
    | with_reducible apply State.wr_kept
    | (intro t; clear_value t)
    | split

theorem linHeaderReceiveStep_kept {a : State} (n : Nat) (id : Nat) (baud : Nat) (s : State) (h : Kept a s) : Kept a (linHeaderReceiveStep n id baud s) := by
  unfold linHeaderReceiveStep
  try lift_lets
  repeat' first
    | with_reducible assumption
    | with_reducible apply Kept.ite
    | with_reducible apply State.inc_kept
    | with_reducible apply State.linOpenSlot_kept
    | with_reducible apply State.sat_kept
    | with_reducible apply State.wr_kept

theorem linResponseCompleteStep_kept {a : State} (n : Nat) (data : List Byte) (chk : Nat) (bitErr : Bool) (collision : Bool) (age : Nat) (s : State) (h : Kept a s) : Kept a (linResponseCompleteStep n data chk bitErr collision age s) := by
  unfold linResponseCompleteStep
  try lift_lets
  repeat' first
    | with_reducible assumption
    | with_reducible apply Kept.ite
    | with_reducible exact Kept.update (by with_reducible assumption) (by rfl) (by rfl) (by rfl) (by rfl)
    | with_reducible apply State.handOff_kept
    | with_reducible apply State.inc_kept
    | with_reducible apply State.sat_kept
    | with_reducible apply State.setLin_kept
    | with_reducible apply State.wr_kept
    | (intro t; refine Kept.cut (a := a) (t := t) ?_ ?_ <;> first | (intro ht; clear_value t) | subst t)
    | (intro t; (first | (have : State → State := t) | (have : State → Fld → Nat → State := t)); clear this; subst t; dsimp -zeta only)
    | (intro t; ((have : GwState := t)); clear this)
    | (intro t; clear_value t)
    | lift_lets
    | split

theorem linResponseTimeoutStep_kept {a : State} (n : Nat) (s : State) (h : Kept a s) : Kept a (linResponseTimeoutStep n s) := by
  unfold linResponseTimeoutStep
  try lift_lets
  repeat' first
    | with_reducible assumption
    | with_reducible apply Kept.ite
    | with_reducible apply State.sat_kept
    | with_reducible apply State.setLin_kept
    | with_reducible apply State.wr_kept
    | (intro t; clear_value t)
    | split

theorem linGoToSleepStep_kept {a : State} (n : Nat) (s : State) (h : Kept a s) : Kept a (linGoToSleepStep n s) := by
  unfold linGoToSleepStep
  try lift_lets
  repeat' first
    | with_reducible assumption
    | with_reducible apply Kept.ite
    | with_reducible apply State.setLin_kept
    | lift_lets
    | (with_reducible refine Kept.update ?_ (by rfl) (by rfl) (by rfl) (by rfl); with_reducible apply State.inc_kept)

theorem State.setSent_kept {a : State} (s : State) (n : Nat) (x : SentState) (h : Kept a s) : Kept a (State.setSent s n x) := by
  unfold State.setSent
  try lift_lets
  repeat' with_reducible exact Kept.update (by with_reducible assumption) (by rfl) (by rfl) (by rfl) (by rfl)

theorem State.sentStart_kept {a : State} (s : State) (n : Nat) (h : Kept a s) : Kept a (State.sentStart s n) := by
  unfold State.sentStart
  try lift_lets
  repeat' first
    | with_reducible assumption
    | with_reducible apply State.setSent_kept
    | with_reducible apply State.wr_kept

theorem State.sentSlow_kept {a : State} (s : State) (n : Nat) (status : Nat) (td0 : Option Nat) (h : Kept a s) : Kept a (State.sentSlow s n status td0) := by
  unfold State.sentSlow
  try lift_lets
  repeat' first
    | with_reducible assumption
    | with_reducible apply Kept.ite
    | with_reducible apply State.handOff_kept
    | with_reducible apply State.sat_kept
    | with_reducible apply State.setSent_kept
    | with_reducible apply State.wr_kept
    | lift_lets
    | split
    | dsimp only

theorem State.sentReject_kept {a : State} (s : State) (n : Nat) (k : Nat) (h : Kept a s) : Kept a (State.sentReject s n k) := by
  unfold State.sentReject
  try lift_lets
  repeat' first
    | with_reducible assumption
    | with_reducible apply State.sat_kept
    | with_reducible apply State.setSent_kept
    | with_reducible apply State.wr_kept

theorem sentMessageStep_kept {a : State} (n : Nat) (m : SentIn) (s : State) (h : Kept a s) : Kept a (sentMessageStep n m s) := by
  unfold sentMessageStep
  try lift_lets
  repeat' first
    | with_reducible assumption
    | with_reducible apply Kept.ite
    | with_reducible apply State.handOff_kept
    | with_reducible apply State.inc_kept
    | with_reducible apply State.sentReject_kept
    | with_reducible apply State.sentSlow_kept
    | with_reducible apply State.setSent_kept
    | with_reducible apply State.wr_kept

theorem qspiTransferStep_kept {a : State} (q : Nat) (rx : Nat) (s : State) (h : Kept a s) : Kept a (qspiTransferStep q rx s) := by
  unfold qspiTransferStep
  try lift_lets
  repeat' first
    | with_reducible assumption
    | with_reducible apply Kept.ite
    | lift_lets
    | (with_reducible refine Kept.update ?_ (by rfl) (by rfl) (by rfl) (by rfl); with_reducible apply State.inc_kept)

theorem State.pocCommand_kept {a : State} (s : State) (accepts : List Nat) (next : Option Nat) (h : Kept a s) : Kept a (State.pocCommand s accepts next) := by
  unfold State.pocCommand
  try lift_lets
  repeat' first
    | with_reducible assumption
    | with_reducible apply Kept.ite
    | with_reducible apply State.wr_kept
    | lift_lets
    | split

theorem State.putMb_kept {a : State} (s : State) (b : Nat) (data : List Byte) (h : Kept a s) : Kept a (State.putMb s b data) := by
  unfold State.putMb
  try lift_lets
  repeat' first
    | with_reducible assumption
    | with_reducible apply Kept.foldl
    | with_reducible apply State.setWord_kept
    | (intro t x (ht : Kept a t))

theorem State.flxSend_kept {a : State} (s : State) (slot : Nat) (cycle : Nat) (ch : Nat) (h : Kept a s) : Kept a (State.flxSend s slot cycle ch) := by
  unfold State.flxSend
  try lift_lets
  repeat' first
    | with_reducible assumption
    | with_reducible apply Kept.ite
    | with_reducible exact Kept.update (by with_reducible assumption) (by rfl) (by rfl) (by rfl) (by rfl)
    | (intro t; clear_value t)
    | split

theorem State.flxReceive_kept {a : State} (s : State) (slot : Nat) (cycle : Nat) (ch : Nat) (age : Nat) (rx : Option FlxRx) (h : Kept a s) : Kept a (State.flxReceive s slot cycle ch age rx) := by
  unfold State.flxReceive
  try lift_lets
  repeat' first
    | with_reducible assumption
    | with_reducible apply Kept.ite
    | with_reducible apply State.handOff_kept
    | with_reducible apply State.putMb_kept
    | with_reducible apply State.wr_kept
    | split

theorem flxSlotStep_kept {a : State} (slot : Nat) (cycle : Nat) (first : Bool) (passive : Bool) (rxA : Option FlxRx) (rxB : Option FlxRx) (age : Nat) (s : State) (h : Kept a s) : Kept a (flxSlotStep slot cycle first passive rxA rxB age s) := by
  unfold flxSlotStep
  try lift_lets
  repeat' first
    | with_reducible assumption
    | with_reducible apply Kept.ite
    | with_reducible apply Kept.foldl
    | with_reducible apply State.flxReceive_kept
    | with_reducible apply State.flxSend_kept
    | with_reducible apply State.wr_kept
    | (intro t x (ht : Kept a t))
    | lift_lets
    | (with_reducible refine Kept.update ?_ (by rfl) (by rfl) (by rfl) (by rfl); with_reducible apply Kept.foldl)

theorem State.mbWrite_kept {a : State} (s : State) (b : Nat) (x2 : Nat) (master : Nat) (w : Word) (hdr : Bool) (h : Kept a s) : Kept a (State.mbWrite s b x2 master w hdr) := by
  unfold State.mbWrite
  try lift_lets
  repeat' first
    | with_reducible assumption
    | with_reducible apply Kept.ite
    | with_reducible apply State.refuse_kept
    | with_reducible apply State.setWord_kept
    | lift_lets
    | (with_reducible refine Kept.update ?_ (by rfl) (by rfl) (by rfl) (by rfl); with_reducible apply State.setWord_kept)

theorem State.flxDisable_kept {a : State} (s : State) (h : Kept a s) : Kept a (State.flxDisable s) := by
  unfold State.flxDisable
  try lift_lets
  repeat' first
    | with_reducible assumption
    | with_reducible apply State.wr_kept

theorem t1sFrameReceiveStep_kept {a : State} (g : Nat) (b : List Byte) (fcsBad : Bool) (s : State) (h : Kept a s) : Kept a (t1sFrameReceiveStep g b fcsBad s) := by
  unfold t1sFrameReceiveStep
  try lift_lets
  repeat' first
    | with_reducible assumption
    | with_reducible apply Kept.ite
    | with_reducible apply State.offer_kept
    | with_reducible apply State.sat_kept

theorem State.segSend_kept {a : State} (s : State) (g : Nat) (k : Nat) (h : Kept a s) : Kept a (State.segSend s g k) := by
  unfold State.segSend
  try lift_lets
  repeat' first
    | with_reducible assumption
    | with_reducible exact Kept.update (by with_reducible assumption) (by rfl) (by rfl) (by rfl) (by rfl)
    | with_reducible apply State.inc_kept
    | with_reducible apply State.setT1s_kept
    | (intro t; refine Kept.cut (a := a) (t := t) ?_ ?_ <;> first | (intro ht; clear_value t) | subst t)
    | (intro t; clear_value t)

theorem State.segBeacon_kept {a : State} (s : State) (g : Nat) (h : Kept a s) : Kept a (State.segBeacon s g) := by
  unfold State.segBeacon
  try lift_lets
  repeat' first
    | with_reducible assumption
    | with_reducible apply State.wr_kept

theorem t1sTxOpportunityStep_kept {a : State} (g : Nat) (kind : Nat) (node : Nat) (s : State) (h : Kept a s) : Kept a (t1sTxOpportunityStep g kind node s) := by
  unfold t1sTxOpportunityStep
  try lift_lets
  repeat' first
    | with_reducible assumption
    | with_reducible apply Kept.ite
    | with_reducible apply State.sat_kept
    | with_reducible apply State.segBeacon_kept
    | with_reducible apply State.segSend_kept
    | with_reducible apply State.wr_kept

theorem State.plcaRestart_kept {a : State} (s : State) (g : Nat) (h : Kept a s) : Kept a (State.plcaRestart s g) := by
  unfold State.plcaRestart
  try lift_lets
  repeat' first
    | with_reducible assumption
    | with_reducible apply State.wr_kept

end Sys2Proof.Machine
end

