-- ==== Sys2Proof/Laws/KeepGateway.lean ====
section
/-! SUPPORT. The operations of Machine/Gateway.lean keep what `Kept` says. -/

namespace Sys2Proof.Machine

set_option maxRecDepth 20000

theorem State.setEngine_kept {a : State} (s : State) (n : Nat) (x : EngineState) (h : Kept a s) : Kept a (State.setEngine s n x) := by
  unfold State.setEngine
  try lift_lets
  repeat' with_reducible exact Kept.update (by with_reducible assumption) (by rfl) (by rfl) (by rfl) (by rfl)

theorem State.item_kept {a : State} (s : State) (n : Nat) (lastSig : Bool) (h : Kept a s) : Kept a (State.item s n lastSig) := by
  unfold State.item
  try lift_lets
  repeat' first
    | with_reducible assumption
    | with_reducible apply State.check_kept
    | with_reducible apply State.inc_kept
    | with_reducible apply State.setEngine_kept

theorem State.putTbl_kept {a : State} (s : State) (table : Nat) (i : Nat) (v : Nat) (h : Kept a s) : Kept a (State.putTbl s table i v) := by
  unfold State.putTbl
  try lift_lets
  repeat' first
    | with_reducible assumption
    | with_reducible apply Kept.ite
    | lift_lets
    | (with_reducible refine Kept.update ?_ (by rfl) (by rfl) (by rfl) (by rfl); with_reducible apply State.clearUpset_kept)
    | split

theorem State.tblFault_kept {a : State} (s : State) (n : Nat) (table : Nat) (i : Nat) (inj : Bool) (h : Kept a s) : Kept a (State.tblFault s n table i inj) := by
  unfold State.tblFault
  try lift_lets
  repeat' first
    | with_reducible assumption
    | with_reducible apply State.codeFail_kept

theorem State.tblCheck_kept {a : State} (s : State) (n : Nat) (table : Nat) (i : Nat) (h : Kept a s) : Kept a (State.tblCheck s n table i).2 := by
  unfold State.tblCheck
  try lift_lets
  repeat' first
    | with_reducible assumption
    | with_reducible apply Kept.ite_snd
    | with_reducible apply State.codeCheck_kept
    | with_reducible apply State.tblFault_kept

theorem State.gwPunt_kept {a : State} (s : State) (b : Nat) (f : BusFrame) (h : Kept a s) : Kept a (State.gwPunt s b f) := by
  unfold State.gwPunt
  try lift_lets
  repeat' first
    | with_reducible assumption
    | with_reducible apply Kept.ite
    | with_reducible exact Kept.update (by with_reducible assumption) (by rfl) (by rfl) (by rfl) (by rfl)
    | with_reducible apply State.sat_kept

theorem State.place_kept {a : State} (s : State) (d : Nat) (x2 : Placed) (h : Kept a s) : Kept a (State.place s d x2) := by
  unfold State.place
  try lift_lets
  repeat' first
    | with_reducible assumption
    | with_reducible apply Kept.ite
    | with_reducible apply State.inc_kept
    | with_reducible apply State.putMb_kept
    | with_reducible apply State.putOut_kept
    | with_reducible apply State.sat_kept
    | with_reducible apply State.setLin_kept
    | (intro t; clear_value t)
    | lift_lets
    | (with_reducible refine Kept.update ?_ (by rfl) (by rfl) (by rfl) (by rfl); with_reducible apply State.inc_kept)
    | split

theorem State.sendPdu_kept {a : State} (s : State) (n : Nat) (x2 : Nat) (x3 : Nat) (msgs : List Byte) (h : Kept a s) : Kept a (State.sendPdu s n x2 x3 msgs) := by
  unfold State.sendPdu
  try lift_lets
  repeat' first
    | with_reducible apply Kept.ite
    | with_reducible exact Kept.update (by with_reducible assumption) (by rfl) (by rfl) (by rfl) (by rfl)
    | with_reducible apply State.inc_kept
    | with_reducible apply State.sat_kept
    | with_reducible apply State.setEngine_kept

theorem State.closePdu_kept {a : State} (s : State) (n : Nat) (x2 : Nat) (x3 : Nat) (msgs : List Byte) (h : Kept a s) : Kept a (State.closePdu s n x2 x3 msgs) := by
  unfold State.closePdu
  try lift_lets
  repeat' first
    | with_reducible exact Kept.update (by with_reducible assumption) (by rfl) (by rfl) (by rfl) (by rfl)
    | with_reducible apply State.sendPdu_kept

theorem State.appendTunnel_kept {a : State} (s : State) (x1 : Nat) (msg : List Byte) (h : Kept a s) : Kept a (State.appendTunnel s x1 msg) := by
  unfold State.appendTunnel
  try lift_lets
  repeat' first
    | with_reducible assumption
    | with_reducible apply Kept.ite
    | with_reducible apply State.closePdu_kept
    | with_reducible apply State.sendPdu_kept
    | (intro t; clear_value t)
    | lift_lets
    | (with_reducible refine Kept.update ?_ (by rfl) (by rfl) (by rfl) (by rfl); with_reducible apply Kept.ite)
    | split

theorem State.tunnelFrame_kept {a : State} (s : State) (n : Nat) (x2 : Nat) (b : Nat) (f : BusFrame) (h : Kept a s) : Kept a (State.tunnelFrame s n x2 b f) := by
  unfold State.tunnelFrame
  try lift_lets
  repeat' first
    | with_reducible assumption
    | with_reducible apply State.appendTunnel_kept
    | with_reducible apply State.sat_kept
    | split

theorem State.closeTunnels_kept {a : State} (s : State) (n : Nat) (h : Kept a s) : Kept a (State.closeTunnels s n) := by
  unfold State.closeTunnels
  try lift_lets
  repeat' first
    | with_reducible assumption
    | with_reducible apply Kept.ite
    | with_reducible apply Kept.foldl
    | with_reducible apply State.closePdu_kept
    | (intro t x (ht : Kept a t))

theorem State.setSignal_kept {a : State} (s : State) (x1 : Nat) (v : Nat) (h : Kept a s) : Kept a (State.setSignal s x1 v) := by
  unfold State.setSignal
  try lift_lets
  repeat' with_reducible exact Kept.update (by with_reducible assumption) (by rfl) (by rfl) (by rfl) (by rfl)

theorem State.updateSource_kept {a : State} (s : State) (p : Nat) (f : BusFrame) (h : Kept a s) : Kept a (State.updateSource s p f) := by
  unfold State.updateSource
  try lift_lets
  repeat' first
    | with_reducible assumption
    | with_reducible apply Kept.ite
    | with_reducible exact Kept.update (by with_reducible assumption) (by rfl) (by rfl) (by rfl) (by rfl)
    | with_reducible apply Kept.foldl
    | with_reducible apply State.setSignal_kept
    | (intro t x (ht : Kept a t))

theorem State.revertSource_kept {a : State} (s : State) (n : Nat) (tick : Nat) (p : Nat) (h : Kept a s) : Kept a (State.revertSource s n tick p) := by
  unfold State.revertSource
  try lift_lets
  repeat' first
    | with_reducible assumption
    | with_reducible apply Kept.ite
    | with_reducible apply Kept.foldl
    | with_reducible apply State.sat_kept
    | with_reducible apply State.setSignal_kept
    | (intro t x (ht : Kept a t))

theorem State.slotPdu_kept {a : State} (s : State) (n : Nat) (p : Nat) (d : Nat) (x : Placed) (h : Kept a s) : Kept a (State.slotPdu s n p d x) := by
  unfold State.slotPdu
  try lift_lets
  repeat' first
    | with_reducible assumption
    | with_reducible apply Kept.ite
    | with_reducible exact Kept.update (by with_reducible assumption) (by rfl) (by rfl) (by rfl) (by rfl)
    | with_reducible apply State.place_kept
    | with_reducible apply State.sat_kept
    | (intro t; refine Kept.cut (a := a) (t := t) ?_ ?_ <;> first | (intro ht; clear_value t) | subst t)
    | (intro t; ((have : GwState := t)); clear this)
    | split

theorem State.sendDest_kept {a : State} (s : State) (n : Nat) (p : Nat) (h : Kept a s) : Kept a (State.sendDest s n p).2 := by
  unfold State.sendDest
  try lift_lets
  repeat' first
    | with_reducible assumption
    | with_reducible apply Kept.ite
    | with_reducible apply Kept.ite_snd
    | with_reducible apply State.appendTunnel_kept
    | with_reducible apply State.inc_kept
    | with_reducible apply State.sat_kept
    | lift_lets
    | split

theorem State.sigBoundary_kept {a : State} (s : State) (n : Nat) (h : Kept a s) : Kept a (State.sigBoundary s n) := by
  unfold State.sigBoundary
  try lift_lets
  repeat' first
    | with_reducible assumption
    | with_reducible apply Kept.ite
    | with_reducible apply State.setEngine_kept

theorem State.routed_kept {a : State} (s : State) (n : Nat) (b : Nat) (f : BusFrame) (r : Nat) (v : CanVerdict) (h : Kept a s) : Kept a (State.routed s n b f r v).2 := by
  unfold State.routed
  try lift_lets
  repeat' first
    | with_reducible assumption
    | with_reducible apply Kept.ite
    | with_reducible apply Kept.ite_snd
    | with_reducible apply State.gwPunt_kept
    | with_reducible apply State.sat_kept
    | with_reducible apply State.tunnelFrame_kept
    | with_reducible apply State.updateSource_kept

theorem State.toDest_kept {a : State} (s : State) (d : Nat) (f : BusFrame) (r : Nat) (h : Kept a s) : Kept a (State.toDest s d f r).2 := by
  unfold State.toDest
  try lift_lets
  repeat' first
    | with_reducible assumption
    | with_reducible apply Kept.ite_snd
    | with_reducible apply State.place_kept
    | with_reducible apply State.sat_kept
    | split

theorem State.asked_kept {a : State} (s : State) (n : Nat) (d : Nat) (g : Placed) (pdu : Option Nat) (v : CanVerdict) (h : Kept a s) : Kept a (State.asked s n d g pdu v) := by
  unfold State.asked
  try lift_lets
  repeat' first
    | with_reducible assumption
    | with_reducible apply Kept.ite
    | with_reducible apply State.inc_kept
    | with_reducible apply State.place_kept
    | with_reducible apply State.sat_kept
    | with_reducible apply State.slotPdu_kept
    | lift_lets
    | split

theorem State.inboundMessage_kept {a : State} (s : State) (n : Nat) (x2 : Nat) (m : List Byte) (h : Kept a s) : Kept a (State.inboundMessage s n x2 m).2 := by
  unfold State.inboundMessage
  try lift_lets
  repeat' first
    | with_reducible assumption
    | with_reducible apply Kept.ite_snd
    | with_reducible apply State.sat_kept
    | lift_lets
    | split
    | dsimp only

theorem State.idlePass_kept {a : State} (s : State) (n : Nat) (h : Kept a s) : Kept a (State.idlePass s n) := by
  unfold State.idlePass
  try lift_lets
  repeat' first
    | with_reducible assumption
    | with_reducible apply Kept.ite
    | with_reducible apply State.setEngine_kept

theorem State.endItem_kept {a : State} (s : State) (n : Nat) (h : Kept a s) : Kept a (State.endItem s n) := by
  unfold State.endItem
  try lift_lets
  repeat' first
    | with_reducible assumption
    | with_reducible apply Kept.ite
    | with_reducible apply State.idlePass_kept
    | with_reducible apply State.jobDone_kept
    | with_reducible apply State.setEngine_kept

theorem State.runWork_kept {a : State} (s : State) (n : Nat) (x2 : List GwWork) (h : Kept a s) : Kept a (State.runWork s n x2) := by
  induction x2 generalizing s with
  | nil => exact State.endItem_kept _ _ h
  | cons d l ih =>
    have h3 (u : State) (k : Kept a u) (x : EngineState) := State.setEngine_kept u n x k
    cases d
    case dest d f r =>
      have h1 := State.toDest_kept s d f r h
      unfold State.runWork
      revert h1
      generalize s.toDest d f r = r
      obtain ⟨_ | _, u⟩ := r
      · exact ih u
      · exact fun h1 => h3 u h1 _
    case message e m =>
      have h1 := State.inboundMessage_kept s n e m h
      unfold State.runWork
      revert h1
      generalize s.inboundMessage n e m = r
      obtain ⟨_ | _, u⟩ := r
      · exact ih u
      · exact fun h1 => h3 u h1 _
    all_goals exact h3 s h _

theorem canKeySubmitStep_kept {a : State} (n : Nat) (s : State) (h : Kept a s) : Kept a (canKeySubmitStep n s) := by
  unfold canKeySubmitStep
  try lift_lets
  repeat' first
    | with_reducible assumption
    | with_reducible apply Kept.ite
    | with_reducible apply State.setEngine_kept
    | with_reducible apply State.setStrain_kept
    | (intro t; clear_value t)
    | split

theorem State.giveVerdict_kept {a : State} (s : State) (n : Nat) (v : CanVerdict) (h : Kept a s) : Kept a (State.giveVerdict s n v) := by
  unfold State.giveVerdict
  try lift_lets
  repeat' first
    | with_reducible assumption
    | with_reducible apply Kept.ite
    | with_reducible apply State.asked_kept
    | with_reducible apply State.routed_kept
    | with_reducible apply State.runWork_kept
    | with_reducible apply State.setEngine_kept
    | lift_lets
    | split

theorem State.resumeVerdict_kept {a : State} (s : State) (n : Nat) (h : Kept a s) : Kept a (State.resumeVerdict s n) := by
  unfold State.resumeVerdict
  try lift_lets
  repeat' first
    | with_reducible assumption
    | with_reducible apply State.giveVerdict_kept
    | with_reducible apply State.setEngine_kept
    | (intro t; clear_value t)
    | split

theorem canKeyJudgeStep_kept {a : State} (s : State) (h : Kept a s) : Kept a (canKeyJudgeStep s) := by
  unfold canKeyJudgeStep
  try lift_lets
  repeat' first
    | with_reducible assumption
    | with_reducible apply State.giveVerdict_kept
    | with_reducible apply State.judgeCan_kept
    | with_reducible apply State.setStrain_kept
    | (intro t; clear_value t)
    | split

theorem State.sigStep_kept {a : State} (s : State) (n : Nat) (h : Kept a s) : Kept a (State.sigStep s n) := by
  unfold State.sigStep
  try lift_lets
  repeat' first
    | with_reducible assumption
    | with_reducible apply Kept.ite_snd
    | with_reducible apply State.closeTunnels_kept
    | with_reducible apply State.revertSource_kept
    | with_reducible apply State.runWork_kept
    | with_reducible apply State.sendDest_kept
    | with_reducible apply State.setEngine_kept
    | (intro t; clear_value t)
    | split

theorem sigItem_kept {a : State} (n : Nat) (want : Nat × Nat × Nat → Bool) (s : State) (h : Kept a s) : Kept a (sigItem n want s) := by
  unfold sigItem
  try lift_lets
  repeat' first
    | with_reducible assumption
    | with_reducible apply Kept.ite
    | with_reducible apply State.item_kept
    | with_reducible apply State.sigStep_kept
    | lift_lets
    | split

theorem State.routeFrame_kept {a : State} (s : State) (n : Nat) (b : Nat) (f : BusFrame) (h : Kept a s) : Kept a (State.routeFrame s n b f) := by
  unfold State.routeFrame
  try lift_lets
  repeat' first
    | with_reducible assumption
    | with_reducible apply Kept.ite_snd
    | with_reducible apply State.runWork_kept
    | with_reducible apply State.sat_kept
    | with_reducible apply State.tblCheck_kept
    | with_reducible apply State.tblFault_kept
    | (intro t; clear_value t)
    | lift_lets
    | (split <;> first | (rename_i t heq; refine (fun (ht : Kept a t) => ?_) (Kept.ofEq heq ?_)) | skip)

theorem rxItemStep_kept {a : State} (n : Nat) (s : State) (h : Kept a s) : Kept a (rxItemStep n s) := by
  unfold rxItemStep
  try lift_lets
  repeat' first
    | with_reducible assumption
    | with_reducible apply Kept.ite
    | with_reducible apply State.item_kept
    | with_reducible apply State.routeFrame_kept
    | with_reducible apply State.setEngine_kept
    | with_reducible apply State.setInQ_kept
    | lift_lets
    | split

theorem State.unpack_kept {a : State} (s : State) (n : Nat) (x2 : Nat) (x3 : List Byte) (h : Kept a s) : Kept a (State.unpack s n x2 x3) := by
  unfold State.unpack
  try lift_lets
  repeat' first
    | with_reducible assumption
    | with_reducible exact Kept.update (by with_reducible assumption) (by rfl) (by rfl) (by rfl) (by rfl)
    | with_reducible apply State.inc_kept
    | with_reducible apply State.runWork_kept
    | with_reducible apply State.sat_kept
    | lift_lets
    | (with_reducible refine Kept.update ?_ (by rfl) (by rfl) (by rfl) (by rfl); with_reducible apply Kept.ite)
    | split

theorem ethItemStep_kept {a : State} (n : Nat) (s : State) (h : Kept a s) : Kept a (ethItemStep n s) := by
  unfold ethItemStep
  try lift_lets
  repeat' first
    | with_reducible assumption
    | with_reducible apply Kept.ite
    | with_reducible apply State.item_kept
    | with_reducible apply State.setEngine_kept
    | with_reducible apply State.unpack_kept
    | (intro t; refine Kept.cut (a := a) (t := t) ?_ ?_ <;> first | (intro ht; clear_value t) | subst t)
    | lift_lets
    | split

theorem sbItemStep_kept {a : State} (n : Nat) (s : State) (h : Kept a s) : Kept a (sbItemStep n s) := by
  unfold sbItemStep
  try lift_lets
  repeat' first
    | with_reducible assumption
    | with_reducible apply Kept.ite
    | with_reducible apply State.idlePass_kept
    | with_reducible apply State.item_kept
    | with_reducible apply State.setEngine_kept

theorem State.sbDeliver_kept {a : State} (s : State) (m : Nat) (level : Bool) (h : Kept a s) : Kept a (State.sbDeliver s m level) := by
  unfold State.sbDeliver
  try lift_lets
  repeat' first
    | with_reducible assumption
    | with_reducible apply State.setEngine_kept
    | split

theorem p13PduHandoffStep_kept {a : State} (n : Nat) (s : State) (h : Kept a s) : Kept a (p13PduHandoffStep n s) := by
  unfold p13PduHandoffStep
  try lift_lets
  repeat' first
    | with_reducible assumption
    | with_reducible apply Kept.ite
    | with_reducible apply State.offer_kept
    | with_reducible apply State.setEngine_kept
    | lift_lets
    | split

theorem p13DispatchStep_kept {a : State} (s : State) (h : Kept a s) : Kept a (p13DispatchStep s) := by
  unfold p13DispatchStep
  try lift_lets
  repeat' first
    | with_reducible assumption
    | with_reducible apply Kept.ite
    | with_reducible exact Kept.update (by with_reducible assumption) (by rfl) (by rfl) (by rfl) (by rfl)
    | with_reducible apply State.sat_kept
    | with_reducible apply State.setEngine_kept
    | (intro t; clear_value t)
    | split
    | dsimp only

theorem State.tblStatus_kept {a : State} (s : State) (st : Nat) (h : Kept a s) : Kept a (State.tblStatus s st) := by
  unfold State.tblStatus
  try lift_lets
  repeat' first
    | with_reducible assumption
    | with_reducible apply State.wr_kept

theorem State.setTblData_kept {a : State} (s : State) (table : Nat) (v : Nat) (h : Kept a s) : Kept a (State.setTblData s table v) := by
  unfold State.setTblData
  try lift_lets
  repeat' first
    | with_reducible assumption
    | with_reducible apply Kept.foldl
    | with_reducible apply State.wr_kept
    | (intro t x (ht : Kept a t))

theorem State.tblCommand_kept {a : State} (s : State) (n : Nat) (master : Nat) (run : State → State) (h : Kept a s) (k3 : ∀ (y0 : State), Kept a y0 → Kept a (run y0)) : Kept a (State.tblCommand s n master run) := by
  unfold State.tblCommand
  try lift_lets
  repeat' first
    | with_reducible assumption
    | with_reducible apply Kept.ite
    | with_reducible apply State.command_kept

theorem tblWriteRun_kept {a : State} (table : Nat) (i : Nat) (s : State) (h : Kept a s) : Kept a (tblWriteRun table i s) := by
  unfold tblWriteRun
  try lift_lets
  repeat' first
    | with_reducible assumption
    | with_reducible apply Kept.ite
    | with_reducible apply State.putTbl_kept
    | with_reducible apply State.tblStatus_kept

theorem tblReadRun_kept {a : State} (n : Nat) (table : Nat) (i : Nat) (s : State) (h : Kept a s) : Kept a (tblReadRun n table i s) := by
  unfold tblReadRun
  try lift_lets
  repeat' first
    | with_reducible assumption
    | with_reducible apply Kept.ite
    | with_reducible apply State.setTblData_kept
    | with_reducible apply State.tblCheck_kept
    | with_reducible apply State.tblStatus_kept

theorem tblClearRun_kept {a : State} (table : Nat) (i : Nat) (s : State) (h : Kept a s) : Kept a (tblClearRun table i s) := by
  unfold tblClearRun
  try lift_lets
  repeat' first
    | with_reducible assumption
    | with_reducible apply Kept.ite
    | with_reducible apply State.putTbl_kept
    | with_reducible apply State.tblStatus_kept

theorem State.memNext_kept {a : State} (s : State) (n : Nat) (h : Kept a s) : Kept a (State.memNext s n) := by
  unfold State.memNext
  try lift_lets
  repeat' first
    | with_reducible assumption
    | with_reducible apply State.inc_kept

theorem memDataWriteStep_kept {a : State} (n : Nat) (v : Word) (master : Nat) (s : State) (h : Kept a s) : Kept a (memDataWriteStep n v master s) := by
  unfold memDataWriteStep
  try lift_lets
  repeat' first
    | with_reducible assumption
    | with_reducible apply Kept.ite
    | with_reducible apply State.command_kept
    | with_reducible apply State.memNext_kept
    | with_reducible apply State.refuse_kept
    | (intro t (ht : Kept a t))
    | lift_lets
    | ((with_reducible refine Kept.upd (s := _) (by with_reducible assumption) ?_ ?_ ?_ ?_ ?_) <;> first | exact fun w => Kept.regs (by assumption) w | exact fun w => Kept.sram (by assumption) w | exact fun w => Kept.timeProg (by assumption) w | exact fun w => Kept.cosyProg (by assumption) w | exact fun w => smWf_smSet _ _ _ _ (Kept.gwMem (by assumption) w))

theorem memDataReadStep_kept {a : State} (n : Nat) (s : State) (h : Kept a s) : Kept a (memDataReadStep n s) := by
  unfold memDataReadStep
  try lift_lets
  repeat' first
    | with_reducible assumption
    | with_reducible apply Kept.ite
    | with_reducible exact Kept.update (by with_reducible assumption) (by rfl) (by rfl) (by rfl) (by rfl)
    | with_reducible apply State.codeCheck_kept
    | with_reducible apply State.fireInj_kept
    | lift_lets
    | (with_reducible refine Kept.update ?_ (by rfl) (by rfl) (by rfl) (by rfl); with_reducible apply State.memNext_kept)

end Sys2Proof.Machine
end

