-- ==== Sys2Proof/Laws/KeepSleep.lean ====
section
/-! SUPPORT. The operations of Machine/Sleep.lean keep what `Kept` says. -/

namespace Sys2Proof.Machine

set_option maxRecDepth 20000

theorem State.setRing_kept {a : State} (s : State) (r : Nat) (x : RingState) (h : Kept a s) : Kept a (State.setRing s r x) := by
  unfold State.setRing
  try lift_lets
  repeat' with_reducible exact Kept.update (by with_reducible assumption) (by rfl) (by rfl) (by rfl) (by rfl)

theorem State.setPhase_kept {a : State} (s : State) (p : Nat) (h : Kept a s) : Kept a (State.setPhase s p) := by
  unfold State.setPhase
  try lift_lets
  repeat' first
    | with_reducible exact Kept.update (by with_reducible assumption) (by rfl) (by rfl) (by rfl) (by rfl)
    | with_reducible apply State.wr_kept

theorem State.setRingOk_kept {a : State} (s : State) (r : Nat) (b : Bool) (h : Kept a s) : Kept a (State.setRingOk s r b) := by
  unfold State.setRingOk
  try lift_lets
  repeat' first
    | with_reducible assumption
    | with_reducible apply Kept.ite
    | with_reducible apply State.clrBit_kept
    | with_reducible apply State.orBit_kept
    | with_reducible apply State.setRing_kept

theorem State.setRound_kept {a : State} (s : State) (r : Nat) (n : Nat) (h : Kept a s) : Kept a (State.setRound s r n) := by
  unfold State.setRound
  try lift_lets
  repeat' first
    | with_reducible assumption
    | with_reducible apply Kept.ite
    | with_reducible apply State.setRing_kept
    | with_reducible apply State.wr_kept

theorem State.sendRing_kept {a : State} (s : State) (r : Nat) (type : Nat) (consent : Bool) (votes : Nat) (arg : Nat) (round : Nat) (h : Kept a s) : Kept a (State.sendRing s r type consent votes arg round) := by
  unfold State.sendRing
  try lift_lets
  repeat' first
    | with_reducible assumption
    | with_reducible apply Kept.ite
    | with_reducible apply State.draw_kept
    | with_reducible apply State.offer_kept
    | with_reducible apply State.setCan_kept

theorem State.sendAll_kept {a : State} (s : State) (rs : List Nat) (type : Nat) (arg : Nat) (h : Kept a s) : Kept a (State.sendAll s rs type arg) := by
  unfold State.sendAll
  try lift_lets
  repeat' first
    | with_reducible assumption
    | with_reducible apply Kept.foldl
    | with_reducible apply State.sendRing_kept
    | (intro t x (ht : Kept a t))

theorem State.armOnly_kept {a : State} (s : State) (h : Kept a s) : Kept a (State.armOnly s) := by
  unfold State.armOnly
  try lift_lets
  repeat' first
    | with_reducible assumption
    | with_reducible exact Kept.update (by with_reducible assumption) (by rfl) (by rfl) (by rfl) (by rfl)
    | with_reducible apply Kept.foldl
    | with_reducible apply State.wr_kept
    | (intro t x (ht : Kept a t))

theorem State.disarm_kept {a : State} (s : State) (h : Kept a s) : Kept a (State.disarm s) := by
  unfold State.disarm
  try lift_lets
  repeat' with_reducible exact Kept.update (by with_reducible assumption) (by rfl) (by rfl) (by rfl) (by rfl)

theorem State.leavePhase_kept {a : State} (s : State) (h : Kept a s) : Kept a (State.leavePhase s) := by
  unfold State.leavePhase
  try lift_lets
  repeat' first
    | with_reducible assumption
    | with_reducible apply Kept.ite
    | with_reducible apply Kept.foldl
    | with_reducible apply State.disarm_kept
    | with_reducible apply State.setLin_kept
    | with_reducible apply State.setPhase_kept
    | with_reducible apply State.setRing_kept
    | (intro t x (ht : Kept a t))
    | lift_lets
    | (with_reducible refine Kept.update ?_ (by rfl) (by rfl) (by rfl) (by rfl); with_reducible apply State.inc_kept)

theorem State.toAwake_kept {a : State} (s : State) (reason : Nat) (source : Nat) (h : Kept a s) : Kept a (State.toAwake s reason source) := by
  unfold State.toAwake
  try lift_lets
  repeat' first
    | with_reducible assumption
    | with_reducible apply Kept.foldl
    | with_reducible apply State.leavePhase_kept
    | with_reducible apply State.sendAll_kept
    | with_reducible apply State.setRing_kept
    | with_reducible apply State.wr_kept
    | (intro t x (ht : Kept a t))

theorem State.ringAbort_kept {a : State} (s : State) (reason : Nat) (source : Nat) (h : Kept a s) : Kept a (State.ringAbort s reason source) := by
  unfold State.ringAbort
  try lift_lets
  repeat' first
    | with_reducible assumption
    | with_reducible apply Kept.ite
    | with_reducible apply State.toAwake_kept

theorem State.netmLocal_kept {a : State} (s : State) (reason : Nat) (h : Kept a s) : Kept a (State.netmLocal s reason) := by
  unfold State.netmLocal
  try lift_lets
  repeat' first
    | with_reducible assumption
    | with_reducible apply Kept.ite
    | with_reducible apply State.ringAbort_kept
    | with_reducible apply State.wr_kept

theorem State.latchWake_kept {a : State} (s : State) (reason : Nat) (source : Nat) (h : Kept a s) : Kept a (State.latchWake s reason source) := by
  unfold State.latchWake
  try lift_lets
  repeat' first
    | with_reducible assumption
    | with_reducible apply Kept.ite
    | with_reducible apply State.inc_kept
    | with_reducible apply State.wr_kept
    | lift_lets
    | (with_reducible refine Kept.update ?_ (by rfl) (by rfl) (by rfl) (by rfl); with_reducible apply State.inc_kept)

theorem State.xcvrNormal_kept {a : State} (s : State) (h : Kept a s) : Kept a (State.xcvrNormal s) := by
  unfold State.xcvrNormal
  try lift_lets
  repeat' first
    | with_reducible assumption
    | with_reducible apply Kept.foldl
    | with_reducible apply State.setXcvr_kept
    | (intro t x (ht : Kept a t))

theorem State.cancelCommit_kept {a : State} (s : State) (h : Kept a s) : Kept a (State.cancelCommit s) := by
  unfold State.cancelCommit
  try lift_lets
  repeat' first
    | with_reducible assumption
    | with_reducible apply State.xcvrNormal_kept
    | (intro t; refine Kept.cut (a := a) (t := t) ?_ ?_ <;> first | (intro ht; clear_value t) | subst t)
    | (intro t; ((have : CosyState := t)); clear this)
    | ((with_reducible refine Kept.upd (s := _) (by with_reducible assumption) ?_ ?_ ?_ ?_ ?_) <;> first | exact fun w => Kept.regs (by assumption) w | exact fun w => Kept.sram (by assumption) w | exact fun w => Kept.gwMem (by assumption) w | exact fun w => Kept.timeProg (by assumption) w | exact fun w => Kept.cosyProg (by assumption) w)

theorem State.wakeEvent_kept {a : State} (s : State) (reason : Nat) (source : Nat) (h : Kept a s) : Kept a (State.wakeEvent s reason source) := by
  unfold State.wakeEvent
  try lift_lets
  repeat' first
    | with_reducible assumption
    | with_reducible apply Kept.ite
    | with_reducible apply State.cancelCommit_kept
    | with_reducible apply State.disarm_kept
    | with_reducible apply State.latchWake_kept
    | with_reducible apply State.ringAbort_kept
    | with_reducible apply State.toAwake_kept
    | with_reducible apply State.wr_kept
    | lift_lets
    | ((with_reducible refine Kept.updFrom ?_ (fun hk => Kept.upd hk ?_ ?_ ?_ ?_ ?_)) <;> first | exact fun w => Kept.regs (by assumption) w | exact fun w => Kept.sram (by assumption) w | exact fun w => Kept.gwMem (by assumption) w | exact fun w => Kept.timeProg (by assumption) w | refine fun w => Kept.cosyProg ?_ w | with_reducible apply State.wr_kept)

theorem State.reportActive_kept {a : State} (s : State) (h : Kept a s) : Kept a (State.reportActive s) := by
  unfold State.reportActive
  try lift_lets
  repeat' first
    | with_reducible assumption
    | with_reducible apply Kept.ite
    | with_reducible apply Kept.foldl
    | with_reducible apply State.wakeEvent_kept
    | (intro t x (ht : Kept a t))

theorem State.arm_kept {a : State} (s : State) (h : Kept a s) : Kept a (State.arm s) := by
  unfold State.arm
  try lift_lets
  repeat' first
    | with_reducible assumption
    | with_reducible apply State.armOnly_kept
    | with_reducible apply State.reportActive_kept

theorem State.enterPhase_kept {a : State} (s : State) (ph : Nat) (type : Nat) (arg : Nat) (h : Kept a s) : Kept a (State.enterPhase s ph type arg) := by
  unfold State.enterPhase
  try lift_lets
  repeat' first
    | with_reducible assumption
    | with_reducible apply Kept.foldl
    | with_reducible apply State.sendAll_kept
    | with_reducible apply State.setPhase_kept
    | with_reducible apply State.setRing_kept
    | (intro t x (ht : Kept a t))

theorem State.enterAgreed_kept {a : State} (s : State) (h : Kept a s) : Kept a (State.enterAgreed s) := by
  unfold State.enterAgreed
  try lift_lets
  repeat' first
    | with_reducible exact Kept.update (by with_reducible assumption) (by rfl) (by rfl) (by rfl) (by rfl)
    | with_reducible apply State.enterPhase_kept
    | with_reducible apply State.inc_kept
    | with_reducible apply State.setRing_kept

theorem State.enterDraining_kept {a : State} (s : State) (len : Nat) (h : Kept a s) : Kept a (State.enterDraining s len) := by
  unfold State.enterDraining
  try lift_lets
  repeat' first
    | with_reducible exact Kept.update (by with_reducible assumption) (by rfl) (by rfl) (by rfl) (by rfl)
    | with_reducible apply State.arm_kept
    | with_reducible apply State.enterPhase_kept

theorem State.enterCommitted_kept {a : State} (s : State) (h : Kept a s) : Kept a (State.enterCommitted s) := by
  unfold State.enterCommitted
  try lift_lets
  repeat' first
    | with_reducible exact Kept.update (by with_reducible assumption) (by rfl) (by rfl) (by rfl) (by rfl)
    | with_reducible apply State.enterPhase_kept
    | (intro t; refine Kept.cut (a := a) (t := t) ?_ ?_ <;> first | (intro ht; clear_value t) | subst t)
    | (intro t; clear_value t)

theorem State.wakeFlush_kept {a : State} (s : State) (r : Nat) (h : Kept a s) : Kept a (State.wakeFlush s r) := by
  unfold State.wakeFlush
  try lift_lets
  repeat' first
    | with_reducible assumption
    | with_reducible apply Kept.ite
    | with_reducible apply State.sendRing_kept
    | with_reducible apply State.setRing_kept
    | (intro t; clear_value t)
    | split

theorem State.ringFlush_kept {a : State} (s : State) (r : Nat) (h : Kept a s) : Kept a (State.ringFlush s r) := by
  unfold State.ringFlush
  try lift_lets
  repeat' first
    | with_reducible assumption
    | with_reducible apply Kept.foldl
    | with_reducible apply State.sendRing_kept
    | with_reducible apply State.setRing_kept
    | (intro t x (ht : Kept a t))

theorem State.ringsTick_kept {a : State} (s : State) (h : Kept a s) : Kept a (State.ringsTick s) := by
  unfold State.ringsTick
  try lift_lets
  repeat' first
    | with_reducible apply Kept.ite
    | with_reducible exact Kept.update (by with_reducible assumption) (by rfl) (by rfl) (by rfl) (by rfl)
    | with_reducible apply Kept.foldl
    | with_reducible apply State.enterAgreed_kept
    | with_reducible apply State.enterCommitted_kept
    | with_reducible apply State.enterDraining_kept
    | with_reducible apply State.ringFlush_kept
    | with_reducible apply State.wr_kept
    | lift_lets
    | split

theorem State.netmTick_kept {a : State} (s : State) (h : Kept a s) : Kept a (State.netmTick s) := by
  unfold State.netmTick
  try lift_lets
  repeat' first
    | with_reducible assumption
    | with_reducible apply Kept.ite
    | with_reducible apply Kept.foldl
    | with_reducible apply State.ringsTick_kept
    | with_reducible apply State.wakeFlush_kept

theorem State.startRound_kept {a : State} (s : State) (r : Nat) (h : Kept a s) : Kept a (State.startRound s r) := by
  unfold State.startRound
  try lift_lets
  repeat' first
    | with_reducible assumption
    | with_reducible apply State.setRing_kept
    | with_reducible apply State.setRingOk_kept
    | with_reducible apply State.setRound_kept

theorem roundStartStep_kept {a : State} (r : Nat) (s : State) (h : Kept a s) : Kept a (roundStartStep r s) := by
  unfold roundStartStep
  try lift_lets
  repeat' first
    | with_reducible assumption
    | with_reducible apply Kept.ite
    | with_reducible apply State.startRound_kept

theorem tokenTimeoutStep_kept {a : State} (r : Nat) (s : State) (h : Kept a s) : Kept a (tokenTimeoutStep r s) := by
  unfold tokenTimeoutStep
  try lift_lets
  repeat' first
    | with_reducible assumption
    | with_reducible apply Kept.ite
    | with_reducible apply State.sat_kept
    | with_reducible apply State.startRound_kept

theorem State.badMsg_kept {a : State} (s : State) (h : Kept a s) : Kept a (State.badMsg s) := by
  unfold State.badMsg
  try lift_lets
  repeat' first
    | with_reducible assumption
    | with_reducible apply State.sat_kept

theorem State.ringMessage_kept {a : State} (s : State) (r : Nat) (m : RingIn) (run : State → State) (h : Kept a s) (k3 : ∀ (y0 : State), Kept a y0 → Kept a (run y0)) : Kept a (State.ringMessage s r m run) := by
  unfold State.ringMessage
  try lift_lets
  repeat' first
    | with_reducible assumption
    | with_reducible apply Kept.ite
    | with_reducible exact Kept.update (by with_reducible assumption) (by rfl) (by rfl) (by rfl) (by rfl)
    | apply k3
    | with_reducible apply State.badMsg_kept
    | with_reducible apply State.wr_kept

theorem State.takeToken_kept {a : State} (s : State) (r : Nat) (m : RingIn) (h : Kept a s) : Kept a (State.takeToken s r m) := by
  unfold State.takeToken
  try lift_lets
  repeat' first
    | with_reducible assumption
    | with_reducible apply Kept.ite
    | with_reducible apply State.inc_kept
    | with_reducible apply State.setRing_kept
    | with_reducible apply State.setRingOk_kept
    | with_reducible apply State.wr_kept

theorem ringTokenStep_kept {a : State} (r : Nat) (m : RingIn) (s : State) (h : Kept a s) : Kept a (ringTokenStep r m s) := by
  unfold ringTokenStep
  try lift_lets
  repeat' first
    | with_reducible assumption
    | with_reducible apply Kept.ite
    | with_reducible apply State.badMsg_kept
    | with_reducible apply State.ringMessage_kept
    | with_reducible apply State.takeToken_kept
    | (intro t (ht : Kept a t))

theorem ringAgreeStep_kept {a : State} (r : Nat) (m : RingIn) (s : State) (h : Kept a s) : Kept a (ringAgreeStep r m s) := by
  unfold ringAgreeStep
  try lift_lets
  repeat' first
    | with_reducible assumption
    | with_reducible apply Kept.ite
    | with_reducible exact Kept.update (by with_reducible assumption) (by rfl) (by rfl) (by rfl) (by rfl)
    | with_reducible apply State.ringMessage_kept
    | (intro t (ht : Kept a t))

theorem ringDrainStep_kept {a : State} (r : Nat) (m : RingIn) (s : State) (h : Kept a s) : Kept a (ringDrainStep r m s) := by
  unfold ringDrainStep
  try lift_lets
  repeat' first
    | with_reducible assumption
    | with_reducible apply Kept.ite
    | with_reducible exact Kept.update (by with_reducible assumption) (by rfl) (by rfl) (by rfl) (by rfl)
    | with_reducible apply State.ringMessage_kept
    | (intro t (ht : Kept a t))

theorem ringCommitStep_kept {a : State} (r : Nat) (m : RingIn) (s : State) (h : Kept a s) : Kept a (ringCommitStep r m s) := by
  unfold ringCommitStep
  try lift_lets
  repeat' first
    | with_reducible assumption
    | with_reducible apply Kept.ite
    | with_reducible exact Kept.update (by with_reducible assumption) (by rfl) (by rfl) (by rfl) (by rfl)
    | with_reducible apply State.ringMessage_kept
    | (intro t (ht : Kept a t))

theorem ringWakeStep_kept {a : State} (r : Nat) (m : RingIn) (s : State) (h : Kept a s) : Kept a (ringWakeStep r m s) := by
  unfold ringWakeStep
  try lift_lets
  repeat' first
    | with_reducible assumption
    | with_reducible apply Kept.ite
    | with_reducible apply State.ringAbort_kept
    | with_reducible apply State.ringMessage_kept
    | with_reducible apply State.setRingOk_kept
    | (intro t (ht : Kept a t))

theorem State.netmReceive_kept {a : State} (s : State) (r : Nat) (l : List Byte) (h : Kept a s) : Kept a (State.netmReceive s r l) := by
  unfold State.netmReceive
  try lift_lets
  repeat' first
    | with_reducible assumption
    | with_reducible apply Kept.ite
    | with_reducible apply State.badMsg_kept
    | with_reducible apply ringAgreeStep_kept
    | with_reducible apply ringCommitStep_kept
    | with_reducible apply ringDrainStep_kept
    | with_reducible apply ringTokenStep_kept
    | with_reducible apply ringWakeStep_kept
    | lift_lets
    | split

theorem State.netmCan_kept {a : State} (s : State) (n : Nat) (f : BusFrame) (h : Kept a s) : Kept a (State.netmCan s n f) := by
  unfold State.netmCan
  try lift_lets
  repeat' first
    | with_reducible assumption
    | with_reducible apply Kept.ite
    | with_reducible apply State.netmReceive_kept

theorem canFrameReceiveStep_kept {a : State} (n : Nat) (f : Option BusFrame) (sec : Option CanSecIn) (age : Nat) (pass : Bool) (s : State) (h : Kept a s) : Kept a (canFrameReceiveStep n f sec age pass s) := by
  unfold canFrameReceiveStep
  try lift_lets
  repeat' first
    | with_reducible assumption
    | with_reducible apply Kept.ite
    | with_reducible apply State.canPass_kept
    | with_reducible apply State.canReceive_kept
    | with_reducible apply State.netmCan_kept
    | lift_lets
    | (split <;> first | (rename_i t heq; refine (fun (ht : Kept a t) => ?_) (Kept.ofEq heq ?_)) | skip)

theorem State.netmTake_kept {a : State} (s : State) (h : Kept a s) : Kept a (State.netmTake s) := by
  unfold State.netmTake
  try lift_lets
  repeat' first
    | with_reducible assumption
    | with_reducible exact Kept.update (by with_reducible assumption) (by rfl) (by rfl) (by rfl) (by rfl)
    | with_reducible apply State.netmReceive_kept
    | (intro t; clear_value t)
    | split

theorem agreeTicksExpiryStep_kept {a : State} (s : State) (h : Kept a s) : Kept a (agreeTicksExpiryStep s) := by
  unfold agreeTicksExpiryStep
  try lift_lets
  repeat' first
    | with_reducible assumption
    | with_reducible apply Kept.ite
    | with_reducible apply State.enterDraining_kept

theorem drainExpiryStep_kept {a : State} (s : State) (h : Kept a s) : Kept a (drainExpiryStep s) := by
  unfold drainExpiryStep
  try lift_lets
  repeat' first
    | with_reducible assumption
    | with_reducible apply Kept.ite
    | with_reducible apply State.enterCommitted_kept

theorem backboneTimeoutStep_kept {a : State} (s : State) (h : Kept a s) : Kept a (backboneTimeoutStep s) := by
  unfold backboneTimeoutStep
  try lift_lets
  repeat' first
    | with_reducible assumption
    | with_reducible apply Kept.ite
    | with_reducible apply State.ringAbort_kept

theorem State.netmLeave_kept {a : State} (s : State) (h : Kept a s) : Kept a (State.netmLeave s) := by
  unfold State.netmLeave
  try lift_lets
  repeat' first
    | with_reducible assumption
    | with_reducible apply Kept.ite
    | with_reducible apply State.leavePhase_kept

theorem State.netmRestart_kept {a : State} (s : State) (h : Kept a s) : Kept a (State.netmRestart s) := by
  unfold State.netmRestart
  try lift_lets
  repeat' first
    | with_reducible assumption
    | with_reducible exact Kept.update (by with_reducible assumption) (by rfl) (by rfl) (by rfl) (by rfl)
    | with_reducible apply Kept.foldl
    | with_reducible apply State.netmLeave_kept
    | with_reducible apply State.wr_kept
    | (intro t x (ht : Kept a t))
    | (intro t; refine Kept.cut (a := a) (t := t) ?_ ?_ <;> first | (intro ht; clear_value t) | subst t)
    | (intro t; clear_value t)

theorem State.netmEnable_kept {a : State} (s : State) (h : Kept a s) : Kept a (State.netmEnable s) := by
  unfold State.netmEnable
  try lift_lets
  repeat' first
    | with_reducible assumption
    | with_reducible apply Kept.ite
    | with_reducible apply State.accessError_kept
    | with_reducible apply State.netmLocal_kept

theorem wakeDetectStep_kept {a : State} (w : WakeIn) (s : State) (h : Kept a s) : Kept a (wakeDetectStep w s) := by
  unfold wakeDetectStep
  try lift_lets
  repeat' first
    | with_reducible assumption
    | with_reducible apply Kept.ite
    | with_reducible exact Kept.update (by with_reducible assumption) (by rfl) (by rfl) (by rfl) (by rfl)
    | with_reducible apply State.wakeEvent_kept
    | (intro t; ((have : CosyState := t)); clear this)
    | split

theorem selectiveWakeFrameStep_kept {a : State} (n : Nat) (f : BusFrame) (err : Bool) (s : State) (h : Kept a s) : Kept a (selectiveWakeFrameStep n f err s) := by
  unfold selectiveWakeFrameStep
  try lift_lets
  repeat' first
    | with_reducible assumption
    | with_reducible apply Kept.ite
    | with_reducible apply State.wakeEvent_kept
    | with_reducible apply State.wr_kept
    | lift_lets
    | split

theorem wakeTimerExpiryStep_kept {a : State} (s : State) (h : Kept a s) : Kept a (wakeTimerExpiryStep s) := by
  unfold wakeTimerExpiryStep
  try lift_lets
  repeat' first
    | with_reducible assumption
    | with_reducible apply Kept.ite
    | with_reducible apply State.wakeEvent_kept

theorem State.tc10Wake_kept {a : State} (s : State) (line : Nat) (h : Kept a s) : Kept a (State.tc10Wake s line) := by
  unfold State.tc10Wake
  try lift_lets
  repeat' first
    | with_reducible assumption
    | with_reducible apply Kept.ite
    | with_reducible apply State.ringAbort_kept

theorem localWakeStep_kept {a : State} (s : State) (h : Kept a s) : Kept a (localWakeStep s) := by
  unfold localWakeStep
  try lift_lets
  repeat' first
    | with_reducible assumption
    | with_reducible apply State.ringAbort_kept

theorem localHoldStep_kept {a : State} (v : Word) (s : State) (h : Kept a s) : Kept a (localHoldStep v s) := by
  unfold localHoldStep
  try lift_lets
  repeat' first
    | with_reducible assumption
    | with_reducible apply State.netmLocal_kept
    | with_reducible apply State.wr_kept

end Sys2Proof.Machine
end

