-- ==== Sys2Proof/Laws/KeepDatapath.lean ====
section
/-! SUPPORT. The operations of Machine/Datapath.lean keep what `Kept` says. -/

namespace Sys2Proof.Machine

set_option maxRecDepth 20000

theorem State.fdbCommand_kept {a : State} (s : State) (west : Bool) (master : Nat) (run : State → State) (h : Kept a s) (k3 : ∀ (y0 : State), Kept a y0 → Kept a (run y0)) : Kept a (State.fdbCommand s west master run) := by
  unfold State.fdbCommand
  try lift_lets
  repeat' first
    | with_reducible assumption
    | with_reducible apply State.command_kept
    | with_reducible apply State.fdbStart_kept
    | (intro t (ht : Kept a t))

theorem State.ruleCommand_kept {a : State} (s : State) (west : Bool) (master : Nat) (run : State → State) (h : Kept a s) (k3 : ∀ (y0 : State), Kept a y0 → Kept a (run y0)) : Kept a (State.ruleCommand s west master run) := by
  unfold State.ruleCommand
  try lift_lets
  repeat' first
    | with_reducible assumption
    | with_reducible apply State.command_kept
    | with_reducible apply State.ruleStart_kept
    | (intro t (ht : Kept a t))

theorem State.ruleWriteCommand_kept {a : State} (s : State) (west : Bool) (master : Nat) (bankSel : Bool) (run : Nat → State → State) (h : Kept a s) (k4 : ∀ (y0 : Nat) (y1 : State), Kept a y1 → Kept a (run y0 y1)) : Kept a (State.ruleWriteCommand s west master bankSel run) := by
  unfold State.ruleWriteCommand
  try lift_lets
  repeat' first
    | with_reducible assumption
    | with_reducible apply State.ruleCommand_kept
    | with_reducible apply State.ruleWrite_kept
    | (intro t (ht : Kept a t))

end Sys2Proof.Machine
end

