-- ==== Sys2Proof/Laws/KeepSecurity.lean ====
section
/-! SUPPORT. The operations of Machine/Security.lean keep what `Kept` says. -/

namespace Sys2Proof.Machine

set_option maxRecDepth 20000

theorem State.setSec_kept {a : State} (s : State) (x : SecState) (h : Kept a s) : Kept a (State.setSec s x) := by
  unfold State.setSec
  try lift_lets
  repeat' with_reducible exact Kept.update (by with_reducible assumption) (by rfl) (by rfl) (by rfl) (by rfl)

theorem State.fillSlot_kept {a : State} (s : State) (slot : Nat) (key : Nat) (attr : Nat) (label : Nat) (origin : Nat) (h : Kept a s) : Kept a (State.fillSlot s slot key attr label origin) := by
  unfold State.fillSlot
  try lift_lets
  repeat' first
    | with_reducible assumption
    | with_reducible apply State.inc_kept
    | with_reducible apply State.setSec_kept

theorem State.setKeyReg_kept {a : State} (s : State) (set : Nat) (k : Nat) (v : Nat) (h : Kept a s) : Kept a (State.setKeyReg s set k v) := by
  unfold State.setKeyReg
  try lift_lets
  repeat' first
    | with_reducible assumption
    | with_reducible apply State.setSec_kept

theorem State.keyDone_kept {a : State} (s : State) (set : Nat) (status : Nat) (h : Kept a s) : Kept a (State.keyDone s set status) := by
  unfold State.keyDone
  try lift_lets
  repeat' first
    | with_reducible assumption
    | with_reducible apply Kept.foldl
    | with_reducible apply State.setKeyReg_kept
    | (intro t x (ht : Kept a t))

theorem State.keyBusy_kept {a : State} (s : State) (set : Nat) (h : Kept a s) : Kept a (State.keyBusy s set) := by
  unfold State.keyBusy
  try lift_lets
  repeat' first
    | with_reducible assumption
    | with_reducible apply State.setSec_kept

theorem State.keyCommand_kept {a : State} (s : State) (master : Nat) (run : Nat → State → State) (h : Kept a s) (k2 : ∀ (y0 : Nat) (y1 : State), Kept a y1 → Kept a (run y0 y1)) : Kept a (State.keyCommand s master run) := by
  unfold State.keyCommand
  try lift_lets
  repeat' first
    | with_reducible assumption
    | with_reducible apply Kept.ite
    | apply k2
    | with_reducible apply State.command_kept
    | with_reducible apply State.draw_kept
    | with_reducible apply State.keyBusy_kept
    | with_reducible apply State.keyDone_kept
    | with_reducible apply State.refuse_kept
    | (intro t (ht : Kept a t))
    | lift_lets
    | split

theorem keyWriteRun_kept {a : State} (slot : Nat) (set : Nat) (s : State) (h : Kept a s) : Kept a (keyWriteRun slot set s) := by
  unfold keyWriteRun
  try lift_lets
  repeat' first
    | with_reducible assumption
    | with_reducible apply Kept.ite
    | with_reducible apply State.fillSlot_kept
    | with_reducible apply State.keyDone_kept

theorem keyEraseRun_kept {a : State} (slot : Nat) (set : Nat) (s : State) (h : Kept a s) : Kept a (keyEraseRun slot set s) := by
  unfold keyEraseRun
  try lift_lets
  repeat' first
    | with_reducible assumption
    | with_reducible apply State.keyDone_kept
    | with_reducible apply State.setSec_kept

theorem keyEraseAllRun_kept {a : State} (set : Nat) (s : State) (h : Kept a s) : Kept a (keyEraseAllRun set s) := by
  unfold keyEraseAllRun
  try lift_lets
  repeat' first
    | with_reducible assumption
    | with_reducible apply State.keyDone_kept
    | with_reducible apply State.setSec_kept

theorem keyNoneRun_kept {a : State} (set : Nat) (s : State) (h : Kept a s) : Kept a (keyNoneRun set s) := by
  unfold keyNoneRun
  try lift_lets
  repeat' first
    | with_reducible assumption
    | with_reducible apply State.keyDone_kept

theorem State.busyDone_kept {a : State} (s : State) (h : Kept a s) : Kept a (State.busyDone s) := by
  unfold State.busyDone
  try lift_lets
  repeat' first
    | with_reducible assumption
    | with_reducible apply Kept.ite
    | with_reducible apply State.setSec_kept
    | with_reducible apply State.wr_kept

theorem State.fetchRefused_kept {a : State} (s : State) (engine : Nat) (h : Kept a s) : Kept a (State.fetchRefused s engine) := by
  unfold State.fetchRefused
  try lift_lets
  repeat' first
    | with_reducible assumption
    | with_reducible apply Kept.ite
    | with_reducible apply State.check_kept
    | with_reducible apply State.fire_kept
    | with_reducible apply State.sat_kept

theorem State.fetchKey_kept {a : State} (s : State) (engine : Nat) (slot : Nat) (attr : Nat) (use : Nat) (long : Option Bool) (h : Kept a s) : Kept a (State.fetchKey s engine slot attr use long).2 := by
  unfold State.fetchKey
  try lift_lets
  repeat' first
    | with_reducible assumption
    | with_reducible apply Kept.ite_snd
    | with_reducible apply State.fetchRefused_kept
    | split

theorem State.setEngineKey_kept {a : State} (s : State) (no : Nat) (key : Nat) (h : Kept a s) : Kept a (State.setEngineKey s no key) := by
  unfold State.setEngineKey
  try lift_lets
  repeat' first
    | with_reducible assumption
    | with_reducible apply State.setSec_kept

theorem State.dropEngineKey_kept {a : State} (s : State) (no : Nat) (h : Kept a s) : Kept a (State.dropEngineKey s no) := by
  unfold State.dropEngineKey
  try lift_lets
  repeat' first
    | with_reducible assumption
    | with_reducible apply State.setSec_kept

theorem State.takeSalt_kept {a : State} (s : State) (no : Nat) (x : Nat × Nat) (h : Kept a s) : Kept a (State.takeSalt s no x) := by
  unfold State.takeSalt
  try lift_lets
  repeat' first
    | with_reducible assumption
    | with_reducible apply State.setSec_kept

theorem State.askCanKey_kept {a : State} (s : State) (no : Nat) (h : Kept a s) : Kept a (State.askCanKey s no) := by
  unfold State.askCanKey
  try lift_lets
  repeat' first
    | with_reducible assumption
    | with_reducible apply State.setSec_kept

theorem State.askCanKeys_kept {a : State} (s : State) (n : Nat) (h : Kept a s) : Kept a (State.askCanKeys s n) := by
  unfold State.askCanKeys
  try lift_lets
  repeat' first
    | with_reducible assumption
    | with_reducible apply Kept.ite
    | with_reducible apply Kept.foldl
    | with_reducible apply State.askCanKey_kept
    | (intro t x (ht : Kept a t))

theorem keyFetchStep_kept {a : State} (s : State) (h : Kept a s) : Kept a (keyFetchStep s) := by
  unfold keyFetchStep
  try lift_lets
  repeat' first
    | with_reducible assumption
    | with_reducible apply State.dropEngineKey_kept
    | with_reducible apply State.fetchKey_kept
    | with_reducible apply State.setEngineKey_kept
    | with_reducible apply State.setSec_kept
    | (intro t; clear_value t)
    | split
    | dsimp only

theorem State.setSaValid_kept {a : State} (s : State) (p : Nat) (rx : Option Nat) (an : Nat) (v : Nat) (h : Kept a s) : Kept a (State.setSaValid s p rx an v) := by
  unfold State.setSaValid
  try lift_lets
  repeat' first
    | with_reducible assumption
    | with_reducible apply State.wr_kept
    | split

theorem State.setSaSlot_kept {a : State} (s : State) (p : Nat) (rx : Option Nat) (an : Nat) (v : Nat) (h : Kept a s) : Kept a (State.setSaSlot s p rx an v) := by
  unfold State.setSaSlot
  try lift_lets
  repeat' first
    | with_reducible assumption
    | with_reducible apply State.wr_kept
    | split

theorem saInstallRun_kept {a : State} (p : Nat) (rx : Option Nat) (an : Nat) (slot : Nat) (master : Nat) (s : State) (h : Kept a s) : Kept a (saInstallRun p rx an slot master s) := by
  unfold saInstallRun
  try lift_lets
  repeat' first
    | with_reducible assumption
    | with_reducible apply Kept.ite
    | with_reducible apply State.fetchKey_kept
    | with_reducible apply State.refuse_kept
    | with_reducible apply State.setEngineKey_kept
    | with_reducible apply State.setSaSlot_kept
    | with_reducible apply State.setSaValid_kept
    | with_reducible apply State.takeSalt_kept
    | with_reducible apply State.wr_kept
    | lift_lets
    | (split <;> first | (rename_i t heq; refine (fun (ht : Kept a t) => ?_) (Kept.ofEq heq ?_)) | (rename_i t _ heq; refine (fun (ht : Kept a t) => ?_) (Kept.ofEq heq ?_)))

theorem saRetireRun_kept {a : State} (p : Nat) (rx : Option Nat) (an : Nat) (s : State) (h : Kept a s) : Kept a (saRetireRun p rx an s) := by
  unfold saRetireRun
  try lift_lets
  repeat' first
    | with_reducible assumption
    | with_reducible apply Kept.ite
    | with_reducible apply State.dropEngineKey_kept
    | with_reducible apply State.setSaValid_kept

theorem State.releaseKey_kept {a : State} (s : State) (no : Nat) (h : Kept a s) : Kept a (State.releaseKey s no) := by
  unfold State.releaseKey
  try lift_lets
  repeat' first
    | with_reducible assumption
    | with_reducible apply Kept.ite
    | with_reducible apply State.dropEngineKey_kept
    | with_reducible apply State.setSaValid_kept

theorem State.releaseMac_kept {a : State} (s : State) (p : Nat) (h : Kept a s) : Kept a (State.releaseMac s p) := by
  unfold State.releaseMac
  try lift_lets
  repeat' first
    | with_reducible assumption
    | with_reducible apply Kept.foldl
    | with_reducible apply State.releaseKey_kept
    | (intro t x (ht : Kept a t))

theorem State.releaseCan_kept {a : State} (s : State) (n : Nat) (h : Kept a s) : Kept a (State.releaseCan s n) := by
  unfold State.releaseCan
  try lift_lets
  repeat' first
    | with_reducible assumption
    | with_reducible apply State.setSec_kept

theorem State.deriveWrap_kept {a : State} (s : State) (h : Kept a s) : Kept a (State.deriveWrap s) := by
  unfold State.deriveWrap
  try lift_lets
  repeat' first
    | with_reducible assumption
    | with_reducible apply State.setSec_kept

theorem State.deriveKeys_kept {a : State} (s : State) (h : Kept a s) : Kept a (State.deriveKeys s) := by
  unfold State.deriveKeys
  try lift_lets
  repeat' first
    | with_reducible assumption
    | with_reducible apply State.deriveWrap_kept
    | with_reducible apply State.setSec_kept

theorem State.generate_kept {a : State} (s : State) (h : Kept a s) : Kept a (State.generate s).2 := by
  unfold State.generate
  try lift_lets
  repeat' first
    | with_reducible assumption
    | with_reducible exact Kept.update (by with_reducible assumption) (by rfl) (by rfl) (by rfl) (by rfl)
    | with_reducible apply State.draw_kept
    | (intro t; refine Kept.cut (a := a) (t := t) ?_ ?_ <;> first | (intro ht; clear_value t) | subst t)

theorem State.instantiate_kept {a : State} (s : State) (h : Kept a s) : Kept a (State.instantiate s) := by
  unfold State.instantiate
  try lift_lets
  repeat' first
    | with_reducible assumption
    | with_reducible apply State.cipherCheck_kept
    | with_reducible apply State.setSec_kept

theorem State.drawChallenge_kept {a : State} (s : State) (h : Kept a s) : Kept a (State.drawChallenge s) := by
  unfold State.drawChallenge
  try lift_lets
  repeat' first
    | with_reducible assumption
    | with_reducible apply Kept.ite
    | with_reducible apply State.cipherCheck_kept
    | with_reducible apply State.generate_kept
    | with_reducible apply State.setSec_kept

theorem State.reseed_kept {a : State} (s : State) (h : Kept a s) : Kept a (State.reseed s) := by
  unfold State.reseed
  try lift_lets
  repeat' first
    | with_reducible assumption
    | with_reducible apply Kept.ite
    | with_reducible apply State.drawChallenge_kept
    | with_reducible apply State.instantiate_kept

theorem drbgReseedStep_kept {a : State} (ok : Bool) (s : State) (h : Kept a s) : Kept a (drbgReseedStep ok s) := by
  unfold drbgReseedStep
  try lift_lets
  repeat' first
    | with_reducible assumption
    | with_reducible apply Kept.ite
    | with_reducible apply State.check_kept
    | with_reducible apply State.reseed_kept
    | with_reducible apply State.sat_kept
    | with_reducible apply State.setSec_kept

theorem State.setDataByte_kept {a : State} (s : State) (i : Nat) (b : Byte) (h : Kept a s) : Kept a (State.setDataByte s i b) := by
  unfold State.setDataByte
  try lift_lets
  repeat' first
    | with_reducible assumption
    | with_reducible apply State.wr_kept

theorem State.putData_kept {a : State} (s : State) (ring : Nat) (x2 : Nat) (x3 : List Byte) (h : Kept a s) : Kept a (State.putData s ring x2 x3) := by
  induction x3 generalizing s x2 with
  | nil => exact h
  | cons d t ih =>
    unfold State.putData
    try lift_lets
    repeat' first
      | with_reducible assumption
      | with_reducible apply Kept.ite
      | apply ih
      | with_reducible apply State.setDataByte_kept

theorem State.takeJob_kept {a : State} (s : State) (h : Kept a s) : Kept a (State.takeJob s) := by
  unfold State.takeJob
  try lift_lets
  repeat' first
    | with_reducible assumption
    | with_reducible apply Kept.ite
    | with_reducible apply State.setSec_kept
    | lift_lets
    | split

theorem State.feedBlob_kept {a : State} (s : State) (h : Kept a s) : Kept a (State.feedBlob s) := by
  unfold State.feedBlob
  try lift_lets
  repeat' first
    | with_reducible assumption
    | with_reducible apply Kept.ite
    | with_reducible apply State.putData_kept
    | with_reducible apply State.setSec_kept
    | with_reducible apply State.takeJob_kept
    | with_reducible apply State.wr_kept
    | (intro t; clear_value t)
    | split

theorem State.endJob_kept {a : State} (s : State) (r : Nat) (status : Nat) (written : Nat) (h : Kept a s) : Kept a (State.endJob s r status written) := by
  unfold State.endJob
  try lift_lets
  repeat' first
    | with_reducible assumption
    | with_reducible apply Kept.ite
    | with_reducible apply Kept.foldl
    | with_reducible apply State.check_kept
    | with_reducible apply State.event_kept
    | with_reducible apply State.feedBlob_kept
    | with_reducible apply State.inc_kept
    | with_reducible apply State.putData_kept
    | with_reducible apply State.sat_kept
    | with_reducible apply State.setSec_kept
    | with_reducible apply State.takeJob_kept
    | with_reducible apply State.wr_kept
    | (intro t x (ht : Kept a t))

theorem State.skipBadOps_kept {a : State} (x0 : Nat) (x1 : State) (h : Kept a x1) : Kept a (State.skipBadOps x0 x1) := by
  induction x0 generalizing x1 with
  | zero => exact h
  | succ n ih =>
    unfold State.skipBadOps
    try lift_lets
    repeat' first
      | with_reducible assumption
      | with_reducible apply Kept.ite
      | apply ih
      | with_reducible apply State.endJob_kept
      | split

theorem jobSubmitRun_kept {a : State} (ring : Nat) (tail : Nat) (master : Nat) (s : State) (h : Kept a s) : Kept a (jobSubmitRun ring tail master s) := by
  unfold jobSubmitRun
  try lift_lets
  repeat' first
    | with_reducible assumption
    | with_reducible apply Kept.ite
    | with_reducible apply State.refuse_kept
    | with_reducible apply State.skipBadOps_kept
    | with_reducible apply State.takeJob_kept
    | with_reducible apply State.wr_kept

theorem State.jobKeyOf_kept {a : State} (s : State) (slot : Nat) (attr : Nat) (h : Kept a s) : Kept a (State.jobKeyOf s slot attr).2 := by
  unfold State.jobKeyOf
  try lift_lets
  repeat' first
    | with_reducible assumption
    | with_reducible apply State.fetchKey_kept

theorem jobGcmEnc_kept {a : State} (s : State) (r : Nat) (d : Desc) (h : Kept a s) : Kept a (jobGcmEnc s r d).2 := by
  unfold jobGcmEnc
  try lift_lets
  repeat' first
    | with_reducible assumption
    | with_reducible apply Kept.ite_snd
    | with_reducible apply State.cipherCheck_kept
    | with_reducible apply State.generate_kept
    | with_reducible apply State.jobKeyOf_kept
    | with_reducible apply State.setSec_kept
    | lift_lets
    | (split <;> first | (rename_i t heq; refine (fun (ht : Kept a t) => ?_) (Kept.ofEq heq ?_)) | (rename_i t _ heq; refine (fun (ht : Kept a t) => ?_) (Kept.ofEq heq ?_)))

theorem jobGcmDec_kept {a : State} (s : State) (r : Nat) (d : Desc) (h : Kept a s) : Kept a (jobGcmDec s r d).2 := by
  unfold jobGcmDec
  try lift_lets
  repeat' first
    | with_reducible assumption
    | with_reducible apply Kept.ite_snd
    | with_reducible apply State.cipherCheck_kept
    | with_reducible apply State.jobKeyOf_kept
    | lift_lets
    | (split <;> first | (rename_i t heq; refine (fun (ht : Kept a t) => ?_) (Kept.ofEq heq ?_)) | (rename_i t _ heq; refine (fun (ht : Kept a t) => ?_) (Kept.ofEq heq ?_)))

theorem jobCmac_kept {a : State} (ver : Bool) (s : State) (r : Nat) (d : Desc) (h : Kept a s) : Kept a (jobCmac ver s r d).2 := by
  unfold jobCmac
  try lift_lets
  repeat' first
    | with_reducible assumption
    | with_reducible apply Kept.ite_snd
    | with_reducible apply State.cipherCheck_kept
    | with_reducible apply State.jobKeyOf_kept
    | lift_lets
    | (split <;> first | (rename_i t heq; refine (fun (ht : Kept a t) => ?_) (Kept.ofEq heq ?_)) | (rename_i t _ heq; refine (fun (ht : Kept a t) => ?_) (Kept.ofEq heq ?_)))

theorem jobHmac_kept {a : State} (ver : Bool) (s : State) (r : Nat) (d : Desc) (h : Kept a s) : Kept a (jobHmac ver s r d).2 := by
  unfold jobHmac
  try lift_lets
  repeat' first
    | with_reducible assumption
    | with_reducible apply Kept.ite_snd
    | with_reducible apply State.jobKeyOf_kept
    | lift_lets
    | (split <;> first | (rename_i t heq; refine (fun (ht : Kept a t) => ?_) (Kept.ofEq heq ?_)) | (rename_i t _ heq; refine (fun (ht : Kept a t) => ?_) (Kept.ofEq heq ?_)))

theorem jobSha_kept {a : State} (s : State) (r : Nat) (d : Desc) (h : Kept a s) : Kept a (jobSha s r d).2 := by
  unfold jobSha
  try lift_lets
  repeat' with_reducible assumption

theorem jobEcdsa_kept {a : State} (s : State) (r : Nat) (d : Desc) (h : Kept a s) : Kept a (jobEcdsa s r d).2 := by
  unfold jobEcdsa
  try lift_lets
  repeat' with_reducible assumption

theorem jobKdf_kept {a : State} (s : State) (r : Nat) (d : Desc) (h : Kept a s) : Kept a (jobKdf s r d).2 := by
  unfold jobKdf
  try lift_lets
  repeat' first
    | with_reducible assumption
    | with_reducible apply State.fillSlot_kept
    | with_reducible apply State.jobKeyOf_kept
    | lift_lets
    | (split <;> first | (rename_i t heq; refine (fun (ht : Kept a t) => ?_) (Kept.ofEq heq ?_)) | (rename_i t _ heq; refine (fun (ht : Kept a t) => ?_) (Kept.ofEq heq ?_)))

theorem jobRandom_kept {a : State} (s : State) (x : Nat) (d : Desc) (h : Kept a s) : Kept a (jobRandom s x d).2 := by
  unfold jobRandom
  try lift_lets
  repeat' first
    | with_reducible assumption
    | with_reducible apply Kept.ite_snd
    | with_reducible apply State.cipherCheck_kept
    | with_reducible apply State.generate_kept

theorem jobGenKey_kept {a : State} (s : State) (x : Nat) (d : Desc) (h : Kept a s) : Kept a (jobGenKey s x d).2 := by
  unfold jobGenKey
  try lift_lets
  repeat' first
    | with_reducible assumption
    | with_reducible apply Kept.ite_snd
    | with_reducible apply State.cipherCheck_kept
    | with_reducible apply State.fillSlot_kept
    | with_reducible apply State.generate_kept

theorem jobLoadBlob_kept {a : State} (s : State) (r : Nat) (d : Desc) (h : Kept a s) : Kept a (jobLoadBlob s r d).2 := by
  unfold jobLoadBlob
  try lift_lets
  repeat' first
    | with_reducible assumption
    | with_reducible apply Kept.ite_snd
    | with_reducible apply State.cipherCheck_kept
    | with_reducible apply State.fetchRefused_kept
    | with_reducible apply State.fillSlot_kept
    | split

theorem jobWrap_kept {a : State} (s : State) (x : Nat) (d : Desc) (h : Kept a s) : Kept a (jobWrap s x d).2 := by
  unfold jobWrap
  try lift_lets
  repeat' first
    | with_reducible assumption
    | with_reducible apply Kept.ite_snd
    | with_reducible apply State.cipherCheck_kept
    | with_reducible apply State.fetchRefused_kept
    | with_reducible apply State.generate_kept
    | split

theorem jobImport_kept {a : State} (s : State) (r : Nat) (d : Desc) (h : Kept a s) : Kept a (jobImport s r d).2 := by
  unfold jobImport
  try lift_lets
  repeat' first
    | with_reducible assumption
    | with_reducible apply Kept.ite_snd
    | with_reducible apply State.cipherCheck_kept
    | with_reducible apply State.fillSlot_kept
    | with_reducible apply State.jobKeyOf_kept
    | lift_lets
    | (split <;> first | (rename_i t heq; refine (fun (ht : Kept a t) => ?_) (Kept.ofEq heq ?_)) | (rename_i t _ heq; refine (fun (ht : Kept a t) => ?_) (Kept.ofEq heq ?_)))

theorem State.runJob_kept {a : State} (s : State) (op : Nat) (f : State → Nat → Desc → JobResult × State) (h : Kept a s) (k2 : ∀ (y0 : State) (y1 : Nat) (y2 : Desc), Kept a y0 → Kept a (f y0 y1 y2).2) : Kept a (State.runJob s op f) := by
  unfold State.runJob
  try lift_lets
  repeat' first
    | with_reducible assumption
    | with_reducible apply Kept.ite
    | with_reducible apply Kept.ite_snd
    | with_reducible apply Kept.foldl
    | apply k2
    | with_reducible apply State.draw_kept
    | with_reducible apply State.endJob_kept
    | with_reducible apply State.putData_kept
    | with_reducible apply State.skipBadOps_kept
    | (intro t x (ht : Kept a t))
    | split

theorem State.erase_kept {a : State} (s : State) (h : Kept a s) : Kept a (State.erase s) := by
  unfold State.erase
  try lift_lets
  repeat' first
    | with_reducible assumption
    | with_reducible apply Kept.foldl
    | with_reducible apply State.endJob_kept
    | with_reducible apply State.inc_kept
    | with_reducible apply State.releaseKey_kept
    | with_reducible apply State.setSec_kept
    | with_reducible apply State.skipBadOps_kept
    | (intro t x (ht : Kept a t))
    | (intro t; refine Kept.cut (a := a) (t := t) ?_ ?_ <;> first | (intro ht; clear_value t) | subst t)
    | (intro t; clear_value t)
    | split

theorem State.raiseAlarm_kept {a : State} (s : State) (src : Nat) (h : Kept a s) : Kept a (State.raiseAlarm s src) := by
  unfold State.raiseAlarm
  try lift_lets
  repeat' first
    | with_reducible assumption
    | with_reducible apply Kept.ite
    | with_reducible apply State.check_kept
    | with_reducible apply State.erase_kept
    | with_reducible apply State.orBit_kept
    | with_reducible apply State.wr_kept

theorem State.alarmEnd_kept {a : State} (s : State) (src : Nat) (h : Kept a s) : Kept a (State.alarmEnd s src) := by
  unfold State.alarmEnd
  try lift_lets
  repeat' first
    | with_reducible assumption
    | with_reducible apply Kept.ite
    | with_reducible apply State.wr_kept

theorem alarmStep_kept {a : State} (src : Nat) (s : State) (h : Kept a s) : Kept a (alarmStep src s) := by
  unfold alarmStep
  try lift_lets
  repeat' first
    | with_reducible assumption
    | with_reducible apply Kept.ite
    | with_reducible apply State.alarmEnd_kept
    | with_reducible apply State.raiseAlarm_kept
    | with_reducible apply State.sat_kept

theorem alarmClearRun_kept {a : State} (key : Nat) (present : Nat) (master : Nat) (s : State) (h : Kept a s) : Kept a (alarmClearRun key present master s) := by
  unfold alarmClearRun
  try lift_lets
  repeat' first
    | with_reducible assumption
    | with_reducible apply Kept.ite
    | with_reducible apply State.deriveKeys_kept
    | with_reducible apply State.reseed_kept
    | with_reducible apply State.wr_kept

theorem tamperUnpoweredStep_kept {a : State} (s : State) (h : Kept a s) : Kept a (tamperUnpoweredStep s) := by
  unfold tamperUnpoweredStep
  try lift_lets
  repeat' first
    | with_reducible assumption
    | with_reducible apply Kept.ite
    | with_reducible apply State.sat_kept
    | with_reducible apply State.wr_kept

theorem State.lcCommand_kept {a : State} (s : State) (key : Nat) (master : Nat) (ok : State → Bool) (run : State → State) (h : Kept a s)
    (k : ∀ y, ok y = true → Kept a y → Kept a (run y)) : Kept a (State.lcCommand s key master ok run) := by
  unfold State.lcCommand
  apply State.command_kept _ _ _ _ _ h
  intro y hy
  split
  · exact State.refuse_kept _ _ _ hy
  · split
    · rename_i g
      exact State.wr_kept _ _ _ _ _ _ (State.wr_kept _ _ _ _ _ _ (k y g.1 hy))
    · exact State.wr_kept _ _ _ _ _ _ hy

theorem advanceRun_kept {a : State} (s : State) (h : Kept a s) : Kept a (advanceRun s) := by
  exact h.putOtp { otpLe.refl s.otp with lc := Nat.le_succ _ }

theorem progSignRun_kept {a : State} (slot : Nat) (s : State) (g : s.progSignOk slot = true) (h : Kept a s) :
    Kept a (progSignRun slot s) := by
  simp only [State.progSignOk, Bool.and_eq_true, Option.isNone_iff_eq_none] at g
  exact h.putOtp { otpLe.refl s.otp with signHash := fun e m => mem_pmSet_of_mem _ slot _ g.2 e m }

theorem progFbRun_kept {a : State} (s : State) (g : s.progFbOk = true) (h : Kept a s) : Kept a (progFbRun s) := by
  simp only [State.progFbOk, Bool.and_eq_true, Option.isNone_iff_eq_none] at g
  exact h.putOtp { otpLe.refl s.otp with fbHash := fun v e => by simp [g.2] at e }

theorem progDbgRun_kept {a : State} (s : State) (g : s.progDbgOk = true) (h : Kept a s) : Kept a (progDbgRun s) := by
  simp only [State.progDbgOk, Bool.and_eq_true, Option.isNone_iff_eq_none] at g
  exact h.putOtp { otpLe.refl s.otp with dbgHash := fun v e => by simp [g.2] at e }

theorem dbgAuthStep_kept {a : State} (x : Nat) (y : Nat) (r : Nat) (sig : Nat) (s : State) (h : Kept a s) : Kept a (dbgAuthStep x y r sig s) := by
  unfold dbgAuthStep
  try lift_lets
  repeat' first
    | with_reducible assumption
    | with_reducible apply Kept.ite
    | with_reducible apply State.deriveWrap_kept
    | with_reducible apply State.drawChallenge_kept
    | with_reducible apply State.erase_kept
    | with_reducible apply State.sat_kept
    | with_reducible apply State.wr_kept
    | split

end Sys2Proof.Machine
end

