-- ==== Sys2Proof/Laws/KeepPower.lean ====
section
/-! SUPPORT. The operations of Machine/Power.lean keep what `Kept` says. -/

namespace Sys2Proof.Machine

set_option maxRecDepth 20000

theorem State.setPower_kept {a : State} (s : State) (p : Nat) (h : Kept a s) : Kept a (State.setPower s p) := by
  unfold State.setPower
  try lift_lets
  repeat' first
    | with_reducible apply Kept.ite
    | with_reducible exact Kept.update (by with_reducible assumption) (by rfl) (by rfl) (by rfl) (by rfl)
    | with_reducible apply State.wr_kept

theorem State.brewReset_kept {a : State} (s : State) (powered : Bool) (h : Kept a s) : Kept a (State.brewReset s powered) := by
  unfold State.brewReset
  exact Kept.upd (s := s) h (fun w => smWf_filter _ _ _ (h.regs w)) (fun _ => rfl) (fun _ => rfl) (fun _ => rfl)
    (fun w => h.cosyProg w)

theorem State.recordCause_kept {a : State} (s : State) (c : Nat) (h : Kept a s) : Kept a (State.recordCause s c) := by
  unfold State.recordCause
  try lift_lets
  repeat' first
    | with_reducible assumption
    | with_reducible apply State.wr_kept

theorem State.brewRestart_kept {a : State} (s : State) (cause : Nat) (h : Kept a s) : Kept a (State.brewRestart s cause) := by
  unfold State.brewRestart
  try lift_lets
  repeat' first
    | with_reducible assumption
    | with_reducible apply Kept.ite
    | with_reducible apply State.brewReset_kept
    | with_reducible apply State.cancelActivation_kept
    | with_reducible apply State.cancelCommit_kept
    | with_reducible apply State.disarm_kept
    | with_reducible apply State.recordCause_kept
    | with_reducible apply State.setPower_kept
    | with_reducible apply State.wr_kept
    | lift_lets
    | (with_reducible refine Kept.update ?_ (by rfl) (by rfl) (by rfl) (by rfl); with_reducible apply Kept.ite)

theorem State.failStart_kept {a : State} (s : State) (reason : Nat) (segment : Nat) (detail : Nat) (part : Nat) (h : Kept a s) : Kept a (State.failStart s reason segment detail part) := by
  unfold State.failStart
  try lift_lets
  repeat' first
    | with_reducible assumption
    | with_reducible apply Kept.ite
    | with_reducible apply State.brewRestart_kept
    | with_reducible apply State.sat_kept
    | with_reducible apply State.slotResult_kept
    | with_reducible apply State.wr_kept

theorem State.brewRelease_kept {a : State} (s : State) (h : Kept a s) : Kept a (State.brewRelease s) := by
  unfold State.brewRelease
  try lift_lets
  repeat' first
    | with_reducible assumption
    | with_reducible apply Kept.ite
    | with_reducible exact Kept.update (by with_reducible assumption) (by rfl) (by rfl) (by rfl) (by rfl)
    | with_reducible apply State.inc_kept

theorem State.powerDown_kept {a : State} (s : State) (p : Nat) (h : Kept a s) : Kept a (State.powerDown s p) := by
  unfold State.powerDown
  try lift_lets
  repeat' first
    | with_reducible assumption
    | with_reducible apply State.brewReset_kept
    | with_reducible apply State.setPower_kept
    | with_reducible apply State.wr_kept

theorem cosyPowerOnStep_kept {a : State} (s : State) (h : Kept a s) : Kept a (cosyPowerOnStep s) := by
  unfold cosyPowerOnStep
  split
  · exact Kept.upd (s := s) h (fun _ => by decide) (fun _ => rfl) (fun _ => rfl) (fun _ => rfl) (fun _ => rfl)
  · exact h

theorem powerOffStep_kept {a : State} (s : State) (h : Kept a s) : Kept a (powerOffStep s) := by
  exact Kept.upd (s := s) h (fun _ => by decide) (fun _ => rfl) (fun _ => rfl) (fun _ => rfl) (fun _ => rfl)

theorem pmicPgHighStep_kept {a : State} (s : State) (h : Kept a s) : Kept a (pmicPgHighStep s) := by
  unfold pmicPgHighStep
  try lift_lets
  repeat' first
    | with_reducible assumption
    | with_reducible apply Kept.ite
    | with_reducible exact Kept.update (by with_reducible assumption) (by rfl) (by rfl) (by rfl) (by rfl)
    | with_reducible apply State.brewRelease_kept
    | with_reducible apply State.wr_kept

theorem State.xcvrSleep_kept {a : State} (s : State) (standby : Bool) (h : Kept a s) : Kept a (State.xcvrSleep s standby) := by
  unfold State.xcvrSleep
  try lift_lets
  repeat' first
    | with_reducible assumption
    | with_reducible exact Kept.update (by with_reducible assumption) (by rfl) (by rfl) (by rfl) (by rfl)
    | with_reducible apply Kept.foldl
    | with_reducible apply State.setXcvr_kept
    | (intro t x (ht : Kept a t))

theorem pgTimeoutStep_kept {a : State} (s : State) (h : Kept a s) : Kept a (pgTimeoutStep s) := by
  unfold pgTimeoutStep
  try lift_lets
  repeat' first
    | with_reducible assumption
    | with_reducible apply Kept.ite
    | with_reducible apply State.arm_kept
    | with_reducible apply State.brewReset_kept
    | with_reducible apply State.powerDown_kept
    | with_reducible apply State.sat_kept
    | with_reducible apply State.xcvrSleep_kept
    | lift_lets
    | (with_reducible refine Kept.update ?_ (by rfl) (by rfl) (by rfl) (by rfl); first | with_reducible apply State.sat_kept | with_reducible apply State.wr_kept)

theorem inhRetryExpiryStep_kept {a : State} (s : State) (h : Kept a s) : Kept a (inhRetryExpiryStep s) := by
  unfold inhRetryExpiryStep
  try lift_lets
  repeat' first
    | with_reducible assumption
    | with_reducible apply Kept.ite
    | lift_lets
    | ((with_reducible refine Kept.updFrom ?_ (fun hk => Kept.upd hk ?_ ?_ ?_ ?_ ?_)) <;> first | exact fun w => Kept.regs (by assumption) w | exact fun w => Kept.sram (by assumption) w | exact fun w => Kept.gwMem (by assumption) w | exact fun w => Kept.timeProg (by assumption) w | exact fun w => Kept.cosyProg (by assumption) w | with_reducible apply State.wr_kept)

theorem pgLossStep_kept {a : State} (s : State) (h : Kept a s) : Kept a (pgLossStep s) := by
  unfold pgLossStep
  try lift_lets
  repeat' first
    | with_reducible assumption
    | with_reducible apply Kept.ite
    | with_reducible apply State.brewReset_kept
    | with_reducible apply State.brewRestart_kept
    | with_reducible apply State.sat_kept
    | with_reducible apply State.wr_kept

theorem clockLossStep_kept {a : State} (s : State) (h : Kept a s) : Kept a (clockLossStep s) := by
  unfold clockLossStep
  try lift_lets
  repeat' first
    | with_reducible assumption
    | with_reducible apply Kept.ite
    | with_reducible apply State.brewRestart_kept
    | with_reducible apply State.sat_kept
    | lift_lets
    | ((with_reducible refine Kept.updFrom ?_ (fun hk => Kept.upd hk ?_ ?_ ?_ ?_ ?_)) <;> first | exact fun w => Kept.regs (by assumption) w | exact fun w => Kept.sram (by assumption) w | exact fun w => Kept.gwMem (by assumption) w | exact fun w => Kept.timeProg (by assumption) w | exact fun w => Kept.cosyProg (by assumption) w | with_reducible apply State.sat_kept)

theorem clockRestoredStep_kept {a : State} (s : State) (h : Kept a s) : Kept a (clockRestoredStep s) := by
  unfold clockRestoredStep
  try lift_lets
  repeat' first
    | with_reducible assumption
    | with_reducible apply Kept.ite
    | with_reducible exact Kept.update (by with_reducible assumption) (by rfl) (by rfl) (by rfl) (by rfl)
    | with_reducible apply State.brewRelease_kept

theorem rstPinStep_kept {a : State} (s : State) (h : Kept a s) : Kept a (rstPinStep s) := by
  unfold rstPinStep
  try lift_lets
  repeat' first
    | with_reducible assumption
    | with_reducible apply Kept.ite
    | with_reducible apply State.brewRestart_kept
    | with_reducible apply State.sat_kept
    | with_reducible apply State.wr_kept

theorem rstNReleaseStep_kept {a : State} (s : State) (h : Kept a s) : Kept a (rstNReleaseStep s) := by
  unfold rstNReleaseStep
  try lift_lets
  repeat' first
    | with_reducible assumption
    | with_reducible apply State.brewRelease_kept
    | with_reducible apply State.wr_kept

theorem forceSleepStep_kept {a : State} (key : Nat) (master : Nat) (s : State) (h : Kept a s) : Kept a (forceSleepStep key master s) := by
  unfold forceSleepStep
  apply State.cosyWrite_kept _ _ _ _ _ h
  intro y hy
  exact State.reportActive_kept _ (Kept.update (s := y.armOnly) (State.armOnly_kept y hy) rfl rfl rfl rfl)

theorem x32CheckStep_kept {a : State} (ok : Bool) (s : State) (h : Kept a s) : Kept a (x32CheckStep ok s) := by
  unfold x32CheckStep
  try lift_lets
  repeat' first
    | with_reducible assumption
    | with_reducible apply Kept.ite
    | with_reducible apply State.wr_kept

theorem vbatMeasurementStep_kept {a : State} (v : Nat) (s : State) (h : Kept a s) : Kept a (vbatMeasurementStep v s) := by
  unfold vbatMeasurementStep
  try lift_lets
  repeat' first
    | with_reducible assumption
    | with_reducible apply Kept.ite
    | with_reducible apply State.wr_kept

theorem State.commitOff_kept {a : State} (s : State) (h : Kept a s) : Kept a (State.commitOff s) := by
  unfold State.commitOff
  try lift_lets
  repeat' first
    | with_reducible assumption
    | with_reducible apply Kept.ite
    | with_reducible exact Kept.update (by with_reducible assumption) (by rfl) (by rfl) (by rfl) (by rfl)
    | with_reducible apply State.disarm_kept
    | with_reducible apply State.toAwake_kept

theorem commitRequestStep_kept {a : State} (s : State) (h : Kept a s) : Kept a (commitRequestStep s) := by
  unfold commitRequestStep
  try lift_lets
  repeat' first
    | with_reducible assumption
    | with_reducible apply Kept.ite
    | with_reducible exact Kept.update (by with_reducible assumption) (by rfl) (by rfl) (by rfl) (by rfl)
    | with_reducible apply State.commitOff_kept
    | lift_lets
    | (with_reducible refine Kept.update ?_ (by rfl) (by rfl) (by rfl) (by rfl); with_reducible apply State.cancelActivation_kept)

theorem commitDelayExpiryStep_kept {a : State} (s : State) (h : Kept a s) : Kept a (commitDelayExpiryStep s) := by
  unfold commitDelayExpiryStep
  try lift_lets
  repeat' first
    | with_reducible assumption
    | with_reducible apply Kept.ite
    | with_reducible apply State.cancelCommit_kept
    | with_reducible apply State.commitOff_kept
    | with_reducible apply State.sat_kept
    | with_reducible apply State.xcvrSleep_kept
    | lift_lets
    | (with_reducible refine Kept.update ?_ (by rfl) (by rfl) (by rfl) (by rfl); with_reducible apply State.powerDown_kept)

end Sys2Proof.Machine
end

