-- ==== Sys2Proof/Laws/KeepTriad.lean ====
section
/-! SUPPORT. The operations of Machine/Triad.lean keep what `Kept` says. -/

namespace Sys2Proof.Machine

set_option maxRecDepth 20000

theorem State.ledgerAdd_kept {a : State} (s : State) (x1 : Nat) (h : Kept a s) : Kept a (State.ledgerAdd s x1) := by
  unfold State.ledgerAdd
  try lift_lets
  repeat' first
    | with_reducible assumption
    | with_reducible apply Kept.ite
    | with_reducible exact Kept.update (by with_reducible assumption) (by rfl) (by rfl) (by rfl) (by rfl)
    | with_reducible apply State.refuse_kept
    | with_reducible apply State.wr_kept

theorem State.ledgerWrite_kept {a : State} (s : State) (x1 : Nat) (h : Kept a s) : Kept a (State.ledgerWrite s x1) := by
  unfold State.ledgerWrite
  split
  · exact State.wr_kept _ _ _ _ _ _ (h.putOtp { otpLe.refl s.otp with ledger := List.prefix_append _ _ })
  · exact h

theorem State.setTriad_kept {a : State} (s : State) (x : TriadState) (h : Kept a s) (m : x.sram = s.triad.sram) :
    Kept a (State.setTriad s x) := h.update m rfl rfl rfl

theorem State.setMode_kept {a : State} (s : State) (m : Nat) (h : Kept a s) : Kept a (State.setMode s m) := by
  unfold State.setMode
  try lift_lets
  repeat' first
    | with_reducible assumption
    | with_reducible apply State.wr_kept

theorem State.evaluate_kept {a : State} (s : State) (u : UnitNo) (d : Nat) (cond : Bool) (x : Detail) (h : Kept a s) : Kept a (State.evaluate s u d cond x).2 := by
  unfold State.evaluate
  try lift_lets
  repeat' first
    | with_reducible assumption
    | with_reducible apply State.check_kept

theorem State.triadReady_kept {a : State} (s : State) (h : Kept a s) : Kept a (State.triadReady s) := by
  unfold State.triadReady
  try lift_lets
  repeat' first
    | with_reducible assumption
    | with_reducible apply Kept.ite
    | with_reducible apply State.wr_kept

theorem State.triadStart_kept {a : State} (s : State) (h : Kept a s) : Kept a (State.triadStart s) := by
  unfold State.triadStart
  try lift_lets
  repeat' first
    | with_reducible assumption
    | with_reducible apply Kept.ite
    | with_reducible apply State.check_kept
    | with_reducible apply State.setMode_kept
    | with_reducible apply State.setTriad_kept
    | with_reducible apply State.triadReady_kept
    | with_reducible apply State.wr_kept
    | with_reducible rfl
    | lift_lets
    | split

theorem State.mbDone_kept {a : State} (s : State) (m : Nat) (h : Kept a s) : Kept a (State.mbDone s m) := by
  unfold State.mbDone
  try lift_lets
  repeat' first
    | with_reducible assumption
    | with_reducible apply Kept.ite
    | with_reducible apply State.event_kept
    | with_reducible apply State.setTriad_kept
    | with_reducible apply State.wr_kept
    | with_reducible rfl

theorem State.mbAbort_kept {a : State} (s : State) (m : Nat) (h : Kept a s) : Kept a (State.mbAbort s m) := by
  unfold State.mbAbort
  try lift_lets
  repeat' first
    | with_reducible assumption
    | with_reducible apply Kept.ite
    | with_reducible apply State.mbDone_kept
    | with_reducible apply State.wr_kept

theorem State.hold_kept {a : State} (s : State) (h : Kept a s) : Kept a (State.hold s) := by
  unfold State.hold
  try lift_lets
  repeat' first
    | with_reducible assumption
    | with_reducible apply Kept.foldl
    | with_reducible apply State.mbAbort_kept
    | with_reducible apply State.wr_kept

theorem State.deliver_kept {a : State} (s : State) (l : List (Nat × Nat)) (h : Kept a s) : Kept a (State.deliver s l) := by
  unfold State.deliver
  try lift_lets
  repeat' first
    | with_reducible assumption
    | with_reducible apply State.setTriad_kept
    | with_reducible rfl

theorem State.resume_kept {a : State} (s : State) (h : Kept a s) : Kept a (State.resume s) := by
  unfold State.resume
  try lift_lets
  repeat' first
    | with_reducible assumption
    | with_reducible apply State.deliver_kept
    | with_reducible apply State.setTriad_kept
    | with_reducible apply State.wr_kept
    | lift_lets
    | rfl

theorem State.dropCore_kept {a : State} (s : State) (n : Nat) (h : Kept a s) : Kept a (State.dropCore s n) := by
  unfold State.dropCore
  try lift_lets
  repeat' first
    | with_reducible assumption
    | with_reducible apply State.ledgerAdd_kept
    | with_reducible apply State.orBit_kept
    | with_reducible apply State.resume_kept
    | with_reducible apply State.setMode_kept

theorem State.startResync_kept {a : State} (s : State) (n : Nat) (h : Kept a s) : Kept a (State.startResync s n) := by
  unfold State.startResync
  try lift_lets
  repeat' first
    | with_reducible assumption
    | with_reducible apply State.setTriad_kept
    | with_reducible apply State.wr_kept
    | lift_lets
    | rfl

theorem State.maskedCore_kept {a : State} (s : State) (d : Nat) (m : Option Nat) (h : Kept a s) : Kept a (State.maskedCore s d m).2 := by
  unfold State.maskedCore
  try lift_lets
  repeat' first
    | with_reducible assumption
    | with_reducible apply Kept.ite_snd
    | with_reducible apply State.draw_kept
    | with_reducible apply State.evaluate_kept
    | lift_lets
    | (split <;> first | (rename_i t heq; refine (fun (ht : Kept a t) => ?_) (Kept.ofEq heq ?_)) | (rename_i t _ heq; refine (fun (ht : Kept a t) => ?_) (Kept.ofEq heq ?_)))

theorem State.vote_kept {a : State} (s : State) (x1 : TriadTx) (h : Kept a s) : Kept a (State.vote s x1).2 := by
  unfold State.vote
  try lift_lets
  repeat' first
    | with_reducible assumption
    | with_reducible apply Kept.ite_snd
    | with_reducible apply Kept.foldl
    | with_reducible apply State.check_kept
    | with_reducible apply State.evaluate_kept
    | with_reducible apply State.hold_kept
    | with_reducible apply State.maskedCore_kept
    | with_reducible apply State.sat_kept
    | with_reducible apply State.startResync_kept
    | (intro t x (ht : Kept a t))
    | lift_lets
    | split

theorem State.agree_kept {a : State} (s : State) (event : Nat) (cores : Nat) (late : Bool) (h : Kept a s) : Kept a (State.agree s event cores late) := by
  unfold State.agree
  try lift_lets
  repeat' first
    | with_reducible assumption
    | with_reducible apply Kept.ite
    | with_reducible apply State.deliver_kept
    | with_reducible apply State.evaluate_kept
    | with_reducible apply State.sat_kept
    | with_reducible apply State.setTriad_kept
    | with_reducible rfl

theorem agreeOfferExpiryStep_kept {a : State} (event : Nat) (s : State) (h : Kept a s) : Kept a (agreeOfferExpiryStep event s) := by
  unfold agreeOfferExpiryStep
  try lift_lets
  repeat' first
    | with_reducible assumption
    | with_reducible apply Kept.ite
    | with_reducible apply State.check_kept
    | with_reducible apply State.sat_kept
    | with_reducible apply State.setTriad_kept
    | with_reducible rfl
    | (intro t; refine Kept.cut (a := a) (t := t) ?_ ?_ <;> first | (intro ht; clear_value t) | subst t)
    | (intro t; ((have : TriadState := t)); clear this)
    | split

theorem triadEventLatchStep_kept {a : State} (event : Nat) (cores : Nat) (s : State) (h : Kept a s) : Kept a (triadEventLatchStep event cores s) := by
  unfold triadEventLatchStep
  try lift_lets
  repeat' first
    | with_reducible assumption
    | with_reducible apply Kept.ite
    | with_reducible apply State.agree_kept
    | with_reducible apply State.deliver_kept
    | with_reducible apply State.setTriad_kept
    | with_reducible apply agreeOfferExpiryStep_kept
    | with_reducible rfl
    | lift_lets
    | split

theorem State.showDigests_kept {a : State} (s : State) (v : List Nat) (h : Kept a s) : Kept a (State.showDigests s v) := by
  unfold State.showDigests
  try lift_lets
  repeat' first
    | with_reducible assumption
    | with_reducible apply Kept.foldl
    | with_reducible apply State.wr_kept
    | (intro t x (ht : Kept a t))

theorem State.digestMinority_kept {a : State} (s : State) (v : List Nat) (h : Kept a s) : Kept a (State.digestMinority s v).2 := by
  unfold State.digestMinority
  try lift_lets
  repeat' first
    | with_reducible assumption
    | with_reducible apply Kept.ite_snd
    | with_reducible apply State.maskedCore_kept

theorem State.digestMinorityIs_kept {a : State} (s : State) (n : Nat) (again : Option Nat) (h : Kept a s) : Kept a (State.digestMinorityIs s n again) := by
  unfold State.digestMinorityIs
  try lift_lets
  repeat' first
    | with_reducible assumption
    | with_reducible apply Kept.ite
    | with_reducible apply State.check_kept
    | with_reducible apply State.dropCore_kept
    | with_reducible apply State.sat_kept
    | with_reducible apply State.startResync_kept
    | with_reducible apply State.wr_kept

theorem State.digestVerdict_kept {a : State} (s : State) (same : Bool) (minority : Option Nat) (again : Option Nat) (h : Kept a s) : Kept a (State.digestVerdict s same minority again) := by
  unfold State.digestVerdict
  try lift_lets
  repeat' first
    | with_reducible assumption
    | with_reducible apply Kept.ite
    | with_reducible apply State.check_kept
    | with_reducible apply State.digestMinorityIs_kept
    | with_reducible apply State.hold_kept
    | with_reducible apply State.inc_kept
    | with_reducible apply State.resume_kept
    | split

theorem State.compareDigests_kept {a : State} (s : State) (x1 : Nat) (b : Nat) (c : Nat) (again : Option Nat) (h : Kept a s) : Kept a (State.compareDigests s x1 b c again) := by
  exact State.digestVerdict_kept _ _ _ _ (State.digestMinority_kept _ _ (State.showDigests_kept _ _ h))

theorem digestCompareStep_kept {a : State} (x0 : Nat) (b : Nat) (c : Nat) (s : State) (h : Kept a s) : Kept a (digestCompareStep x0 b c s) := by
  unfold digestCompareStep
  try lift_lets
  repeat' first
    | with_reducible assumption
    | with_reducible apply Kept.ite
    | with_reducible apply State.compareDigests_kept

theorem resyncDoneStep_kept {a : State} (x0 : Nat) (b : Nat) (c : Nat) (cycles : Nat) (s : State) (h : Kept a s) : Kept a (resyncDoneStep x0 b c cycles s) := by
  unfold resyncDoneStep
  try lift_lets
  repeat' first
    | with_reducible assumption
    | with_reducible apply Kept.ite
    | with_reducible apply State.compareDigests_kept
    | with_reducible apply State.wr_kept
    | split

theorem State.voterSelfTest_kept {a : State} (s : State) (h : Kept a s) : Kept a (State.voterSelfTest s) := by
  unfold State.voterSelfTest
  try lift_lets
  repeat' first
    | with_reducible assumption
    | with_reducible apply Kept.ite
    | with_reducible apply State.check_kept
    | with_reducible apply State.inc_kept
    | with_reducible apply State.setTriad_kept
    | with_reducible rfl

theorem debugHaltStep_kept {a : State} (s : State) (h : Kept a s) : Kept a (debugHaltStep s) := by
  unfold debugHaltStep
  try lift_lets
  repeat' first
    | with_reducible assumption
    | with_reducible apply Kept.ite
    | with_reducible apply State.check_kept
    | with_reducible apply State.setMode_kept
    | with_reducible apply State.wr_kept

theorem mailboxDoorbellRun_kept {a : State} (m : Nat) (master : Nat) (s : State) (h : Kept a s) : Kept a (mailboxDoorbellRun m master s) := by
  unfold mailboxDoorbellRun
  try lift_lets
  repeat' first
    | with_reducible assumption
    | with_reducible apply Kept.ite
    | with_reducible apply State.mbAbort_kept
    | with_reducible apply State.refuse_kept
    | with_reducible apply State.setTriad_kept
    | with_reducible apply State.wr_kept
    | lift_lets
    | rfl

theorem State.flashPut_kept {a : State} (s : State) (off : Nat) (b : List Byte) (h : Kept a s) : Kept a (State.flashPut s off b) := by
  unfold State.flashPut
  try lift_lets
  repeat' first
    | with_reducible assumption
    | with_reducible apply State.setKettle_kept

theorem State.slotWrite_kept {a : State} (s : State) (m : Nat) (service : Nat) (h : Kept a s) : Kept a (State.slotWrite s m service) := by
  unfold State.slotWrite
  try lift_lets
  repeat' first
    | with_reducible assumption
    | with_reducible apply Kept.ite
    | with_reducible apply State.flashPut_kept
    | with_reducible apply State.setTriad_kept
    | lift_lets
    | rfl

theorem State.settingsMac_kept {a : State} (s : State) (b : List Byte) (h : Kept a s) : Kept a (State.settingsMac s b).2 := by
  unfold State.settingsMac
  try lift_lets
  repeat' first
    | with_reducible assumption
    | with_reducible apply State.draw_kept
    | split

theorem State.putCopy_kept {a : State} (s : State) (l : List SetSection) (h : Kept a s) : Kept a (State.putCopy s l) := by
  unfold State.putCopy
  try lift_lets
  repeat' first
    | with_reducible assumption
    | with_reducible apply State.flashPut_kept
    | with_reducible apply State.setKettle_kept
    | with_reducible apply State.settingsMac_kept

theorem State.settingsWrite_kept {a : State} (s : State) (m : Nat) (h : Kept a s) : Kept a (State.settingsWrite s m) := by
  unfold State.settingsWrite
  try lift_lets
  repeat' first
    | with_reducible assumption
    | with_reducible apply State.putCopy_kept

theorem State.serviceDone_kept {a : State} (s : State) (m : Nat) (service : Nat) (h : Kept a s) : Kept a (State.serviceDone s m service) := by
  unfold State.serviceDone
  try lift_lets
  repeat' first
    | with_reducible assumption
    | with_reducible apply Kept.ite
    | with_reducible apply State.setTriad_kept
    | with_reducible apply State.settingsWrite_kept
    | with_reducible apply State.slotWrite_kept
    | with_reducible rfl

theorem mailboxResponseStep_kept {a : State} (m : Nat) (status : Nat) (words : List Nat) (s : State) (h : Kept a s) : Kept a (mailboxResponseStep m status words s) := by
  unfold mailboxResponseStep
  try lift_lets
  repeat' first
    | with_reducible assumption
    | with_reducible apply Kept.ite
    | with_reducible apply Kept.foldl
    | with_reducible apply State.mbDone_kept
    | with_reducible apply State.serviceDone_kept
    | with_reducible apply State.wr_kept
    | (intro t x (ht : Kept a t))
    | (intro t; refine Kept.cut (a := a) (t := t) ?_ ?_ <;> first | (intro ht; clear_value t) | subst t)
    | (intro t; clear_value t)
    | split

theorem mailboxAckRun_kept {a : State} (m : Nat) (master : Nat) (s : State) (h : Kept a s) : Kept a (mailboxAckRun m master s) := by
  unfold mailboxAckRun
  try lift_lets
  repeat' first
    | with_reducible assumption
    | with_reducible apply Kept.ite
    | with_reducible apply State.refuse_kept
    | with_reducible apply State.wr_kept

end Sys2Proof.Machine
end

