-- ==== Sys2Proof/Laws/KeepSaucer.lean ====
section
/-! SUPPORT. The operations of Machine/Saucer.lean keep what `Kept` says. -/

namespace Sys2Proof.Machine

set_option maxRecDepth 20000

theorem State.setSaucer_kept {a : State} (s : State) (x : SaucerState) (h : Kept a s) : Kept a (State.setSaucer s x) := by
  unfold State.setSaucer
  try lift_lets
  repeat' with_reducible exact Kept.update (by with_reducible assumption) (by rfl) (by rfl) (by rfl) (by rfl)

theorem State.moveBuckets_kept {a : State} (s : State) (n : Nat) (h : Kept a s) : Kept a (State.moveBuckets s n) := by
  unfold State.moveBuckets
  try lift_lets
  repeat' first
    | with_reducible assumption
    | with_reducible apply State.setSaucer_kept

theorem State.classify_kept {a : State} (s : State) (r : Report) (inj : Bool) (h : Kept a s) : Kept a (State.classify s r inj) := by
  unfold State.classify
  try lift_lets
  repeat' first
    | with_reducible assumption
    | with_reducible apply Kept.ite
    | with_reducible apply State.dropCore_kept
    | with_reducible apply State.ledgerAdd_kept
    | with_reducible apply State.raiseAlarm_kept
    | with_reducible apply State.sat_kept
    | with_reducible apply State.setSaucer_kept
    | with_reducible apply State.wr_kept
    | lift_lets
    | split

theorem State.countError_kept {a : State} (s : State) (r : Report) (h : Kept a s) : Kept a (State.countError s r) := by
  unfold State.countError
  try lift_lets
  repeat' first
    | with_reducible assumption
    | with_reducible apply Kept.ite
    | with_reducible apply State.classify_kept
    | with_reducible apply State.setSaucer_kept

theorem State.record_kept {a : State} (s : State) (i : Nat) (r : Report) (h : Kept a s) : Kept a (State.record s i r) := by
  unfold State.record
  try lift_lets
  repeat' first
    | with_reducible assumption
    | with_reducible apply State.wr_kept

theorem State.tellCosy_kept {a : State} (s : State) (h : Kept a s) : Kept a (State.tellCosy s) := by
  unfold State.tellCosy
  try lift_lets
  repeat' first
    | with_reducible assumption
    | with_reducible apply Kept.ite
    | with_reducible exact Kept.update (by with_reducible assumption) (by rfl) (by rfl) (by rfl) (by rfl)

theorem State.episodeError_kept {a : State} (s : State) (r : Report) (h : Kept a s) : Kept a (State.episodeError s r) := by
  unfold State.episodeError
  try lift_lets
  repeat' first
    | with_reducible assumption
    | with_reducible apply Kept.ite
    | with_reducible apply State.inc_kept
    | with_reducible apply State.record_kept
    | with_reducible apply State.sat_kept
    | with_reducible apply State.tellCosy_kept
    | with_reducible apply State.withIrq_kept
    | with_reducible apply State.wr_kept
    | (intro t (ht : Kept a t))

theorem State.takeError_kept {a : State} (s : State) (r : Report) (h : Kept a s) : Kept a (State.takeError s r) := by
  unfold State.takeError
  try lift_lets
  repeat' first
    | with_reducible assumption
    | with_reducible apply Kept.ite
    | with_reducible apply State.countError_kept
    | with_reducible apply State.episodeError_kept
    | with_reducible apply State.inc_kept
    | with_reducible apply State.sat_kept

theorem State.cutOff_kept {a : State} (s : State) (p : Nat) (x2 : Tx) (h : Kept a s) : Kept a (State.cutOff s p x2) := by
  unfold State.cutOff
  try lift_lets
  repeat' first
    | with_reducible assumption
    | with_reducible exact Kept.update (by with_reducible assumption) (by rfl) (by rfl) (by rfl) (by rfl)
    | with_reducible apply State.removeEntry_kept
    | with_reducible apply State.setReading_kept
    | with_reducible apply State.walkFrom_kept
    | (intro t; clear_value t)
    | lift_lets
    | (split <;> first | (rename_i t heq; refine (fun (ht : Kept a t) => ?_) (Kept.ofEq heq ?_)) | skip)
    | dsimp only

theorem State.stopPort_kept {a : State} (s : State) (p : Nat) (h : Kept a s) : Kept a (State.stopPort s p) := by
  unfold State.stopPort
  try lift_lets
  repeat' first
    | with_reducible assumption
    | with_reducible apply Kept.ite
    | with_reducible apply Kept.foldl
    | with_reducible apply State.cutOff_kept
    | with_reducible apply State.setSpout_kept
    | with_reducible apply State.unselect_kept
    | (intro t x (ht : Kept a t))

theorem State.abandonCan_kept {a : State} (s : State) (n : Nat) (h : Kept a s) : Kept a (State.abandonCan s n) := by
  unfold State.abandonCan
  try lift_lets
  repeat' first
    | with_reducible assumption
    | with_reducible apply Kept.ite
    | with_reducible apply State.canIdle_kept
    | with_reducible apply State.sat_kept
    | with_reducible apply State.setCan_kept

theorem State.listenAll_kept {a : State} (s : State) (h : Kept a s) : Kept a (State.listenAll s) := by
  unfold State.listenAll
  try lift_lets
  repeat' first
    | with_reducible assumption
    | with_reducible apply Kept.ite
    | with_reducible exact Kept.update (by with_reducible assumption) (by rfl) (by rfl) (by rfl) (by rfl)
    | with_reducible apply Kept.foldl
    | with_reducible apply State.setXcvr_kept
    | (intro t x (ht : Kept a t))

theorem State.safePoc_kept {a : State} (s : State) (st : Nat) (h : Kept a s) : Kept a (State.safePoc s st) := by
  unfold State.safePoc
  try lift_lets
  repeat' first
    | with_reducible assumption
    | with_reducible apply Kept.ite
    | with_reducible apply State.wr_kept

theorem State.edgeSafe_kept {a : State} (s : State) (h : Kept a s) : Kept a (State.edgeSafe s) := by
  unfold State.edgeSafe
  try lift_lets
  repeat' first
    | with_reducible assumption
    | with_reducible apply Kept.foldl
    | with_reducible apply State.abandonCan_kept
    | with_reducible apply State.linSync_kept
    | with_reducible apply State.listenAll_kept
    | with_reducible apply State.safePoc_kept

theorem State.powerSafe_kept {a : State} (s : State) (h : Kept a s) : Kept a (State.powerSafe s) := by
  unfold State.powerSafe
  try lift_lets
  repeat' first
    | with_reducible assumption
    | with_reducible apply Kept.ite
    | with_reducible exact Kept.update (by with_reducible assumption) (by rfl) (by rfl) (by rfl) (by rfl)
    | with_reducible apply State.setPower_kept

theorem State.toPower_kept {a : State} (s : State) (p : Nat) (h : Kept a s) : Kept a (State.toPower s p) := by
  unfold State.toPower
  try lift_lets
  repeat' first
    | with_reducible assumption
    | with_reducible apply Kept.ite
    | with_reducible apply State.powerSafe_kept
    | with_reducible apply State.setPower_kept

theorem State.enterSafe_kept {a : State} (s : State) (h : Kept a s) : Kept a (State.enterSafe s) := by
  unfold State.enterSafe
  try lift_lets
  repeat' first
    | with_reducible assumption
    | with_reducible apply Kept.ite
    | with_reducible exact Kept.update (by with_reducible assumption) (by rfl) (by rfl) (by rfl) (by rfl)
    | with_reducible apply Kept.foldl
    | with_reducible apply State.edgeSafe_kept
    | with_reducible apply State.inc_kept
    | with_reducible apply State.netmLocal_kept
    | with_reducible apply State.powerSafe_kept
    | with_reducible apply State.stopPort_kept

theorem State.restoreXcvr_kept {a : State} (s : State) (h : Kept a s) : Kept a (State.restoreXcvr s) := by
  unfold State.restoreXcvr
  try lift_lets
  repeat' first
    | with_reducible assumption
    | with_reducible exact Kept.update (by with_reducible assumption) (by rfl) (by rfl) (by rfl) (by rfl)
    | with_reducible apply Kept.foldl
    | with_reducible apply State.setXcvr_kept
    | (intro t x (ht : Kept a t))
    | (intro t; refine Kept.cut (a := a) (t := t) ?_ ?_ <;> first | (intro ht; clear_value t) | subst t)

theorem State.powerBack_kept {a : State} (s : State) (h : Kept a s) : Kept a (State.powerBack s) := by
  unfold State.powerBack
  try lift_lets
  repeat' first
    | with_reducible assumption
    | with_reducible apply Kept.ite
    | with_reducible apply State.setPower_kept

theorem State.leaveSafe_kept {a : State} (s : State) (h : Kept a s) : Kept a (State.leaveSafe s) := by
  unfold State.leaveSafe
  try lift_lets
  repeat' first
    | with_reducible exact Kept.update (by with_reducible assumption) (by rfl) (by rfl) (by rfl) (by rfl)
    | with_reducible apply Kept.foldl
    | with_reducible apply State.linSync_kept
    | with_reducible apply State.netmLocal_kept
    | with_reducible apply State.powerBack_kept
    | with_reducible apply State.restoreXcvr_kept
    | with_reducible apply State.safePoc_kept

theorem State.stepSafe_kept {a : State} (s : State) (h : Kept a s) : Kept a (State.stepSafe s) := by
  unfold State.stepSafe
  try lift_lets
  repeat' first
    | with_reducible assumption
    | with_reducible apply Kept.ite
    | with_reducible apply State.enterSafe_kept
    | with_reducible apply State.tellCosy_kept
    | with_reducible apply State.wr_kept

theorem safeStateEntryStep_kept {a : State} (s : State) (h : Kept a s) : Kept a (safeStateEntryStep s) := by
  unfold safeStateEntryStep
  try lift_lets
  repeat' first
    | with_reducible assumption
    | with_reducible apply Kept.ite
    | with_reducible apply State.stepSafe_kept

theorem State.integrityFault_kept {a : State} (s : State) (h : Kept a s) : Kept a (State.integrityFault s) := by
  unfold State.integrityFault
  try lift_lets
  repeat' first
    | with_reducible assumption
    | with_reducible apply Kept.iter
    | with_reducible apply State.check_kept
    | with_reducible apply State.stepSafe_kept
    | with_reducible apply State.takeError_kept
    | with_reducible apply State.wr_kept
    | (intro t (ht : Kept a t))
    | lift_lets
    | (with_reducible refine Kept.update ?_ (by rfl) (by rfl) (by rfl) (by rfl); with_reducible apply State.check_kept)
    | split

theorem State.takeChecked_kept {a : State} (s : State) (r : Report) (h : Kept a s) : Kept a (State.takeChecked s r) := by
  unfold State.takeChecked
  try lift_lets
  repeat' first
    | with_reducible assumption
    | with_reducible apply Kept.ite
    | with_reducible apply Kept.foldl
    | with_reducible apply State.clearUpset_kept
    | with_reducible apply State.integrityFault_kept
    | with_reducible apply State.takeError_kept
    | with_reducible apply State.wr_kept
    | (intro t x (ht : Kept a t))

theorem saucerReportStep_kept {a : State} (s : State) (h : Kept a s) : Kept a (saucerReportStep s) := by
  unfold saucerReportStep
  try lift_lets
  repeat' first
    | with_reducible assumption
    | with_reducible apply Kept.ite
    | with_reducible exact Kept.update (by with_reducible assumption) (by rfl) (by rfl) (by rfl) (by rfl)
    | with_reducible apply Kept.iter
    | with_reducible apply State.takeChecked_kept
    | (intro t (ht : Kept a t))
    | lift_lets
    | split

theorem State.holdGrace_kept {a : State} (s : State) (h : Kept a s) : Kept a (State.holdGrace s) := by
  unfold State.holdGrace
  try lift_lets
  repeat' first
    | with_reducible assumption
    | with_reducible apply State.setSaucer_kept

theorem State.saucerTick_kept {a : State} (s : State) (h : Kept a s) : Kept a (State.saucerTick s) := by
  unfold State.saucerTick
  try lift_lets
  repeat' first
    | with_reducible assumption
    | with_reducible apply Kept.ite
    | with_reducible apply State.clearUpset_kept
    | with_reducible apply State.integrityFault_kept
    | with_reducible apply State.leaveSafe_kept
    | with_reducible apply State.setSaucer_kept
    | with_reducible apply State.wr_kept

theorem State.saucerRestart_kept {a : State} (s : State) (byCosy : Bool) (source : Nat) (det : Nat) (h : Kept a s) : Kept a (State.saucerRestart s byCosy source det) := by
  unfold State.saucerRestart
  try lift_lets
  repeat' first
    | with_reducible assumption
    | with_reducible apply State.failStart_kept
    | with_reducible apply State.sat_kept
    | with_reducible apply State.wr_kept

theorem saucerRestartStep_kept {a : State} (s : State) (h : Kept a s) : Kept a (saucerRestartStep s) := by
  unfold saucerRestartStep
  try lift_lets
  repeat' first
    | with_reducible assumption
    | with_reducible apply Kept.ite
    | with_reducible apply State.saucerRestart_kept
    | with_reducible apply State.wr_kept

theorem State.tickMessage_kept {a : State} (s : State) (h : Kept a s) : Kept a (State.tickMessage s) := by
  unfold State.tickMessage
  try lift_lets
  repeat' first
    | with_reducible assumption
    | with_reducible apply Kept.ite
    | with_reducible exact Kept.update (by with_reducible assumption) (by rfl) (by rfl) (by rfl) (by rfl)

theorem cosyGraceTimeoutStep_kept {a : State} (s : State) (h : Kept a s) : Kept a (cosyGraceTimeoutStep s) := by
  unfold cosyGraceTimeoutStep
  try lift_lets
  repeat' first
    | with_reducible assumption
    | with_reducible apply Kept.ite
    | with_reducible apply State.saucerRestart_kept

theorem tickMessageTimeoutStep_kept {a : State} (s : State) (h : Kept a s) : Kept a (tickMessageTimeoutStep s) := by
  unfold tickMessageTimeoutStep
  try lift_lets
  repeat' first
    | with_reducible assumption
    | with_reducible apply Kept.ite
    | with_reducible apply State.saucerRestart_kept

theorem State.endEpisode_kept {a : State} (s : State) (h : Kept a s) : Kept a (State.endEpisode s) := by
  unfold State.endEpisode
  try lift_lets
  repeat' first
    | with_reducible assumption
    | with_reducible apply State.tellCosy_kept
    | with_reducible apply State.wr_kept

theorem episodeEndRun_kept {a : State} (key : Nat) (seq : Nat) (master : Nat) (s : State) (h : Kept a s) : Kept a (episodeEndRun key seq master s) := by
  unfold episodeEndRun
  try lift_lets
  repeat' first
    | with_reducible assumption
    | with_reducible apply Kept.ite
    | with_reducible apply State.endEpisode_kept
    | with_reducible apply State.refuse_kept
    | with_reducible apply State.sat_kept
    | with_reducible apply State.wr_kept

end Sys2Proof.Machine
end

