-- ==== Sys2Proof/Laws/KeepRegisters.lean ====
section
/-! SUPPORT. The operations of Machine/Registers.lean keep what `Kept` says. -/

namespace Sys2Proof.Machine

set_option maxRecDepth 20000

theorem State.clearRc_kept {a : State} (s : State) (f : Found) (h : Kept a s) : Kept a (State.clearRc s f) := by
  unfold State.clearRc
  try lift_lets
  repeat' first
    | with_reducible assumption
    | with_reducible apply Kept.ite
    | with_reducible apply Kept.foldl
    | with_reducible apply State.setWord_kept
    | (intro t x (ht : Kept a t))

theorem State.latchHigh_kept {a : State} (s : State) (f : Found) (h : Kept a s) : Kept a (State.latchHigh s f) := by
  unfold State.latchHigh
  try lift_lets
  repeat' first
    | with_reducible assumption
    | with_reducible apply Kept.ite
    | with_reducible apply State.wr_kept
    | (intro t; clear_value t)
    | split

theorem State.accessSeen_kept {a : State} (s : State) (m : Nat) (x2 : Nat) (access : Nat) (u : UnitNo) (h : Kept a s) : Kept a (State.accessSeen s m x2 access u) := by
  unfold State.accessSeen
  try lift_lets
  repeat' first
    | with_reducible assumption
    | with_reducible apply Kept.ite
    | with_reducible apply State.check_kept

theorem State.plainRead_kept {a : State} (s : State) (m : Nat) (f : Found) (h : Kept a s) : Kept a (State.plainRead s m f).2 := by
  unfold State.plainRead
  try lift_lets
  repeat' first
    | with_reducible assumption
    | with_reducible apply State.clearRc_kept
    | with_reducible apply State.latchHigh_kept

theorem State.readFound_kept {a : State} (s : State) (m : Nat) (f : Found) (h : Kept a s) : Kept a (State.readFound s m f).2 := by
  unfold State.readFound
  try lift_lets
  repeat' first
    | with_reducible assumption
    | with_reducible apply Kept.ite_snd
    | with_reducible exact Kept.update (by with_reducible assumption) (by rfl) (by rfl) (by rfl) (by rfl)
    | with_reducible apply State.plainRead_kept
    | with_reducible apply State.wr_kept
    | with_reducible apply gclDataReadStep_kept
    | with_reducible apply memDataReadStep_kept
    | with_reducible apply tsinPopStep_kept
    | (intro t; refine Kept.cut (a := a) (t := t) ?_ ?_ <;> first | (intro ht; clear_value t) | subst t)
    | (intro t; clear_value t)
    | split

theorem State.readAt_kept {a : State} (s : State) (m : Nat) (x2 : Nat) (h : Kept a s) : Kept a (State.readAt s m x2).2 := by
  unfold State.readAt
  try lift_lets
  repeat' first
    | with_reducible assumption
    | with_reducible apply Kept.ite_snd
    | with_reducible apply State.accessError_kept
    | with_reducible apply State.accessSeen_kept
    | with_reducible apply State.readFound_kept
    | split

theorem State.regRead_kept {a : State} (s : State) (m : Nat) (x2 : Nat) (whole : Bool) (h : Kept a s) : Kept a (State.regRead s m x2 whole).2 := by
  unfold State.regRead
  try lift_lets
  repeat' first
    | with_reducible assumption
    | with_reducible apply Kept.ite_snd
    | with_reducible apply State.accessError_kept
    | with_reducible apply State.readAt_kept

theorem State.answer_kept {a : State} (s : State) (d : ReadDest) (v : Word) (h : Kept a s) : Kept a (State.answer s d v) := by
  unfold State.answer
  try lift_lets
  repeat' first
    | with_reducible assumption
    | with_reducible exact Kept.update (by with_reducible assumption) (by rfl) (by rfl) (by rfl) (by rfl)
    | with_reducible apply State.setHost_kept
    | (intro t; refine Kept.cut (a := a) (t := t) ?_ ?_ <;> first | (intro ht; clear_value t) | subst t)
    | (intro t; clear_value t)
    | split

theorem State.serveRead_kept {a : State} (s : State) (r : NonPosted) (h : Kept a s) : Kept a (State.serveRead s r) := by
  unfold State.serveRead
  try lift_lets
  repeat' first
    | with_reducible assumption
    | with_reducible apply State.answer_kept
    | with_reducible apply State.regRead_kept

theorem State.askRead_kept {a : State} (s : State) (m : Nat) (x2 : Nat) (whole : Bool) (d : ReadDest) (h : Kept a s) : Kept a (State.askRead s m x2 whole d) := by
  unfold State.askRead
  try lift_lets
  repeat' first
    | with_reducible assumption
    | with_reducible apply Kept.ite
    | with_reducible apply State.serveRead_kept
    | with_reducible apply State.setHost_kept

theorem State.serveList_kept {a : State} (s : State) (kept : List NonPosted) (x2 : List NonPosted) (h : Kept a s) : Kept a (State.serveList s kept x2) := by
  induction x2 generalizing s kept with
  | nil => exact State.setHost_kept _ _ h
  | cons r t ih =>
    unfold State.serveList
    split
    · exact ih s _ h
    · exact ih _ _ (State.serveRead_kept _ _ h)

theorem State.serveReads_kept {a : State} (s : State) (h : Kept a s) : Kept a (State.serveReads s) := by
  unfold State.serveReads
  try lift_lets
  repeat' first
    | with_reducible assumption
    | with_reducible apply State.serveList_kept

theorem State.flushReads_kept {a : State} (s : State) (p : NonPosted → Bool) (h : Kept a s) : Kept a (State.flushReads s p) := by
  unfold State.flushReads
  try lift_lets
  repeat' first
    | with_reducible assumption
    | with_reducible apply Kept.foldl
    | with_reducible apply State.accessError_kept
    | with_reducible apply State.answer_kept
    | with_reducible apply State.serveReads_kept
    | with_reducible apply State.setHost_kept
    | (intro t x (ht : Kept a t))

end Sys2Proof.Machine
end

