-- ==== Sys2Proof/Laws/KeepCommit.lean ====
section
/-! SUPPORT. The operations of Machine/Commit.lean keep what `Kept` says. -/

namespace Sys2Proof.Machine

set_option maxRecDepth 20000

theorem State.commitEntry_kept {a : State} (s : State) (u : UnitNo) (es : List Staged) (s0 : State) (x4 : Staged) (h : Kept a s) : Kept a (State.commitEntry s u es s0 x4) := by
  unfold State.commitEntry
  try lift_lets
  repeat' first
    | with_reducible assumption
    | with_reducible apply State.setWord_kept

theorem State.shapersOff_kept {a : State} (s : State) (s0 : State) (p : Nat) (h : Kept a s) : Kept a (State.shapersOff s s0 p) := by
  unfold State.shapersOff
  try lift_lets
  repeat' first
    | with_reducible assumption
    | with_reducible apply Kept.ite
    | with_reducible apply Kept.foldl
    | with_reducible apply State.setCbs_kept
    | (intro t x (ht : Kept a t))

theorem State.spoutCommitted_kept {a : State} (s : State) (s0 : State) (p : Nat) (h : Kept a s) : Kept a (State.spoutCommitted s s0 p) := by
  unfold State.spoutCommitted
  try lift_lets
  repeat' first
    | with_reducible assumption
    | with_reducible apply Kept.ite
    | with_reducible apply State.gateOff_kept
    | with_reducible apply State.gatePend_kept
    | with_reducible apply State.histClear_kept
    | with_reducible apply State.shapersOff_kept
    | with_reducible apply State.wr_kept

theorem State.meterSized_kept {a : State} (s : State) (s0 : State) (w : Bool) (n : Nat) (h : Kept a s) : Kept a (State.meterSized s s0 w n) := by
  unfold State.meterSized
  try lift_lets
  repeat' first
    | with_reducible assumption
    | with_reducible apply State.setMeter_kept

theorem State.strainCommitted_kept {a : State} (s : State) (s0 : State) (w : Bool) (es : List Staged) (h : Kept a s) : Kept a (State.strainCommitted s s0 w es) := by
  unfold State.strainCommitted
  try lift_lets
  repeat' first
    | with_reducible assumption
    | with_reducible apply Kept.ite
    | with_reducible apply Kept.foldl
    | with_reducible apply State.gateEnable_kept
    | with_reducible apply State.meterSized_kept
    | with_reducible apply State.setGate_kept
    | (intro t x (ht : Kept a t))

theorem State.timeCommitted_kept {a : State} (s : State) (es : List Staged) (h : Kept a s) : Kept a (State.timeCommitted s es) := by
  unfold State.timeCommitted
  try lift_lets
  repeat' first
    | with_reducible assumption
    | with_reducible apply Kept.ite
    | with_reducible apply Kept.foldl
    | with_reducible apply State.domEnable_kept
    | with_reducible apply State.selectAll_kept
    | (intro t x (ht : Kept a t))

theorem State.tsioCommitted_kept {a : State} (s : State) (es : List Staged) (h : Kept a s) : Kept a (State.tsioCommitted s es) := by
  unfold State.tsioCommitted
  try lift_lets
  repeat' first
    | with_reducible assumption
    | with_reducible apply Kept.ite
    | with_reducible apply Kept.foldl
    | with_reducible apply State.tsCommitEn_kept
    | with_reducible apply State.tsEval_kept
    | (intro t x (ht : Kept a t))

theorem State.guardCommitted_kept {a : State} (s : State) (s0 : State) (n : Nat) (h : Kept a s) : Kept a (State.guardCommitted s s0 n) := by
  unfold State.guardCommitted
  try lift_lets
  repeat' first
    | with_reducible assumption
    | with_reducible apply Kept.ite
    | with_reducible apply State.setCan_kept

theorem State.canCommitted_kept {a : State} (s : State) (s0 : State) (n : Nat) (h : Kept a s) : Kept a (State.canCommitted s s0 n) := by
  unfold State.canCommitted
  try lift_lets
  repeat' first
    | with_reducible assumption
    | with_reducible apply Kept.ite
    | with_reducible apply Kept.foldl
    | with_reducible apply State.askCanKey_kept
    | with_reducible apply State.guardCommitted_kept
    | (intro t x (ht : Kept a t))

theorem State.t1sCommitted_kept {a : State} (s : State) (s0 : State) (h : Kept a s) : Kept a (State.t1sCommitted s s0) := by
  unfold State.t1sCommitted
  try lift_lets
  repeat' first
    | with_reducible assumption
    | with_reducible apply Kept.ite
    | with_reducible apply Kept.foldl
    | with_reducible apply State.plcaRestart_kept
    | (intro t x (ht : Kept a t))

theorem State.committed_kept {a : State} (s : State) (s0 : State) (u : UnitNo) (es : List Staged) (h : Kept a s) : Kept a (State.committed s s0 u es) := by
  unfold State.committed
  try lift_lets
  repeat' first
    | with_reducible assumption
    | with_reducible apply Kept.ite
    | with_reducible apply Kept.foldl
    | with_reducible apply State.canCommitted_kept
    | with_reducible apply State.genSwap_kept
    | with_reducible apply State.linSync_kept
    | with_reducible apply State.pfcLevel_kept
    | with_reducible apply State.sentStart_kept
    | with_reducible apply State.spoutCommitted_kept
    | with_reducible apply State.strainCommitted_kept
    | with_reducible apply State.t1sCommitted_kept
    | with_reducible apply State.timeCommitted_kept
    | with_reducible apply State.tsioCommitted_kept
    | with_reducible apply State.wr_kept
    | (intro t x (ht : Kept a t))
    | split

theorem State.commitRefusals_kept {a : State} (s : State) (u : UnitNo) (bad : List Staged) (h : Kept a s) : Kept a (State.commitRefusals s u bad) := by
  unfold State.commitRefusals
  try lift_lets
  repeat' first
    | with_reducible assumption
    | with_reducible apply Kept.ite
    | with_reducible apply Kept.foldl
    | with_reducible apply State.accessError_kept
    | with_reducible apply State.fenceCount_kept
    | with_reducible apply State.lastErrOf_kept
    | with_reducible apply State.sat_kept
    | (intro t x (ht : Kept a t))
    | (intro t; refine Kept.cut (a := a) (t := t) ?_ ?_ <;> first | (intro ht; clear_value t) | subst t)
    | lift_lets
    | split

theorem State.commitList_kept {a : State} (s : State) (u : UnitNo) (es : List Staged) (h : Kept a s) : Kept a (State.commitList s u es) := by
  unfold State.commitList
  try lift_lets
  repeat' first
    | with_reducible assumption
    | with_reducible apply Kept.ite
    | with_reducible apply Kept.foldl
    | with_reducible apply State.cbsTo_kept
    | with_reducible apply State.commitEntry_kept
    | with_reducible apply State.commitRefusals_kept
    | with_reducible apply State.committed_kept
    | (intro t x (ht : Kept a t))

theorem State.commitUnit_kept {a : State} (s : State) (u : UnitNo) (h : Kept a s) : Kept a (State.commitUnit s u) := by
  unfold State.commitUnit
  try lift_lets
  repeat' first
    | with_reducible assumption
    | with_reducible apply Kept.ite
    | with_reducible exact Kept.update (by with_reducible assumption) (by rfl) (by rfl) (by rfl) (by rfl)
    | with_reducible apply State.commitList_kept
    | with_reducible apply State.wr_kept

end Sys2Proof.Machine
end

