-- ==== Sys2Proof/Laws/KeepUpdate.lean ====
section
/-! SUPPORT. The operations of Machine/Update.lean keep what `Kept` says. -/

namespace Sys2Proof.Machine

set_option maxRecDepth 20000

theorem keyRevokeRun_kept {a : State} (key : Nat) (slot : Nat) (master : Nat) (s : State) (h : Kept a s) : Kept a (keyRevokeRun key slot master s) := by
  unfold keyRevokeRun
  split
  · exact h
  · split
    · exact State.refuse_kept _ _ _ h
    · split
      · exact h
      · exact h.putOtp { otpLe.refl s.otp with revoked := fun _ m => List.mem_append_left _ m }

theorem retryRun_kept {a : State} (key : Nat) (s : State) (h : Kept a s) : Kept a (retryRun key s) := by
  unfold retryRun
  try lift_lets
  repeat' first
    | with_reducible assumption
    | with_reducible apply Kept.ite
    | with_reducible apply State.wr_kept

theorem updArmRun_kept {a : State} (key : Nat) (s : State) (h : Kept a s) : Kept a (updArmRun key s) := by
  unfold updArmRun
  try lift_lets
  repeat' first
    | with_reducible assumption
    | with_reducible apply Kept.ite
    | with_reducible exact Kept.update (by with_reducible assumption) (by rfl) (by rfl) (by rfl) (by rfl)
    | with_reducible apply State.setUpdState_kept
    | with_reducible apply State.slotResult_kept

theorem updCancelRun_kept {a : State} (key : Nat) (s : State) (h : Kept a s) : Kept a (updCancelRun key s) := by
  unfold updCancelRun
  try lift_lets
  repeat' first
    | with_reducible assumption
    | with_reducible apply Kept.ite
    | with_reducible apply State.cancelActivation_kept
    | with_reducible apply State.slotResult_kept

theorem activationRestartStep_kept {a : State} (s : State) (h : Kept a s) : Kept a (activationRestartStep s) := by
  unfold activationRestartStep
  try lift_lets
  repeat' first
    | with_reducible assumption
    | with_reducible apply Kept.ite
    | with_reducible apply State.brewRestart_kept
    | with_reducible apply State.wr_kept

theorem activationCancelStep_kept {a : State} (s : State) (h : Kept a s) : Kept a (activationCancelStep s) := by
  unfold activationCancelStep
  try lift_lets
  repeat' first
    | with_reducible assumption
    | with_reducible apply Kept.ite
    | with_reducible apply State.cancelActivation_kept

end Sys2Proof.Machine
end

