-- ==== Sys2Proof/Laws/KeepReset.lean ====
section
/-! SUPPORT. The operations of Machine/Reset.lean keep what `Kept` says. -/

namespace Sys2Proof.Machine

set_option maxRecDepth 20000

theorem State.ulisDown_kept {a : State} (s : State) (h : Kept a s) : Kept a (State.ulisDown s) := by
  unfold State.ulisDown
  try lift_lets
  repeat' first
    | with_reducible assumption
    | with_reducible apply Kept.ite
    | with_reducible apply Kept.foldl
    | with_reducible apply State.check_kept
    | with_reducible apply State.flushReads_kept
    | with_reducible apply State.inc_kept
    | with_reducible apply State.lastErrOf_kept
    | with_reducible apply State.refuse_kept
    | with_reducible apply State.setHost_kept
    | with_reducible apply State.wr_kept
    | (intro t x (ht : Kept a t))

theorem State.tickStart_kept {a : State} (s : State) (h : Kept a s) : Kept a (State.tickStart s) := by
  unfold State.tickStart
  try lift_lets
  repeat' first
    | with_reducible assumption
    | with_reducible apply Kept.ite
    | with_reducible apply State.setTick_kept
    | with_reducible apply State.tickFollow_kept

theorem State.onEnable_kept {a : State} (s : State) (u : UnitNo) (h : Kept a s) : Kept a (State.onEnable s u) := by
  unfold State.onEnable
  try lift_lets
  repeat' first
    | with_reducible assumption
    | with_reducible apply Kept.ite
    | with_reducible apply Kept.foldl
    | with_reducible apply State.askCanKeys_kept
    | with_reducible apply State.canEnable_kept
    | with_reducible apply State.feedBlob_kept
    | with_reducible apply State.linSync_kept
    | with_reducible apply State.netmEnable_kept
    | with_reducible apply State.selectAll_kept
    | with_reducible apply State.sentStart_kept
    | with_reducible apply State.skipBadOps_kept
    | with_reducible apply State.takeJob_kept
    | with_reducible apply State.tickStart_kept
    | with_reducible apply State.triadStart_kept
    | (intro t x (ht : Kept a t))
    | (intro t; clear_value t)
    | split

theorem State.jobStop_kept {a : State} (s : State) (u : UnitNo) (h : Kept a s) : Kept a (State.jobStop s u) := by
  unfold State.jobStop
  try lift_lets
  repeat' first
    | with_reducible assumption
    | with_reducible apply Kept.ite
    | with_reducible apply State.setTickJob_kept
    | with_reducible apply State.wr_kept

theorem State.onDisable_kept {a : State} (s0 : State) (u : UnitNo) (h : Kept a s0) : Kept a (State.onDisable s0 u) := by
  unfold State.onDisable
  try lift_lets
  repeat' first
    | with_reducible assumption
    | with_reducible apply Kept.foldl
    | with_reducible apply State.canSwitchOff_kept
    | with_reducible apply State.flxDisable_kept
    | with_reducible apply State.jobStop_kept
    | with_reducible apply State.linSync_kept
    | with_reducible apply State.plcaRestart_kept
    | with_reducible apply State.releaseCan_kept
    | with_reducible apply State.releaseMac_kept
    | (intro t; refine Kept.cut (a := a) (t := t) ?_ ?_ <;> first | (intro ht; clear_value t) | subst t)
    | (intro t; clear_value t)
    | split

theorem State.enableHooks_kept {a : State} (s : State) (s0 : State) (u : UnitNo) (h : Kept a s) : Kept a (State.enableHooks s s0 u) := by
  unfold State.enableHooks
  try lift_lets
  repeat' first
    | with_reducible assumption
    | with_reducible apply Kept.ite
    | with_reducible apply Kept.foldl
    | with_reducible apply State.onDisable_kept
    | with_reducible apply State.onEnable_kept
    | (intro t x (ht : Kept a t))

theorem State.setEnable_kept {a : State} (s : State) (u : UnitNo) (en : Bool) (h : Kept a s) : Kept a (State.setEnable s u en) := by
  unfold State.setEnable
  try lift_lets
  repeat' first
    | with_reducible assumption
    | with_reducible apply Kept.ite
    | with_reducible apply State.enableHooks_kept
    | with_reducible apply State.wr_kept

theorem State.resetRegs_kept {a : State} (s : State) (u : UnitNo) (h : Kept a s) : Kept a (State.resetRegs s u) := by
  unfold State.resetRegs
  try lift_lets
  repeat' first
    | with_reducible assumption
    | with_reducible apply Kept.foldl
    | with_reducible apply State.wr_kept
    | (intro t x (ht : Kept a t))
    | lift_lets
    | ((with_reducible refine Kept.upd (s := _) (by with_reducible assumption) ?_ ?_ ?_ ?_ ?_) <;> first | exact fun w => Kept.sram (by assumption) w | exact fun w => Kept.gwMem (by assumption) w | exact fun w => Kept.timeProg (by assumption) w | exact fun w => Kept.cosyProg (by assumption) w | exact fun w => smWf_filter _ _ _ (Kept.regs (by assumption) w))

theorem State.genReset_kept {a : State} (s : State) (h : Kept a s) : Kept a (State.genReset s) := by
  unfold State.genReset
  try lift_lets
  repeat' first
    | with_reducible exact Kept.update (by with_reducible assumption) (by rfl) (by rfl) (by rfl) (by rfl)
    | with_reducible apply State.wr_kept

theorem State.retiredOcc_kept {a : State} (s : State) (w : Bool) (h : Kept a s) : Kept a (State.retiredOcc s w) := by
  unfold State.retiredOcc
  try lift_lets
  repeat' first
    | with_reducible assumption
    | with_reducible apply State.wr_kept

theorem State.pipeReset_kept {a : State} (s : State) (w : Bool) (h : Kept a s) : Kept a (State.pipeReset s w) := by
  unfold State.pipeReset
  try lift_lets
  repeat' first
    | with_reducible assumption
    | with_reducible apply Kept.ite
    | with_reducible apply State.genReset_kept
    | with_reducible apply State.retiredOcc_kept
    | with_reducible apply State.setPipe_kept
    | lift_lets
    | (with_reducible refine Kept.update ?_ (by rfl) (by rfl) (by rfl) (by rfl); with_reducible apply State.retiredOcc_kept)

theorem State.strainReset_kept {a : State} (s : State) (w : Bool) (h : Kept a s) : Kept a (State.strainReset s w) := by
  unfold State.strainReset
  try lift_lets
  repeat' first
    | with_reducible assumption
    | with_reducible apply Kept.ite
    | with_reducible apply State.genReset_kept
    | with_reducible apply State.setStrain_kept
    | lift_lets
    | (with_reducible refine Kept.update ?_ (by rfl) (by rfl) (by rfl) (by rfl); with_reducible apply State.genReset_kept)

theorem State.stompReads_kept {a : State} (s : State) (h : Kept a s) : Kept a (State.stompReads s) := by
  unfold State.stompReads
  try lift_lets
  repeat' first
    | with_reducible assumption
    | with_reducible apply Kept.foldl
    | with_reducible apply State.stompTx_kept
    | (intro t x (ht : Kept a t))
    | lift_lets
    | split

theorem State.fabReset_kept {a : State} (s : State) (h : Kept a s) : Kept a (State.fabReset s) := by
  unfold State.fabReset
  apply State.wr_kept
  apply State.wr_kept
  apply State.wr_kept
  apply State.wr_kept
  exact Kept.update (s := s.draw) (State.draw_kept s h) rfl rfl rfl rfl

theorem State.timeReset_kept {a : State} (s : State) (h : Kept a s) : Kept a (State.timeReset s) := by
  unfold State.timeReset
  try lift_lets
  repeat' first
    | with_reducible assumption
    | with_reducible apply State.tickFree_kept
    | lift_lets
    | (with_reducible refine Kept.update ?_ (by rfl) (by rfl) (by rfl) (by rfl); with_reducible apply State.tickSettle_kept)

theorem State.macReset_kept {a : State} (s : State) (p : Nat) (h : Kept a s) : Kept a (State.macReset s p) := by
  unfold State.macReset
  try lift_lets
  repeat' first
    | with_reducible assumption
    | with_reducible apply State.holdEnd_kept
    | with_reducible apply State.setInput_kept
    | with_reducible apply State.setSpout_kept
    | lift_lets
    | (with_reducible refine Kept.update ?_ (by rfl) (by rfl) (by rfl) (by rfl); with_reducible apply State.releaseMac_kept)

theorem State.spoutReset_kept {a : State} (s : State) (p : Nat) (h : Kept a s) : Kept a (State.spoutReset s p) := by
  unfold State.spoutReset
  try lift_lets
  repeat' first
    | with_reducible assumption
    | with_reducible apply State.setSpout_kept

theorem State.engineReset_kept {a : State} (s : State) (n : Nat) (h : Kept a s) : Kept a (State.engineReset s n) := by
  unfold State.engineReset
  try lift_lets
  repeat' with_reducible exact Kept.update (by with_reducible assumption) (by rfl) (by rfl) (by rfl) (by rfl)

theorem State.gwReset_kept {a : State} (s : State) (h : Kept a s) : Kept a (State.gwReset s) := by
  unfold State.gwReset
  try lift_lets
  repeat' with_reducible exact Kept.update (by with_reducible assumption) (by rfl) (by rfl) (by rfl) (by rfl)

theorem State.resetTyped_kept {a : State} (s : State) (u : UnitNo) (h : Kept a s) : Kept a (State.resetTyped s u) := by
  unfold State.resetTyped
  try lift_lets
  repeat' first
    | with_reducible assumption
    | with_reducible apply Kept.ite
    | with_reducible exact Kept.update (by with_reducible assumption) (by rfl) (by rfl) (by rfl) (by rfl)
    | with_reducible apply State.engineReset_kept
    | with_reducible apply State.fabReset_kept
    | with_reducible apply State.gwReset_kept
    | with_reducible apply State.macReset_kept
    | with_reducible apply State.netmRestart_kept
    | with_reducible apply State.pipeReset_kept
    | with_reducible apply State.releaseCan_kept
    | with_reducible apply State.setSaucer_kept
    | with_reducible apply State.setSec_kept
    | with_reducible apply State.setTick_kept
    | with_reducible apply State.setTriad_kept
    | with_reducible apply State.spoutReset_kept
    | with_reducible apply State.strainReset_kept
    | with_reducible apply State.tellCosy_kept
    | with_reducible apply State.timeReset_kept
    | with_reducible rfl
    | (intro t; refine Kept.cut (a := a) (t := t) ?_ ?_ <;> first | (intro ht; clear_value t) | subst t)
    | (intro t; ((have : TimeState := t)); clear this)
    | (intro t; clear_value t)
    | split

theorem State.resetOne_kept {a : State} (s : State) (u : UnitNo) (h : Kept a s) : Kept a (State.resetOne s u) := by
  unfold State.resetOne
  try lift_lets
  repeat' first
    | with_reducible assumption
    | with_reducible apply Kept.ite
    | with_reducible exact Kept.update (by with_reducible assumption) (by rfl) (by rfl) (by rfl) (by rfl)
    | with_reducible apply State.flushReads_kept
    | with_reducible apply State.netmLeave_kept
    | with_reducible apply State.resetRegs_kept
    | with_reducible apply State.resetTyped_kept
    | with_reducible apply State.stompReads_kept
    | with_reducible apply State.ulisDown_kept
    | (intro t; refine Kept.cut (a := a) (t := t) ?_ ?_ <;> first | (intro ht; clear_value t) | subst t)

theorem State.unitReset_kept {a : State} (s : State) (u : UnitNo) (h : Kept a s) : Kept a (State.unitReset s u) := by
  unfold State.unitReset
  try lift_lets
  repeat' first
    | with_reducible assumption
    | with_reducible apply Kept.ite
    | with_reducible apply Kept.foldl
    | with_reducible apply State.brewRestart_kept
    | with_reducible apply State.resetOne_kept

end Sys2Proof.Machine
end

