-- ==== Sys2Proof/Laws/KeepHostWrite.lean ====
section
/-! SUPPORT. The operations of Machine/HostWrite.lean keep what `Kept` says. -/

namespace Sys2Proof.Machine

set_option maxRecDepth 20000

theorem State.clearFaults_kept {a : State} (s : State) (u : UnitNo) (h : Kept a s) : Kept a (State.clearFaults s u) := by
  unfold State.clearFaults
  try lift_lets
  repeat' first
    | with_reducible assumption
    | with_reducible apply Kept.foldl
    | with_reducible apply State.wr_kept
    | (intro t x (ht : Kept a t))

theorem State.faultClear_kept {a : State} (s : State) (u : UnitNo) (v : Word) (h : Kept a s) : Kept a (State.faultClear s u v) := by
  unfold State.faultClear
  try lift_lets
  repeat' first
    | with_reducible assumption
    | with_reducible apply Kept.ite
    | with_reducible apply Kept.foldl
    | with_reducible apply State.clearFaults_kept
    | with_reducible apply State.wr_kept

theorem State.injectArm_kept {a : State} (s : State) (u : UnitNo) (v : Word) (h : Kept a s) : Kept a (State.injectArm s u v) := by
  unfold State.injectArm
  try lift_lets
  repeat' first
    | with_reducible assumption
    | with_reducible apply Kept.ite
    | with_reducible apply State.wr_kept

theorem State.commitDiscard_kept {a : State} (s : State) (u : UnitNo) (h : Kept a s) : Kept a (State.commitDiscard s u) := by
  unfold State.commitDiscard
  try lift_lets
  repeat' with_reducible exact Kept.update (by with_reducible assumption) (by rfl) (by rfl) (by rfl) (by rfl)

theorem State.frameWrite_kept {a : State} (s : State) (u : UnitNo) (m : Nat) (off : Nat) (v : Word) (h : Kept a s) : Kept a (State.frameWrite s u m off v) := by
  unfold State.frameWrite
  try lift_lets
  repeat' first
    | with_reducible assumption
    | with_reducible apply Kept.ite
    | with_reducible apply State.commitDiscard_kept
    | with_reducible apply State.faultClear_kept
    | with_reducible apply State.injectArm_kept
    | with_reducible apply State.setEnable_kept
    | with_reducible apply State.stage_kept
    | with_reducible apply State.unitReset_kept
    | with_reducible apply State.wr_kept
    | split

theorem State.written_kept {a : State} (s : State) (f : Found) (old : Word) (h : Kept a s) : Kept a (State.written s f old) := by
  unfold State.written
  try lift_lets
  repeat' first
    | with_reducible assumption
    | with_reducible apply Kept.ite
    | with_reducible apply State.holdEnd_kept
    | with_reducible apply State.msixFlush_kept
    | with_reducible apply State.netmRestart_kept
    | with_reducible apply State.pfcLevel_kept
    | with_reducible apply State.preemptCfg_kept
    | with_reducible apply State.showPause_kept
    | lift_lets
    | split

theorem State.plainWrite_kept {a : State} (s : State) (m : Nat) (f : Found) (x3 : Nat) (v : Word) (h : Kept a s) : Kept a (State.plainWrite s m f x3 v) := by
  unfold State.plainWrite
  try lift_lets
  repeat' first
    | with_reducible assumption
    | with_reducible apply Kept.ite
    | with_reducible apply State.accessSeen_kept
    | with_reducible apply State.refuse_kept
    | with_reducible apply State.setWord_kept
    | with_reducible apply State.stage_kept
    | with_reducible apply State.withIrq_kept
    | with_reducible apply State.written_kept
    | (intro t (ht : Kept a t))

theorem State.kettleDirect_kept {a : State} (s : State) (f : Found) (x2 : Nat) (v : Word) (h : Kept a s) : Kept a (State.kettleDirect s f x2 v) := by
  unfold State.kettleDirect
  try lift_lets
  repeat' first
    | with_reducible assumption
    | with_reducible apply Kept.ite
    | with_reducible apply State.commitRefusals_kept
    | with_reducible apply State.committed_kept
    | with_reducible apply State.refuse_kept
    | with_reducible apply State.setWord_kept
    | with_reducible apply State.written_kept

theorem fdbRun_kept {a : State} (w : Bool) (v : Word) (s : State) (h : Kept a s) : Kept a (fdbRun w v s) := by
  unfold fdbRun
  try lift_lets
  repeat' first
    | with_reducible assumption
    | with_reducible apply fdbDeleteRun_kept
    | with_reducible apply fdbDeleteShadowedRun_kept
    | with_reducible apply fdbFlushRun_kept
    | with_reducible apply fdbInsertRun_kept
    | with_reducible apply fdbInsertShadowedRun_kept
    | with_reducible apply fdbInvalidRun_kept
    | with_reducible apply fdbLookupRun_kept
    | with_reducible apply fdbNopRun_kept
    | with_reducible apply fdbReadSlotRun_kept
    | with_reducible apply fdbShadowReadRun_kept
    | with_reducible apply fdbShadowWriteRun_kept
    | with_reducible apply fdbVlanReadRun_kept
    | with_reducible apply fdbVlanWriteRun_kept
    | (intro t; clear_value t)
    | split

theorem State.fdbWrite_kept {a : State} (s : State) (w : Bool) (m : Nat) (v : Word) (h : Kept a s) : Kept a (State.fdbWrite s w m v) := by
  unfold State.fdbWrite
  try lift_lets
  repeat' first
    | with_reducible assumption
    | with_reducible apply State.fdbStart_kept
    | with_reducible apply fdbRun_kept

theorem ruleRun_kept {a : State} (w : Bool) (m : Nat) (v : Word) (s : State) (h : Kept a s) : Kept a (ruleRun w m v s) := by
  unfold ruleRun
  try lift_lets
  repeat' first
    | with_reducible assumption
    | with_reducible apply State.ruleDraining_kept
    | with_reducible apply State.ruleStatus_kept
    | with_reducible apply State.ruleWrite_kept
    | with_reducible apply clearRuleRun_kept
    | with_reducible apply copyActiveRun_kept
    | with_reducible apply readPfxRun_kept
    | with_reducible apply readRuleRun_kept
    | with_reducible apply readZmapRun_kept
    | with_reducible apply readZpairRun_kept
    | with_reducible apply writePfxRun_kept
    | with_reducible apply writeRuleRun_kept
    | with_reducible apply writeZmapRun_kept
    | with_reducible apply writeZpairRun_kept
    | (intro t; clear_value t)
    | split

theorem State.ruleCmdWrite_kept {a : State} (s : State) (w : Bool) (m : Nat) (v : Word) (h : Kept a s) : Kept a (State.ruleCmdWrite s w m v) := by
  unfold State.ruleCmdWrite
  try lift_lets
  repeat' first
    | with_reducible assumption
    | with_reducible apply State.ruleStart_kept
    | with_reducible apply ruleRun_kept

theorem State.domCmdWrite_kept {a : State} (s : State) (n : Nat) (m : Nat) (v : Word) (h : Kept a s) : Kept a (State.domCmdWrite s n m v) := by
  unfold State.domCmdWrite
  try lift_lets
  repeat' first
    | with_reducible assumption
    | with_reducible apply State.domCommand_kept

theorem State.tblCmdWrite_kept {a : State} (s : State) (n : Nat) (v : Word) (h : Kept a s) : Kept a (State.tblCmdWrite s n v) := by
  unfold State.tblCmdWrite
  try lift_lets
  repeat' first
    | with_reducible assumption
    | with_reducible apply State.tblStatus_kept
    | with_reducible apply tblClearRun_kept
    | with_reducible apply tblReadRun_kept
    | with_reducible apply tblWriteRun_kept
    | (intro t; clear_value t)
    | split

theorem keyCmdRun_kept {a : State} (v : Word) (set : Nat) (s : State) (h : Kept a s) : Kept a (keyCmdRun v set s) := by
  unfold keyCmdRun
  try lift_lets
  repeat' first
    | with_reducible assumption
    | with_reducible apply keyEraseAllRun_kept
    | with_reducible apply keyEraseRun_kept
    | with_reducible apply keyNoneRun_kept
    | with_reducible apply keyWriteRun_kept
    | split

theorem State.keyCmdWrite_kept {a : State} (s : State) (m : Nat) (v : Word) (h : Kept a s) : Kept a (State.keyCmdWrite s m v) := by
  unfold State.keyCmdWrite
  try lift_lets
  repeat' first
    | with_reducible assumption
    | with_reducible apply State.keyCommand_kept
    | with_reducible apply keyCmdRun_kept

theorem State.keyRegWrite_kept {a : State} (s : State) (m : Nat) (x2 : Nat) (k : Nat) (v : Nat) (h : Kept a s) : Kept a (State.keyRegWrite s m x2 k v) := by
  unfold State.keyRegWrite
  try lift_lets
  repeat' first
    | with_reducible assumption
    | with_reducible apply State.refuse_kept
    | with_reducible apply State.setKeyReg_kept
    | split

theorem State.lcCmdWrite_kept {a : State} (s : State) (m : Nat) (v : Word) (h : Kept a s) : Kept a (State.lcCmdWrite s m v) := by
  unfold State.lcCmdWrite
  dsimp only
  split <;> refine State.lcCommand_kept _ _ _ _ _ h (fun y g hy => ?_)
  · exact advanceRun_kept _ hy
  · exact progSignRun_kept _ _ g hy
  · exact progFbRun_kept _ g hy
  · exact progDbgRun_kept _ g hy

theorem State.saCtrlWrite_kept {a : State} (s : State) (p : Nat) (rx : Option Nat) (an : Nat) (m : Nat) (v : Word) (h : Kept a s) : Kept a (State.saCtrlWrite s p rx an m v) := by
  unfold State.saCtrlWrite
  try lift_lets
  repeat' first
    | with_reducible assumption
    | with_reducible apply Kept.ite
    | with_reducible apply State.setSaSlot_kept
    | with_reducible apply saInstallRun_kept
    | with_reducible apply saRetireRun_kept

theorem State.flxCtrlWrite_kept {a : State} (s : State) (v : Word) (h : Kept a s) : Kept a (State.flxCtrlWrite s v) := by
  unfold State.flxCtrlWrite
  try lift_lets
  repeat' first
    | with_reducible assumption
    | with_reducible apply State.pocCommand_kept
    | split

theorem State.mbCtrlWrite_kept {a : State} (s : State) (k : Nat) (m : Nat) (v : Word) (h : Kept a s) : Kept a (State.mbCtrlWrite s k m v) := by
  unfold State.mbCtrlWrite
  try lift_lets
  repeat' first
    | with_reducible assumption
    | with_reducible apply Kept.ite
    | with_reducible apply State.wr_kept
    | with_reducible apply mailboxAckRun_kept
    | with_reducible apply mailboxDoorbellRun_kept

theorem State.ringCtrlWrite_kept {a : State} (s : State) (r : Nat) (m : Nat) (v : Word) (h : Kept a s) : Kept a (State.ringCtrlWrite s r m v) := by
  unfold State.ringCtrlWrite
  try lift_lets
  repeat' first
    | with_reducible assumption
    | with_reducible apply State.wr_kept
    | with_reducible apply jobSubmitRun_kept

theorem State.intEoi_kept {a : State} (s : State) (h : Kept a s) : Kept a (State.intEoi s) := by
  unfold State.intEoi
  try lift_lets
  repeat' first
    | with_reducible assumption
    | with_reducible apply Kept.ite
    | with_reducible apply State.signal_kept

theorem State.updCmdWrite_kept {a : State} (s : State) (v : Word) (h : Kept a s) : Kept a (State.updCmdWrite s v) := by
  unfold State.updCmdWrite
  try lift_lets
  repeat' first
    | with_reducible assumption
    | with_reducible apply updArmRun_kept
    | with_reducible apply updCancelRun_kept
    | split

theorem State.commandWrite_kept {a t : State} (s : State) (m : Nat) (f : Found) (x3 : Nat) (v : Word) (h : Kept a s) (e : State.commandWrite s m f x3 v = some t) : Kept a t := by
  revert e
  unfold State.commandWrite
  repeat' first
    | with_reducible assumption
    | with_reducible apply State.domCmdWrite_kept
    | with_reducible apply State.fdbWrite_kept
    | with_reducible apply State.flxCtrlWrite_kept
    | with_reducible apply State.intEoi_kept
    | with_reducible apply State.keyCmdWrite_kept
    | with_reducible apply State.keyRegWrite_kept
    | with_reducible apply State.lcCmdWrite_kept
    | with_reducible apply State.mbCtrlWrite_kept
    | with_reducible apply State.mbWrite_kept
    | with_reducible apply State.refuse_kept
    | with_reducible apply State.ringCtrlWrite_kept
    | with_reducible apply State.ruleCmdWrite_kept
    | with_reducible apply State.saCtrlWrite_kept
    | with_reducible apply State.tblCmdWrite_kept
    | with_reducible apply State.updCmdWrite_kept
    | with_reducible apply alarmClearRun_kept
    | with_reducible apply canOpmodeStep_kept
    | with_reducible apply canRecoverStep_kept
    | with_reducible apply episodeEndRun_kept
    | with_reducible apply gclDataWriteStep_kept
    | with_reducible apply keyRevokeRun_kept
    | with_reducible apply localHoldStep_kept
    | with_reducible apply localWakeStep_kept
    | with_reducible apply memDataWriteStep_kept
    | with_reducible apply retryRun_kept
    | with_reducible apply snapshotTakeStep_kept
    | (intro (e : some _ = some _); obtain rfl := Option.some.inj e)
    | (intro (e : none = some _); cases e)
    | split
    | lift_lets
    | (intro t; refine Kept.cut (a := a) (t := t) ?_ ?_ <;> first | (intro ht; clear_value t) | subst t)
    | (intro t; clear_value t)

theorem State.writeAt_kept {a : State} (s : State) (m : Nat) (x2 : Nat) (v : Word) (h : Kept a s) : Kept a (State.writeAt s m x2 v) := by
  unfold State.writeAt
  try lift_lets
  repeat' first
    | with_reducible assumption
    | with_reducible apply Kept.ite
    | with_reducible apply State.frameWrite_kept
    | with_reducible apply State.kettleDirect_kept
    | with_reducible apply State.plainWrite_kept
    | with_reducible apply State.refuse_kept
    | lift_lets
    | (split <;> first | (rename_i t heq; refine (fun (ht : Kept a t) => ?_) (State.commandWrite_kept (h := ?_) (e := heq))) | skip)

theorem State.cosyWriteAt_kept {a : State} (s : State) (m : Nat) (x2 : Nat) (v : Word) (h : Kept a s) : Kept a (State.cosyWriteAt s m x2 v) := by
  unfold State.cosyWriteAt
  try lift_lets
  repeat' first
    | with_reducible assumption
    | with_reducible apply Kept.ite
    | with_reducible apply State.frameWrite_kept
    | with_reducible apply State.plainWrite_kept
    | with_reducible apply State.refuse_kept
    | with_reducible apply forceSleepStep_kept
    | with_reducible apply xcvrModeWriteStep_kept
    | split

theorem postedWriteResolutionStep_kept {a : State} (s : State) (h : Kept a s) : Kept a (postedWriteResolutionStep s) := by
  unfold postedWriteResolutionStep
  try lift_lets
  repeat' first
    | with_reducible assumption
    | with_reducible apply Kept.ite
    | with_reducible apply State.cosyWriteAt_kept
    | with_reducible apply State.lastErrOf_kept
    | with_reducible apply State.ledgerWrite_kept
    | with_reducible apply State.serveReads_kept
    | with_reducible apply State.setHost_kept
    | (intro t; clear_value t)
    | split
    | dsimp only

theorem State.drainPosted_kept {a : State} (s : State) (m : Nat) (x2 : Nat) (h : Kept a s) : Kept a (State.drainPosted s m x2) := by
  induction x2 generalizing s with
  | zero => exact h
  | succ n ih =>
    unfold State.drainPosted
    try lift_lets
    repeat' first
      | with_reducible assumption
      | with_reducible apply Kept.ite
      | apply ih
      | with_reducible apply postedWriteResolutionStep_kept

theorem State.drain_kept {a : State} (s : State) (m : Nat) (h : Kept a s) : Kept a (State.drain s m) := by
  unfold State.drain
  try lift_lets
  repeat' first
    | with_reducible assumption
    | with_reducible apply State.drainPosted_kept

theorem State.regWrite_kept {a : State} (s : State) (m : Nat) (x2 : Nat) (v : Word) (h : Kept a s) : Kept a (State.regWrite s m x2 v) := by
  unfold State.regWrite
  try lift_lets
  repeat' first
    | with_reducible assumption
    | with_reducible apply Kept.ite
    | with_reducible apply State.cosyWriteAt_kept
    | with_reducible apply State.refuse_kept
    | with_reducible apply State.setHost_kept
    | with_reducible apply State.writeAt_kept

theorem State.regReadTo_kept {a : State} (s : State) (m : Nat) (x2 : Nat) (h : Kept a s) : Kept a (State.regReadTo s m x2) := by
  unfold State.regReadTo
  try lift_lets
  repeat' first
    | with_reducible assumption
    | with_reducible apply State.askRead_kept

theorem mgmtItemStep_kept {a : State} (n : Nat) (req : MgmtReq) (s : State) (h : Kept a s) : Kept a (mgmtItemStep n req s) := by
  unfold mgmtItemStep
  try lift_lets
  repeat' first
    | with_reducible assumption
    | with_reducible apply Kept.ite
    | with_reducible apply State.command_kept
    | with_reducible apply State.item_kept
    | with_reducible apply State.regReadTo_kept
    | with_reducible apply State.stage_kept
    | (intro t (ht : Kept a t))
    | lift_lets
    | split

theorem State.unitWrite_kept {a : State} (s : State) (u : UnitNo) (m : Nat) (off : Nat) (v : Word) (run : State → State) (h : Kept a s) (k5 : ∀ (y0 : State), Kept a y0 → Kept a (run y0)) : Kept a (State.unitWrite s u m off v run) := by
  unfold State.unitWrite
  try lift_lets
  repeat' first
    | with_reducible assumption
    | with_reducible apply Kept.ite
    | with_reducible apply State.command_kept
    | with_reducible apply State.regWrite_kept

end Sys2Proof.Machine
end

