-- ==== Sys2Proof/Laws/KeepTick.lean ====
section
/-! SUPPORT. The operations of Machine/Tick.lean keep what `Kept` says. -/

namespace Sys2Proof.Machine

set_option maxRecDepth 20000

theorem State.clocksPass_kept {a : State} (s : State) (q : Nat) (h : Kept a s) : Kept a (State.clocksPass s q) := by
  unfold State.clocksPass
  try lift_lets
  repeat' with_reducible exact Kept.update (by with_reducible assumption) (by rfl) (by rfl) (by rfl) (by rfl)

theorem State.domsPass_kept {a : State} (s : State) (n : Nat) (h : Kept a s) : Kept a (State.domsPass s n) := by
  unfold State.domsPass
  try lift_lets
  repeat' first
    | with_reducible assumption
    | with_reducible apply Kept.ite
    | with_reducible apply Kept.foldl
    | with_reducible apply State.setDom_kept
    | (intro t x (ht : Kept a t))

theorem State.fabPass_kept {a : State} (s : State) (c : Nat) (h : Kept a s) : Kept a (State.fabPass s c) := by
  unfold State.fabPass
  try lift_lets
  repeat' first
    | with_reducible exact Kept.update (by with_reducible assumption) (by rfl) (by rfl) (by rfl) (by rfl)
    | with_reducible apply State.wr_kept

theorem State.keyWaits_kept {a : State} (s : State) (n : Nat) (h : Kept a s) : Kept a (State.keyWaits s n) := by
  unfold State.keyWaits
  try lift_lets
  repeat' first
    | with_reducible assumption
    | with_reducible apply Kept.ite
    | with_reducible apply Kept.foldl
    | with_reducible apply State.wr_kept
    | (intro t x (ht : Kept a t))

theorem State.pass_kept {a : State} (s : State) (q : Nat) (h : Kept a s) : Kept a (State.pass s q) := by
  unfold State.pass
  try lift_lets
  repeat' first
    | with_reducible assumption
    | with_reducible apply Kept.ite
    | with_reducible apply Kept.foldl
    | with_reducible apply State.busyDone_kept
    | with_reducible apply State.clocksPass_kept
    | with_reducible apply State.domsPass_kept
    | with_reducible apply State.fabPass_kept
    | with_reducible apply State.keyWaits_kept
    | with_reducible apply State.lineTo_kept
    | with_reducible apply State.runDomCmds_kept

theorem State.advance_kept {a : State} (s : State) (n : Nat) (h : Kept a s) : Kept a (State.advance s n) := by
  unfold State.advance
  try lift_lets
  repeat' first
    | with_reducible assumption
    | with_reducible apply State.pass_kept

theorem State.idle_kept {a : State} (s : State) (h : Kept a s) : Kept a (State.idle s) := by
  unfold State.idle
  try lift_lets
  repeat' first
    | with_reducible assumption
    | with_reducible apply State.pass_kept

theorem State.jobOverrun_kept {a : State} (s : State) (u : UnitNo) (h : Kept a s) : Kept a (State.jobOverrun s u) := by
  unfold State.jobOverrun
  try lift_lets
  repeat' first
    | with_reducible assumption
    | with_reducible apply Kept.ite
    | with_reducible apply State.check_kept
    | with_reducible apply State.sat_kept
    | with_reducible apply State.setTickJob_kept
    | with_reducible apply State.wr_kept

theorem State.runFirst_kept {a : State} (s : State) (u : UnitNo) (left : Nat) (k : Nat) (h : Kept a s) : Kept a (State.runFirst s u left k) := by
  unfold State.runFirst
  try lift_lets
  repeat' first
    | with_reducible assumption
    | with_reducible apply Kept.ite
    | with_reducible apply State.ageSome_kept
    | with_reducible apply State.auditSome_kept
    | with_reducible apply State.spoutSome_kept
    | with_reducible apply State.voterSelfTest_kept
    | split

theorem State.runSecond_kept {a : State} (s : State) (u : UnitNo) (k : Nat) (h : Kept a s) : Kept a (State.runSecond s u k) := by
  unfold State.runSecond
  try lift_lets
  repeat' first
    | with_reducible assumption
    | with_reducible apply State.shadowSome_kept
    | split

theorem State.nextSlice_kept {a : State} (s : State) (u : UnitNo) (h : Kept a s) : Kept a (State.nextSlice s u) := by
  unfold State.nextSlice
  try lift_lets
  repeat' first
    | with_reducible assumption
    | with_reducible apply Kept.ite
    | with_reducible apply State.setTickJob_kept

theorem State.runSlice_kept {a : State} (s : State) (u : UnitNo) (work : Option Nat) (h : Kept a s) : Kept a (State.runSlice s u work) := by
  unfold State.runSlice
  try lift_lets
  repeat' first
    | with_reducible assumption
    | with_reducible apply State.runFirst_kept
    | with_reducible apply State.runSecond_kept
    | with_reducible apply State.setTickJob_kept

theorem State.runSlices_kept {a : State} (u : UnitNo) (x1 : Nat) (x2 : Option Nat) (x3 : State) (h : Kept a x3) : Kept a (State.runSlices u x1 x2 x3) := by
  induction x1 generalizing x2 x3 with
  | zero => exact h
  | succ n ih =>
    unfold State.runSlices
    try lift_lets
    repeat' first
      | with_reducible assumption
      | with_reducible apply Kept.ite
      | apply ih
      | with_reducible apply State.nextSlice_kept
      | with_reducible apply State.runSlice_kept

theorem State.jobRunning_kept {a : State} (s : State) (u : UnitNo) (h : Kept a s) : Kept a (State.jobRunning s u) := by
  unfold State.jobRunning
  try lift_lets
  repeat' first
    | with_reducible assumption
    | with_reducible apply Kept.ite
    | with_reducible apply State.jobDone_kept
    | with_reducible apply State.wr_kept

theorem State.runMoves_kept {a : State} (s : State) (x1 : Nat) (h : Kept a s) : Kept a (State.runMoves s x1) := by
  induction x1 generalizing s with
  | zero => exact h
  | succ n ih =>
    unfold State.runMoves
    try lift_lets
    repeat' first
      | with_reducible assumption
      | apply ih
      | with_reducible apply State.moveBuckets_kept
      | with_reducible apply State.setSaucer_kept
      | split
      | dsimp only

theorem State.jobStart_kept {a : State} (s : State) (u : UnitNo) (work : Option Nat) (h : Kept a s) : Kept a (State.jobStart s u work) := by
  unfold State.jobStart
  try lift_lets
  repeat' first
    | with_reducible assumption
    | with_reducible apply Kept.ite
    | with_reducible apply State.jobRunning_kept
    | with_reducible apply State.resumeVerdict_kept
    | with_reducible apply State.runMoves_kept
    | with_reducible apply State.runSlices_kept
    | with_reducible apply State.setSaucer_kept
    | with_reducible apply State.setTickJob_kept
    | with_reducible apply State.sigBoundary_kept
    | lift_lets
    | split

theorem State.sbTick_kept {a : State} (s : State) (pins : PinsIn) (h : Kept a s) : Kept a (State.sbTick s pins) := by
  unfold State.sbTick
  try lift_lets
  repeat' first
    | with_reducible assumption
    | with_reducible apply Kept.ite
    | with_reducible exact Kept.update (by with_reducible assumption) (by rfl) (by rfl) (by rfl) (by rfl)
    | with_reducible apply Kept.foldl
    | with_reducible apply State.sbDeliver_kept
    | with_reducible apply State.tc10Wake_kept
    | with_reducible apply State.wr_kept
    | with_reducible apply triadEventLatchStep_kept
    | (intro t x (ht : Kept a t))
    | lift_lets
    | split

theorem State.boundaryActions_kept {a : State} (s : State) (u : UnitNo) (pins : PinsIn) (h : Kept a s) : Kept a (State.boundaryActions s u pins) := by
  unfold State.boundaryActions
  try lift_lets
  repeat' first
    | with_reducible assumption
    | with_reducible apply Kept.ite
    | with_reducible apply State.admitTick_kept
    | with_reducible apply State.busAdmitTick_kept
    | with_reducible apply State.canTick_kept
    | with_reducible apply State.check_kept
    | with_reducible apply State.dropTick_kept
    | with_reducible apply State.learnTick_kept
    | with_reducible apply State.meterRefillAll_kept
    | with_reducible apply State.netmTick_kept
    | with_reducible apply State.pcsTick_kept
    | with_reducible apply State.saucerTick_kept
    | with_reducible apply State.sbTick_kept
    | with_reducible apply State.slowTick_kept
    | with_reducible apply State.sweepTick_kept
    | (intro t; clear_value t)
    | split

theorem State.beforeCommit_kept {a : State} (s : State) (u : UnitNo) (h : Kept a s) : Kept a (State.beforeCommit s u) := by
  unfold State.beforeCommit
  try lift_lets
  repeat' first
    | with_reducible assumption
    | with_reducible apply Kept.ite
    | with_reducible apply State.drainTick_kept
    | with_reducible apply State.holdGrace_kept

theorem State.jobAtBoundary_kept {a : State} (s : State) (u : UnitNo) (work : Option Nat) (h : Kept a s) : Kept a (State.jobAtBoundary s u work) := by
  unfold State.jobAtBoundary
  try lift_lets
  repeat' first
    | with_reducible assumption
    | with_reducible apply Kept.ite
    | with_reducible apply State.jobStart_kept
    | with_reducible apply State.wr_kept

theorem tickBoundaryStep_kept {a : State} (u : UnitNo) (work : Option Nat) (pins : PinsIn) (s : State) (h : Kept a s) : Kept a (tickBoundaryStep u work pins s) := by
  unfold tickBoundaryStep
  try lift_lets
  repeat' first
    | with_reducible assumption
    | with_reducible apply Kept.ite
    | with_reducible apply State.advance_kept
    | with_reducible apply State.beforeCommit_kept
    | with_reducible apply State.boundaryActions_kept
    | with_reducible apply State.commitUnit_kept
    | with_reducible apply State.jobAtBoundary_kept
    | with_reducible apply State.jobOverrun_kept
    | with_reducible apply State.runDomCmds_kept
    | with_reducible apply State.tickMessage_kept
    | with_reducible apply State.tickTick_kept

theorem tickJobBudgetSpentStep_kept {a : State} (u : UnitNo) (s : State) (h : Kept a s) : Kept a (tickJobBudgetSpentStep u s) := by
  unfold tickJobBudgetSpentStep
  try lift_lets
  repeat' first
    | with_reducible assumption
    | with_reducible apply Kept.ite
    | with_reducible apply State.setTickJob_kept

theorem saucerBoundaryStep_kept {a : State} (work : Option Nat) (s : State) (h : Kept a s) : Kept a (saucerBoundaryStep work s) := by
  unfold saucerBoundaryStep
  try lift_lets
  repeat' first
    | with_reducible assumption
    | with_reducible apply Kept.ite
    | with_reducible apply State.advance_kept
    | with_reducible apply State.holdGrace_kept
    | with_reducible apply State.jobAtBoundary_kept
    | with_reducible apply State.jobOverrun_kept
    | with_reducible apply State.saucerTick_kept
    | with_reducible apply State.setSaucer_kept

end Sys2Proof.Machine
end

