-- ==== Sys2Proof/Laws/KeepLoader.lean ====
section
/-! SUPPORT. The operations of Machine/Loader.lean keep what `Kept` says. -/

namespace Sys2Proof.Machine

set_option maxRecDepth 20000

theorem State.imageReg_kept {a : State} (s : State) (u : UnitNo) (x2 : Nat) (v : Word) (h : Kept a s) : Kept a (State.imageReg s u x2 v) := by
  unfold State.imageReg
  try lift_lets
  repeat' first
    | with_reducible assumption
    | with_reducible apply Kept.ite
    | with_reducible apply State.regWrite_kept
    | with_reducible apply State.setKettle_kept

theorem State.imageHeld_kept {a : State} (s : State) (h : Kept a s) : Kept a (State.imageHeld s) := by
  unfold State.imageHeld
  try lift_lets
  repeat' first
    | with_reducible assumption
    | with_reducible apply Kept.ite
    | with_reducible apply Kept.foldl
    | with_reducible apply State.regWrite_kept
    | with_reducible apply State.setKettle_kept
    | (intro t x (ht : Kept a t))

theorem State.applyEnables_kept {a : State} (s : State) (p : UnitNo → Bool) (h : Kept a s) : Kept a (State.applyEnables s p) := by
  unfold State.applyEnables
  try lift_lets
  repeat' first
    | with_reducible assumption
    | with_reducible apply Kept.foldl
    | with_reducible apply State.setEnable_kept
    | with_reducible apply State.setKettle_kept
    | (intro t x (ht : Kept a t))

theorem State.loadRegs_kept {a t : State} (s : State) (u : UnitNo) (p : List Byte) (h : Kept a s) (e : State.loadRegs s u p = some t) : Kept a t := by
  unfold State.loadRegs at e
  refine Kept.foldlOpt _ _ h (fun u x v hu c => ?_) (fun _ => rfl) e
  dsimp only at c
  split at c
  · cases c
  · obtain rfl := Option.some.inj c
    exact State.imageReg_kept _ _ _ _ hu

theorem State.fdbOperands_kept {a : State} (s : State) (w : Bool) (x2 : List Byte) (h : Kept a s) : Kept a (State.fdbOperands s w x2) := by
  unfold State.fdbOperands
  try lift_lets
  repeat' first
    | with_reducible assumption
    | with_reducible apply State.wr_kept

theorem State.fdbTook_kept {a t : State} (s : State) (w : Bool) (h : Kept a s) (e : State.fdbTook s w = some t) : Kept a t := by
  revert e
  unfold State.fdbTook
  repeat' first
    | with_reducible assumption
    | (intro (e : some _ = some _); obtain rfl := Option.some.inj e)
    | (intro (e : none = some _); cases e)
    | split

theorem State.loadStatic_kept {a t : State} (s : State) (w : Bool) (x2 : List Byte) (h : Kept a s) (e : State.loadStatic s w x2 = some t) : Kept a t := by
  unfold State.loadStatic at e
  have h1 := fdbInsertRun_kept w _ (State.fdbOperands_kept s w x2 h)
  revert h1 e
  generalize fdbInsertRun w (s.fdbOperands w x2) = r
  intro e h1
  dsimp only at e
  split at e
  · exact State.fdbTook_kept (h := State.fire_kept _ _ _ _ h1) (e := e)
  · exact State.fdbTook_kept (h := h1) (e := e)

theorem State.ruleOperands_kept {a : State} (s : State) (w : Bool) (x2 : List Byte) (h : Kept a s) : Kept a (State.ruleOperands s w x2) := by
  unfold State.ruleOperands
  try lift_lets
  repeat' first
    | with_reducible assumption
    | with_reducible apply Kept.foldl
    | with_reducible apply State.wr_kept
    | (intro t x (ht : Kept a t))

theorem State.loadRule_kept {a t : State} (s : State) (w : Bool) (inactive : Bool) (x3 : Nat) (i : Nat) (x5 : List Byte) (h : Kept a s) (e : State.loadRule s w inactive x3 i x5 = some t) : Kept a t := by
  revert e
  unfold State.loadRule
  repeat' first
    | with_reducible assumption
    | with_reducible apply State.ruleOperands_kept
    | with_reducible apply State.ruleStatus_kept
    | with_reducible apply State.ruleWrite_kept
    | with_reducible apply State.wr_kept
    | with_reducible apply writePfxRun_kept
    | with_reducible apply writeRuleRun_kept
    | with_reducible apply writeZmapRun_kept
    | with_reducible apply writeZpairRun_kept
    | (intro (e : some _ = some _); obtain rfl := Option.some.inj e)
    | (intro (e : none = some _); cases e)
    | split
    | lift_lets
    | (intro t; refine Kept.cut (a := a) (t := t) ?_ ?_ <;> first | (intro ht; clear_value t) | subst t)
    | (intro t; clear_value t)

theorem State.loadTbl_kept {a t : State} (s : State) (x1 : Nat) (i : Nat) (x3 : List Byte) (h : Kept a s) (e : State.loadTbl s x1 i x3 = some t) : Kept a t := by
  revert e
  unfold State.loadTbl
  repeat' first
    | with_reducible assumption
    | with_reducible apply State.setTblData_kept
    | with_reducible apply tblWriteRun_kept
    | (intro (e : some _ = some _); obtain rfl := Option.some.inj e)
    | (intro (e : none = some _); cases e)
    | split
    | lift_lets
    | (intro t; refine Kept.cut (a := a) (t := t) ?_ ?_ <;> first | (intro ht; clear_value t) | subst t)

theorem State.loadEntry_kept {a t : State} (s : State) (u : UnitNo) (target : Nat) (x3 : Nat) (i : Nat) (x5 : List Byte) (h : Kept a s) (e : State.loadEntry s u target x3 i x5 = some t) : Kept a t := by
  unfold State.loadEntry at e
  dsimp only at e
  split at e
  · obtain ⟨r, e1, e2⟩ := Option.bind_eq_some_iff.mp e
    exact State.loadStatic_kept (h := State.loadStatic_kept (h := h) (e := e1)) (e := e2)
  · exact State.fdbTook_kept (h := fdbShadowWriteRun_kept _ _ _ (State.fdbOperands_kept _ _ _ h)) (e := e)
  · exact State.fdbTook_kept (h := fdbVlanWriteRun_kept _ _ _ (State.fdbOperands_kept _ _ _ h)) (e := e)
  · obtain rfl := Option.some.inj e
    apply gclDataWriteStep_kept
    exact State.wr_kept _ _ _ _ _ _ (State.wr_kept _ _ _ _ _ _ (State.wr_kept _ _ _ _ _ _ h))
  · obtain rfl := Option.some.inj e
    exact State.regWrite_kept _ _ _ _ h
  · obtain rfl := Option.some.inj e
    exact State.feedBlob_kept _ (State.setSec_kept _ _ h)
  · split at e
    · exact State.loadRule_kept (h := h) (e := e)
    · exact State.loadTbl_kept (h := h) (e := e)

theorem State.loadTable_kept {a t : State} (s : State) (u : UnitNo) (target : Nat) (first : Nat) (p : List Byte) (h : Kept a s) (e : State.loadTable s u target first p = some t) : Kept a t := by
  unfold State.loadTable at e
  dsimp only at e
  split at e <;> split at e
  · cases e
  · exact Kept.foldlOpt _ _ h (fun u x v hu c => State.loadEntry_kept (h := hu) (e := c)) (fun _ => rfl) e
  · cases e
  · exact Kept.foldlOpt _ _ h (fun u x v hu c => State.loadEntry_kept (h := hu) (e := c)) (fun _ => rfl) e

theorem smWf_putMem (m : List (Nat × Nat)) (base a : Nat) (p : List Byte) (h : smWf zero0 m = true) :
    smWf zero0 (putMem m base a p) = true := by
  induction p generalizing m a with
  | nil => exact h
  | cons b t ih => exact ih _ _ (smWf_smSet zero0 _ _ _ h)

theorem State.loadMemory_kept {a t : State} (s : State) (u : UnitNo) (target : Nat) (p : List Byte) (h : Kept a s)
    (e : State.loadMemory s u target p = some t) : Kept a t := by
  unfold State.loadMemory at e
  dsimp only at e
  split at e
  · cases e
  · split at e <;> obtain rfl := Option.some.inj e
    · exact Kept.upd h h.regs (fun w => smWf_putMem _ _ _ _ (h.sram w)) h.gwMem h.timeProg h.cosyProg
    · exact Kept.upd h h.regs h.sram h.gwMem (fun w => smWf_putMem _ _ _ _ (h.timeProg w)) h.cosyProg
    · exact Kept.upd h h.regs h.sram (fun w => smWf_putMem _ _ _ _ (h.gwMem w)) h.timeProg h.cosyProg
    · exact Kept.upd h h.regs h.sram h.gwMem h.timeProg (fun w => smWf_putMem _ _ _ _ (h.cosyProg w))

theorem State.loadSchema_kept {a : State} (s : State) (u : UnitNo) (p : List Byte) (h : Kept a s) : Kept a (State.loadSchema s u p) := by
  unfold State.loadSchema
  try lift_lets
  repeat' first
    | with_reducible assumption
    | with_reducible apply State.setKettle_kept

theorem State.countPart_kept {a : State} (s : State) (part : Nat) (bytes : List Byte) (h : Kept a s) : Kept a (State.countPart s part bytes) := by
  unfold State.countPart
  try lift_lets
  repeat' first
    | with_reducible assumption
    | with_reducible apply Kept.ite
    | with_reducible apply State.setKettle_kept

theorem State.loadSection_kept {a t : State} (s : State) (essential : Bool) (head : List Byte) (payload : List Byte) (h : Kept a s) (e : State.loadSection s essential head payload = some t) : Kept a t := by
  revert e
  unfold State.loadSection
  repeat' first
    | with_reducible assumption
    | with_reducible apply State.loadSchema_kept
    | with_reducible apply State.setKettle_kept
    | (intro e; exact State.loadMemory_kept (h := by with_reducible assumption) (e := e))
    | (intro e; exact State.loadRegs_kept (h := by with_reducible assumption) (e := e))
    | (intro e; exact State.loadTable_kept (h := by with_reducible assumption) (e := e))
    | (intro (e : some _ = some _); obtain rfl := Option.some.inj e)
    | (intro (e : none = some _); cases e)
    | split
    | lift_lets
    | (intro t; refine Kept.cut (a := a) (t := t) ?_ ?_ <;> first | (intro ht; clear_value t) | subst t)
    | (intro t; clear_value t)

theorem State.loadSections_kept {a : State} (s : State) (essential : Bool) (x2 : Nat) (h : Kept a s) : Kept a (State.loadSections s essential x2).2 := by
  induction x2 generalizing s with
  | zero => exact h
  | succ n ih =>
    unfold State.loadSections
    try lift_lets
    repeat' first
      | with_reducible assumption
      | with_reducible apply Kept.ite_snd
      | apply ih
      | with_reducible apply State.countPart_kept
      | with_reducible apply State.setKettle_kept
      | lift_lets
      | (split <;> first | (rename_i t heq; refine (fun (ht : Kept a t) => ?_) (State.loadSection_kept (h := ?_) (e := heq))) | skip)

theorem State.settingReset_kept {a : State} (s : State) (source : Nat) (h : Kept a s) : Kept a (State.settingReset s source) := by
  unfold State.settingReset
  try lift_lets
  repeat' first
    | with_reducible assumption
    | with_reducible apply Kept.ite
    | with_reducible apply State.sat_kept
    | with_reducible apply State.wr_kept

theorem State.applySetting_kept {a t : State} (s : State) (x : Schema) (l : List (Nat × Nat)) (h : Kept a s) (e : State.applySetting s x l = some t) : Kept a t := by
  unfold State.applySetting at e
  refine Kept.foldlOpt _ _ h (fun u y v hu c => ?_) (fun _ => rfl) e
  dsimp only [Option.bind] at c
  split at c
  · cases c
  · obtain rfl := Option.some.inj c
    exact State.imageReg_kept _ _ _ _ hu

theorem State.applySettings_kept {a : State} (s : State) (x1 : Nat) (x2 : List SetSection) (h : Kept a s) : Kept a (State.applySettings s x1 x2).2 := by
  induction x2 generalizing s x1 with
  | nil => exact h
  | cons d t ih =>
    unfold State.applySettings
    try lift_lets
    repeat' first
      | with_reducible assumption
      | apply ih
      | with_reducible apply State.settingReset_kept
      | (split <;> first | (rename_i t heq; refine (fun (ht : Kept a t) => ?_) (State.applySetting_kept (h := ?_) (e := heq))) | skip)

theorem State.loadSettings_kept {a : State} (s : State) (c0 : List Byte) (c1 : List Byte) (h : Kept a s) : Kept a (State.loadSettings s c0 c1).2 := by
  unfold State.loadSettings
  try lift_lets
  repeat' first
    | with_reducible assumption
    | with_reducible apply Kept.ite_snd
    | with_reducible apply State.applySettings_kept
    | with_reducible apply State.setKettle_kept
    | with_reducible apply State.wr_kept
    | (intro t; clear_value t)
    | split

end Sys2Proof.Machine
end

