-- ==== Sys2Proof/Laws/KeepKettle.lean ====
section
/-! SUPPORT. The operations of Machine/Kettle.lean keep what `Kept` says. -/

namespace Sys2Proof.Machine

set_option maxRecDepth 20000

theorem State.setStage_kept {a : State} (s : State) (n : Nat) (h : Kept a s) : Kept a (State.setStage s n) := by
  unfold State.setStage
  try lift_lets
  repeat' first
    | with_reducible assumption
    | with_reducible apply State.setKettle_kept

theorem State.setPhaseOf_kept {a : State} (s : State) (n : Nat) (h : Kept a s) : Kept a (State.setPhaseOf s n) := by
  unfold State.setPhaseOf
  try lift_lets
  repeat' first
    | with_reducible assumption
    | with_reducible apply State.wr_kept

theorem State.enterFallback_kept {a : State} (s : State) (reason : Nat) (segment : Nat) (detail : Nat) (h : Kept a s) : Kept a (State.enterFallback s reason segment detail) := by
  unfold State.enterFallback
  try lift_lets
  repeat' first
    | with_reducible assumption
    | with_reducible apply Kept.ite
    | with_reducible apply State.event_kept
    | with_reducible apply State.setPhaseOf_kept
    | with_reducible apply State.setStage_kept
    | with_reducible apply State.setUpdState_kept
    | with_reducible apply State.slotResult_kept
    | with_reducible apply State.toPower_kept
    | with_reducible apply State.wr_kept

theorem State.fallbackBad_kept {a : State} (s : State) (reason : Nat) (detail : Nat) (h : Kept a s) : Kept a (State.fallbackBad s reason detail) := by
  unfold State.fallbackBad
  try lift_lets
  repeat' first
    | with_reducible assumption
    | with_reducible apply State.setKettle_kept
    | with_reducible apply State.setStage_kept
    | with_reducible apply State.wr_kept

theorem State.segmentFail_kept {a : State} (s : State) (reason : Nat) (segment : Nat) (detail : Nat) (part : Nat) (h : Kept a s) : Kept a (State.segmentFail s reason segment detail part) := by
  unfold State.segmentFail
  try lift_lets
  repeat' first
    | with_reducible assumption
    | with_reducible apply Kept.ite
    | with_reducible apply State.failStart_kept
    | with_reducible apply State.fallbackBad_kept

theorem State.placeEngines_kept {a : State} (s : State) (h : Kept a s) : Kept a (State.placeEngines s) := by
  unfold State.placeEngines
  try lift_lets
  repeat' first
    | with_reducible assumption
    | with_reducible apply Kept.foldl
    | with_reducible apply State.check_kept
    | with_reducible apply State.wr_kept
    | (intro t x (ht : Kept a t))

theorem State.applyLedger_kept {a : State} (s : State) (h : Kept a s) : Kept a (State.applyLedger s) := by
  unfold State.applyLedger
  try lift_lets
  repeat' first
    | with_reducible assumption
    | with_reducible apply State.placeEngines_kept
    | with_reducible apply State.retiredOcc_kept
    | with_reducible apply State.wr_kept
    | lift_lets
    | split

theorem State.readLedger_kept {a : State} (s : State) (bad : List Nat) (h : Kept a s) : Kept a (State.readLedger s bad) := by
  unfold State.readLedger
  try lift_lets
  repeat' first
    | with_reducible assumption
    | with_reducible apply Kept.ite
    | with_reducible apply Kept.foldl
    | with_reducible apply State.applyLedger_kept
    | with_reducible apply State.check_kept
    | with_reducible apply State.setKettle_kept
    | (intro t x (ht : Kept a t))

theorem State.mapFailure_kept {a : State} (s : State) (x1 : Nat) (h : Kept a s) : Kept a (State.mapFailure s x1) := by
  unfold State.mapFailure
  split
  · have hm : Kept a { s with otp := { s.otp with ledger := s.otp.ledger ++ [x1] } } :=
      h.putOtp { otpLe.refl s.otp with ledger := List.prefix_append _ _ }
    have hn : Kept a ({ s with
        otp := { s.otp with ledger := s.otp.ledger ++ [x1] }
        kettle := { s.kettle with ledger := s.kettle.ledger ++ [x1] } } : State) := hm.update rfl rfl rfl rfl
    dsimp only
    split
    · exact State.check_kept _ _ _ _ _ hn
    · exact State.sat_kept _ _ _ _ _ _ hn
  · exact State.check_kept _ _ _ _ _ (State.wr_kept _ _ _ _ _ _ h)

theorem State.mapRows_kept {a : State} (s : State) (x1 : List (Nat × Nat)) (h : Kept a s) : Kept a (State.mapRows s x1).2 := by
  induction x1 generalizing s with
  | nil => exact h
  | cons x t ih =>
    unfold State.mapRows
    dsimp only
    split
    · exact ih _ (State.mapFailure_kept _ _ h)
    · exact ih s h

theorem State.mapFailures_kept {a : State} (s : State) (x : SelfTestIn) (h : Kept a s) : Kept a (State.mapFailures s x) := by
  unfold State.mapFailures
  try lift_lets
  repeat' first
    | with_reducible assumption
    | with_reducible apply Kept.ite
    | with_reducible apply Kept.foldl
    | with_reducible apply State.mapFailure_kept
    | with_reducible apply State.mapRows_kept
    | (intro t x (ht : Kept a t))
    | lift_lets
    | split

theorem State.badRetention_kept {a : State} (s : State) (off : Nat) (h : Kept a s) : Kept a (State.badRetention s off) := by
  unfold State.badRetention
  try lift_lets
  repeat' first
    | with_reducible assumption
    | with_reducible apply Kept.ite
    | with_reducible apply State.check_kept
    | with_reducible apply State.setWord_kept

theorem State.chooseSlot_kept {a : State} (s : State) (x1 : Option Nat) (b : Option Nat) (h : Kept a s) : Kept a (State.chooseSlot s x1 b) := by
  unfold State.chooseSlot
  try lift_lets
  repeat' first
    | with_reducible assumption
    | with_reducible apply Kept.ite
    | with_reducible apply State.wr_kept
    | lift_lets
    | split
    | ((with_reducible refine Kept.updFrom ?_ (fun hk => Kept.upd hk ?_ ?_ ?_ ?_ ?_)) <;> first | exact fun w => Kept.regs (by assumption) w | exact fun w => Kept.sram (by assumption) w | exact fun w => Kept.gwMem (by assumption) w | exact fun w => Kept.timeProg (by assumption) w | exact fun w => Kept.cosyProg (by assumption) w | with_reducible apply State.wr_kept)

theorem State.drawSecrets_kept {a : State} (s : State) (h : Kept a s) : Kept a (State.drawSecrets s) := by
  have st (t : State) (k : Kept a t) (v : Nat) (c : t.otp.secret.isNone = true) :
      Kept a { t.draw with otp := { t.otp with secret := some v } } :=
    (State.draw_kept t k).putOtp { otpLe.refl t.otp with secret := fun w e => by cases (Option.isNone_iff_eq_none.mp c).symm.trans e }
  have lk (t : State) (k : Kept a t) (v : Nat) (c : t.otp.linkSecret.isNone = true) :
      Kept a { t.draw with otp := { t.otp with linkSecret := some v } } :=
    (State.draw_kept t k).putOtp { otpLe.refl t.otp with linkSecret := fun w e => by cases (Option.isNone_iff_eq_none.mp c).symm.trans e }
  unfold State.drawSecrets
  split
  · exact h
  · have h1 : Kept a (if s.otp.secret.isNone then { s.draw with otp := { s.otp with secret := some (s.drawn (2 ^ 256)) } } else s) := by
      split
      · rename_i c
        exact st s h _ c
      · exact h
    revert h1
    generalize (if s.otp.secret.isNone then
      ({ s.draw with otp := { s.otp with secret := some (s.drawn (2 ^ 256)) } } : State) else s) = t
    intro h1
    dsimp only
    split
    · rename_i c
      exact lk t h1 _ c
    · exact h1

theorem State.startSecurity_kept {a : State} (s : State) (entropyOk : Bool) (h : Kept a s) : Kept a (State.startSecurity s entropyOk) := by
  unfold State.startSecurity
  try lift_lets
  repeat' first
    | with_reducible assumption
    | with_reducible apply Kept.ite
    | with_reducible apply State.check_kept
    | with_reducible apply State.deriveKeys_kept
    | with_reducible apply State.drawChallenge_kept
    | with_reducible apply State.drawSecrets_kept
    | with_reducible apply State.instantiate_kept
    | with_reducible apply State.orBit_kept
    | with_reducible apply State.wr_kept
    | with_reducible apply drbgReseedStep_kept

theorem State.decideStart_kept {a : State} (s : State) (h : Kept a s) : Kept a (State.decideStart s) := by
  unfold State.decideStart
  try lift_lets
  repeat' first
    | with_reducible assumption
    | with_reducible apply Kept.ite
    | with_reducible apply State.enterFallback_kept
    | with_reducible apply State.setPhaseOf_kept
    | with_reducible apply State.setStage_kept
    | with_reducible apply State.setUpdState_kept
    | with_reducible apply State.wr_kept

theorem State.begin_kept {a : State} (s : State) (h : Kept a s) : Kept a (State.begin s) := by
  unfold State.begin
  try lift_lets
  repeat' first
    | with_reducible assumption
    | with_reducible apply State.decideStart_kept
    | with_reducible apply State.tellCosy_kept
    | with_reducible apply State.wr_kept

theorem State.readOtp_kept {a : State} (s : State) (x : BrewIn) (h : Kept a s) : Kept a (State.readOtp s x) := by
  unfold State.readOtp
  try lift_lets
  repeat' first
    | with_reducible assumption
    | with_reducible apply State.chooseSlot_kept
    | with_reducible apply State.readLedger_kept
    | with_reducible apply State.setKettle_kept
    | with_reducible apply State.startSecurity_kept

theorem State.readStraps_kept {a : State} (s : State) (x : BrewIn) (h : Kept a s) : Kept a (State.readStraps s x) := by
  unfold State.readStraps
  try lift_lets
  repeat' first
    | with_reducible assumption
    | with_reducible apply Kept.foldl
    | with_reducible apply State.badRetention_kept
    | with_reducible apply State.wr_kept

theorem State.firstStage_kept {a : State} (s : State) (h : Kept a s) : Kept a (State.firstStage s) := by
  unfold State.firstStage
  try lift_lets
  repeat' first
    | with_reducible assumption
    | with_reducible apply Kept.ite
    | with_reducible apply State.begin_kept
    | with_reducible apply State.setPhaseOf_kept
    | with_reducible apply State.setStage_kept

theorem State.startBoot_kept {a : State} (s : State) (x : BrewIn) (h : Kept a s) : Kept a (State.startBoot s x) := by
  unfold State.startBoot
  try lift_lets
  repeat' first
    | with_reducible assumption
    | with_reducible apply State.firstStage_kept
    | with_reducible apply State.readOtp_kept
    | with_reducible apply State.wr_kept
    | lift_lets
    | (with_reducible refine Kept.update ?_ (by rfl) (by rfl) (by rfl) (by rfl); with_reducible apply State.draw_kept)

theorem brewStartStep_kept {a : State} (x : BrewIn) (s : State) (h : Kept a s) : Kept a (brewStartStep x s) := by
  unfold brewStartStep
  try lift_lets
  repeat' first
    | with_reducible assumption
    | with_reducible apply Kept.ite
    | with_reducible exact Kept.update (by with_reducible assumption) (by rfl) (by rfl) (by rfl) (by rfl)
    | with_reducible apply State.disarm_kept
    | with_reducible apply State.netmRestart_kept
    | with_reducible apply State.readStraps_kept
    | with_reducible apply State.setKettle_kept
    | with_reducible apply State.startBoot_kept

theorem State.clearMemories_kept {a : State} (s : State) (h : Kept a s) : Kept a (State.clearMemories s) := by
  unfold State.clearMemories
  exact Kept.upd h h.regs (fun _ => smWf_nil zero0) (fun _ => smWf_nil zero0) h.timeProg h.cosyProg

theorem selftestDoneStep_kept {a : State} (x : SelfTestIn) (s : State) (h : Kept a s) : Kept a (selftestDoneStep x s) := by
  unfold selftestDoneStep
  try lift_lets
  repeat' first
    | with_reducible assumption
    | with_reducible apply Kept.ite
    | with_reducible apply State.applyLedger_kept
    | with_reducible apply State.begin_kept
    | with_reducible apply State.clearMemories_kept
    | with_reducible apply State.mapFailures_kept
    | with_reducible apply State.wr_kept

theorem State.acceptHead_kept {a : State} (s : State) (x : HeadIn) (stage : Nat) (h : Kept a s) : Kept a (State.acceptHead s x stage) := by
  unfold State.acceptHead
  try lift_lets
  repeat' first
    | with_reducible assumption
    | with_reducible apply State.setKettle_kept
    | with_reducible apply State.setStage_kept

theorem segmentHeaderCheckStep_kept {a : State} (x : HeadIn) (s : State) (h : Kept a s) : Kept a (segmentHeaderCheckStep x s) := by
  unfold segmentHeaderCheckStep
  try lift_lets
  repeat' first
    | with_reducible assumption
    | with_reducible apply Kept.ite
    | with_reducible apply State.acceptHead_kept
    | with_reducible apply State.segmentFail_kept
    | with_reducible apply State.setKettle_kept
    | with_reducible apply State.setPhaseOf_kept
    | with_reducible apply State.setStage_kept
    | with_reducible apply State.wr_kept

theorem State.enableEssential_kept {a : State} (s : State) (h : Kept a s) : Kept a (State.enableEssential s) := by
  unfold State.enableEssential
  try lift_lets
  repeat' first
    | with_reducible assumption
    | with_reducible apply Kept.foldl
    | with_reducible apply State.applyEnables_kept
    | with_reducible apply State.setEnable_kept
    | with_reducible apply State.setKettle_kept
    | with_reducible apply State.setXcvr_kept
    | with_reducible apply State.wr_kept
    | (intro t x (ht : Kept a t))
    | lift_lets
    | (with_reducible refine Kept.update ?_ (by rfl) (by rfl) (by rfl) (by rfl); with_reducible apply State.wr_kept)

theorem State.enableGuards_kept {a : State} (s : State) (h : Kept a s) : Kept a (State.enableGuards s) := by
  unfold State.enableGuards
  try lift_lets
  repeat' first
    | with_reducible assumption
    | with_reducible apply Kept.foldl
    | with_reducible apply State.wr_kept
    | (intro t x (ht : Kept a t))

theorem essentialEnableStep_kept {a : State} (s : State) (h : Kept a s) : Kept a (essentialEnableStep s) := by
  unfold essentialEnableStep
  try lift_lets
  repeat' first
    | with_reducible assumption
    | with_reducible apply Kept.ite
    | with_reducible apply State.enableEssential_kept
    | with_reducible apply State.enableGuards_kept
    | with_reducible apply State.setPhaseOf_kept
    | with_reducible apply State.setStage_kept
    | with_reducible apply State.wr_kept

theorem settingsLoaded_kept {a : State} (r : Option Nat × State) (h : Kept a r.2) : Kept a (settingsLoaded r) := by
  obtain ⟨i, s⟩ := r
  unfold settingsLoaded
  cases i
  · exact State.triadReady_kept _ (State.setKettle_kept _ _ (State.applyEnables_kept _ _ (State.setStage_kept _ _
      (State.setPhaseOf_kept _ _ h))))
  · exact State.segmentFail_kept _ _ _ _ _ h

theorem State.primaryEnd_kept {a : State} (s : State) (x : BlockIn) (h : Kept a s) : Kept a (State.primaryEnd s x) := by
  unfold State.primaryEnd
  split
  · exact State.segmentFail_kept _ _ _ _ _ h
  · exact settingsLoaded_kept _ (State.loadSettings_kept _ _ _ (State.setPhaseOf_kept _ _ h))

theorem State.bodyEnd_kept {a : State} (s : State) (x : BlockIn) (h : Kept a s) : Kept a (State.bodyEnd s x) := by
  unfold State.bodyEnd
  try lift_lets
  repeat' first
    | with_reducible assumption
    | with_reducible apply Kept.ite
    | with_reducible apply State.enableEssential_kept
    | with_reducible apply State.primaryEnd_kept
    | with_reducible apply State.segmentFail_kept
    | with_reducible apply State.setKettle_kept
    | with_reducible apply State.setStage_kept
    | with_reducible apply State.triadReady_kept

theorem flashBlockArriveStep_kept {a : State} (x : BlockIn) (s : State) (h : Kept a s) : Kept a (flashBlockArriveStep x s) := by
  unfold flashBlockArriveStep
  try lift_lets
  repeat' first
    | with_reducible assumption
    | with_reducible apply Kept.ite
    | with_reducible apply State.bodyEnd_kept
    | with_reducible apply State.loadSections_kept
    | with_reducible apply State.segmentFail_kept
    | with_reducible apply State.setKettle_kept

theorem State.switchProgram_kept {a : State} (s : State) (h : Kept a s) : Kept a (State.switchProgram s) := by
  unfold State.switchProgram
  try lift_lets
  repeat' first
    | with_reducible assumption
    | with_reducible apply Kept.ite
    | with_reducible exact Kept.update (by with_reducible assumption) (by rfl) (by rfl) (by rfl) (by rfl)

theorem State.commitAll_kept {a : State} (s : State) (h : Kept a s) : Kept a (State.commitAll s) := by
  unfold State.commitAll
  try lift_lets
  repeat' first
    | with_reducible assumption
    | with_reducible apply Kept.foldl
    | with_reducible apply State.commitUnit_kept

theorem State.fullMicrocode_kept {a : State} (s : State) (h : Kept a s) : Kept a (State.fullMicrocode s) := by
  unfold State.fullMicrocode
  try lift_lets
  repeat' with_reducible exact Kept.update (by with_reducible assumption) (by rfl) (by rfl) (by rfl) (by rfl)

theorem handOverStep_kept {a : State} (s : State) (h : Kept a s) : Kept a (handOverStep s) := by
  unfold handOverStep
  apply Kept.ite h
  refine State.setStage_kept _ _ (State.setKettle_kept _ _ (State.switchProgram_kept _ (State.applyEnables_kept _ _ ?_)))
  exact State.fullMicrocode_kept _ (State.commitAll_kept _ (State.genSwap_kept _ _ h))

theorem State.activated_kept {a : State} (s : State) (h : Kept a s) : Kept a (State.activated s) := by
  unfold State.activated
  try lift_lets
  repeat' first
    | with_reducible assumption
    | with_reducible apply State.flashPut_kept
    | with_reducible apply State.setKettle_kept
    | with_reducible apply State.setUpdState_kept
    | with_reducible apply State.settingsMac_kept
    | with_reducible apply State.slotResult_kept
    | with_reducible apply State.wr_kept

theorem State.endTrial_kept {a : State} (s : State) (h : Kept a s) : Kept a (State.endTrial s) := by
  unfold State.endTrial
  try lift_lets
  repeat' first
    | with_reducible assumption
    | with_reducible apply Kept.ite
    | with_reducible apply State.activated_kept

theorem bootCompleteStep_kept {a : State} (s : State) (h : Kept a s) : Kept a (bootCompleteStep s) := by
  unfold bootCompleteStep
  try lift_lets
  repeat' first
    | with_reducible assumption
    | with_reducible apply Kept.ite
    | with_reducible apply State.endTrial_kept
    | with_reducible apply State.event_kept
    | with_reducible apply State.imageHeld_kept
    | with_reducible apply State.setPhaseOf_kept
    | with_reducible apply State.setStage_kept
    | with_reducible apply State.toPower_kept
    | with_reducible apply State.wr_kept

theorem startFailStep_kept {a : State} (reason : Nat) (segment : Nat) (detail : Nat) (part : Nat) (s : State) (h : Kept a s) : Kept a (startFailStep reason segment detail part s) := by
  unfold startFailStep
  try lift_lets
  repeat' first
    | with_reducible assumption
    | with_reducible apply Kept.ite
    | with_reducible apply State.segmentFail_kept

theorem bootDeadlineStep_kept {a : State} (s : State) (h : Kept a s) : Kept a (bootDeadlineStep s) := by
  unfold bootDeadlineStep
  try lift_lets
  repeat' first
    | with_reducible assumption
    | with_reducible apply Kept.ite
    | with_reducible apply State.failStart_kept

end Sys2Proof.Machine
end

