-- ==== Sys2Proof/Laws/KeepHost.lean ====
section
/-! SUPPORT. The operations of Machine/Host.lean keep what `Kept` says. -/

namespace Sys2Proof.Machine

set_option maxRecDepth 20000

theorem State.pcieDw_kept {a : State} (s : State) (f : Nat) (x2 : Nat) (write : Bool) (d : PcieDw) (h : Kept a s) : Kept a (State.pcieDw s f x2 write d) := by
  unfold State.pcieDw
  try lift_lets
  repeat' first
    | with_reducible assumption
    | with_reducible apply Kept.ite
    | with_reducible apply State.askRead_kept
    | with_reducible apply State.refuse_kept
    | with_reducible apply State.regWrite_kept

theorem State.pcieDws_kept {a : State} (s : State) (f : Nat) (bar : Nat) (off : Nat) (write : Bool) (x5 : List PcieDw) (h : Kept a s) : Kept a (State.pcieDws s f bar off write x5) := by
  induction x5 generalizing s off with
  | nil => exact h
  | cons d t ih =>
    unfold State.pcieDws
    try lift_lets
    repeat' first
      | with_reducible assumption
      | apply ih
      | with_reducible apply State.pcieDw_kept
      | lift_lets
      | split

theorem pcieMemoryRequestStep_kept {a : State} (f : Nat) (bar : Nat) (off : Nat) (write : Bool) (dws : List PcieDw) (s : State) (h : Kept a s) : Kept a (pcieMemoryRequestStep f bar off write dws s) := by
  unfold pcieMemoryRequestStep
  try lift_lets
  repeat' first
    | with_reducible assumption
    | with_reducible apply Kept.ite
    | with_reducible apply State.pcieDws_kept
    | with_reducible apply State.setHost_kept

theorem State.dmaWrite_kept {a : State} (s : State) (x1 : Nat) (b : List Byte) (h : Kept a s) : Kept a (State.dmaWrite s x1 b) := by
  unfold State.dmaWrite
  try lift_lets
  repeat' first
    | with_reducible assumption
    | with_reducible apply State.setHost_kept

theorem State.fnAdvance_kept {a : State} (s : State) (f : Nat) (r : Nat) (h : Kept a s) : Kept a (State.fnAdvance s f r) := by
  unfold State.fnAdvance
  try lift_lets
  repeat' first
    | with_reducible assumption
    | with_reducible apply State.wr_kept

theorem txDescriptorStep_kept {a : State} (len : Nat) (frame : List Byte) (s : State) (h : Kept a s) : Kept a (txDescriptorStep len frame s) := by
  unfold txDescriptorStep
  try lift_lets
  repeat' first
    | with_reducible assumption
    | with_reducible apply Kept.ite
    | with_reducible apply State.dmaWrite_kept
    | with_reducible apply State.event_kept
    | with_reducible apply State.fnAdvance_kept
    | with_reducible apply State.inc_kept
    | with_reducible apply State.offer_kept
    | with_reducible apply State.sat_kept
    | with_reducible apply State.setHost_kept
    | with_reducible apply State.signal_kept
    | (intro t; clear_value t)
    | split

theorem State.rxTo_kept {a : State} (s : State) (d : Delivered) (f : Nat) (buf : Nat × Nat) (h : Kept a s) : Kept a (State.rxTo s d f buf) := by
  unfold State.rxTo
  try lift_lets
  repeat' first
    | with_reducible assumption
    | with_reducible apply Kept.ite
    | with_reducible apply State.dmaWrite_kept
    | with_reducible apply State.fnAdvance_kept
    | with_reducible apply State.inc_kept
    | with_reducible apply State.sat_kept
    | with_reducible apply State.signal_kept

theorem rxDeliveryStep_kept {a : State} (bufs : List (Nat × Nat)) (s : State) (h : Kept a s) : Kept a (rxDeliveryStep bufs s) := by
  unfold rxDeliveryStep
  try lift_lets
  repeat' first
    | with_reducible assumption
    | with_reducible exact Kept.update (by with_reducible assumption) (by rfl) (by rfl) (by rfl) (by rfl)
    | with_reducible apply Kept.foldl
    | with_reducible apply State.rxTo_kept
    | (intro t x (ht : Kept a t))
    | (intro t; clear_value t)
    | split
    | dsimp only

theorem State.fnConfig_kept {a : State} (s : State) (f : Nat) (bme : Bool) (en : Bool) (c : PcieCfg) (h : Kept a s) : Kept a (State.fnConfig s f bme en c) := by
  unfold State.fnConfig
  try lift_lets
  repeat' first
    | with_reducible assumption
    | with_reducible apply State.setHost_kept

theorem State.fnReset_kept {a : State} (s : State) (f : Nat) (h : Kept a s) : Kept a (State.fnReset s f) := by
  unfold State.fnReset
  try lift_lets
  repeat' first
    | with_reducible assumption
    | with_reducible apply State.fnConfig_kept
    | with_reducible apply State.unitReset_kept

theorem State.vfsEnd_kept {a : State} (s : State) (h : Kept a s) : Kept a (State.vfsEnd s) := by
  unfold State.vfsEnd
  try lift_lets
  repeat' first
    | with_reducible assumption
    | with_reducible apply Kept.ite
    | with_reducible apply Kept.foldl
    | with_reducible apply State.fnReset_kept

theorem functionLevelResetStep_kept {a : State} (f : Nat) (s : State) (h : Kept a s) : Kept a (functionLevelResetStep f s) := by
  unfold functionLevelResetStep
  try lift_lets
  repeat' first
    | with_reducible assumption
    | with_reducible apply Kept.ite
    | with_reducible apply State.fnReset_kept
    | with_reducible apply State.vfsEnd_kept

theorem pcieLinkChangeStep_kept {a : State} (up : Bool) (speed : Nat) (width : Nat) (s : State) (h : Kept a s) : Kept a (pcieLinkChangeStep up speed width s) := by
  unfold pcieLinkChangeStep
  try lift_lets
  repeat' first
    | with_reducible assumption
    | with_reducible apply Kept.ite
    | with_reducible apply State.flushReads_kept
    | with_reducible apply Kept.foldl
    | with_reducible apply State.msixFlush_kept
    | with_reducible apply State.wr_kept

theorem pciePerstStep_kept {a : State} (s : State) (h : Kept a s) : Kept a (pciePerstStep s) := by
  unfold pciePerstStep
  try lift_lets
  repeat' first
    | with_reducible assumption
    | with_reducible apply Kept.foldl
    | with_reducible apply functionLevelResetStep_kept
    | with_reducible apply pcieLinkChangeStep_kept
    | (intro t x (ht : Kept a t))

theorem pcieConfigWriteStep_kept {a : State} (f : Nat) (bme : Bool) (en : Bool) (c : PcieCfg) (s : State) (h : Kept a s) : Kept a (pcieConfigWriteStep f bme en c s) := by
  unfold pcieConfigWriteStep
  try lift_lets
  repeat' first
    | with_reducible assumption
    | with_reducible apply Kept.ite
    | with_reducible apply State.fnConfig_kept
    | with_reducible apply State.msixFlush_kept
    | with_reducible apply State.vfsEnd_kept

theorem State.mspiLeave_kept {a : State} (s : State) (h : Kept a s) : Kept a (State.mspiLeave s) := by
  unfold State.mspiLeave
  try lift_lets
  repeat' first
    | with_reducible assumption
    | with_reducible apply Kept.ite
    | with_reducible apply State.sat_kept
    | with_reducible apply State.setHost_kept

theorem State.mspiBegin_kept {a : State} (s : State) (h : Kept a s) : Kept a (State.mspiBegin s) := by
  unfold State.mspiBegin
  try lift_lets
  repeat' first
    | with_reducible assumption
    | with_reducible apply State.inc_kept
    | with_reducible apply State.mspiLeave_kept
    | with_reducible apply State.setHost_kept

theorem State.shiftOut_kept {a : State} (s : State) (b : List Byte) (h : Kept a s) : Kept a (State.shiftOut s b) := by
  unfold State.shiftOut
  try lift_lets
  repeat' first
    | with_reducible assumption
    | with_reducible apply State.setHost_kept

theorem State.mspiRefused_kept {a : State} (s : State) (crc : Bool) (h : Kept a s) : Kept a (State.mspiRefused s crc) := by
  unfold State.mspiRefused
  try lift_lets
  repeat' first
    | with_reducible assumption
    | with_reducible apply Kept.ite
    | with_reducible apply State.sat_kept
    | with_reducible apply State.setHost_kept

theorem mspiWriteStep_kept {a : State} (x0 : Nat) (v : Word) (crc : Nat) (s : State) (h : Kept a s) : Kept a (mspiWriteStep x0 v crc s) := by
  unfold mspiWriteStep
  try lift_lets
  repeat' first
    | with_reducible assumption
    | with_reducible apply Kept.ite
    | with_reducible apply State.mspiBegin_kept
    | with_reducible apply State.mspiRefused_kept
    | with_reducible apply State.regWrite_kept
    | with_reducible apply State.shiftOut_kept

theorem mspiReadStep_kept {a : State} (x0 : Nat) (crc : Nat) (s : State) (h : Kept a s) : Kept a (mspiReadStep x0 crc s) := by
  unfold mspiReadStep
  try lift_lets
  repeat' first
    | with_reducible assumption
    | with_reducible apply Kept.ite
    | with_reducible apply State.askRead_kept
    | with_reducible apply State.mspiBegin_kept
    | with_reducible apply State.mspiRefused_kept
    | with_reducible apply State.shiftOut_kept

theorem mspiAbandonStep_kept {a : State} (x0 : Nat) (s : State) (h : Kept a s) : Kept a (mspiAbandonStep x0 s) := by
  unfold mspiAbandonStep
  try lift_lets
  repeat' first
    | with_reducible assumption
    | with_reducible apply Kept.ite
    | with_reducible apply State.askRead_kept
    | with_reducible apply State.mspiBegin_kept
    | with_reducible apply State.mspiRefused_kept
    | with_reducible apply State.sat_kept
    | with_reducible apply State.setHost_kept

theorem ulisPacketRetryStep_kept {a : State} (again : Bool) (s : State) (h : Kept a s) : Kept a (ulisPacketRetryStep again s) := by
  unfold ulisPacketRetryStep
  try lift_lets
  repeat' first
    | with_reducible assumption
    | with_reducible apply Kept.ite
    | with_reducible apply State.inc_kept
    | with_reducible apply State.setHost_kept
    | with_reducible apply State.ulisDown_kept

theorem ulisLinkUpStep_kept {a : State} (s : State) (h : Kept a s) : Kept a (ulisLinkUpStep s) := by
  unfold ulisLinkUpStep
  try lift_lets
  repeat' first
    | with_reducible assumption
    | with_reducible apply Kept.ite
    | with_reducible apply State.tellCosy_kept
    | with_reducible apply State.wr_kept

theorem ulisAuthExchangeStep_kept {a : State} (ok : Bool) (s : State) (h : Kept a s) : Kept a (ulisAuthExchangeStep ok s) := by
  unfold ulisAuthExchangeStep
  try lift_lets
  repeat' first
    | with_reducible assumption
    | with_reducible apply Kept.ite
    | with_reducible apply State.alarmEnd_kept
    | with_reducible apply State.raiseAlarm_kept
    | with_reducible apply State.sat_kept
    | with_reducible apply State.ulisDown_kept
    | with_reducible apply State.wr_kept

end Sys2Proof.Machine
end

