-- ==== Sys2Proof/Laws/KeepTriadBus.lean ====
section
/-! SUPPORT. The operations of Machine/TriadBus.lean keep what `Kept` says. -/

namespace Sys2Proof.Machine

set_option maxRecDepth 20000

theorem State.sramCheck_kept {a : State} (s : State) (w : Nat) (access : Nat) (h : Kept a s) : Kept a (State.sramCheck s w access).2 := by
  unfold State.sramCheck
  try lift_lets
  repeat' first
    | with_reducible assumption
    | with_reducible apply State.clearUpset_kept
    | with_reducible apply State.codeCheck_kept
    | with_reducible apply State.codeFail_kept
    | lift_lets
    | (split <;> (rename_i t heq; refine (fun (ht : Kept a t) => ?_) (Kept.ofEq3 heq ?_)))

theorem State.sramRead_kept {a : State} (s : State) (w : Nat) (h : Kept a s) : Kept a (State.sramRead s w) := by
  unfold State.sramRead
  try lift_lets
  repeat' first
    | with_reducible assumption
    | with_reducible apply Kept.ite
    | with_reducible apply State.setTriad_kept
    | with_reducible apply State.sramCheck_kept
    | with_reducible rfl
    | lift_lets
    | (with_reducible refine Kept.update ?_ (by rfl) (by rfl) (by rfl) (by rfl); with_reducible apply State.setTriad_kept)

theorem State.triadAccess_kept {a : State} (s : State) (m : Nat) (x : TriadAccess) (h : Kept a s) : Kept a (State.triadAccess s m x) := by
  unfold State.triadAccess
  cases x <;> dsimp only
  · exact State.regReadTo_kept _ _ _ h
  · exact State.regWrite_kept _ _ _ _ h
  · exact Kept.ite (State.sramRead_kept _ _ h) h
  · split
    · exact h
    · have hs (w k : Nat) := State.sramCheck_kept s w k h
      exact Kept.upd (hs _ _) (hs _ _).regs (fun w => smWf_smSet _ _ _ _ ((hs _ _).sram w)) (hs _ _).gwMem (hs _ _).timeProg
        (hs _ _).cosyProg
  · split
    · exact h
    · exact h.update rfl rfl rfl rfl
  · exact h.update rfl rfl rfl rfl
  · exact State.offer_kept _ _ _ _ h

theorem triadTransactionStep_kept {a : State} (x0 : TriadTx) (s : State) (h : Kept a s) : Kept a (triadTransactionStep x0 s) := by
  unfold triadTransactionStep
  try lift_lets
  repeat' first
    | with_reducible assumption
    | with_reducible apply Kept.ite
    | with_reducible apply State.triadAccess_kept
    | with_reducible apply State.vote_kept
    | lift_lets
    | (split <;> (rename_i t heq; refine (fun (ht : Kept a t) => ?_) (Kept.ofEq heq ?_)))

end Sys2Proof.Machine
end

