-- ==== Sys2Proof/Tests/Slice0.lean ====
section
/-! SUPPORT. The author's own tests: the well-formedness smoke tests, a witness for the hypotheses of each statement,
and small tests of single commands. Expected values come from the tables and the pseudocode of the spec. -/

open Sys2Proof Sys2Proof.Machine

namespace Sys2Proof.Tests

set_option maxRecDepth 20000
set_option Elab.async false

/-- `s` with unit `u`, its parent and SYS enabled. -/
def on (s : State) (u : UnitNo) : State := ((s.wr u F.unit_CTRL_EN 1).wr (parentOf u) F.unit_CTRL_EN 1).wr uSys F.unit_CTRL_EN 1

/-- The reset state with the units of a list enabled. -/
def units (l : List UnitNo) : State := l.foldl on State.reset

/-- The machine with its Brew die running. -/
def running : State := { State.reset with cosy := { power := 4, brewRun := true, brewStarted := true, brewPor := false } }

/-- The machine after boot, when the host's masters may write. -/
def booted : State := { running with kettle := { stage := stComplete } }

/-- The state after one command. -/
def after (s : State) (i : Instr) : State := match exec i s with
  | .next t => t
  | _ => s

/-- For each check of WellFormed a term with an operand outside its range, which the check refuses. -/
theorem test_wf_refuses : (
  [.registerWrite (2 ^ 32) 0 8, .registerWrite 0 0 0x40, .readClear 0 0, .latchingRead 0 0x12, .tickBoundary 0x59 none ⟨0, 0, 0⟩,
   .tickBoundary 0 none ⟨2 ^ 24, 0, 0⟩, .tickBoundary 0 none ⟨0, 4096, 0⟩, .tickBoundary 0 none ⟨0, 0, 4096⟩, .unitEnable 0x59 true 8,
   .cellWrite 16 none, .cellWrite 12 (some ⟨[0#8], true, true, 0⟩), .cellWrite 0 (some ⟨[], true, true, 0⟩),
   .cellWrite 0 (some ⟨List.replicate 65 0#8, true, true, 0⟩), .cellWrite 0 (some ⟨[0#8], true, true, 2 ^ 80⟩), .frameEnd 12 0,
   .pauseFrameReceive 12 [] false false 0, .pauseFrameReceive 0 (List.replicate 65 0#8) false false 0, .syncProcess 0 0 (some ⟨[], true, true, 0⟩), .canKeySubmit 13, .streamGateCycleStart false 64, .guardMatch 16 0 ⟨false, 0⟩ false, .guardMatch 0 (2 ^ 29) ⟨false, 0⟩ false,
   .pfcRefresh 0 8, .preemptVerify 0 2, .syncTransmit 4 0, .domAccept 0 256 8, .tsinPop 16, .tsoutEdge 8,
   .xcvrModeChange 12, .xcvrModeChange 24, .canFrameReceive 0 (some { format := 4 }) none ⟨0, false⟩, .canFrameReceive 0 (some { format := 0, id := 2 ^ 29 }) none ⟨0, false⟩,
   .canFrameReceive 0 (some { format := 2, dlc := 2048 }) none ⟨0, false⟩, .canFrameReceive 0 (some { format := 3, cycle := 64 }) none ⟨0, false⟩,
   .canError 0 ⟨0, false, false, false⟩, .canError 0 ⟨8, false, false, false⟩, .canRecover 0 (some 0), .canOpmode 0 4 8,
   .linHeaderReceive 0 64 0, .sentMessage 0 ⟨0, 0, List.replicate 9 0, 0, 0, 0⟩, .qspiTransfer 4 0, .t1sTxOpportunity 0 4 0, .pduDue 0 4096,
   .tblRead 0 4 0 8, .ringToken 25 ⟨0, 0, 0, false, 0, 0⟩, .ringToken 0 ⟨256, 0, 0, false, 0, 0⟩, .ringToken 0 ⟨0, 64, 0, false, 0, 0⟩,
   .ringToken 0 ⟨0, 0, 256, false, 0, 0⟩, .ringToken 0 ⟨0, 0, 0, false, 128, 0⟩, .ringToken 0 ⟨0, 0, 0, false, 0, 256⟩, .wakeDetect (.pin 4 true),
   .wakeDetect (.wup 8), .wakeDetect (.lin 4), .segmentHeaderCheck ⟨true, [], []⟩, .startFail 9 0 0 0, .mailboxResponse 0 0 (List.replicate 64 0),
   .mailboxResponse 0 0 [2 ^ 32], .saInstall 0 (some 8) 0 0 8, .alarm 5, .dbgAuth (2 ^ 256) 0 0 0, .pcieMemoryRequest 0 1 0 false [⟨15, 0⟩],
   .pcieMemoryRequest 0 0 2 false [⟨15, 0⟩], .pcieMemoryRequest 0 0 0 false [], .pcieMemoryRequest 0 0 0 false [⟨16, 0⟩],
   .txDescriptor 16384 [], .rxDelivery [(2 ^ 64, 0)], .ePortLinkChange 0 7, .vbatMeasurement 1024] : List Instr).all (fun i => !i.wf) = true := by decide +kernel

/-- The same shapes with every operand in range. -/
theorem test_wf_accepts : (
  [.registerWrite (2 ^ 32 - 1) 0 8, .readClear 0 0x38, .tickBoundary 0x58 none ⟨2 ^ 24 - 1, 4095, 4095⟩, .cellWrite 15 none,
   .cellWrite 11 (some ⟨List.replicate 64 0#8, true, true, 2 ^ 80 - 1⟩), .canFrameReceive 15 (some { format := 3, id := 2 ^ 29 - 1, dlc := 2047, cycle := 63 }) none ⟨0, false⟩,
   .canError 15 ⟨7, false, false, false⟩, .xcvrModeChange 23, .ringToken 24 ⟨255, 63, 255, true, 127, 255⟩, .wakeDetect (.pin 3 false), .sigStep 12,
   .alarm 4, .pcieMemoryRequest 4 2 0x3FFFFFC false [⟨15, 0⟩], .ePortLinkChange 11 10000, .hmacVer] : List Instr).all Instr.wf = true := by decide +kernel

/-- The opcode table gives no row any bits. -/
theorem test_no_word_spells_a_command : (List.range 33).all (fun n => (decodeTableWord n 0).isNone) = true := by decide

theorem wit_FrontCommandRuns : ({ State.reset with pending := [.ulisLinkDown] } : State).pending = .ulisLinkDown :: [] := by decide
theorem wit_EmptyQueueIdles : State.reset.pending = [] ∧ ({ running with cosy := { running.cosy with clockLost := true } } : State).clocked = false ∧
    running.pending = [] ∧ running.clocked = true := by decide
theorem wit_EmptyQueueIdles_quiet : running.quiet := by unfold State.quiet; decide
theorem wit_RegistersStayCanonical : (units [uCan 0]).regsWf ∧ (units [uCan 0]).memWf := by unfold State.regsWf State.memWf; decide
theorem wit_FieldWrite : F.can_CAN_CTRL_OPMODE.lsb + F.can_CAN_CTRL_OPMODE.width ≤ 32 := by decide
theorem wit_RegisterWriteByAccessKind : ∃ f, findReg (baseOf uTick + 0x100) = some f ∧ running.debugBarred 0x18 = false ∧
    cosyAddr (baseOf uTick + 0x100) = false ∧ running.takes f.unit 0x18 = true ∧ ownedBy 0x18 f = true ∧ 0x40 ≤ f.off ∧
    running.commandWrite 0x18 f (baseOf uTick + 0x100) 0#32 = none ∧ (units [uTick]).enabled f.unit = true ∧ f.ruled = false := ⟨_, rfl, by decide⟩
theorem wit_RegisterWriteRefusedOrPosted : running.debugBarred 1 = false ∧ findReg 0x43FFFFFC = none ∧ cosyAddr 0x43FFFFFC = false ∧
    (running.wr uUlis F.ulis_ULIS_STATUS_UP 1).flag uUlis F.ulis_ULIS_STATUS_UP = true ∧ cosyAddr (baseOf uCosy + 0x100) = true := by decide
theorem wit_RefusalIsRecorded : running.armed (accessReporter 1 0x40000001) 31 = false := by decide
theorem wit_UnitFrameCommands : running.takes uSys 1 = true ∧ isLeaf (uCan 0) = true ∧ running.clearsFault (uCan 0) 0#32 = false ∧
    booted.takes (uCan 0) 1 = true := by decide
theorem wit_UnitEnable : subtree uFlx = [uFlx] ∧ kindOf uFlx = UKind.flx ∧ uFlx ≠ uSys ∧ leavesOf uKettle = [uKettle] ∧
    running.takes uFlx 0x18 = true := by decide
theorem wit_UnitReset : running.takes uFlx 0x18 = true ∧ subtree uFlx = [uFlx] ∧ kindOf uFlx = .flx := by decide
theorem wit_Boundary : (units [uTick]).enabled uTick = true ∧ (units [uTick]).resetting uTick = false ∧ (units [uTick]).resetting (uPipe true) = false ∧
    hasTickJob (uPipe true) = true ∧ (units [uPipe true]).enabled (uPipe true) = true := by decide
theorem wit_Overrun : hasTickJob (uPipe true) = true ∧ running.unfinished (uPipe true) = false ∧ running.enabled (uPipe true) = false ∧
    (running.setTickJob (uPipe true) { backlog := 3 }).unfinished (uPipe true) = true ∧ running.rd (uPipe true) F.unit_TICKJOB_OVR_CONSEC < 15 ∧
    (running.wr (uPipe true) F.unit_TICKJOB_OVR_CONSEC 15).rd (uPipe true) F.unit_TICKJOB_OVR_CONSEC = 15 ∧
    (((units [uPipe true]).setTickJob (uPipe true) { backlog := 1 }).unfinished (uPipe true) && (units [uPipe true]).enabled (uPipe true)) = true := by decide
theorem wit_SaucerOwnBoundary : running.enabled uTick = false ∧ running.resetting uSaucer = false ∧ (units [uTick]).enabled uTick = true := by decide
def oneStaged : State := { running with staged := [⟨uGw 0, fldAddr (uGw 0) F.gw_BUS_ADMIT_LIMIT 0 0, 0x18#32, 1, 0⟩] }
theorem wit_ReadShowsAndClears : ∃ f, findReg (baseOf uFlx + 0x100) = some f ∧ running.debugBarred 1 = false ∧ running.readWaits running.host.reads 1 (baseOf uFlx + 0x100) = false ∧
    cosyAddr (baseOf uFlx + 0x100) = false ∧ ownedBy 1 f = true ∧ running.resetting f.unit = false ∧ kindOf f.unit ∉ [UKind.spout, .gw, .tsio, .fn] := ⟨_, rfl, by decide⟩
theorem wit_FenceReads : running.readWaits running.host.reads 1 (fldAddr uPcie F.pcie_FENCE_COUNT 0 0) = false ∧
    running.readWaits running.host.reads 8 (fldAddr uMspi F.mspi_FENCE_COUNT 0 0) = false ∧ running.readWaits running.host.reads 5 (fldAddr (uFn 4) F.fn_FN_FENCE_COUNT 0 0) = false ∧ running.resetting uPcie = false ∧ running.resetting uMspi = false ∧
    running.armed uMspi 31 = false ∧ running.resetting (uFn 4) = false ∧ running.armed (uFn 4) 31 = false := by decide
theorem wit_Interrupts : running.takes uSys 1 = true ∧ running.irqOut F.sys_INT_MASK_PF0_MASK = false ∧ bitOf running.host.msixEn 0 = false ∧
    ((running.wr uSys F.sys_INT_MASK_PF0_MASK 0x3FFFFFF).event (uCan 0)).irqOut F.sys_INT_MASK_PF0_MASK = true := by decide
def msixOn : State := { running.wr uPcie F.pcie_LINK_STATUS_UP 1 with host := { msixEn := 1, bme := 1 } }
theorem wit_Interrupts_open : bitOf msixOn.host.msixEn 0 = true ∧ msixOn.msixPending 0 32 = false ∧
    (msixOn.orBit (uFn 0) F.fn_MSIX_PBA_W 0 1).msixPending 0 32 = true := by decide
def postedOne (a : Nat) : State := { running with host := { posted := [⟨8, a, 0, 0, false⟩, ⟨1, a, 0, 0, false⟩] } }
theorem wit_CommitTakesStagedWrites : ∃ e, oneStaged.staged.filter (fun e => e.unit == uGw 0) = [e] ∧ oneStaged.refusedBits (uGw 0) [e] e = 0 ∧ stagedMask e.addr ≠ 0#32 ∧
    oneStaged.staged.filter (fun e => e.unit == uTriad) = [] := ⟨_, rfl, by decide⟩
theorem wit_PostedWrites : findReg (0x4F000000 + 0xFFFFC) = none ∧ running.host.posted = [] := by decide
theorem wit_PostedWrites_order : nextPosted (postedOne 0).host.posted = some (1, ⟨1, 0, 0, 0, false⟩) ∧ nextPosted running.host.posted = none := by decide
theorem wit_PostedWrites_known : ∃ f, findReg (fldAddr uCosy F.cosy_PWR_CFG_PG_RETRIES 0 0) = some f ∧ 0x40 ≤ f.off ∧ f.ruled = false ∧ f.off ≠ 0x100C ∧ ¬ (0x2000 ≤ f.off ∧ f.off < 0x2060) ∧
    wakeReg f.off = false := ⟨_, rfl, by decide⟩

/-- One copy for port 1, class 0. -/
def copy1 : Copy := { port := 1, tc := 0, ct := false, mirror := false, subS := 0, subH := 0, recirc := false, slow := false }
/-- A state with one frame (record 7) of one cell, its copy awaiting the queue. -/
def fabric : State := { running with fab := {
  cells := [(5, ⟨List.replicate 64 0#8, 7, 0, true, true, false, false⟩)], frames := [(7, { chain := [5], bytes := 64, copies := 2, complete := true, ended := true })]
  toEnqueue := [(7, copy1)], walks := [⟨7, 0, []⟩] } }
def heldCell : State := { running with fab := { inputs := [(3, { hold := [⟨7, [], true, true⟩] })], frames := [(7, {})] } }
theorem wit_CellEntersItsSlice : (running.macHand 3).input 3 = {} ∧ (heldCell.macHand 3).frame 7 = some {} ∧
    ((heldCell.macHand 3).input 3).hold = [⟨7, [], true, true⟩] := by decide +kernel
theorem wit_CellEntersItsSlice_used : (heldCell.macHand 3).fab.used.contains 3 = false ∧ ((heldCell.usePort 3).macHand 3).fab.used.contains 3 = true := by decide +kernel
theorem wit_CellEntersItsSlice_free : ∃ ptr, (heldCell.macHand 3).freeCellFrom ((3 + (heldCell.macHand 3).fabCycle) % 16) 8192 ((heldCell.macHand 3).drawn 8192) = some ptr :=
  ⟨_, if_pos rfl⟩
def lateMac : State := { running with fab := { inputs := [(3, { rx := [⟨List.replicate 80 0#8, 0, true, false, false, none, 0, false, none, none⟩] })] } }
def lateFrame : MacFrame := ⟨List.replicate 80 0#8, 0, true, false, false, none, 0, false, none, none⟩
theorem wit_CellEntersItsSlice_full : findIdx1 (lateMac.macOwes 3) (lateMac.input 3).rx 0 = some (0, lateFrame) ∧
    ((lateMac.wr uFab F.fab_BUF_FREE_FREE 100).rd uFab F.fab_BUF_FREE_FREE < 144 * (lateMac.writingCount + 1)) := by decide +kernel
theorem wit_EmptyPoolDropsTheCopy : ∃ f, fabric.frame 7 = some f ∧ f.ended = true ∧ fabric.armed uFab 0 = false ∧ fabric.codeOf memRecord 7 = .good ∧
    (fabric.wr uFab F.fab_QENT_FREE_FREE 0).rd uFab F.fab_QENT_FREE_FREE = 0 ∧ copy1.ct = false := ⟨_, rfl, by decide⟩
theorem wit_AdmissionDecides : fabric.rd uFab F.fab_QENT_FREE_FREE ≠ 0 ∧ fabric.admission 8 1 0 0 = .normal [] ∧
    (fabric.wr uFab F.fab_QRESV_RESV 4 14).admission 14 1 0 0 = .reserved ∧ (fabric.wr uFab F.fab_BUF_FREE_FREE 0).admission 8 1 0 0 = .dropLimit ∧
    ((fabric.wr uFab F.fab_PFC_THRESH_XOFF 100 0).wr uFab F.fab_QCFG_LIMIT 100 12).admission 12 1 0 0 = .lossless ∧
    ((fabric.wr uFab F.fab_PFC_THRESH_XOFF 0 0).wr uFab F.fab_PFC_HEAD_HEADROOM 0 0).admission 12 1 0 0 = .dropLossless := by decide +kernel
def entry1 (started ct : Bool) : QEntry := ⟨1, 7, { copy1 with ct := ct }, started, 1, false, false, false⟩
def reading1 (complete : Bool) : State := { running with fab := {
  cells := [(5, ⟨List.replicate 64 0#8, 7, 0, true, false, false, false⟩)], frames := [(7, { chain := [5], bytes := 64, copies := 1, complete := complete })]
  reading := [(1, [⟨0, [], 0, 1⟩])], queues := [(8, [entry1 true true])] } }
theorem wit_UnderrunStomps : ((reading1 false).readingOf 1).find? (fun r => r.tc == 0) = some ⟨0, [], 0, 1⟩ ∧ (reading1 false).queue 8 = [entry1 true true] ∧
    ((reading1 false).frame 7).map (·.complete) = some false ∧ (entry1 true true).copy.ct = true ∧ (running.readingOf 1).find? (fun r => r.tc == 0) = none := by decide
theorem wit_CellsAreReleasedOnce : (pmGet fabric.fab.cells 5).isSome = true ∧ fabric.fab.walks = [⟨7, 0, []⟩] ∧ running.fab.walks = [] ∧
    (fabric.frame 7).map (·.chain) = some [5] ∧ fabric.codeOf memLink 5 = .good ∧ ((reading1 false).frame 7).map (fun f => f.complete) = some false := by decide
theorem wit_CellReadTakesTheCell : (reading1 false).netmTake.fab = (reading1 false).fab ∧ (reading1 false).mayRead 1 ⟨0, [], 0, 1⟩ = true ∧
    ((reading1 false).frame 7).map (fun f => windowCell f ⟨0, [], 0, 1⟩ 0) = some (some (0, 5)) ∧
    ((reading1 false).frame 7).map (fun f => windowCell f ⟨0, [], 0, 1⟩ 1) = some none ∧ (running.readingOf 1) = [] := by decide +kernel
theorem wit_CellReadTakesTheCell_used : (reading1 false).fab.used.contains 17 = false ∧ ((reading1 false).usePort 17).fab.used.contains 17 = true := by decide
theorem wit_CellReadTakesTheCell_take : (reading1 false).netmTake = reading1 false := by decide +kernel
def sender : State := ((on (on running (uSpout 1)) (uMac 1)).wr (uMac 1) F.mac_TX_CFG_TX_EN 1)
def withLink (s : State) : State := { s with fab := { s.fab with links := [(1, 1000)] } }
def queued (tc : Nat) : State := { withLink sender with fab := {
  links := [(1, 1000)], frames := [(7, { chain := [5], bytes := 64, copies := 1, complete := true, ended := true })]
  cells := [(5, ⟨List.replicate 64 0#8, 7, 0, true, true, false, false⟩)], queues := [(8 + tc, [entry1 false false])] } }
theorem wit_SpoutSelects : running.enabled (uSpout 1) = false ∧ sender.enabled (uSpout 1) = true ∧ sender.txStopped = false ∧ sender.flag (uMac 1) F.mac_TX_CFG_TX_EN = true ∧
    (withLink sender).mayStart 1 8 = true ∧ (withLink sender).mayStart 1 0 = true ∧ (withLink sender).txQueue 1 = [] ∧ (withLink sender).readingOf 1 = [] ∧
    (withLink sender).held 1 = false ∧ ((withLink sender).eligibleMask 1).1 = 0 ∧ ((queued 5).eligibleMask 1).1 = 32 ∧ ((queued 2).eligibleMask 1).1 = 4 := by decide +kernel
def secondPass : State := { on running (uPipe false) with fab := { inputs := [(12, { heads := [7] })], frames := [(7, { fm := { pass2 := true, gen := true } })] } }
theorem wit_StaleSecondPass : (secondPass.input 12).heads = [7] ∧ (secondPass.frame 7).map (·.fm.pass2) = some true ∧ secondPass.enabled (uPipe (pipeOf 12)) = true ∧
    b2n true ≠ secondPass.curGen ∧ secondPass.draining = false := by decide

/-- E-port 3 with one received frame of these bytes. -/
def macWith (raw : List Byte) : State := { on running (uMac 3) with fab := {
  inputs := [(3, { rx := [⟨raw, 0, true, false, false, none, 2, false, some 7, none⟩] })], frames := [(7, {})] } }
def pauseRaw (op : Nat) : List Byte :=
  let b := List.replicate 12 0#8 ++ beBytes 2 0x8808 ++ beBytes 2 op ++ List.replicate 44 0#8
  b ++ fcsBytes b false
def plainRaw : List Byte := List.replicate 60 0#8 ++ fcsBytes (List.replicate 60 0#8) false
theorem wit_HeadsAndFrameEnds : (running.input 3).heads = [] ∧ running.macFirst 3 = none ∧ ((macWith plainRaw).macFirst 3).map (·.raw.length) = some 64 ∧
    ((macWith plainRaw).macFirst 3).map (fun f => ((macWith plainRaw).macReady 3 f, fcsGood f.raw)) = some (true, true) ∧
    ((macWith (List.replicate 64 0#8)).macFirst 3).map (fun f => fcsGood f.raw) = some false ∧ ((macWith (List.replicate 40 0#8)).macFirst 3).map (fun f => f.off) = some false := by decide +kernel
theorem wit_HeadsAndFrameEnds_pass : ∃ f, (macWith plainRaw).macFirst 3 = some f ∧ ((macWith plainRaw).macsecCheck 3 f).1 = .pass ∧
    (macWith plainRaw).lenBadAtEnd 3 ((macWith plainRaw).macPlain 3 f) = false ∧ be16 f.raw 12 ≠ 0x8808 := ⟨_, rfl, by decide +kernel⟩
def headOn (s : State) : State := { s with fab := { inputs := [(3, { heads := [7] })], frames := [(7, {})] } }
theorem wit_HeadsAndFrameEnds_head : ((headOn running).input 3).heads = [7] ∧ (headOn running).frame 7 = some {} ∧ running.enabled (uPipe (pipeOf 3)) = false ∧
    (on running (uPipe (pipeOf 3))).enabled (uPipe (pipeOf 3)) = true ∧ ((headOn (on running (uPipe (pipeOf 3)))).admitHead 3).1 = true := by decide +kernel
theorem wit_PausesAndPfc : ((macWith (pauseRaw 0x0101)).macFirst 3).map (fun f => (f.cut, f.off, fcsGood f.raw, be16 f.raw 12, be16 f.raw 14)) = some (false, false, true, 0x8808, 0x0101) ∧
    ((macWith (pauseRaw 1)).macFirst 3).map (fun f => be16 f.raw 14) = some 1 ∧ ((macWith plainRaw).wr uFab F.fab_PFC_CFG_RX_EN 1 3).flag uFab F.fab_PFC_CFG_RX_EN 3 = true := by decide +kernel
def paused4 (wc : Nat) : State := { running with clk := { wc := wc }, fab := { pause := [(3, { prio := [(4, 1000)], all := some 1000 })], pfcOn := [28] } }
theorem wit_PausesAndPfc_end : pmGet ((paused4 1000).pauseOf 3).prio 4 = some 1000 ∧ ((paused4 999).pauseOf 3).all = some 1000 ∧ (1000 ≤ (paused4 1000).clk.wc) ∧ ((paused4 999).clk.wc < 1000) ∧
    (paused4 0).fab.pfcOn.contains (8 * 3 + 4) = true ∧ ((paused4 0).wr uFab (losslessFld 4) 500 3).xon 3 ≤ ((paused4 0).wr uFab (losslessFld 4) 500 3).rd uFab (losslessFld 4) 3 := by decide
theorem wit_PausesAndPfc_due : (paused4 (2 ^ 60)).pfcDue 3 4 = true ∧ (({ paused4 0 with fab := { (paused4 0).fab with links := [(3, 1000)] } } : State).wr uFab F.fab_PFC_HEAD_QUANTA 1 3).pfcDue 3 4 = false := by decide +kernel
def drainingSt : State := ((running.wr (uPipe true) F.pipe_GEN_STATUS_INACTIVE 1).wr uFab F.fab_CYCLE 64)
theorem wit_BankPairRelease : running.draining = false ∧ drainingSt.draining = true ∧ drainingSt.rd (uPipe true) F.pipe_GEN_INFLIGHT_COUNT (1 - drainingSt.curGen) = 0 ∧
    64 ≤ (drainingSt.fabCycle + 2 ^ 32 - drainingSt.gen.swapCycle) % 2 ^ 32 ∧
    max 1 (drainingSt.rd (uPipe true) F.pipe_GEN_STATUS_RELEASE_TIMEOUT) ≤ ({ drainingSt with gen := { drainTicks := 70000 } } : State).gen.drainTicks := by decide
def ev : SourceEvent := ⟨5, 1, 3, 0⟩
/-- A pipeline with an entry of that source (hit, static as said) and a source event. -/
def learnt (port hit static : Nat) : State := (running.setPipe true { eventFifo := [ev] }).putFdb true ((running.slotsFor true (fdbKey 5 1)).headD 0)
  ⟨fdbKey 5 1, setNbits (setNbits (learntRes port 0) 62 1 hit) 61 1 static⟩
theorem wit_LearningFollowsEvents : (running.pipe true).eventFifo = [] ∧ ((learnt 3 0 0).pipe true).eventFifo = [ev] ∧ (learnt 3 0 0).upsets = [] ∧
    running.findKey true (fdbKey 5 1) = none ∧ ((learnt 3 0 0).findKey true (fdbKey 5 1)).isSome = true := by decide +kernel
theorem wit_LearningFollowsEvents_entry : (∀ a ∈ (learnt 3 0 0).findKey true (fdbKey 5 1), ((learnt 3 0 0).fdbAt true a).sourceIs 3 0 = true ∧ ((learnt 4 0 0).fdbAt true a).sourceIs 3 0 = false) ∧
    ((running.pipe true).learnAdmitted < (running.wr (uPipe true) F.pipe_FDB_CFG_LEARN_LIMIT 1).rd (uPipe true) F.pipe_FDB_CFG_LEARN_LIMIT) := by decide +kernel

def keyed (key : Nat) : State := running.wr (uPipe true) F.pipe_FDB_KEY_LO key
theorem wit_FdbCommands : running.takes (uPipe true) 0x18 = true ∧ running.flag (uPipe true) F.pipe_FDB_CMD_BUSY = false ∧ running.upsets = [] ∧
    (running.wr (uPipe true) F.pipe_FDB_CMD_BUSY 1).flag (uPipe true) F.pipe_FDB_CMD_BUSY = true ∧ (keyed 1).fdbKeyReg true % 16 = 1 ∧ 2 ≤ (keyed 2).fdbKeyReg true % 16 := by decide
theorem wit_FdbCommands_place : ((keyed 1).placeFor true 1).1.isSome = true ∧ ((keyed 1).placeFor true 1).2.1 = false ∧ (keyed 1).findKey true 1 = none ∧
    nbits ((keyed 1).fdbResReg true) 57 1 = 0 := by decide +kernel
theorem wit_RuleCommands : running.takes (uStrain true) 0x18 = true ∧ running.flag (uStrain true) F.strain_RULE_CMD_BUSY = false ∧ running.enabled (uStrain true) = false ∧
    (on drainingSt (uStrain true)).enabled (uStrain true) = true ∧ (on drainingSt (uStrain true)).draining = true ∧ running.draining = false ∧
    ruleBad (running.ruleOperand true F.strain_RULE_KEY) (running.ruleAct true) = false ∧ running.codeOf (memStaging true) (4096 * running.readBank false + 4095) = .good ∧
    (running.wr (uStrain true) F.strain_RULE_CMD_BUSY 1).flag (uStrain true) F.strain_RULE_CMD_BUSY = true := by decide +kernel
theorem wit_FdbSideTables_retired : running.retiredWord (memVlan true) 7 = false ∧
    ({ running with kettle := { ledger := [11 * 2 ^ 28 + memVlan true * 2 ^ 20 + 7 / wordsPerRow (memVlan true)] } } : State).retiredWord (memVlan true) 7 = true ∧ running.armed (uStrain true) 0 = false := by decide +kernel
def gated (wc : Nat) : State := ({ running with clk := { wc := wc } }.setGate true 63 { running := true, td := 4, cycleNs := 100, cycleStart := 0, list := [1, 1], entryEnd := 50 }).wr
  (uStrain true) F.strain_GATE_CTRL_EN 1 63
theorem wit_GatesKeysAndGuards : (gated 0).flag (uStrain true) F.strain_GATE_CTRL_EN 63 = true ∧ running.flag (uStrain true) F.strain_GATE_CTRL_EN 63 = false ∧
    ((gated 0).gateAt true 63).running = true ∧ ((gated 0).gateAt true 63).entry + 1 < ((gated 0).gateAt true 63).list.length ∧ running.armed (uStrain true) 0 = false ∧
    running.codeOf (memTcam true) 0 = .good ∧ (running.strain true).canFifo = [] ∧ (running.engine 0).work = [] := by decide +kernel
def asking : GwWork := .route 0 { format := 0 } 0
def guarding : State := (({ on running (uCan 15) with triad := running.triad }.wr (uCan 15) F.can_GUARD_CTRL_EN 1).wr (uCan 15) F.can_CAN_STATUS_STATE 2)
theorem wit_GatesKeysAndGuards_flag : guarding.enabled (uCan 15) = true ∧ guarding.flag (uCan 15) F.can_GUARD_CTRL_EN = true ∧
    ((guarding.setCan 15 { guardFlag := true }).canAt 15).guardFlag = true ∧ (running.canAt 15).guardFlag = false := by decide
theorem wit_GatesKeysAndGuards_key : ((running.setEngine 0 { work := [asking] }).keyOf 0 asking).isSome = true ∧ ((running.setEngine 0 { work := [asking] }).engine 0).asked = false ∧
    (running.setEngine 0 { work := [asking] }).sigStopped 0 = false ∧ (running.setEngine 0 { work := [asking], inSig := true }).sigStopped 0 = true := by decide +kernel

def gateX (pend : Bool) (ns : Int) : State := ({ running with time := { domains := [(0, { time := ns * 2 ^ 47 })] } }.setGates 1 {
  oper := some { base := 0, cycle := 100, td := 0, len := 2 }, pending := if pend then some { base := 0, cycle := 100, td := 0, len := 2 } else none
  cycleStart := 0, entryEnd := 50, swapAt := 0, list0 := [(0, 3), (1, 3)] })
theorem wit_GatesOfTheSpouts : (gateX true 0).swapDue ((gateX true 0).spoutAt 1).gate = true ∧ (gateX false 0).swapDue ((gateX false 0).spoutAt 1).gate = false ∧
    ((gateX false 0).spoutAt 1).gate.entry + 1 < ((gateX false 0).spoutAt 1).gate.entries.length ∧ (gateX false 49).domNs 0 < 50 ∧ 100 ≤ (gateX false 100).domNs 0 ∧
    running.takes (uSpout 1) 0x18 = true ∧ running.flag (uSpout 1) F.spout_GCL_ADDR_OPER = false ∧ ((running.spoutAt 1).gate.pending).isSome = false := by decide +kernel
def preempting : State := (({ withLink sender with spout := [(1, { line := [⟨0, 0, some 0, 0, [], none, 1000, 256, some (List.replicate 300 0#8), 0, false, none, none, 5, false, none⟩,
  ⟨7, 0, none, 0, [], none, 1000, 64, none, 0, false, none, none, 1, false, none⟩] })] }).wr (uMac 1) F.mac_PREEMPT_CFG_EN 1).wr (uMac 1) F.mac_PREEMPT_CFG_VERIFY_DIS 1
theorem wit_GatesOfTheSpouts_preempt : preempting.preemptActive 1 = true ∧ (preempting.onWire 1).map (fun e => (e.tc, e.cut, (preempting.nextPoint 1 e (e.start.getD 0)).isSome)) = some (0, none, true) ∧
    (preempting.spoutAt 1).line.any (fun e => decide (6 ≤ e.tc)) = true ∧ running.preemptActive 1 = false ∧
    (running.wr (uMac 1) F.mac_PREEMPT_CFG_EN 1).flag (uMac 1) F.mac_PREEMPT_CFG_EN = true ∧ running.flag (uMac 1) F.mac_PREEMPT_CFG_VERIFY_DIS = false := by decide +kernel
def timeOn : State := (((on running uTime).wr uTime F.time_PORT_CFG_PTP_EN 1 3).wr uTime F.time_PORT_CFG_DOM_MASK 15 3).wr uTime F.time_PORT_STATUS_AS_CAPABLE 1 3
def ptpIn (k : PtpKind) (body : List Byte) (st : Nat) : State := { (timeOn.wr uTime F.time_DOM_STATUS_STATE st 0) with time := {
  rxQ := [⟨3, 500, ptpMessage k 0 0 0 4 9 0 body⟩], ports := [(3, { sent := some 400 })] } }
theorem wit_TimeMessages : timeOn.enabled uTime = true ∧ timeOn.txRoom 3 = true ∧ (timeOn.setTxQueue 3 (List.replicate 4 { port := 3, kind := .announce, domain := 0, data := [] })).txRoom 3 = false ∧ timeOn.syncUnsent 0 3 = false ∧ timeOn.takesPart 0 3 = true ∧
    (((ptpIn .pdelayReq [] 1)).rxFind 3 .pdelayReq (fun _ => true)).isSome = true ∧ ((ptpIn .signaling [] 1).rxFind 3 .signaling (fun _ => true)).isSome = true ∧
    ((ptpIn .announce (List.replicate 30 0#8) 1).rxFind 3 .announce (fun m => m.num == 0)).map (fun m => decide (m.steps < 255)) = some true ∧
    (ptpIn .announce [] 1).domOf 0 = some 0 ∧ ((ptpIn .pdelayReq [] 1).pdelayAt 3).sent = some 400 := by decide +kernel
/-- An Announce of another clock, whatever the device's own identity is. -/
theorem wit_TimeMessages_announce : ∃ m : PtpRx, m.own = false ∧ m.steps < 255 := by
  by_cases h : Config.clockIdentity % 2 ^ 64 = 0
  · refine ⟨⟨3, 500, List.replicate 30 1#8⟩, ?_, by decide +kernel⟩
    unfold PtpRx.own
    dsimp only
    rw [h]
    decide +kernel
  · refine ⟨⟨3, 500, []⟩, ?_, by decide +kernel⟩
    unfold PtpRx.own
    dsimp only
    rw [show (PtpRx.source ⟨3, 500, []⟩) / 2 ^ 16 = 0 by decide +kernel, show pathIds 179 (PtpRx.path ⟨3, 500, []⟩) = [] by decide +kernel]
    simpa using fun e => h e.symm
def masterOf (st : Nat) : State := (timeOn.wr uTime F.time_PORT_ROLE_ROLE_STATE 1 3).wr uTime F.time_DOM_STATUS_STATE st 0
theorem wit_TimeMessages_send : (masterOf domGm).role 0 3 = 1 ∧ (masterOf domGm).domState 0 = domGm ∧ (masterOf domGm).takesPart 0 3 = true := by decide
def late (st : Nat) : State := { (timeOn.wr uTime F.time_DOM_STATUS_STATE st 0).wr uTime F.time_DOM_HOLD_LIMIT 1 0 with clk := { wc := 2 ^ 60 } }
theorem wit_TimeDomains : (running.takes uTime 0x18 = true) ∧ pmGet running.time.cmds 0 = none ∧ (late domLocked).domState 0 = domLocked ∧ (late domLocked).syncLate 0 = true ∧
    (late domHoldover).domState 0 = domHoldover ∧ (late domHoldover).holdLate 0 = true ∧ (late domHoldover).flag uTime F.time_DOM_STATUS_HOLD_EXPIRED 0 = false ∧
    running.syncLate 0 = false ∧ (late domFree).domState 0 = domFree ∧ (late domGm).domState 0 ≠ domFree ∧
    ((late domFree).wr uTime F.time_DOM_STATUS_REFUSED 1 0).flag uTime F.time_DOM_STATUS_REFUSED 0 = true := by decide +kernel
def pinOn : State := (((on running uTsio).wr uTsio F.tsio_TSIN_CFG_EN 1 15).wr uTsio F.tsio_PIN_FUNC_TIME_FN 0xFFFF).wr uTsio F.tsio_TSIN_CFG_EDGE 1 15
theorem wit_PinsAndTransceivers : pinOn.enabled uTsio = true ∧ pinOn.flag uTsio F.tsio_TSIN_CFG_EN 15 = true ∧ pinOn.timePin 15 = true ∧
    bitOf (pinOn.rd uTsio F.tsio_TSIN_CFG_EDGE 15) 0 = true ∧ bitOf (pinOn.rd uTsio F.tsio_TSIN_CFG_EDGE 15) 1 = false ∧ (pinOn.captures 15).length < 16 ∧ pmGet pinOn.time.lastEdge 15 = none ∧
    (running.setCaptures 15 [⟨4, true, 0⟩]).captures 15 = [⟨4, true, 0⟩] ∧ running.captures 15 = [] ∧ running.flag uTsio F.tsio_TSOUT_STATUS_ACTIVE 7 = false := by decide +kernel
def xcvrs : State := { (running.wr uUlis F.ulis_ULIS_STATUS_UP 1).setXcvr 3 0 with edge := { xcvrReq := [3] } }
theorem wit_PinsAndTransceivers_xcvr : xcvrExists 3 = true ∧ xcvrs.safe = false ∧ xcvrs.flag uUlis F.ulis_ULIS_STATUS_UP = true ∧ xcvrs.edge.xcvrReq.contains 3 = true ∧
    (xcvrs.drain 0x18).safe = false ∧ (xcvrs.drain 0x18).flag uUlis F.ulis_ULIS_STATUS_UP = true ∧ xcvrs.xcvr 3 = 0 ∧ xcvrs.cosy.brewRun = true ∧ xcvrs.aonRuns = true ∧ ({ xcvrs with cosy := { power := 1 } } : State).aonRuns = false := by decide +kernel

def canSt (st : Nat) : State := ((on running (uCan 15)).wr (uCan 15) F.can_CAN_STATUS_STATE st).setCan 15 { mode := 1, txq := [{ format := 0, id := 9 * 2 ^ 18 }, { format := 0, id := 4 * 2 ^ 18 }] }
theorem wit_CanNodes : (canSt 2).enabled (uCan 15) = true ∧ (canSt 2).canOn 15 = true ∧ (canSt 1).canState 15 = 1 ∧ (canSt 4).canState 15 = 4 ∧ (canSt 5).canState 15 = 5 ∧
    (canSt 2).canMaySend 15 = true ∧ (canSt 2).safe = false ∧ lowestArb ((canSt 2).canAt 15).txq 0 none = some 1 ∧ (canSt 2).txStopped = false ∧
    (canSt 2).canProtects 15 { format := 0, id := 4 } = false ∧ slotsOf ((canSt 2).canAt 15).rxb + frameSlots { format := 0 } ≤ 64 ∧
    (canSt 2).ringCanFrame 15 { format := 0, id := 2 ^ 18 } = false ∧ (canSt 2).takes (uCan 15) 0x18 = true ∧ (running.wr (uCan 15) F.can_CAN_CFG_BUSOFF_AUTO 0).flag (uCan 15) F.can_CAN_CFG_BUSOFF_AUTO = false ∧
    (running.wr (uCan 15) F.can_CAN_CFG_BUSOFF_AUTO 1).flag (uCan 15) F.can_CAN_CFG_BUSOFF_AUTO = true := by decide +kernel
theorem wit_CanNodes_idle : ((canSt 2).canIdle 15).canMaySend 15 = true ∧ lowestArb (((canSt 2).canIdle 15).canAt 15).txq 0 none = some 1 ∧ ((canSt 2).canIdle 15).txStopped = false ∧
    ((canSt 2).canIdle 15).canProtects 15 { format := 0, id := 4 * 2 ^ 18 } = false ∧ (((canSt 2).setCan 15 { active := some 0, txq := [{ format := 0 }] }).canAt 15).active = some 0 ∧
    (running.wr (uCan 15) F.can_CAN_CFG_ONE_SHOT 1).flag (uCan 15) F.can_CAN_CFG_ONE_SHOT = true ∧ running.flag (uCan 15) F.can_CAN_CFG_ONE_SHOT = false := by decide +kernel
theorem wit_CanNodes_shaper : (canSt 2).canNext 15 = none ∧ ((canSt 2).setOutQ 15 [{ format := 0 }]).canNext 15 = some (none, { format := 0 }) ∧
    (canSt 2).flag (uCan 15) F.can_TX_PCS_CFG_EN = false ∧ ((canSt 2).canAt 15).txq.length < 16 ∧ slotsOf ((canSt 2).canAt 15).txq + frameSlots { format := 0 } ≤ 128 := by decide +kernel
def linSt (role : Nat) (sl : Option LinSlot) : State := (((on running uLin).wr uLin F.lin_LIN_CFG_EN 1 7).wr uLin F.lin_LIN_CFG_ROLE role 7).setLin 7 { slot := sl }
theorem wit_LinSentAndQspi : (linSt 0 none).linOn 7 = true ∧ (linSt 0 none).rd uLin F.lin_LIN_CFG_ROLE 7 = 0 ∧ (linSt 0 none).linDrives 7 = true ∧ (linSt 0 none).txStopped = false ∧
    ((linSt 0 none).linAt 7).stopped = false ∧ (linSt 0 none).linNext 7 0 0 = none ∧ (linSt 1 none).rd uLin F.lin_LIN_CFG_ROLE 7 = 1 ∧
    ((linSt 0 (some ⟨1, 0, false, 2, none⟩)).linAt 7).slot = some ⟨1, 0, false, 2, none⟩ ∧ (linSt 0 (some ⟨1, 0, true, 2, some []⟩)).linHold 7 = false ∧
    ((linSt 0 none).wr uNetm F.netm_NETM_STATUS_PHASE 3).rd uNetm F.netm_NETM_STATUS_PHASE = 3 := by decide +kernel
/-- A SENT channel of a 3 µs tick (its field counts tenths of a microsecond's 56th; the nominal pulse is 56 ticks). -/
def sentSt : State := ((on running uSent).wr uSent F.sent_SENT_CFG_EN 1 7).wr uSent F.sent_SENT_CFG_NIBBLES 6 7
theorem wit_Sent : sentSt.enabled uSent = true ∧ sentSt.flag uSent F.sent_SENT_CFG_EN 7 = true ∧ running.flag uSent F.sent_SENT_CFG_EN 7 = false ∧ (sentSt.sentAt 7).lastSync = none ∧
    sentSt.rd uSent F.sent_SENT_CFG_NIBBLES 7 = 6 ∧ sentSt.flag uSent F.sent_SENT_CFG_PAUSE 7 = false ∧ ((on running uSent).wr uSent F.sent_QSPI_CFG_EN 1 3).flag uSent F.sent_QSPI_CFG_EN 3 = true := by decide +kernel
/-- The pulse of one nibble value (12 ticks and the value) for a calibration pulse of 56 ticks. -/
def pulse (v : Nat) : Nat := 16 * clampNat 120 3600 (sentSt.rd uSent F.sent_SENT_CFG_TICK 7) * (12 + v)
theorem wit_SentMessageAccepted : (List.range 16).all (fun v => sentTicks (pulse 44) (pulse v) == 12 + v) = true ∧
    pulse 44 = 56 * 16 * clampNat 120 3600 (sentSt.rd uSent F.sent_SENT_CFG_TICK 7) := by decide +kernel
def flxSt (st : Nat) : State := ((on running uFlx).wr uFlx F.flx_FLX_STATUS_POC_STATE st).wr uFlx F.flx_FLX_NODE_CHANNELS 1
def segSt (node : Nat) : State := (((on running uT1s).wr uT1s F.t1s_T1S_CFG_EN 1 7).wr uT1s F.t1s_T1S_CFG_NODE_ID node 7).setXcvr 23 0
theorem wit_FlexRayAndT1s : (flxSt 2).enabled uFlx = true ∧ running.enabled uFlx = false ∧ (flxSt 2).poc = 2 ∧ (flxSt 7).poc = 7 ∧ (flxSt 5).poc = 5 ∧ (flxSt 2).takes uFlx 0x18 = true ∧
    (flxSt 5).rd uFlx F.flx_FLX_NODE_CHANNELS = 1 ∧ (segSt 3).segOn 7 = true ∧ ((segSt 3).wr uT1s F.t1s_T1S_CFG_PLCA_EN 0 7).plca 7 = false ∧ (segSt 3).segDrives 7 = true ∧ (segSt 3).segRxUsed 7 + 1522 ≤ 4096 ∧
    ((segSt 3).wr uT1s F.t1s_T1S_CFG_PLCA_EN 1 7).plca 7 = true ∧ ((segSt 0).wr uT1s F.t1s_T1S_CFG_PLCA_EN 1 7).plca 7 = true ∧
    ((segSt 3).wr uT1s F.t1s_T1S_STATUS_PLCA_ACTIVE 1 7).flag uT1s F.t1s_T1S_STATUS_PLCA_ACTIVE 7 = true := by decide +kernel

def engineOn : State := ((on running (uGw 0)).wr (uGw 0) F.gw_ENG_MAP_ACTIVE 1 |>.wr (uGw 0) F.gw_ENG_MAP_LOGICAL 0).wr uGwAny F.gw_BUS_OWNER_OWNER 0 0
def withIn (l : List BusFrame) : State := { engineOn with gw := { engineOn.gw with inQ := [(0, l)] } }
def withEng (x : EngineState) : State := (engineOn.setEngine 0 x).wr (uGw 0) F.unit_TICKJOB_RUNNING 1
theorem wit_GatewayItems : engineOn.engRuns 0 = true ∧ running.engRuns 0 = false ∧ (withIn [{ format := 0 }]).nextItem 0 false = .src 0 ∧ (withIn [{ format := 0 }]).inQ 0 = [{ format := 0 }] ∧
    (withEng { ethIn := [(1, [])] }).nextItem 0 false = .src 38 ∧ (withEng { sb := [(0, true)] }).nextItem 0 false = .sb ∧ engineOn.nextItem 0 true = .mgmt ∧
    (withEng { job := [(0, 1, 8)] }).nextItem 0 false = .sig true ∧ engineOn.takes uLin 0x20 = true := by decide +kernel
theorem wit_GatewayItems_p13 : findIdx1 (fun (p : Nat × List Byte) => !engineOn.stalledClass 13 p.1) [(0, [])] 0 = some (0, (0, [])) ∧
    findIdx1 (fun (d : Delivered) => d.port == 13) running.fab.delivered 0 = none ∧ (withEng {}).avtpOf [] = none := by decide +kernel
theorem wit_GatewayTables : running.takes (uGw 12) 0x18 = true ∧ tblSize 3 = 8192 ∧ running.routeOrdered 0 (running.tblData 0) = true ∧ running.tblFailed 3 8191 = false ∧
    ({ running with upsets := [⟨(tblWord 3 0).1, (tblWord 3 0).2, false⟩] } : State).tblFailed 3 0 = true ∧ running.enabled (uGw 12) = false ∧ engineOn.enabled (uGw 0) = true := by decide +kernel

def ringsOn (ph bbpos : Nat) : State := (((on running uNetm).wr uNetm F.netm_NETM_CFG_EN 1).wr uNetm F.netm_NETM_STATUS_PHASE ph).wr uNetm F.netm_NETM_CFG_BB_POS bbpos |>.wr uNetm F.netm_NETM_CFG_BB_EN 1 |>.wr uNetm F.netm_NETM_CFG_BB_COUNT 5
def ringSt (ph bbpos : Nat) (x : RingState) (t : Nat) : State := { (ringsOn ph bbpos).setRing 0 x with netm := { ((ringsOn ph bbpos).setRing 0 x).netm with timer := t } }
theorem wit_RingMessages : (ringSt 0 0 {} 0).roundsAt 0 = true ∧ ((ringSt 0 0 {} 0).ring 0).fresh = true ∧ ((ringSt 0 0 { waiting := true, since := 70000 } 0).ring 0).waiting = true ∧
    max 1 ((ringsOn 0 0).rd uNetm F.netm_NETM_TIMING_TOKEN_TIMEOUT) ≤ 70000 ∧ running.roundsAt 0 = false ∧ (ringSt 0 3 {} 0).ringRuns 0 = true ∧ running.ringRuns 0 = false ∧
    (ringSt 0 3 {} 0).tokenFits 0 ⟨(ringsOn 0 3).ringId 0, 2, 5, true, 0, 0⟩ = true ∧ (ringSt 0 3 {} 0).tokenFits 0 ⟨(ringsOn 0 3).ringId 0, 1, 5, true, 0, 0⟩ = false ∧
    (ringSt phAwake 3 {} 0).phase = phAwake ∧ (ringSt phAgreed 3 {} 0).followsIn 0 phAgreed = true ∧ (ringSt phDraining 3 {} 0).followsIn 0 phDraining = true ∧
    (ringSt phAwake 3 {} 0).followsIn 0 phAwake = true ∧ (ringSt phAgreed 0 {} 70000).drives = true ∧ (ringSt phAgreed 3 {} 70000).drives = false ∧
    max 1 ((ringsOn 0 0).rd uNetm F.netm_NETM_TIMING_AGREE_TICKS) + max 1 ((ringsOn 0 0).rd uNetm F.netm_NETM_TIMING_TOKEN_TIMEOUT) ≤ 140000 := by decide +kernel
def cosySt (c : CosyState) : State := { running with cosy := c }
theorem wit_SleepAndWake : running.cosy.commitReq = false ∧ (cosySt { power := pwActive, commitReq := true, committed := true }).maySleep = true ∧
    (cosySt { power := pwActive }).cosy.latched = false ∧
    bitOf ((running.wr uCosy F.cosy_WAKE_CFG_PIN_EN 15).rd uCosy F.cosy_WAKE_CFG_PIN_EN) 3 = true ∧ (cosySt { wakePins := 0 }).pinActive 3 ≠ (cosySt { wakePins := 15 }).pinActive 3 ∧
    bitOf ((running.wr uCosy F.cosy_WAKE_CFG_WUP_EN 128).rd uCosy F.cosy_WAKE_CFG_WUP_EN) 7 = true ∧ bitOf ((running.wr uCosy F.cosy_WAKE_CFG_WUP_EN 0).rd uCosy F.cosy_WAKE_CFG_WUP_EN) 7 = false ∧
    bitOf ((running.wr uCosy F.cosy_WAKE_CFG_LWAKE_EN 8).rd uCosy F.cosy_WAKE_CFG_LWAKE_EN) 3 = true ∧ running.takes uNetm 0x18 = true := by decide +kernel
def swfSt (en : Nat) : State := ((cosySt { power := 2, armed := true }).wr uCosy F.cosy_SW_CFG_EN 1 7).wr uCosy F.cosy_SWF_CTRL_EN en 7 3
theorem wit_SleepAndWake_filter : (swfSt 1).flag uCosy F.cosy_SW_CFG_EN 7 = true ∧ (swfSt 1).rd uCosy F.cosy_SW_CFG_ERR_CNT 7 ≠ 31 ∧
    ((swfSt 1).wr uCosy F.cosy_SW_CFG_ERR_CNT 31 7).rd uCosy F.cosy_SW_CFG_ERR_CNT 7 = 31 ∧
    [0, 1, 2, 3].find? (fun k => (swfSt 1).swfMatch 7 k { format := 0 }) = some 3 ∧ [0, 1, 2, 3].find? (fun k => (swfSt 0).swfMatch 7 k { format := 0 }) = none := by decide +kernel

def KH : Nat := 0xb3d283416a8e6401d39a988f2e469a12968dc63c4387a3f2c67338ad14a1e6d0
def essH : HeadIn := ⟨true, (beBytes 256 0x4e54494d010100004872020000000060000000070001000000000000000000000000000000000000000000000000000000000000000000000000000000000000471c3e758c4904285bba7e53118ed0f524adeb0757d25bd2f8e7b0d76dfa714cdd520f7aca8a8b917acc37f51de8f0c9bbe3ad858382e702dc25a12d09f7a858000000000000000000000000000000000000000000000000000000000000000000000000000000000000000000000000000000000000000000000000000000005a19571ad54d7c939433db511028b8eb49adb424df953bd3dd1379c44a85a21c6993bf80079f423d0a6d053ae5f087925b0cb47429935a5cd546d00902b57c2e), (beBytes 32 0xa263c25c1e3febe7fbb5273b79cd1039d3a6b18e8fa4bc90d3729d4fd548d2eb)⟩
def essB : BlockIn := { data := (beBytes 96 0x000b02000000000400000006000000000000000100000000000000000000000000340200000000100000000800000005000000000000123400000000000000010042010000000008000000000000000000000100000000010000000000000000) }
def manH : HeadIn := ⟨true, (beBytes 256 0x4e544d46010000084872000000000007000000000000000000000000000000000000000000000000000000000000000000000000000000000000000000000000471c3e758c4904285bba7e53118ed0f524adeb0757d25bd2f8e7b0d76dfa714cdd520f7aca8a8b917acc37f51de8f0c9bbe3ad858382e702dc25a12d09f7a858000000000000000000000000000000000000000000000000000000000000000000000000000000000000000000000000000000000000000000000000000000005a19571ad54d7c939433db511028b8eb49adb424df953bd3dd1379c44a85a21cc053d86d0651d449d7d80771e296b75df45ec8b07eaf3325d672b805d11351af), (beBytes 384 0x010000000000000000000000000000000000000000000000000000000000000000000000000000000000000000000000020000000000000000000000000000000000000000000000000000000000000000000000000000000000000000000000030000000000000000000000000000000000000000000000000000000000000000000000000000000000000000000000040000000000000000000000000000000000000000000000000000000000000000000000000000000000000000000000050000000000000000000000000000000000000000000000000000000000000000000000000000000000000000000000060000000000000000000000000000000000000000000000000000000000000000000000000000000000000000000000070000000000000000000000000000000000000000000000000000000000000000000000000000000000000000000000080000000000000000000000000000000000000000000000000000000000000000000000000000000000000000000000)⟩
def dbgR : Nat := 0x5a19571ad54d7c939433db511028b8eb49adb424df953bd3dd1379c44a85a21c
def dbgS : Nat := 0xcbe209f5fadba6f14fac55e0eadf32a2cc05a3ec031a04d93cb604030fe59703
def pubX : Nat := 0x471c3e758c4904285bba7e53118ed0f524adeb0757d25bd2f8e7b0d76dfa714c
def pubY : Nat := 0xdd520f7aca8a8b917acc37f51de8f0c9bbe3ad858382e702dc25a12d09f7a858
def powerSt (p : Nat) (run inh pg : Bool) : State := ({ running with cosy := { power := p, brewRun := run, brewPor := false } }.wr uCosy F.cosy_PWR_STATUS_INH (b2n inh)).wr uCosy F.cosy_PWR_STATUS_PMIC_PG (b2n pg)
theorem wit_PowerStates : (powerSt pwReady false true false).cosy.power = pwReady ∧ (powerSt pwReady false true false).pgHigh = false ∧ (powerSt pwReady true true true).pgHigh = true ∧
    (powerSt pwReady false true false).flag uCosy F.cosy_PWR_STATUS_INH = true ∧ max 1 ((powerSt pwReady false true false).rd uCosy F.cosy_PWR_CFG_PG_RETRIES) ≤ 255 ∧
    ((powerSt pwReady true true true).wr uCosy F.cosy_PWR_STATUS_PMIC_PG 0).cosy.brewRun = true ∧ (running.wr uCosy F.cosy_PWR_STATUS_RST_N 1).flag uCosy F.cosy_PWR_STATUS_RST_N = true ∧
    (running.wr uUlis F.ulis_ULIS_STATUS_UP 1).flag uUlis F.ulis_ULIS_STATUS_UP = true ∧ running.cosy.power = pwActive ∧ running.aonRuns = true ∧
    (running.wr uCosy F.cosy_PWR_CFG_X32_EN 1).flag uCosy F.cosy_PWR_CFG_X32_EN = true := by decide +kernel
theorem wit_PowerStates_forceSleep : ((running.wr uUlis F.ulis_ULIS_STATUS_UP 1).drain 1).flag uUlis F.ulis_ULIS_STATUS_UP = true ∧
    ((running.wr uUlis F.ulis_ULIS_STATUS_UP 1).drain 1).cosy.power = pwActive ∧ ((running.wr uUlis F.ulis_ULIS_STATUS_UP 1).drain 1).cosy.committed = false := by decide +kernel
def bootAt (st : Nat) : State := { running with kettle := { stage := st, keys := [(0, KH)], digests := [beNat (sha256 essB.data)], bodyLen := 96, version := 6 } }
theorem wit_StartOfTheDevice : (bootAt stManifest).manifestReason ⟨false, [], []⟩ ≠ 0 ∧ (bootAt stEssHead).headReason 1 ⟨false, [], []⟩ ≠ 0 ∧
    (bootAt stEssBody).kettle.stage = stEssBody ∧ ([] : List Byte).length ≠ min 65536 ((bootAt stEssBody).kettle.bodyLen - 0) := by decide
theorem wit_StartOfTheDevice_manifest : (bootAt stManifest).manifestReason manH = 0 := by decide +kernel
theorem wit_StartOfTheDevice_head : (bootAt stEssHead).headReason 1 essH = 0 := by decide +kernel
theorem wit_StartOfTheDevice_version : ((bootAt stEssHead).wr uCosy F.cosy_SLOT_RET_TRIAL 1).versionOk 7 = false := by decide +kernel
theorem wit_StartOfTheDevice_block : essB.data.length = min 65536 ((bootAt stEssBody).kettle.bodyLen - 0) ∧ (((bootAt stEssBody).setKettle { (bootAt stEssBody).kettle with buf := essB.data, next := 1 }).loadSections true 97).1 = true := by decide +kernel

def toHand : State := { (on running uTick).wr uTriad F.triad_TRIAD_STATUS_READY 1 with kettle := { stage := stPriDone, timeReady := true } }
theorem wit_StartOfTheDevice_handOver : toHand.handOverDue = true ∧
    ({ toHand with kettle := { stage := stPriDone } } : State).handOverDue = false ∧
    ({ toHand with kettle := { stage := stHanded, lanes := true } } : State).kettle.lanes = true := by decide +kernel
def updSt (st : Nat) : State := running.wr uKettle F.kettle_UPD_STATUS_STATE st
theorem wit_UpdateCommands : running.takes uKettle 0x18 = true ∧ running.revokeBarred 2 = true ∧
    ({ running with otp := { signHash := [(2, 5)] } } : State).liveKeys = [2] ∧ ({ running with otp := { signHash := [(1, 4), (2, 5)] } } : State).revokeBarred 2 = false ∧
    running.armCause 0 ≠ 0 ∧ (updSt 1).updState < 2 ∧ (updSt 2).updState = 2 ∧ (updSt 1).activationDue = true ∧ (updSt 0).activationDue = false ∧
    ((running.wr uTime F.time_DOM_STATUS_STATE 1 0).wr uKettle F.kettle_UPD_TIME_SEC_SEC 5).armCause 0x9E12 = 0 ∧
    ({ running with kettle := { stage := stFbHead } } : State).fallback = true ∧ running.fallback = false := by decide +kernel
def triadIn (md : Nat) : State := (on running uTriad).wr uTriad F.triad_TRIAD_STATUS_MODE md
theorem wit_TriadAndMailboxes : (triadIn mdTriple).triadRuns = true ∧ running.triadRuns = false ∧ ((triadIn mdTriple).vote ⟨0, [1, 1, 1], [], false, .read 0⟩).1 = some 0x10 ∧
    ((triadIn mdTriple).vote ⟨0, [1, 2, 3], [], false, .read 0⟩).1 = none ∧ (triadIn mdBypass).triadMode = mdBypass ∧ (triadIn mdTriple).triadHeld = false ∧
    (bitsOf 3 (maskOf ((triadIn mdTriple).running.filter (fun n => bitOf 1 n || false)))).length = 1 ∧ (bitsOf 3 (maskOf ((triadIn mdTriple).running.filter (fun n => bitOf 3 n || false)))).length = 2 ∧
    ({ triadIn mdTriple with kettle := { stage := stComplete } } : State).takes uTriad 1 = true ∧ (triadIn mdTriple).mbState 1 = 0 ∧ mbOwner 1 = 1 ∧ serviceKnown 1 = true ∧ running.debugOpen = false ∧
    (running.wr uCaddy F.caddy_LC_STATUS_DBG 1).debugOpen = true := by decide +kernel
/-- A triad with event 9 latched by its core 0, mailbox 1's request in line, and a resynchronisation if said so. -/
def triadEv (resync : Nat) : State := { (triadIn mdTriple).wr uTriad F.triad_TRIAD_STATUS_RESYNC resync with triad := { latched := [(9, 1, 2)], requests := [(1, [0x00010000])], served := [1] } }
theorem wit_TriadAndMailboxes_events : (triadEv 0).triadUp = true ∧ (triadEv 1).triadRuns = false ∧ (triadEv 1).triadUp = true ∧ writeBack (.sramWrite 0 0) = true ∧ writeBack (.read 0) = false ∧
    (agreeOfferExpiryStep 9 (triadEv 0)).triad.latched.find? (fun e => e.1 == 9) = some (9, 1, 2) ∧ (agreeOfferExpiryStep 8 (triadEv 0)).triad.latched.find? (fun e => e.1 == 8) = none ∧
    (bitsOf 3 (maskOf ((agreeOfferExpiryStep 9 (triadEv 0)).running.filter (fun n => bitOf 2 n || bitOf 1 n)))).length = 2 ∧
    (triadEv 0).triad.served = [1] ∧ (triadEv 0).triadRuns = true ∧ nbits ((triadEv 0).mbHead 1) 16 16 = 1 ∧ (triadEv 0).serviceBarred 1 1 = false := by decide +kernel

def episode : State := (running.wr uSaucer F.saucer_EPISODE_OPEN 1).wr uSaucer F.saucer_EPISODE_GRACE_COUNT 1000
theorem wit_SaucerLadder : nextReport running.reports = none ∧ (nextReport (running.fire (uCan 3) 0).reports).isSome = true ∧ episode.episodeOpen = true ∧ episode.episodeStep < 2 ∧
    2 * (episode.wr uSaucer F.saucer_CFG_GRACE 500).holdGrace.saucer.grace ≤ (episode.wr uSaucer F.saucer_CFG_GRACE 500).holdGrace.graceCount ∧ running.upsets = [] ∧
    655360000000 ≤ (({ running with clk := { wc := 2 ^ 60 } } : State).clk.wc + 2 ^ 80 - running.cosy.tickAt) % 2 ^ 80 ∧ (running.clk.wc + 2 ^ 80 - running.cosy.tickAt) % 2 ^ 80 < 655360000000 ∧ running.takes uSaucer 1 = true ∧ running.takes uSaucer 0x10 = true ∧
    (episode.wr uSaucer F.saucer_EPISODE_HOST_ONLY 1).flag uSaucer F.saucer_EPISODE_HOST_ONLY = true ∧ running.episodeOpen = false := by decide +kernel
def jobIn (op : Nat) : State := { (((on running uCrypt).wr uCrypt F.crypt_DESC_W0_W (op * 2 ^ 24) 3 0).wr uCrypt F.crypt_DESC_W4_W 32 3 0) with sec := { running := some 3 } }
theorem wit_KeysAndJobs : booted.takes uCaddy 8 = true ∧ keySet 8 = some 1 ∧ keySet 2 = none ∧ running.barred uCaddy 2 = true ∧ running.takes uCaddy 0x18 = true ∧ keySet 0x18 = none ∧
    running.keyOps = true ∧ running.alarmActive = false ∧ (running.wr uCaddy F.caddy_ALARM_STATUS_ACTIVE 1).alarmActive = true ∧ running.keyReg 1 8 < 128 ∧ (running.setKeyReg 1 8 200).keyReg 1 8 ≥ 128 ∧
    ringOwner 3 0x18 = true ∧ running.takes uCrypt 0x18 = true ∧ running.ringHead 3 = 0 ∧ (jobIn 7).desc 3 ((jobIn 7).ringHead 3) = ⟨7, 0, 0, 0, 0, 0, 0, 0, 0, 0, 0, 32, 0⟩ ∧
    ((jobIn 7).desc 3 0).argsOk = true ∧ ((jobIn 1).desc 3 0).argsOk = false ∧ (jobIn 7).enabled uCrypt = true ∧ (jobIn 7).keyOps = true ∧ (jobIn 7).alarmActive = false := by decide +kernel
theorem wit_KeysAndJobs_busy : running.sec.busySets.contains 1 = false ∧ (running.keyBusy 1).sec.busySets.contains 1 = true := by decide
theorem wit_KeysAndJobs_args : ([3, 4, 5, 6].all (fun op => (Desc.mk op 1 0 0 0 0 0 0 0 0 0 (auxBytes op) 0).argsOk)) = true ∧ (Desc.mk 8 0 0 0 0 0 0 0 0 0 0 128 0).argsOk = true ∧
    (Desc.mk 1 1 0 0 0 0 0 0 0 0 0 28 0).argsOk = true ∧ (Desc.mk 9 1 1 0 0 0 0 0 0 0 0 0 0).argsOk = true ∧ (Desc.mk 10 0 0 0 0 0 0 0 0 1 0 0 0).argsOk = true ∧
    (Desc.mk 12 0 1 0 0 80 0 0 0 0 0 0 0).argsOk = true ∧ (Desc.mk 13 1 0 0 0 0 0 0 0 80 0 0 0).argsOk = true := by decide +kernel

theorem wit_Associations : saOk 11 (some 7) 3 = true ∧ running.takes (uMac 11) 0x18 = true ∧ running.saValid 11 none 3 = false ∧ (running.setSaValid 11 none 3 1).saValid 11 none 3 = true ∧
    running.armed uCrypt 1 = false ∧ running.alarmActive = false ∧ running.sec.drbg = none ∧ 3 ≤ running.cosy.power ∧ running.cosy.brewRun = true ∧ (keySet 0x10).isSome = true ∧
    running.takes uCaddy 0x10 = true := by decide +kernel
theorem wit_Associations_key : (({ running with sec := { slots := [(5, ⟨1, 8 + useMacsec * 0 + 0x21, 0, 0, 0⟩)] } } : State).fetchKey 0 9 attrEncrypt useMacsec none).1 = none := by decide +kernel
theorem wit_LifeCycle : running.progSignOk 2 = true ∧ running.progFbOk = true ∧ running.progDbgOk = true ∧
    ({ running with otp := { secret := some 1, fbHash := some 1, signHash := [(0, 1)] } } : State).advanceOk = true ∧ running.safe = false := by decide +kernel
theorem wit_LifeCycle_busy : running.flag uCaddy F.caddy_LC_CMD_BUSY = false ∧ (running.wr uCaddy F.caddy_LC_CMD_BUSY 1).flag uCaddy F.caddy_LC_CMD_BUSY = true ∧
    running.sec.challenge = none ∧ ({ running with sec := { challenge := some 0 } } : State).sec.challenge = some 0 ∧
    bitOf ((running.wr uCaddy F.caddy_ALARM_STATUS_PRESENT 8).rd uCaddy F.caddy_ALARM_STATUS_PRESENT) 3 = true ∧ bitOf (running.rd uCaddy F.caddy_ALARM_STATUS_PRESENT) 3 = false := by decide +kernel
theorem wit_LifeCycle_debug : ecdsaOk (beNat (sha256 (beBytes 32 0 ++ beBytes 16 0 ++ [2#8]))) pubX pubY dbgR dbgS = true := by decide +kernel
theorem wit_HostPorts : (List.range 80).find? (fun i => running.txReady ((running.host.txNext + i) % 80 / 16) ((running.host.txNext + i) % 80 % 16)) = none ∧
    running.flag uUlis F.ulis_ULIS_STATUS_UP = false ∧ running.otp.linkSecret.isNone = true ∧ running.cosy.brewStarted = true ∧
    findIdx1 (fun (d : Delivered) => d.port == 14) running.fab.delivered 0 = none := by decide +kernel
def withCfg (c : PcieCfg) : State := { running with host := { cfg := [(0, c)] } }
theorem wit_HostPorts_served : (running.fnServed 0) = true ∧ (running.fnServed 1) = false ∧ (withCfg { vfEnable := true, numVfs := 2 }).fnServed 2 = true ∧ (withCfg { d3hot := true }).fnServed 0 = false ∧
    (withCfg { vfEnable := true }).vfsEnd.readData = 0 ∧ ((running.fnCfg 0).vfEnable) = false := by decide +kernel
theorem wit_HostPorts_mspi : running.mspiBegin.mspiBusy = false ∧ ({ running with host := { reads := [⟨8, 0, true, .lost⟩] } } : State).mspiBusy = true ∧
    running.safe = false ∧ (running.wr uUlis F.ulis_ULIS_STATUS_UP 1).flag uUlis F.ulis_ULIS_STATUS_UP = true := by decide +kernel
def fnOn : State := { ((((on running (uFn 0)).wr (uFn 0) F.fn_FN_CTRL_DMA_EN 1).wr uPcie F.pcie_LINK_STATUS_UP 1).wr (uFn 0) F.fn_RING_CFG_EN 1 3).wr (uFn 0) F.fn_RING_TAIL_TAIL 1 3 with host := { bme := 1 } }
theorem wit_HostPorts_tx : (List.range 80).find? (fun i => fnOn.txReady ((fnOn.host.txNext + i) % 80 / 16) ((fnOn.host.txNext + i) % 80 % 16)) = some 3 := by decide +kernel


/-! ### Published test vectors (FIPS 180-4, FIPS 197, the GCM specification, catalogue check values) -/

theorem test_sha256_abc : beNat (sha256 [0x61#8, 0x62#8, 0x63#8]) = 0xba7816bf8f01cfea414140de5dae2223b00361a396177a9cb410ff61f20015ad := by
  decide +kernel

theorem test_aes256_fips197 : aesBlock (roundKeys true 0x000102030405060708090a0b0c0d0e0f101112131415161718191a1b1c1d1e1f)
    0x00112233445566778899aabbccddeeff = 0x8ea2b7ca516745bfeafc49904b496089 := by decide +kernel

theorem test_gcm_case_2 : gcm (roundKeys false 0) 0 [] (beBytes 16 0) false =
    (beBytes 16 0x0388dace60b6a392f328c2b971b2fe78, 0xab6e47d42cec13bdf53a67b21257bddf) := by decide +kernel

theorem test_crc_check_values : crc32 (beBytes 9 0x313233343536373839) = 0xCBF43926 ∧ crc32c (beBytes 9 0x313233343536373839) = 0xE3069283 ∧
    crc8 (beBytes 9 0x313233343536373839) = 0xDF := by decide +kernel

/-- Protected identifiers of the LIN diagnostic frames. -/
theorem test_lin_pid : linPid 0x3C = 0x3C ∧ linPid 0x3D = 0x7D := by decide

/-! ### The worked examples of the spec -/

/-- Table 4.11: the buckets of meter 17 and the colours of six keys; the sixth leaves them as they are. -/
theorem test_meter_example_4_1 : meterMark ⟨32, 64⟩ false 0 = (0, ⟨16, 48⟩) ∧ meterMark ⟨18, 52⟩ false 0 = (0, ⟨2, 36⟩) ∧
    meterMark ⟨4, 40⟩ false 0 = (1, ⟨4, 24⟩) ∧ meterMark ⟨6, 28⟩ false 0 = (1, ⟨6, 12⟩) ∧ meterMark ⟨8, 16⟩ false 0 = (1, ⟨8, 0⟩) ∧
    meterMark ⟨10, 4⟩ false 0 = (2, ⟨10, 4⟩) := by decide

/-- Example 6.1: the operational list of two entries over 100,000 ns. -/
def gates61 : GateState :=
  { list0 := [(0, 0xC0 * 2 ^ 48 + 1250), (1, 0x3F * 2 ^ 48 + 11250)], oper := some ⟨0, 100000, 0, 2⟩, entry := 1, entryEnd := 100000 }

/-- Example 6.1: TC0 closes at the cycle's end, TC6 opens there and closes at 110,000 ns; from entry 0 TC0 is next closed at once. -/
theorem test_close_example_6_1 : gates61.close 0 98700 0 = some 100000 ∧ { gates61 with cycleStart := 100000, entry := 0 }.close 6 100000 0 = some 110000 ∧
    { gates61 with cycleStart := 100000 }.close 0 110000 0 = some 200000 := by decide +kernel

/-- Example 7.1: with the reset tick of 125 µs a correction is 1,953.125 ns at most, so the 20th is the last 293.625 ns. -/
theorem test_tick_example_7_1 : State.reset.tickP = 125000 * 2 ^ 64 ∧ State.reset.tickAdj (37403 * 2 ^ 64) * 1000 = 1953125 * 2 ^ 64 ∧
    State.reset.tickAdj (37403 * 2 ^ 64 - 19 * (State.reset.tickP / 64)) * 1000 = 293625 * 2 ^ 64 := by decide +kernel

/-- Example 8.1: both bit timings stand; the data one with TSEG2 of one quantum does not. -/
theorem test_bit_timing_example_8_1 : bitTimingOk (BitVec.ofNat 32 (3 * 2 ^ 24 + 62 * 2 ^ 16 + 15 * 2 ^ 9 + 15 * 4)) false = true ∧
    bitTimingOk (BitVec.ofNat 32 (10 * 2 ^ 16 + 3 * 2 ^ 9)) true = true ∧ bitTimingOk (BitVec.ofNat 32 (10 * 2 ^ 16)) true = false := by decide +kernel

/-! ### Single commands -/

/-- An ACK error of the transmitter counts in ACK_ERR and LEC, and adds 8 to TEC (8.5). -/
theorem test_can_ack_error : (after (canSt 2) (.canError 15 ⟨3, true, false, false⟩)).rd (uCan 15) F.can_CAN_STATUS_TEC = 8 ∧
    (after (canSt 2) (.canError 15 ⟨3, true, false, false⟩)).rd (uCan 15) F.can_CAN_STATUS_LEC = 3 ∧
    (after (canSt 2) (.canError 15 ⟨3, true, false, false⟩)).rd (uCan 15) F.can_ACK_ERR = 1 := by decide +kernel

/-- VBAT and VBAT_MIN follow a measurement; VBAT_MIN keeps the lower one (Table 11.9). -/
theorem test_vbat : (after (after running (.vbatMeasurement 600)) (.vbatMeasurement 700)).rd uCosy F.cosy_PWR_STATUS_VBAT = 700 ∧
    (after (after running (.vbatMeasurement 600)) (.vbatMeasurement 700)).rd uCosy F.cosy_VBAT_MIN_MIN = 600 := by decide +kernel

/-- SNAP_CTRL captures WC: 2^40 ns show as 256 in the high word (Table 7.6). -/
theorem test_snapshot : ({ booted with clk := { wc := 2 ^ 56 } } : State).rd uTime F.time_SNAP_HI_VALUE 0 = 0 ∧
    (after { booted with clk := { wc := 2 ^ 56 } } (.snapshotTake 8)).rd uTime F.time_SNAP_HI_VALUE 0 = 256 := by decide +kernel

/-- Example 7.1 after step 5: TD0 in HOLDOVER with a refused offset of 37,403 ns under SEQ 2. -/
def refused71 : State := (((booted.wr uTime F.time_DOM_STATUS_STATE domHoldover 0).wr uTime F.time_DOM_STATUS_REFUSED 1 0).wr uTime F.time_REC_SEQ_SEQ 2 0).wr uTime
  F.time_REC_OFS_LO_NS 37403 0

/-- Example 7.1, steps 6 and 8: ACCEPT with SEQ 1 is STALE and changes no time; with SEQ 2 it steps TD0 forward by 37,403 ns. -/
theorem test_accept_example_7_1 : ((domAcceptStep 0 1 refused71).dom 0).time = (refused71.dom 0).time ∧
    ((domAcceptStep 0 2 refused71).dom 0).time = (refused71.dom 0).time + 37403 * 2 ^ 47 ∧
    (domAcceptStep 0 2 refused71).domState 0 = domLocked := by decide +kernel

/-- A lookup in an empty table finds nothing; an inserted key is found (Table 3.7). -/
theorem test_fdb_insert_lookup : ((fdbLookupRun true (keyed 0x51)).pipe true).cmdStatus = fdbNotFound ∧
    ((fdbLookupRun true (fdbInsertRun true (keyed 0x51))).pipe true).cmdStatus = fdbOk := by decide +kernel

/-- The write of a read-only word changes no register of its unit (R8). -/
theorem test_read_only : (after booted (.registerWrite 0 0xFFFFFFFF 8)).word 0 = booted.word 0 := by decide +kernel

end Sys2Proof.Tests
end

/-! PROOFS. How a register is written, committed and read (chapter 0: R8, R9, R431, R433; R39, R397 to R402). The commands of the
access kinds answer with the operations of HostWrite.lean, Commit.lean and Registers.lean, so that each obligation is a law of one
of those operations. -/

namespace Sys2Proof.Machine

/-! ### The commands and their operations -/

theorem exec_registerWrite (a : Nat) (v : Word) (m : Nat) (s : State) :
    exec (.registerWrite a v m) s = .next (s.regWrite m a v) := rfl

theorem exec_readClear (a m : Nat) (s : State) : exec (.readClear a m) s = .next (s.regReadTo m a) := rfl

theorem exec_latchingRead (a m : Nat) (s : State) : exec (.latchingRead a m) s = .next (s.regReadTo m a) := rfl

/-! ### A write that its unit takes -/

/-- A write to the Brew die by a master that nothing bars reaches its unit. -/
theorem State.regWrite_brew {s : State} {m a : Nat} (d : s.debugBarred m = false) (h4 : a % 4 = 0) (hl : a < 2 ^ 32)
    (hv : s.vfBarred m = false) (hc : cosyAddr a = false) (v : Word) : s.regWrite m a v = s.writeAt m a v := by
  have hok : ¬ (a % 4 ≠ 0 ∨ 2 ^ 32 ≤ a ∨ s.vfBarred m = true) := by
    rintro (h | h | h)
    · exact h h4
    · exact absurd h (Nat.not_le.2 hl)
    · simp [hv] at h
  unfold State.regWrite
  rw [d, if_neg Bool.false_ne_true, if_neg hok, hc, if_neg Bool.false_ne_true]

/-- A register beyond the unit frame whose write starts no command is written by its access kinds. -/
theorem State.writeAt_plain {s : State} {m a : Nat} {v : Word} {f : Found} (hf : findReg a = some f)
    (hb : s.barred f.unit m = false) (ho : ownedBy m f = true) (hoff : 0x40 ≤ f.off) (hcmd : s.commandWrite m f a v = none)
    (hk : ¬ (m = 0x18 ∧ s.enabled f.unit = false)) : s.writeAt m a v = s.plainWrite m f a v := by
  have hserved : ¬ (s.barred f.unit m = true ∨ (!ownedBy m f) = true) := by simp [hb, ho]
  have hkettle : ¬ (m = 0x18 ∧ (!s.enabled f.unit) = true) := by simpa using hk
  unfold State.writeAt
  simp only [hf, hcmd]
  rw [if_neg hserved, if_neg (Nat.not_lt.2 hoff), if_neg hkettle]

/-- Settles O10: the write reaches its unit, starts no command, and is taken field by field (`State.plainWrite_spec`). -/
theorem registerWriteByAccessKind : Obligations.RegisterWriteByAccessKind := by
  unfold Obligations.RegisterWriteByAccessKind
  intro s a m v f hd h4 hl hc hf hb ho hoff hcmd hk hr
  obtain ⟨r, hw, htaken⟩ := s.plainWrite_spec m f a v hf hr
  refine ⟨r, ?_, htaken⟩
  rw [exec_registerWrite, State.regWrite_brew hd h4 hl (State.vfBarred_of_barred hb) hc,
    State.writeAt_plain hf hb ho hoff hcmd hk, hw]

/-! ### The commit of a unit -/

/-- The kinds of units whose commit sets nothing else off. -/
def plainCommitKinds : List UKind := [.saucer, .triad, .mac, .gw, .flx]

theorem mem_plainCommitKinds (k : UKind) :
    k ∈ plainCommitKinds ↔ k = .saucer ∨ k = .triad ∨ k = .mac ∨ k = .gw ∨ k = .flx := by
  simp [plainCommitKinds]

/-- A commit of such a unit does nothing beyond its registers. -/
theorem State.committed_plain (s s0 : State) (u : UnitNo) (es : List Staged) (h : kindOf u ∈ plainCommitKinds) :
    s.committed s0 u es = s := by
  unfold State.committed
  rcases (mem_plainCommitKinds _).1 h with hk | hk | hk | hk | hk <;> simp only [hk]

/-- What such a unit refuses depends on the staged write alone: only an infuser refuses any, a buffer past its memory (R433). -/
theorem State.refusedBits_plain (s t : State) (u : UnitNo) (es : List Staged) (e : Staged) (h : kindOf u ∈ plainCommitKinds) :
    s.refusedBits u es e = t.refusedBits u es e := by
  unfold State.refusedBits
  rcases (mem_plainCommitKinds _).1 h with hk | hk | hk | hk | hk <;> simp only [hk]

theorem without_zero (w : Word) : without w 0 = w := by
  unfold without
  exact BitVec.and_allOnes

/-- A staged write of which nothing is refused gives its register the staged RWS bits. -/
theorem State.commitEntry_taken (s s0 : State) (u : UnitNo) (es : List Staged) (e : Staged) (h : s0.refusedBits u es e = 0) :
    s.commitEntry u es s0 e = s.setWord e.addr (merge (s.word e.addr) e.value (stagedMask e.addr)) := by
  unfold State.commitEntry
  rw [h, without_zero]

theorem State.commitRefusals_nil (s : State) (u : UnitNo) : s.commitRefusals u [] = s := rfl

/-- One staged write of which nothing is refused, committed by a unit whose commit sets nothing else off. -/
theorem State.commitList_one (s : State) (u : UnitNo) (e : Staged) (hk : kindOf u ∈ plainCommitKinds)
    (h : s.refusedBits u [e] e = 0) :
    s.commitList u [e] = s.setWord e.addr (merge (s.word e.addr) e.value (stagedMask e.addr)) := by
  have hspout : ¬ (kindOf u = .spout ∧ instOf u < 12) := by
    rintro ⟨hs, -⟩
    simp [hs, mem_plainCommitKinds] at hk
  have hbad : [e].filter (fun x => s.refusedBits u [e] x != 0) = [] := by simp [h]
  unfold State.commitList
  rw [if_neg hspout]
  dsimp only [List.foldl_cons, List.foldl_nil]
  rw [hbad, State.commitRefusals_nil, State.committed_plain _ _ _ _ hk, State.commitEntry_taken _ _ _ _ _ h]

/-- A unit without a staged write does nothing at its commit. -/
theorem State.commitUnit_none (s : State) (u : UnitNo) (h : s.staged.filter (fun e => e.unit == u) = []) : s.commitUnit u = s := by
  unfold State.commitUnit
  simp [h]

/-- A unit with one staged write, of which nothing is refused and which has RWS bits: it is committed, and LAST_TICK noted (R402). -/
theorem State.commitUnit_one (s : State) (u : UnitNo) (e : Staged) (h : s.staged.filter (fun e => e.unit == u) = [e])
    (hr : s.refusedBits u [e] e = 0) (hm : stagedMask e.addr ≠ 0#32) :
    s.commitUnit u = (State.commitList { s with staged := s.staged.filter (fun e => e.unit != u) } u [e]).wr u
      F.unit_COMMIT_LAST_TICK (s.rd uTick F.tick_COUNT_COUNT % 65536) := by
  unfold State.commitUnit
  simp [h, hr, without_zero, hm]

/-- Settles O19: with one staged write the commit is the write of its RWS bits (`State.commitList_one`). -/
theorem commitTakesStagedWrites : Obligations.CommitTakesStagedWrites := by
  unfold Obligations.CommitTakesStagedWrites
  refine fun s u => ⟨s.commitUnit_none u, fun e hone hk hr hm => ?_⟩
  generalize hq : ({ s with staged := s.staged.filter (fun e => e.unit != u) } : State) = q
  have hrq : q.refusedBits u [e] e = 0 := (State.refusedBits_plain q s u [e] e hk).trans hr
  refine ⟨q.commitList u [e], ?_, ?_⟩
  · rw [s.commitUnit_one u e hone hr hm, hq]
  · rw [State.commitList_one q u e hk hrq]
    subst hq
    exact ⟨rfl, by rw [State.word_setWord, if_pos rfl]; rfl, OnlyRegs.setWord _ _ _⟩

/-! ### A read that is served at once -/

/-- The register of a unit outside the four kinds whose reads have effects of their own is read plainly. -/
theorem State.readFound_plain (s : State) (m : Nat) (f : Found) (h : kindOf f.unit ∉ [UKind.spout, .gw, .tsio, .fn]) :
    s.readFound m f = s.plainRead m f := by
  unfold State.readFound
  split <;> simp_all

/-- The read of a register that answers the master, of a unit that is not held in reset. -/
theorem State.readAt_plain {s : State} {m a : Nat} {f : Found} (hf : findReg a = some f) (ho : ownedBy m f = true)
    (hr : s.resetting f.unit = false) (hk : kindOf f.unit ∉ [UKind.spout, .gw, .tsio, .fn]) :
    s.readAt m a = (s.shown m f, ((s.latchHigh f).clearRc f).accessSeen m a 1 f.unit) := by
  unfold State.readAt
  simp only [hf, ho, hr, State.readFound_plain s m f hk, State.plainRead]
  rfl

/-- Only the MACs and TICK have high halves to latch (R39). -/
theorem State.latchHigh_other (s : State) (f : Found) (h : kindOf f.unit ∉ [UKind.mac, .tick]) : s.latchHigh f = s := by
  unfold State.latchHigh
  split <;> simp_all

/-- A register without RC fields is left as it was by a read. -/
theorem State.clearRc_none (t : State) (f : Found) (h : ∀ x ∈ f.row.fields, x.kind ≠ .rc) : t.clearRc f = t := by
  unfold State.clearRc
  dsimp only
  generalize f.row.fields = l at h
  induction l with
  | nil => rfl
  | cons x l ih =>
    rw [List.foldl_cons, if_neg (h x List.mem_cons_self)]
    exact ih (fun y hy => h y (List.mem_cons_of_mem _ hy))

/-- Settles O20: both commands are a read served at once (`State.regReadTo_now`) of a plain register (`State.readAt_plain`). -/
theorem readShowsAndClears : Obligations.ReadShowsAndClears := by
  unfold Obligations.ReadShowsAndClears
  intro s a m f hd h4 hl hc hv hw hf ho hr hk
  have hread : s.regReadTo m a =
      { (((s.latchHigh f).clearRc f).accessSeen m a 1 f.unit) with readData := s.shown m f } := by
    rw [State.regReadTo_now hd h4 hl hv hc hw, State.readAt_plain hf ho hr hk]
  exact ⟨by rw [exec_readClear, hread], by rw [exec_latchingRead, hread], s.latchHigh_other f,
    fun hrc t => t.clearRc_none f hrc⟩

end Sys2Proof.Machine

/-! PROOFS. The commands of the unit frame, the tick boundary and the writes posted to the Cosy die (chapter 1: R20, R25 to R29,
R399 to R402, R432; R380 to R388). -/

namespace Sys2Proof.Machine

/-! ### The commands and their operations -/

theorem exec_unitEnable (u : Nat) (en : Bool) (m : Nat) (s : State) :
    exec (.unitEnable u en m) s = .next (s.unitWrite u m 4 (BitVec.ofNat 32 (b2n en)) (fun s => s.setEnable u en)) := rfl

theorem exec_unitReset (u m : Nat) (s : State) :
    exec (.unitReset u m) s = .next (s.unitWrite u m 4 2#32 (fun s => s.unitReset u)) := rfl

theorem exec_faultClear (u : Nat) (v : Word) (m : Nat) (s : State) :
    exec (.faultClear u v m) s = .next (s.unitWrite u m 0xC v (fun s =>
      if m = 0x11 ∧ s.clearsFault u v then s.refuse m (baseOf u + 0xC) else s.faultClear u v)) := rfl

theorem exec_injectArm (u : Nat) (v : Word) (m : Nat) (s : State) :
    exec (.injectArm u v m) s = .next (s.unitWrite u m 0x10 v (fun s => s.injectArm u v)) := rfl

theorem exec_commitDiscard (u m : Nat) (s : State) :
    exec (.commitDiscard u m) s = .next (s.unitWrite u m 0x14 0x40000000#32 (fun s => s.commitDiscard u)) := rfl

theorem exec_tickBoundary (u : Nat) (work : Option Nat) (pins : PinsIn) (s : State) :
    exec (.tickBoundary u work pins) s = .next (tickBoundaryStep u work pins s) := rfl

theorem exec_tickJobBudgetSpent (u : Nat) (s : State) :
    exec (.tickJobBudgetSpent u) s = .next (tickJobBudgetSpentStep u s) := rfl

theorem exec_postedWriteResolution (s : State) : exec .postedWriteResolution s = .next (postedWriteResolutionStep s) := rfl

/-! ### The unit frame -/

/-- A command of COSY's frame is the write of its register, whatever it would run on the Brew die (R13, R380). -/
theorem State.unitWrite_cosy (s : State) (m off : Nat) (v : Word) (run : State → State) :
    s.unitWrite uCosy m off v run = s.regWrite m (baseOf uCosy + off) v := if_pos rfl

theorem State.faultClear_leaf (s : State) {u : UnitNo} (h : isLeaf u = true) (v : Word) :
    s.faultClear u v = s.wr u F.unit_FAULT (s.word (baseOf u + 0xC) &&& ~~~v).toNat := if_pos h

theorem State.injectArm_leaf (s : State) {u : UnitNo} (h : isLeaf u = true) (v : Word) :
    s.injectArm u v = s.wr u F.unit_INJECT (v.toNat &&& detMask u) := if_pos h

theorem State.injectArm_group (s : State) {u : UnitNo} (h : isLeaf u = false) (v : Word) : s.injectArm u v = s := by
  unfold State.injectArm
  rw [h, if_neg Bool.false_ne_true]

/-- Settles O13: the unit takes the command (`State.unitWrite_ok`), which then runs the operation of its register; at COSY it is the
register write itself (`State.unitWrite_cosy`). -/
theorem unitFrameCommands : Obligations.UnitFrameCommands := by
  unfold Obligations.UnitFrameCommands
  intro s u m v ht hc
  refine ⟨fun hleaf hclear => ?_, fun hleaf => ?_, fun hgroup => ?_, ?_, ?_, ?_, ?_, ?_, fun en => ?_⟩
  · rw [exec_faultClear, State.unitWrite_ok ht hc, if_neg hclear, State.faultClear_leaf s hleaf]
  · rw [exec_injectArm, State.unitWrite_ok ht hc, State.injectArm_leaf s hleaf]
  · rw [exec_injectArm, State.unitWrite_ok ht hc, State.injectArm_group s hgroup]
  · rw [exec_commitDiscard, State.unitWrite_ok ht hc]
    rfl
  · rw [exec_faultClear, State.unitWrite_cosy, exec_registerWrite]
  · rw [exec_injectArm, State.unitWrite_cosy, exec_registerWrite]
  · rw [exec_commitDiscard, State.unitWrite_cosy, exec_registerWrite]
  · rw [exec_unitReset, State.unitWrite_cosy, exec_registerWrite]
  · rw [exec_unitEnable, State.unitWrite_cosy, exec_registerWrite]

/-! ### UNIT_CTRL.EN -/

/-- The kinds of leaves with nothing to start or stop when they begin or cease to count as enabled. -/
def inertKinds : List UKind := [.kettle, .caddy, .strain, .tsio, .fn, .mspi, .ulis]

theorem mem_inertKinds (k : UKind) :
    k ∈ inertKinds ↔ k = .kettle ∨ k = .caddy ∨ k = .strain ∨ k = .tsio ∨ k = .fn ∨ k = .mspi ∨ k = .ulis := by
  simp [inertKinds]

theorem State.onEnable_inert (s : State) {u : UnitNo} (h : kindOf u ∈ inertKinds) : s.onEnable u = s := by
  unfold State.onEnable
  rcases (mem_inertKinds _).1 h with hk | hk | hk | hk | hk | hk | hk <;> simp only [hk]

/-- No unit of such a kind has a tick job (Table 1.7). -/
theorem hasTickJob_inert {u : UnitNo} (h : kindOf u ∈ inertKinds) : hasTickJob u = false := by
  unfold hasTickJob
  rcases (mem_inertKinds _).1 h with hk | hk | hk | hk | hk | hk | hk <;> simp only [hk]

theorem State.jobStop_none (s : State) {u : UnitNo} (h : hasTickJob u = false) : s.jobStop u = s := by
  unfold State.jobStop
  rw [h, if_neg Bool.false_ne_true]

theorem State.onDisable_inert (s : State) {u : UnitNo} (h : kindOf u ∈ inertKinds) : s.onDisable u = s := by
  unfold State.onDisable
  rw [State.jobStop_none s (hasTickJob_inert h)]
  rcases (mem_inertKinds _).1 h with hk | hk | hk | hk | hk | hk | hk <;> simp only [hk]

/-- No leaf reacts where none changes whether it counts as enabled. -/
theorem State.enableHooks_same (s s0 : State) (u : UnitNo) (h : ∀ l ∈ leavesOf u, s.enabled l = s0.enabled l) :
    s.enableHooks s0 u = s := by
  unfold State.enableHooks
  refine List.foldlRecOn (motive := fun t => t = s) _ _ rfl fun t ht l hl => ?_
  rw [ht, if_pos (h l hl).symm]

/-- A leaf of an inert kind does not react, whether or not it changes. -/
theorem State.enableHooks_inert (s s0 : State) {u : UnitNo} (hl : leavesOf u = [u]) (hk : kindOf u ∈ inertKinds) :
    s.enableHooks s0 u = s := by
  unfold State.enableHooks
  rw [hl]
  simp [State.onEnable_inert s hk, State.onDisable_inert s hk]

theorem State.setEnable_sys (s : State) (en : Bool) : s.setEnable uSys en = s := if_pos (Or.inl rfl)

theorem State.setEnable_other (s : State) {u : UnitNo} (hs : u ≠ uSys) (hc : u ≠ uCosy) (en : Bool) :
    s.setEnable u en = (s.wr u F.unit_CTRL_EN (b2n en)).enableHooks s u :=
  if_neg fun h => h.elim hs hc

/-- Settles O14: EN is written, and what follows it (`State.enableHooks`) does nothing in either case. -/
theorem unitEnableSetsTheBit : Obligations.UnitEnableSetsTheBit := by
  unfold Obligations.UnitEnableSetsTheBit
  intro s u m en ht hc
  rw [exec_unitEnable, State.unitWrite_ok ht hc]
  refine ⟨fun hsys => ?_, fun hsys hcase => ?_⟩
  · rw [hsys, State.setEnable_sys]
  · rw [State.setEnable_other s hsys hc]
    rcases hcase with hsame | ⟨hleaf, hinert⟩
    · rw [State.enableHooks_same _ _ _ hsame]
    · rw [State.enableHooks_inert _ _ hleaf hinert]

/-! ### The boundary and its tick job -/

/-- The saved tick jobs are no registers. -/
theorem State.tickJob_wr (s : State) (u : UnitNo) (f : Fld) (v i j : Nat) (x : UnitNo) : (s.wr u f v i j).tickJob x = s.tickJob x := by
  unfold State.tickJob
  rw [State.wr_jobs]

theorem State.tickJob_sat (s : State) (u : UnitNo) (f : Fld) (i j n : Nat) (x : UnitNo) : (s.sat u f i j n).tickJob x = s.tickJob x := by
  unfold State.tickJob
  rw [State.sat_jobs]

/-- The overrun record of a job that is cut: OVR_CONSEC counts modulo 16, and detector 30 finds an error when it was 15 (R29). -/
theorem State.jobOverrun_cut (s : State) {u : UnitNo} (h : s.unfinished u = true) :
    s.jobOverrun u = (((s.sat u F.unit_TICKJOB_OVR_TOTAL).wr u F.unit_TICKJOB_OVR_CONSEC
      ((s.rd u F.unit_TICKJOB_OVR_CONSEC + 1) % 16)).setTickJob u { s.tickJob u with stopped := false }).check u 30
        (s.rd u F.unit_TICKJOB_OVR_CONSEC == 15) := by
  unfold State.jobOverrun
  simp only [h, if_true, Bool.true_and, State.tickJob_wr, State.tickJob_sat]

/-- A job that has done its work is only no longer stopped. -/
theorem State.jobOverrun_done (s : State) {u : UnitNo} (h : s.unfinished u = false) :
    s.jobOverrun u = (s.setTickJob u { s.tickJob u with stopped := false }).check u 30 false := by
  unfold State.jobOverrun
  simp only [h, Bool.false_and, Bool.false_eq_true, if_false]

theorem State.jobAtBoundary_none (s : State) {u : UnitNo} (h : hasTickJob u = false) (work : Option Nat) :
    s.jobAtBoundary u work = s := by
  unfold State.jobAtBoundary
  simp [h]

theorem State.jobAtBoundary_disabled (s : State) {u : UnitNo} (hj : hasTickJob u = true) (he : s.enabled u = false)
    (work : Option Nat) : s.jobAtBoundary u work = s.wr u F.unit_TICKJOB_RUNNING 0 := by
  unfold State.jobAtBoundary
  simp [hj, he]

/-- Settles O17, by the value of OVR_CONSEC before the cut (`State.jobOverrun_cut`). -/
theorem overrunRecord : Obligations.OverrunRecord := by
  unfold Obligations.OverrunRecord
  intro s u hj
  refine ⟨fun hcut hlt => ?_, fun hcut hfull => ?_, s.jobOverrun_done, fun hcut hen => ?_, fun hidle => ?_,
    fun hdis => s.jobAtBoundary_disabled hj hdis⟩
  · have hnot : (s.rd u F.unit_TICKJOB_OVR_CONSEC == 15) = false := by simpa using Nat.ne_of_lt hlt
    rw [s.jobOverrun_cut hcut, hnot, Nat.mod_eq_of_lt (by omega)]
  · rw [s.jobOverrun_cut hcut, hfull]
    rfl
  · rw [exec_tickJobBudgetSpent]
    unfold tickJobBudgetSpentStep
    rw [if_pos ⟨hj, hen, hcut⟩]
  · rw [exec_tickJobBudgetSpent]
    unfold tickJobBudgetSpentStep
    rw [if_neg (by rcases hidle with h | h <;> simp [h])]

/-- A boundary at a unit other than TICK (R25). -/
theorem tickBoundaryStep_unit {s : State} {u : UnitNo} (ht : s.enabled uTick = true) (hr : s.resetting uTick = false)
    (hu : s.resetting u = false) (h : u ≠ uTick) (work : Option Nat) (pins : PinsIn) :
    tickBoundaryStep u work pins s = (((((if hasTickJob u = true ∧ s.enabled u = true then s.jobOverrun u
      else s).beforeCommit u).commitUnit u).boundaryActions u pins)).jobAtBoundary u work := by
  unfold tickBoundaryStep
  simp [ht, hr, hu, h]

theorem State.beforeCommit_tick (s : State) : s.beforeCommit uTick = s := by
  unfold State.beforeCommit
  rw [if_neg (by decide), if_neg (by decide)]

theorem State.boundaryActions_tick (s : State) (pins : PinsIn) : s.boundaryActions uTick pins = s := rfl

theorem State.jobAtBoundary_tick (s : State) (work : Option Nat) : s.jobAtBoundary uTick work = s :=
  s.jobAtBoundary_none (by decide) work

/-- A boundary at TICK, which has no tick job and does nothing beyond its commit once it has counted and told the Cosy die (R25). -/
theorem tickBoundaryStep_tick {s : State} (ht : s.enabled uTick = true) (hr : s.resetting uTick = false) (work : Option Nat)
    (pins : PinsIn) {q : State} (hq : q = if s.clocked = true then s.runDomCmds else s) :
    tickBoundaryStep uTick work pins s = (q.advance q.tickWait).tickTick.tickMessage.commitUnit uTick := by
  have hjob (x : State) : ¬ (hasTickJob uTick = true ∧ x.enabled uTick = true) := fun h => absurd h.1 (by decide)
  unfold tickBoundaryStep
  rw [ht, hr, if_neg (by decide)]
  simp only [true_and, if_true, if_neg (hjob _), ← hq]
  rw [State.beforeCommit_tick, State.boundaryActions_tick, State.jobAtBoundary_tick]

/-- Settles O16: at TICK itself cut, actions and start are empty (`tickBoundaryStep_tick`), at the other units they are all there is. -/
theorem boundaryCutsCommitsStarts : Obligations.BoundaryCutsCommitsStarts := by
  unfold Obligations.BoundaryCutsCommitsStarts
  intro s u work pins ht hr hu
  rw [exec_tickBoundary]
  refine ⟨fun hne => ?_, fun heq q hq => ?_⟩
  · rw [tickBoundaryStep_unit ht hr hu hne]
  · rw [heq, tickBoundaryStep_tick ht hr work pins hq]

/-! ### Posted writes -/

/-- With a write on its way there is one that is resolved next: one of the lowest master in the posted buffer. -/
theorem nextPosted_isSome {l : List Posted} (h : l ≠ []) : (nextPosted l).isSome = true := by
  have hb : l.take 16 ≠ [] := by simpa using h
  refine findIdx1_isSome _ _ _ ((l.take 16).minOn Posted.master hb) List.minOn_mem (List.all_eq_true.2 fun q hq => ?_)
  exact decide_eq_true (List.apply_minOn_le_of_mem hq)

/-- The write that is resolved next is the first one of the lowest master in the posted buffer (R388). -/
theorem nextPosted_first {l : List Posted} {i : Nat} {p : Posted} (h : nextPosted l = some (i, p)) :
    (l.take 16)[i]? = some p ∧ (∀ q ∈ l.take 16, p.master ≤ q.master) ∧
      ∀ j < i, ∀ q, (l.take 16)[j]? = some q → p.master < q.master := by
  obtain ⟨n, rfl, hn, hp, hbefore⟩ := findIdx1_some _ _ _ _ _ h
  rw [Nat.zero_add]
  have hlow : ∀ q ∈ l.take 16, p.master ≤ q.master := by simpa using hp
  refine ⟨hn, hlow, fun j hj q hq => ?_⟩
  obtain ⟨x, hx, hlt⟩ : ∃ x ∈ l.take 16, x.master < q.master := by simpa using hbefore j hj q hq
  exact Nat.lt_of_le_of_lt (hlow x hx) hlt

theorem postedWriteResolutionStep_none {s : State} (h : nextPosted s.host.posted = none) :
    postedWriteResolutionStep s = s.serveReads := by
  unfold postedWriteResolutionStep
  rw [h]

/-- One posted write resolved: a repair of the Saucer goes into the ledger, any other write to its register. -/
theorem postedWriteResolutionStep_some {s t : State} {i : Nat} {p : Posted} (h : nextPosted s.host.posted = some (i, p))
    (ht : t = s.setHost { s.host with posted := s.host.posted.eraseIdx i }) :
    postedWriteResolutionStep s = ((if p.repair = true then t.ledgerWrite p.value.toNat
      else t.cosyWriteAt p.master p.addr p.value).lastErrOf s p.master p.transfer).serveReads := by
  unfold postedWriteResolutionStep
  rw [h, ht]

/-- A write to an address of the Cosy die without a register. -/
theorem State.cosyWriteAt_unmapped (s : State) (m : Nat) {a : Nat} (v : Word) (h : findReg a = none) :
    s.cosyWriteAt m a v = s.refuse m a := by
  unfold State.cosyWriteAt
  rw [h]

/-- A write to a wake register of a locked die (R246). -/
theorem State.cosyWriteAt_locked (s : State) (m : Nat) {a : Nat} (v : Word) {f : Found} (h : findReg a = some f)
    (hoff : 0x40 ≤ f.off) (hl : s.cosy.locked = true) (hw : wakeReg f.off = true) : s.cosyWriteAt m a v = s.refuse m a := by
  unfold State.cosyWriteAt
  simp only [h]
  rw [if_neg (Nat.not_lt.2 hoff), if_pos ⟨hl, hw⟩]

/-- A write to a register whose access kinds say it all. -/
theorem State.cosyWriteAt_plain (s : State) (m : Nat) {a : Nat} (v : Word) {f : Found} (h : findReg a = some f)
    (hoff : 0x40 ≤ f.off) (hl : ¬ (s.cosy.locked = true ∧ wakeReg f.off = true)) (hx : ¬ (0x2000 ≤ f.off ∧ f.off < 0x2060))
    (hs : f.off ≠ 0x100C) : s.cosyWriteAt m a v = s.plainWrite m f a v := by
  unfold State.cosyWriteAt
  simp only [h]
  rw [if_neg (Nat.not_lt.2 hoff), if_neg hl, if_neg hx, if_neg hs]

/-- Settles O24: the order is that of `nextPosted_first`, and the write is taken as on the Brew die (`State.plainWrite_spec`). -/
theorem postedWritesResolve : Obligations.PostedWritesResolve := by
  unfold Obligations.PostedWritesResolve
  refine fun s => ⟨⟨nextPosted_isSome, fun i p => nextPosted_first⟩, fun hnone => ?_, fun i p t hnext ht => ?_⟩
  · rw [exec_postedWriteResolution, postedWriteResolutionStep_none hnone]
  · have hlocked : t.cosy.locked = s.cosy.locked := by rw [ht]; rfl
    rw [exec_postedWriteResolution, postedWriteResolutionStep_some hnext ht]
    refine ⟨fun hrep => ?_, fun hrep hf => ?_, fun f hrep hf hoff => ?_⟩
    · rw [if_pos hrep]
    · rw [hrep, if_neg Bool.false_ne_true, State.cosyWriteAt_unmapped t _ _ hf]
    · rw [hrep, if_neg Bool.false_ne_true, ← hlocked]
      refine ⟨fun hl hw => ?_, fun hopen hx hs hr => ?_⟩
      · rw [State.cosyWriteAt_locked t _ _ hf hoff hl hw]
      · obtain ⟨r, hwrite, htaken⟩ := t.plainWrite_spec p.master f p.addr p.value hf hr
        exact ⟨r, by rw [State.cosyWriteAt_plain t _ _ hf hoff hopen hx hs, hwrite], htaken⟩

end Sys2Proof.Machine

/-! PROOFS. Receive and parsing (chapter 2: R34 to R41, R53 to R57, R96, R98; R128 and R130; R407): the words that a read latches, heads
delivered, the ends of frames, pauses received and PFC sent again, and the release of the inactive bank pair. -/

namespace Sys2Proof.Machine

/-! ### The commands and their operations -/

theorem exec_headDeliver (port : Nat) (s : State) : exec (.headDeliver port) s = .next (headDeliverStep port s) := rfl

theorem exec_frameEnd (p assembly : Nat) (s : State) : exec (.frameEnd p assembly) s = .next (frameEndStep p assembly s) := rfl

theorem exec_pauseFrameReceive (p : Nat) (b : List Byte) (sof eof : Bool) (wc : Nat) (s : State) :
    exec (.pauseFrameReceive p b sof eof wc) s =
      .next (pauseFrameReceiveStep p (if b.isEmpty then s else cellWriteStep p (some ⟨b, sof, eof, wc⟩) s)) := rfl

theorem exec_pauseTimerExpiry (p : Nat) (prio : Option Nat) (s : State) :
    exec (.pauseTimerExpiry p prio) s = .next (pauseTimerExpiryStep p prio s) := rfl

theorem exec_pfcRefresh (p c : Nat) (s : State) : exec (.pfcRefresh p c) s = .next (pfcRefreshStep p c s) := rfl

theorem exec_bankRelease (s : State) : exec .bankRelease s = .next (bankReleaseStep s) := rfl

theorem exec_releaseTimeout (s : State) : exec .releaseTimeout s = .next (releaseTimeoutStep s) := rfl

/-! ### The high words that a read latches -/

theorem kindOf_uMac {p : Nat} (h : p < 12) : kindOf (uMac p) = .mac :=
  (by decide : ∀ p < 12, kindOf (uMac p) = .mac) p h

theorem instOf_uMac {p : Nat} (h : p < 12) : instOf (uMac p) = p := by
  unfold instOf
  rw [kindOf_uMac h]
  exact Nat.add_sub_cancel_left 0x1F p

theorem State.latchHigh_mac (s : State) {f : Found} (h : kindOf f.unit = .mac) :
    s.latchHigh f =
      if f.off = 0x204 then
        s.wr f.unit F.mac_RX_OCTETS_HI_COUNT (smGet zero0 s.fab.rxOctets (instOf f.unit) / 2 ^ 32 % 2 ^ 32)
      else if f.off = 0x314 then
        s.wr f.unit F.mac_TX_OCTETS_HI_COUNT (smGet zero0 s.fab.txOctets (instOf f.unit) / 2 ^ 32 % 2 ^ 32)
      else s := by
  unfold State.latchHigh
  rw [h]

/-- Settles O21: the low octet words are told apart by their offset (`State.latchHigh_mac`); TICK has the one low word. -/
theorem latchedHighWords : Obligations.LatchedHighWords := by
  unfold Obligations.LatchedHighWords
  intro s p r hp
  have hmac (off : Nat) : kindOf (Found.mk (uMac p) r off).unit = .mac := kindOf_uMac hp
  refine ⟨?_, ?_, rfl⟩
  · rw [s.latchHigh_mac (hmac _), if_pos rfl, instOf_uMac hp]
  · rw [s.latchHigh_mac (hmac _), if_neg (show ¬ (0x314 = 0x204) by decide), if_pos rfl, instOf_uMac hp]

/-! ### The release of the inactive bank pair -/

theorem State.draining_released (s : State) : (s.wr (uPipe true) F.pipe_GEN_STATUS_INACTIVE 0).draining = false := by
  unfold State.draining State.flag
  rw [State.rd_wr_self _ _ _ _ _ _ (by decide)]
  rfl

/-- Settles O35: each command does its one act exactly when its guard holds. -/
theorem bankPairRelease : Obligations.BankPairRelease := by
  unfold Obligations.BankPairRelease
  intro s
  rw [exec_bankRelease, exec_releaseTimeout]
  unfold bankReleaseStep releaseTimeoutStep
  refine ⟨fun hd hcount hage => ⟨?_, s.draining_released⟩, fun hnot => ?_, fun hd hticks => ?_, fun hnot => ?_⟩
  · rw [if_pos ⟨hd, hcount, hage⟩]
  · rw [if_neg]
    rintro ⟨hd, hcount, hage⟩
    rcases hnot with h | h | h
    · simp [hd] at h
    · exact h hcount
    · exact Nat.not_lt.2 hage h
  · rw [if_pos ⟨hd, hticks⟩]
  · rw [if_neg]
    rintro ⟨hd, hticks⟩
    rcases hnot with h | h
    · simp [hd] at h
    · exact Nat.not_lt.2 hticks h

/-! ### Heads -/

theorem headDeliverStep_none {s : State} {port : Nat} (h : (s.input port).heads = []) : headDeliverStep port s = s := by
  unfold headDeliverStep
  rw [h]

/-- A first-pass head: discarded by a pipeline that is off (R438) or by the port's admission (R98), else judged under the current
generation (R53). -/
theorem headDeliverStep_first {s q : State} {port r : Nat} {rest : List Nat} {f : Frame} (hh : (s.input port).heads = r :: rest)
    (hf : s.frame r = some f) (hp : f.fm.pass2 = false) (hq : q = s.setInput port { s.input port with heads := rest }) :
    headDeliverStep port s =
      if s.enabled (uPipe (pipeOf port)) = true then
        if (q.admitHead port).1 = true then
          (q.admitHead port).2.judgeFrame (pipeOf port) r { f with fm := { f.fm with gen := (q.admitHead port).2.curGen != 0 } }
        else (q.admitHead port).2.discardFrame r
      else q.discardFrame r := by
  have hqf : q.frame r = some f := by rw [hq]; exact hf
  have hqe : q.enabled (uPipe (pipeOf port)) = s.enabled (uPipe (pipeOf port)) := by rw [hq]; rfl
  unfold headDeliverStep
  simp only [hh, ← hq, hqf, hp, hqe, Bool.false_eq_true, if_false]
  cases s.enabled (uPipe (pipeOf port)) <;> cases (q.admitHead port).1 <;> rfl

/-- The enable bits are no counts of frames in flight. -/
theorem State.enabled_inflightDown (s : State) (w g : Bool) :
    (s.inflightDown (b2n g)).enabled (uPipe w) = s.enabled (uPipe w) := by
  have hkept : ∀ w g, ∀ u ∈ [uPipe w, parentOf (uPipe w), uSys],
      apart (uPipe true) F.pipe_GEN_INFLIGHT_COUNT (b2n g) 0 u F.unit_CTRL_EN 0 0 = true := by decide
  have hbit (u : UnitNo) (h : u ∈ [uPipe w, parentOf (uPipe w), uSys]) : (s.inflightDown (b2n g)).enBit u = s.enBit u := by
    unfold State.enBit State.flag State.inflightDown
    rw [State.rd_wr_apart _ _ _ _ _ _ _ _ _ _ (hkept w g u h)]
  unfold State.enabled
  rw [hbit (uPipe w) (by simp), hbit (parentOf (uPipe w)) (by simp), hbit uSys (by simp)]

/-- A second-pass head in a pipeline that is on: out of its generation's count (R54), and dropped if its bank pair is FREE (R56). -/
theorem headDeliverStep_second {s q : State} {port r : Nat} {rest : List Nat} {f : Frame} (hh : (s.input port).heads = r :: rest)
    (hf : s.frame r = some f) (hp : f.fm.pass2 = true) (he : s.enabled (uPipe (pipeOf port)) = true)
    (hq : q = (s.setInput port { s.input port with heads := rest }).inflightDown (b2n f.fm.gen)) :
    headDeliverStep port s =
      if s.stale (b2n f.fm.gen) = true then (q.sat (uPipe true) F.pipe_RECIRC_STALE).discardFrame r
      else q.judgeFrame (pipeOf port) r f := by
  generalize hi : s.setInput port { s.input port with heads := rest } = i at hq
  have hif : i.frame r = some f := by rw [← hi]; exact hf
  have his : i.stale (b2n f.fm.gen) = s.stale (b2n f.fm.gen) := by rw [← hi]; rfl
  have hqe : q.enabled (uPipe (pipeOf port)) = true := by
    rw [hq, State.enabled_inflightDown, ← hi]
    exact he
  unfold headDeliverStep
  simp only [hh, hi, hif, hp, his, if_true, ← hq, hqe, Bool.true_and, Bool.not_true, Bool.false_eq_true, if_false]

/-- Settles O32: a generation that is neither the current one nor DRAINING is stale (`headDeliverStep_second`). -/
theorem staleSecondPassDropped : Obligations.StaleSecondPassDropped := by
  unfold Obligations.StaleSecondPassDropped
  intro s port r rest f hheads hframe hpass hen hgen hfree
  have hstale : s.stale (b2n f.fm.gen) = true := by
    unfold State.stale
    simp [hgen, hfree]
  rw [exec_headDeliver, headDeliverStep_second hheads hframe hpass hen rfl, if_pos hstale]

/-! ### The checks at the end of a frame -/

/-- Truncation decides first (R41). -/
theorem State.endChecks_cut (s : State) (p a : Nat) {f : MacFrame} (b : List Byte) (x : Option Frame) (h : f.cut = true) :
    s.endChecks p a f b x = (.dropped, s.sat (uMac p) F.mac_RX_OVERSIZE) := by
  unfold State.endChecks
  rw [if_pos h]

/-- With neither truncation nor a late size check left, the FCS decides before MACsec and length. -/
theorem State.endChecks_fcsBad {s : State} (p : Nat) {f : MacFrame} (b : List Byte) {y : Frame} (hc : f.cut = false)
    (hy : s.sduFails y = (false, s)) (hfcs : fcsGood f.raw = false) :
    s.endChecks p 0 f b (some y) = (.dropped, s.sat (uMac p) F.mac_RX_FCS_ERR) := by
  unfold State.endChecks
  simp only [hc, hy, hfcs, Bool.not_false, true_or, Bool.false_eq_true, if_false, if_true]

/-- With a right FCS and MACsec passed, the length decides. -/
theorem State.endChecks_length {s t : State} {p : Nat} {f : MacFrame} (b : List Byte) {y : Frame} (hc : f.cut = false)
    (hy : s.sduFails y = (false, s)) (hfcs : fcsGood f.raw = true) (hsec : s.macsecCheck p f = (.pass, t)) :
    s.endChecks p 0 f b (some y) =
      if t.lenBadAtEnd p b = true then (.dropped, t.sat (uMac p) F.mac_RX_LEN_BAD) else (.pass, t) := by
  have hright : ¬ ((!fcsGood f.raw) = true ∨ 0 = 2) := by simp [hfcs]
  unfold State.endChecks
  simp only [hc, hy, hright, hsec, Bool.false_eq_true, if_false]

/-- The end of a frame with a record: it is counted, its cut-through copies get their final accounting, its checks say how it ends. -/
theorem State.endFrame_record {s q t : State} {p a r : Nat} {f : MacFrame} {b : List Byte} {x : Frame} {v : MacsecOut}
    (hr : f.record = some r) (hb : b = s.macPlain p f)
    (hq : q = ((s.inc (uMac p) F.mac_RX_FRAMES).countRxOctets p b.length).correctAcct r)
    (hv : q.endChecks p a f b (q.frame r) = (v, t)) (hx : t.frame r = some x) :
    s.endFrame p a f = if v = .dropped then t.frameBad p r f.cut x else t.frameGood r x := by
  unfold State.endFrame
  simp only [hr, ← hb, ← hq, hv, hx]

/-! ### FRAME_END -/

/-- A fragment that belongs to no frame (Table 6.7). -/
theorem frameEndStep_fragment (s : State) {p : Nat} (hp : p < 12) : frameEndStep p 3 s = s.sat (uMac p) F.mac_RX_SMD_ERR := by
  unfold frameEndStep
  rw [if_pos hp, if_pos rfl]

theorem frameEndStep_none {s : State} {p : Nat} (hp : p < 12) (h : s.macFirst p = none) : frameEndStep p 0 s = s := by
  unfold frameEndStep
  rw [if_pos hp, if_neg (by decide), h]

/-- The oldest whole frame, that was no fragment: dropped if it began with the receiver off, a runt if it is short (R36), left alone
while it is a MAC control frame or its cells are not written, else ended. -/
theorem frameEndStep_first {s : State} {p : Nat} {f : MacFrame} (hp : p < 12) (h : s.macFirst p = some f) :
    frameEndStep p 0 s =
      if f.off = true then s.macDone p
      else if f.raw.length < 64 then (s.macDone p).sat (uMac p) F.mac_RX_RUNT
      else if be16 f.raw 12 = 0x8808 ∨ s.macReady p f = false then s
      else (s.macDone p).endFrame p 0 f := by
  unfold frameEndStep
  rw [if_pos hp, if_neg (by decide), h]
  simp only [Bool.not_eq_true']
  rfl

theorem frameEndStep_ends {s : State} {p : Nat} {f : MacFrame} (hp : p < 12) (h : s.macFirst p = some f) (hoff : f.off = false)
    (hlen : 64 ≤ f.raw.length) (hdata : be16 f.raw 12 ≠ 0x8808) (hready : s.macReady p f = true) :
    frameEndStep p 0 s = (s.macDone p).endFrame p 0 f := by
  have hwait : ¬ (be16 f.raw 12 = 0x8808 ∨ s.macReady p f = false) := by simp [hdata, hready]
  rw [frameEndStep_first hp h, hoff, if_neg Bool.false_ne_true, if_neg (Nat.not_lt.2 hlen), if_neg hwait]

/-- Settles O33: the heads by `headDeliverStep_first`; the ends of frames by which of the checks decides (`State.endChecks_cut`,
`State.endChecks_fcsBad`, `State.endChecks_length`). -/
theorem headsAndFrameEnds : Obligations.HeadsAndFrameEnds := by
  unfold Obligations.HeadsAndFrameEnds
  refine fun s => ⟨fun port hheads => ?_, fun port r rest f q hheads hframe hpass hq => ?_, fun p hp => ⟨?_, fun hnone => ?_,
    fun f hfirst => ⟨fun hoff => ?_, fun hoff hshort => ?_, fun q b r x hoff hlen hdata hready hrec hb hq => ?_⟩⟩⟩
  · rw [exec_headDeliver, headDeliverStep_none hheads]
  · rw [exec_headDeliver, headDeliverStep_first hheads hframe hpass hq]
    refine ⟨fun hdis => ?_, fun hen => ⟨fun t hadmit => ?_, fun t hadmit => ?_⟩⟩
    · rw [hdis, if_neg Bool.false_ne_true]
    · rw [hen, if_pos rfl, hadmit, if_pos rfl]
    · rw [hen, if_pos rfl, hadmit, if_neg Bool.false_ne_true]
  · rw [exec_frameEnd, frameEndStep_fragment s hp]
  · rw [exec_frameEnd, frameEndStep_none hp hnone]
  · rw [exec_frameEnd, frameEndStep_first hp hfirst, if_pos hoff]
  · rw [exec_frameEnd, frameEndStep_first hp hfirst, hoff, if_neg Bool.false_ne_true, if_pos hshort]
  · rw [exec_frameEnd, frameEndStep_ends hp hfirst hoff hlen hdata hready]
    have hend {v : MacsecOut} {t : State} {x : Frame} := State.endFrame_record (v := v) (t := t) (x := x) (a := 0) hrec hb hq
    refine ⟨fun hcut hx => ?_, fun y hcut hy hsdu => ?_⟩
    · rw [hend (q.endChecks_cut p 0 b _ hcut) hx, if_pos rfl]
    · rw [hy] at hend
      refine ⟨fun hfcs hx => ?_, fun t hfcs hsec => ?_⟩
      · rw [hend (State.endChecks_fcsBad p b hcut hsdu hfcs) hx, if_pos rfl]
      · have hlength := State.endChecks_length b hcut hsdu hfcs hsec
        refine ⟨fun hbad hx => ?_, fun hgood hx => ?_⟩
        · rw [hbad, if_pos rfl] at hlength
          rw [hend hlength hx, if_pos rfl]
        · rw [hgood, if_neg Bool.false_ne_true] at hlength
          rw [hend hlength hx, if_neg (by decide)]

/-! ### Pauses received (R38, R130) -/

/-- The oldest received frame is a MAC control frame: the MAC is done with it, and only a good one is a pause. -/
theorem pauseFrameReceiveStep_control {s : State} {p : Nat} {f : MacFrame} (hp : p < 12) (h : s.macFirst p = some f)
    (hoff : f.off = false) (hlen : 64 ≤ f.raw.length) (hctl : be16 f.raw 12 = 0x8808) :
    pauseFrameReceiveStep p s =
      if f.cut = true then (s.macDone p).sat (uMac p) F.mac_RX_OVERSIZE
      else if fcsGood f.raw = true then ((s.macDone p).sat (uMac p) F.mac_RX_PAUSE).takePause p f.raw
      else (s.macDone p).sat (uMac p) F.mac_RX_FCS_ERR := by
  unfold pauseFrameReceiveStep
  simp only [h, hp, hoff, hlen, hctl, Bool.not_false, and_self, if_true]
  cases fcsGood f.raw <;> simp only [Bool.not_false, Bool.not_true, Bool.false_eq_true, if_true, if_false]

/-- A PFC frame sets timers only where PFC is received. -/
theorem State.takePause_pfc (s : State) (p : Nat) {b : List Byte} (h : be16 b 14 = 0x0101) :
    s.takePause p b = if s.flag uFab F.fab_PFC_CFG_RX_EN p = true then s.setPause p (s.applyPfc p (pfcQuanta b)) else s := by
  have hpause : ¬ (be16 b 14 = 0x0001 ∧ s.flag uFab F.fab_PFC_CFG_RX_PAUSE_EN p = true) := by simp [h]
  unfold State.takePause
  rw [if_neg hpause, h]
  simp only [true_and]

/-- A PAUSE frame sets the port's timer only where PAUSE is received. -/
theorem State.takePause_pause (s : State) (p : Nat) {b : List Byte} (h : be16 b 14 = 0x0001) :
    s.takePause p b = if s.flag uFab F.fab_PFC_CFG_RX_PAUSE_EN p = true then
      s.setPause p { s.pauseOf p with all := if be16 b 16 = 0 then none else some (s.pauseEnd p (be16 b 16)) } else s := by
  have hpfc : ¬ (be16 b 14 = 0x0101 ∧ s.flag uFab F.fab_PFC_CFG_RX_EN p = true) := by simp [h]
  unfold State.takePause
  rw [if_neg hpfc, h]
  simp only [true_and]

theorem pauseTimerExpiryStep_prio (s : State) {p : Nat} (hp : p < 12) {k e : Nat} (h : pmGet (s.pauseOf p).prio k = some e) :
    pauseTimerExpiryStep p (some k) s =
      if e ≤ s.clk.wc then s.setPause p { s.pauseOf p with prio := pmDel (s.pauseOf p).prio k } else s := by
  unfold pauseTimerExpiryStep
  simp only [hp, if_true, h, State.pauseOver, decide_eq_true_eq]

theorem pauseTimerExpiryStep_all (s : State) {p : Nat} (hp : p < 12) {e : Nat} (h : (s.pauseOf p).all = some e) :
    pauseTimerExpiryStep p none s = if e ≤ s.clk.wc then s.setPause p { s.pauseOf p with all := none } else s := by
  unfold pauseTimerExpiryStep
  simp only [hp, if_true, h, State.pauseOver, decide_eq_true_eq]

/-! ### PFC sent again (R128) -/

theorem pfcRefreshStep_due {s : State} {p c : Nat} (hp : p < 12) (hc : c = 4 ∨ c = 5) (hen : s.flag uFab F.fab_PFC_CFG_EN p = true)
    (hon : s.fab.pfcOn.contains (8 * p + c) = true) :
    pfcRefreshStep p c s =
      if s.pfcDue p c = true ∧ s.xon p ≤ s.rd uFab (losslessFld c) p then s.sendPfc p c (s.rd uFab F.fab_PFC_HEAD_QUANTA p) else s := by
  unfold pfcRefreshStep
  simp only [hp, hc, hen, hon, true_and]

theorem State.spoutAt_setSpout (s : State) (p : Nat) (x : SpoutState) : (s.setSpout p x).spoutAt p = x :=
  smGet_smSet_self _ _ _ _

/-- PAUSE_STATE follows every change of a port's timers. -/
theorem State.rd_pauseState_setPause (s : State) (p : Nat) (x : PauseTimers) :
    (s.setPause p x).rd uFab F.fab_PAUSE_STATE_TC p = (if x.all.isSome then 0x3F else
      (if x.prio.any (fun e => bitOf (s.prioMask p 4) e.1) then 16 else 0) +
      (if x.prio.any (fun e => bitOf (s.prioMask p 5) e.1) then 32 else 0)) % 2 ^ F.fab_PAUSE_STATE_TC.width := by
  generalize hq : ({ s with fab := { s.fab with pause := smSet noPause s.fab.pause p x } } : State) = q
  have htimers : q.pauseOf p = x := by
    rw [← hq]
    exact smGet_smSet_self _ _ _ _
  have hmask (c : Nat) : q.prioMask p c = s.prioMask p c := by rw [← hq]; rfl
  unfold State.setPause State.showPause
  rw [hq, State.rd_wr_self _ _ _ _ _ _ (by decide)]
  simp only [htimers, hmask]

/-- Settles O34: a control frame by its checks (`pauseFrameReceiveStep_control`) and its opcode (`State.takePause_pfc`,
`State.takePause_pause`), the timers by their ends, the PFC frame by `pfcRefreshStep_due`. -/
theorem pausesAndPfc : Obligations.PausesAndPfc := by
  unfold Obligations.PausesAndPfc
  refine fun s p hp => ⟨fun b sof eof wc hb => ?_, fun f sof eof wc hfirst hoff hlen hctl => ?_, fun k e htimer => ?_,
    fun e htimer => ?_, s.rd_pauseState_setPause p, fun c hc hen hon => ?_, fun c quanta => ⟨?_, pmGet_pmSet_self _ _ _⟩⟩
  · rw [exec_pauseFrameReceive, exec_pauseFrameReceive, hb]
    rfl
  · rw [exec_pauseFrameReceive, List.isEmpty_nil, if_pos rfl, pauseFrameReceiveStep_control hp hfirst hoff hlen hctl]
    refine ⟨fun hcut => ?_, fun hcut hfcs => ?_, fun q hcut hfcs hq => ?_⟩
    · rw [if_pos hcut]
    · rw [hcut, hfcs, if_neg Bool.false_ne_true, if_neg Bool.false_ne_true]
    · rw [hcut, if_neg Bool.false_ne_true, if_pos hfcs, ← hq]
      refine ⟨fun hop hrx => ?_, fun hop hrx => ?_, fun hop hrx => ?_, fun hop hrx => ?_⟩
      · rw [q.takePause_pfc p hop, if_pos hrx]
      · rw [q.takePause_pfc p hop, hrx, if_neg Bool.false_ne_true]
      · rw [q.takePause_pause p hop, if_pos hrx]
      · rw [q.takePause_pause p hop, hrx, if_neg Bool.false_ne_true]
  · rw [exec_pauseTimerExpiry, pauseTimerExpiryStep_prio s hp htimer]
    exact ⟨fun hend => by rw [if_pos hend], fun hlater => by rw [if_neg (Nat.not_le.2 hlater)]⟩
  · rw [exec_pauseTimerExpiry, pauseTimerExpiryStep_all s hp htimer]
    exact ⟨fun hend => by rw [if_pos hend], fun hlater => by rw [if_neg (Nat.not_le.2 hlater)]⟩
  · rw [exec_pfcRefresh, pfcRefreshStep_due hp hc hen hon]
    refine ⟨fun hdue hlevel => ?_, fun hnot => ?_⟩
    · rw [if_pos ⟨hdue, hlevel⟩]
    · rw [if_neg]
      rintro ⟨hdue, hlevel⟩
      rcases hnot with h | h
      · simp [hdue] at h
      · exact Nat.not_lt.2 hlevel h
  · unfold State.sendPfc
    rw [State.spoutAt_setSpout]

end Sys2Proof.Machine

/-! PROOFS. The forwarding tables (chapter 3: R66 to R82, R437): what a read finds while no word of a memory has a code error, the
learning of source events, and the commands of FDB_CMD on the entries, the shadow copies and the VLAN table. -/

namespace Sys2Proof.Machine

/-! ### The commands and their operations -/

theorem exec_sourceEvent (w : Bool) (s : State) : exec (.sourceEvent w) s = .next (sourceEventStep w s) := rfl

theorem exec_hitUpdate (w : Bool) (s : State) : exec (.hitUpdate w) s = .next (hitUpdateStep w s) := rfl

theorem exec_learnInsert (w : Bool) (s : State) : exec (.learnInsert w) s = .next (learnInsertStep w s) := rfl

theorem exec_fdbNop (w : Bool) (m : Nat) (s : State) :
    exec (.fdbNop w m) s = .next (s.fdbCommand w m (fdbNopRun w)) := rfl

theorem exec_fdbInsert (w : Bool) (m : Nat) (s : State) :
    exec (.fdbInsert w m) s = .next (s.fdbCommand w m (fdbInsertRun w)) := rfl

theorem exec_fdbDelete (w : Bool) (m : Nat) (s : State) :
    exec (.fdbDelete w m) s = .next (s.fdbCommand w m (fdbDeleteRun w)) := rfl

theorem exec_fdbLookup (w : Bool) (m : Nat) (s : State) :
    exec (.fdbLookup w m) s = .next (s.fdbCommand w m (fdbLookupRun w)) := rfl

theorem exec_fdbReadSlot (w : Bool) (i m : Nat) (s : State) :
    exec (.fdbReadSlot w i m) s = .next (s.fdbCommand w m (fdbReadSlotRun w i)) := rfl

theorem exec_fdbFlush (w : Bool) (m : Nat) (s : State) :
    exec (.fdbFlush w m) s = .next (s.fdbCommand w m (fdbFlushRun w)) := rfl

theorem exec_fdbShadowWrite (w : Bool) (i m : Nat) (s : State) :
    exec (.fdbShadowWrite w i m) s = .next (s.fdbCommand w m (fdbShadowWriteRun w i)) := rfl

theorem exec_fdbShadowRead (w : Bool) (i m : Nat) (s : State) :
    exec (.fdbShadowRead w i m) s = .next (s.fdbCommand w m (fdbShadowReadRun w i)) := rfl

theorem exec_fdbVlanWrite (w : Bool) (i m : Nat) (s : State) :
    exec (.fdbVlanWrite w i m) s = .next (s.fdbCommand w m (fdbVlanWriteRun w i)) := rfl

theorem exec_fdbVlanRead (w : Bool) (i m : Nat) (s : State) :
    exec (.fdbVlanRead w i m) s = .next (s.fdbCommand w m (fdbVlanReadRun w i)) := rfl

theorem exec_fdbInsertShadowed (w : Bool) (i m : Nat) (s : State) :
    exec (.fdbInsertShadowed w i m) s = .next (s.fdbCommand w m (fdbInsertShadowedRun w i)) := rfl

theorem exec_fdbDeleteShadowed (w : Bool) (i m : Nat) (s : State) :
    exec (.fdbDeleteShadowed w i m) s = .next (s.fdbCommand w m (fdbDeleteShadowedRun w i)) := rfl

theorem exec_fdbCmdInvalid (w : Bool) (m : Nat) (s : State) :
    exec (.fdbCmdInvalid w m) s = .next (s.fdbCommand w m (fdbInvalidRun w)) := rfl

theorem exec_fdbCmdComplete (w : Bool) (s : State) : exec (.fdbCmdComplete w) s = .next (fdbCompleteStep w s) := rfl

/-! ### Memories without a code error -/

theorem State.codeOf_clean {s : State} (h : s.upsets = []) (mem idx : Nat) : s.codeOf mem idx = .good := by
  unfold State.codeOf
  rw [h]
  rfl

theorem State.fdbCheck_clean {s : State} (h : s.upsets = []) (w : Bool) (slots : List Nat) : s.fdbCheck w slots = s := by
  unfold State.fdbCheck
  rw [h, List.isEmpty_nil, if_pos rfl]

theorem State.anyFailed_clean {s : State} (h : s.upsets = []) (mem : Nat) (idx : List Nat) : s.anyFailed mem idx = false := by
  unfold State.anyFailed
  rw [h]
  rfl

theorem State.cmdRead_clean {s : State} (h : s.upsets = []) (w : Bool) (key : Nat) : s.cmdRead w key = (false, s) := by
  unfold State.cmdRead State.readSlots
  rw [s.anyFailed_clean h, s.fdbCheck_clean h]

theorem State.sideRead_clean {s : State} (h : s.upsets = []) (w : Bool) (mem idx : Nat) : s.sideRead w mem idx = (false, s) := by
  unfold State.sideRead
  rw [s.codeOf_clean h]

theorem State.fdbLookup_clean {s : State} (h : s.upsets = []) (w : Bool) (key : Nat) :
    s.fdbLookup w key = ((s.findKey w key).map (s.fdbAt w), s) := by
  unfold State.fdbLookup
  simp only [s.fdbCheck_clean h]
  cases s.findKey w key <;> rfl

/-! ### Insertion -/

theorem State.insertEntry_placed {s t : State} {w bad : Bool} {key slot : Nat} (h : s.placeFor w key = (some slot, bad, t)) (res : Nat) :
    s.insertEntry w key res = (some slot, bad, t.putFdb w slot ⟨key, res⟩) := by
  unfold State.insertEntry
  rw [h]

theorem State.insertEntry_full {s t : State} {w bad : Bool} {key : Nat} (h : s.placeFor w key = (none, bad, t)) (res : Nat) :
    s.insertEntry w key res = (none, bad, t) := by
  unfold State.insertEntry
  rw [h]

/-! ### Source events (R74) -/

theorem sourceEventStep_none {s : State} {w : Bool} (h : (s.pipe w).eventFifo = []) : sourceEventStep w s = s := by
  unfold sourceEventStep
  rw [h]

section SourceEvents
variable {s q : State} {w : Bool} {e : SourceEvent} {rest : List SourceEvent} (hf : (s.pipe w).eventFifo = e :: rest)
  (hu : s.upsets = []) (hq : q = s.setPipe w { s.pipe w with eventFifo := rest })
include hf hu hq

theorem sourceEventStep_unknown (hk : q.findKey w (fdbKey e.sa e.fid) = none) : sourceEventStep w s = q.learnRequest w e := by
  have hclean : q.upsets = [] := by rw [hq, State.setPipe_upsets, hu]
  unfold sourceEventStep
  simp only [hf, ← hq, q.fdbLookup_clean hclean, hk, Option.map_none]

/-- An event of a known address: nothing for a static entry, the queue for HIT for the entry's own source, else a learn request. -/
theorem sourceEventStep_known {slot : Nat} (hk : q.findKey w (fdbKey e.sa e.fid) = some slot) :
    sourceEventStep w s =
      if (q.fdbAt w slot).static = true then q
      else if (q.fdbAt w slot).sourceIs e.port e.sub = true then
        if (q.fdbAt w slot).hit = true then q
        else if (q.pipe w).hitQ.length < 32 then
          q.setPipe w { q.pipe w with hitQ := (q.pipe w).hitQ ++ [fdbKey e.sa e.fid] }
        else q.sat (uPipe w) F.pipe_HIT_LOST
      else q.learnRequest w e := by
  have hclean : q.upsets = [] := by rw [hq, State.setPipe_upsets, hu]
  unfold sourceEventStep
  simp only [hf, ← hq, q.fdbLookup_clean hclean, hk, Option.map_some]

end SourceEvents

/-! ### Learn requests (R75, R76) -/

section LearnRequests
variable {s q : State} {w : Bool} {e : SourceEvent} {rest : List SourceEvent} (hh : (s.pipe w).hitQ = [])
  (hl : (s.pipe w).learnQ = e :: rest) (hu : s.upsets = []) (hq : q = s.setPipe w { s.pipe w with learnQ := rest })
include hh hl hu hq

/-- A known learnt address of another source is moved in place (R76). -/
theorem learnInsertStep_moved {slot : Nat} (hk : q.findKey w (fdbKey e.sa e.fid) = some slot)
    (hlearnt : (q.fdbAt w slot).static = false) (hother : (q.fdbAt w slot).sourceIs e.port e.sub = false) :
    learnInsertStep w s = (q.putFdb w slot { q.fdbAt w slot with
      res := setNbits (q.fdbAt w slot).res 29 29 (nbits (learntRes e.port e.sub) 29 29) }).inc (uPipe w) F.pipe_MOVES := by
  have hclean : q.upsets = [] := by rw [hq, State.setPipe_upsets, hu]
  simp only [hh] at hq
  unfold learnInsertStep
  simp only [hh, hl, ← hq, q.fdbCheck_clean hclean, hk, hlearnt, hother, Bool.false_eq_true, or_self, if_false]

/-- An unknown address is inserted; the counter says whether it found a place (R72, R76). -/
theorem learnInsertStep_new {t : State} {r : Option Nat} {bad : Bool} (hk : q.findKey w (fdbKey e.sa e.fid) = none)
    (hi : q.insertEntry w (fdbKey e.sa e.fid) (learntRes e.port e.sub) = (r, bad, t)) :
    learnInsertStep w s = if r.isSome = true then t.inc (uPipe w) F.pipe_LEARNED else t.sat (uPipe w) F.pipe_LEARN_FAIL := by
  have hclean : q.upsets = [] := by rw [hq, State.setPipe_upsets, hu]
  simp only [hh] at hq
  unfold learnInsertStep
  simp only [hh, hl, ← hq, q.fdbCheck_clean hclean, hk, hi]

end LearnRequests

theorem hitUpdateStep_next {s q : State} {w : Bool} {key : Nat} {rest : List Nat} (h : (s.pipe w).hitQ = key :: rest)
    (hq : q = s.setPipe w { s.pipe w with hitQ := rest }) :
    hitUpdateStep w s = (q.slotsFor w key).foldl (fun s slot => if s.holds w key slot
      then s.putFdb w slot ((s.fdbAt w slot).setHit true) else s) q := by
  unfold hitUpdateStep
  simp only [h, ← hq]

theorem State.learnRequest_admitted {s : State} {w : Bool} (hlimit : (s.pipe w).learnAdmitted < s.rd (uPipe w) F.pipe_FDB_CFG_LEARN_LIMIT)
    (hroom : (s.pipe w).learnQ.length < 64) (e : SourceEvent) :
    s.learnRequest w e =
      s.setPipe w { s.pipe w with learnQ := (s.pipe w).learnQ ++ [e], learnAdmitted := (s.pipe w).learnAdmitted + 1 } := by
  unfold State.learnRequest
  exact if_pos ⟨hlimit, hroom⟩

theorem State.learnRequest_dropped {s : State} {w : Bool}
    (h : s.rd (uPipe w) F.pipe_FDB_CFG_LEARN_LIMIT ≤ (s.pipe w).learnAdmitted ∨ 64 ≤ (s.pipe w).learnQ.length) (e : SourceEvent) :
    s.learnRequest w e = (s.setPipe w { s.pipe w with learnShed := true }).sat (uPipe w) F.pipe_LEARN_DROP := by
  unfold State.learnRequest
  refine if_neg ?_
  rintro ⟨hlimit, hroom⟩
  omega

/-- Settles O36: an event and a learn request each by what the lookup of its key finds (`sourceEventStep_known`,
`learnInsertStep_moved`, `learnInsertStep_new`), a request by LEARN_LIMIT. -/
theorem learningFollowsEvents : Obligations.LearningFollowsEvents := by
  unfold Obligations.LearningFollowsEvents
  refine fun s w => ⟨fun hnone => ?_, fun e rest q hfifo hclean hq => ⟨fun hk => ?_, fun slot hk => ?_⟩,
    fun e hlimit hroom => State.learnRequest_admitted hlimit hroom e, fun e hno => State.learnRequest_dropped hno e,
    fun key rest q hhit hq => ?_, fun e rest q hhit hreq hclean hq => ⟨fun slot hk hlearnt hother => ?_,
      fun hk => ⟨fun t bad slot hi => ?_, fun t bad hi => ?_⟩⟩⟩
  · rw [exec_sourceEvent, sourceEventStep_none hnone]
  · rw [exec_sourceEvent, sourceEventStep_unknown hfifo hclean hq hk]
  · rw [exec_sourceEvent, sourceEventStep_known hfifo hclean hq hk]
    refine ⟨fun hstatic => ?_, fun hlearnt hother => ?_, fun hlearnt hown => ⟨fun hset => ?_, fun hclear hroom => ?_⟩⟩
    · rw [if_pos hstatic]
    · rw [hlearnt, hother, if_neg Bool.false_ne_true, if_neg Bool.false_ne_true]
    · rw [hlearnt, if_neg Bool.false_ne_true, if_pos hown, if_pos hset]
    · rw [hlearnt, if_neg Bool.false_ne_true, if_pos hown, hclear, if_neg Bool.false_ne_true, if_pos hroom]
  · rw [exec_hitUpdate, hitUpdateStep_next hhit hq]
  · rw [exec_learnInsert, learnInsertStep_moved hhit hreq hclean hq hk hlearnt hother]
  · rw [exec_learnInsert, learnInsertStep_new hhit hreq hclean hq hk hi, Option.isSome_some, if_pos rfl]
  · rw [exec_learnInsert, learnInsertStep_new hhit hreq hclean hq hk hi, Option.isSome_none, if_neg Bool.false_ne_true]

/-! ### FDB_CMD (R82) -/

/-- The write of a command, where the pipeline takes it and FDB_CMD is free: it is BUSY and runs. -/
theorem State.fdbCommand_free {s : State} {w : Bool} {m : Nat} (ht : s.takes (uPipe w) m = true)
    (hb : s.flag (uPipe w) F.pipe_FDB_CMD_BUSY = false) (run : State → State) :
    s.fdbCommand w m run = run (s.wr (uPipe w) F.pipe_FDB_CMD_BUSY 1) := by
  unfold State.fdbCommand State.fdbStart
  rw [State.command_ok ht, hb, if_neg Bool.false_ne_true]

theorem State.fdbCommand_busy {s : State} {w : Bool} {m : Nat} (ht : s.takes (uPipe w) m = true)
    (hb : s.flag (uPipe w) F.pipe_FDB_CMD_BUSY = true) (run : State → State) :
    s.fdbCommand w m run = s.refuse m (fdbCmdAddr w) := by
  unfold State.fdbCommand State.fdbStart
  rw [State.command_ok ht, if_pos hb]

/-! ### Commands on entries (Table 3.7) -/

theorem fdbInsertRun_badArg {s : State} {w : Bool} (h : s.fdbKeyReg w % 16 ≠ 1 ∨ nbits (s.fdbResReg w) 57 1 ≠ 0) :
    fdbInsertRun w s = s.fdbStatus w fdbBadArg := by
  unfold fdbInsertRun
  exact if_pos h

section Insert
variable {s t : State} {w bad : Bool} (hkey : s.fdbKeyReg w % 16 = 1) (hres : nbits (s.fdbResReg w) 57 1 = 0)
include hkey hres

theorem fdbInsertRun_placed {slot : Nat} (h : s.placeFor w (s.fdbKeyReg w) = (some slot, bad, t)) :
    fdbInsertRun w s = ((t.putFdb w slot ⟨s.fdbKeyReg w, s.fdbResReg w⟩).wr (uPipe w) F.pipe_FDB_SLOT slot).fdbStatus w
      (if bad then fdbEccErr else fdbOk) := by
  unfold fdbInsertRun
  simp only [hkey, hres, ne_eq, not_true_eq_false, or_self, if_false, State.insertEntry_placed h]

theorem fdbInsertRun_full (h : s.placeFor w (s.fdbKeyReg w) = (none, bad, t)) : fdbInsertRun w s = t.fdbStatus w fdbFull := by
  unfold fdbInsertRun
  simp only [hkey, hres, ne_eq, not_true_eq_false, or_self, if_false, State.insertEntry_full h]

end Insert

section Find
variable {s : State} {w : Bool} (hu : s.upsets = [])
include hu

theorem fdbDeleteRun_notFound (h : s.findKey w (s.fdbKeyReg w) = none) : fdbDeleteRun w s = s.fdbStatus w fdbNotFound := by
  unfold fdbDeleteRun
  simp only [s.cmdRead_clean hu, h, Bool.false_eq_true, if_false]

theorem fdbDeleteRun_found {slot : Nat} (h : s.findKey w (s.fdbKeyReg w) = some slot) :
    fdbDeleteRun w s = (s.removeAt w slot).fdbStatus w fdbOk := by
  unfold fdbDeleteRun
  simp only [s.cmdRead_clean hu, h, Bool.false_eq_true, if_false]

theorem fdbLookupRun_notFound (h : s.findKey w (s.fdbKeyReg w) = none) : fdbLookupRun w s = s.fdbStatus w fdbNotFound := by
  unfold fdbLookupRun
  simp only [s.cmdRead_clean hu, h, Bool.false_eq_true, if_false]

theorem fdbLookupRun_found {slot : Nat} (h : s.findKey w (s.fdbKeyReg w) = some slot) :
    fdbLookupRun w s = ((s.putRes w (s.fdbAt w slot).res).wr (uPipe w) F.pipe_FDB_SLOT slot).fdbStatus w fdbOk := by
  unfold fdbLookupRun
  simp only [s.cmdRead_clean hu, h, Bool.false_eq_true, if_false]

theorem fdbReadSlotRun_read {i : Nat} (h : i ≤ 32831) : fdbReadSlotRun w i s = (s.putKeyRes w (s.fdbAt w i)).fdbStatus w fdbOk := by
  unfold fdbReadSlotRun
  simp only [if_neg (Nat.not_lt.2 h), s.anyFailed_clean hu, s.fdbCheck_clean hu, Bool.false_eq_true, if_false]

/-- FLUSH empties the ways first, then lets the stash fill them (R71, R437). -/
theorem fdbFlushRun_flushed {gone : List Nat} (h : s.fdbKeyReg w % 16 < 2) (hg : gone = (s.listedSlots w 0 32832).filter
      (fun k => flushes (s.fdbKeyReg w) (nbits (s.fdbResReg w) 42 16) (s.fdbAt w k))) :
    fdbFlushRun w s = (gone.foldl (fun s k => s.stashMove w k) (gone.foldl (fun s k => s.putFdb w k {}) s)).fdbStatus w fdbOk := by
  have hno : (!s.upsets.isEmpty && s.upsets.any (fun u => u.mem == memFdb w && !u.correctable)) = false := by
    rw [hu]
    rfl
  unfold fdbFlushRun
  simp only [if_neg (Nat.not_le.2 h), hno, s.fdbCheck_clean hu, ← hg, Bool.false_eq_true, if_false]

end Find

theorem fdbReadSlotRun_badArg (s : State) (w : Bool) {i : Nat} (h : 32831 < i) : fdbReadSlotRun w i s = s.fdbStatus w fdbBadArg := by
  unfold fdbReadSlotRun
  exact if_pos h

theorem fdbFlushRun_badArg {s : State} {w : Bool} (h : 2 ≤ s.fdbKeyReg w % 16) : fdbFlushRun w s = s.fdbStatus w fdbBadArg := by
  unfold fdbFlushRun
  exact if_pos h

theorem fdbCompleteStep_busy {s : State} {w : Bool} (h : s.flag (uPipe w) F.pipe_FDB_CMD_BUSY = true) :
    fdbCompleteStep w s = (s.wr (uPipe w) F.pipe_FDB_CMD_BUSY 0).wr (uPipe w) F.pipe_FDB_CMD_STATUS (s.pipe w).cmdStatus := by
  unfold fdbCompleteStep
  exact if_pos h

theorem fdbCompleteStep_free {s : State} {w : Bool} (h : s.flag (uPipe w) F.pipe_FDB_CMD_BUSY = false) : fdbCompleteStep w s = s := by
  unfold fdbCompleteStep
  rw [h, if_neg Bool.false_ne_true]

/-- Settles O37: a command that FDB_CMD takes runs on the BUSY pipeline, and each run is told by its argument check and by what the
lookup or the placement of its key finds. -/
theorem fdbCommandsOnEntries : Obligations.FdbCommandsOnEntries := by
  unfold Obligations.FdbCommandsOnEntries
  refine fun s w m => ⟨State.fdbCommand_busy, fun ht hb hclean q hq => ?_, fun hb => ?_, fun hb => ?_⟩
  · have hu : q.upsets = [] := by rw [hq, State.wr_upsets, hclean]
    simp only [exec_fdbNop, exec_fdbCmdInvalid, exec_fdbInsert, exec_fdbDelete, exec_fdbLookup, exec_fdbReadSlot, exec_fdbFlush,
      State.fdbCommand_free ht hb, ← hq]
    refine ⟨rfl, rfl, fun hbad => ?_, fun hkey hres => ⟨fun slot t hplace => ?_, fun t hplace => ?_⟩, fun hk => ⟨?_, ?_⟩,
      fun slot hk => ⟨?_, ?_⟩, fun i hi => ?_, fun i hi => ?_, fun htype => ?_, fun htype gone hgone => ?_⟩
    · rw [fdbInsertRun_badArg hbad]
    · rw [fdbInsertRun_placed hkey hres hplace, if_neg Bool.false_ne_true]
    · rw [fdbInsertRun_full hkey hres hplace]
    · rw [fdbDeleteRun_notFound hu hk]
    · rw [fdbLookupRun_notFound hu hk]
    · rw [fdbDeleteRun_found hu hk]
    · rw [fdbLookupRun_found hu hk]
    · rw [fdbReadSlotRun_read hu hi]
    · rw [fdbReadSlotRun_badArg q w hi]
    · rw [fdbFlushRun_badArg htype]
    · rw [fdbFlushRun_flushed hu htype hgone]
  · rw [exec_fdbCmdComplete, fdbCompleteStep_busy hb]
  · rw [exec_fdbCmdComplete, fdbCompleteStep_free hb]

/-! ### Commands on the shadow copies and the VLAN table (R61, R80, R81) -/

section BeyondTheTable
variable (s : State) (w : Bool) {i : Nat} (h : 4095 < i)
include h

theorem fdbShadowWriteRun_beyond : fdbShadowWriteRun w i s = s.fdbStatus w fdbBadArg := by
  unfold fdbShadowWriteRun
  exact if_pos (.inl h)

theorem fdbShadowReadRun_beyond : fdbShadowReadRun w i s = s.fdbStatus w fdbBadArg := by
  unfold fdbShadowReadRun
  exact if_pos h

theorem fdbVlanWriteRun_beyond : fdbVlanWriteRun w i s = s.fdbStatus w fdbBadArg := by
  unfold fdbVlanWriteRun
  exact if_pos h

theorem fdbVlanReadRun_beyond : fdbVlanReadRun w i s = s.fdbStatus w fdbBadArg := by
  unfold fdbVlanReadRun
  exact if_pos h

theorem fdbInsertShadowedRun_beyond : fdbInsertShadowedRun w i s = s.fdbStatus w fdbBadArg := by
  unfold fdbInsertShadowedRun
  exact if_pos (.inl h)

theorem fdbDeleteShadowedRun_beyond : fdbDeleteShadowedRun w i s = s.fdbStatus w fdbBadArg := by
  unfold fdbDeleteShadowedRun
  exact if_pos h

end BeyondTheTable

section WithinTheTable
variable {s : State} {w : Bool} {i : Nat} (hi : i ≤ 4095)

theorem fdbShadowWriteRun_badArg (hres : nbits (s.fdbResReg w) 61 1 = 0) (hkey : s.fdbKeyReg w % 16 ≠ 0) :
    fdbShadowWriteRun w i s = s.fdbStatus w fdbBadArg := by
  unfold fdbShadowWriteRun
  exact if_pos (.inr ⟨hres, hkey⟩)

include hi

theorem fdbShadowWriteRun_stored (h : nbits (s.fdbResReg w) 61 1 ≠ 0 ∨ s.fdbKeyReg w % 16 = 0) :
    fdbShadowWriteRun w i s = (s.putShadow w i ⟨s.fdbKeyReg w, s.fdbResReg w⟩).fdbStatus w fdbOk := by
  unfold fdbShadowWriteRun
  refine if_neg ?_
  rintro (hbeyond | ⟨hres, hkey⟩)
  · exact Nat.not_lt.2 hi hbeyond
  · exact h.elim (fun k => k hres) (fun k => hkey k)

theorem fdbShadowReadRun_read (hu : s.upsets = []) :
    fdbShadowReadRun w i s = (s.putKeyRes w (smGet noEntry (s.pipe w).shadow i)).fdbStatus w fdbOk := by
  unfold fdbShadowReadRun
  simp only [if_neg (Nat.not_lt.2 hi), s.sideRead_clean hu, Bool.false_eq_true, if_false]

theorem fdbVlanWriteRun_retired (h : s.retiredWord (memVlan w) i = true) : fdbVlanWriteRun w i s = s.fdbStatus w fdbOk := by
  unfold fdbVlanWriteRun
  rw [if_neg (Nat.not_lt.2 hi), if_pos h]

theorem fdbVlanWriteRun_stored (h : s.retiredWord (memVlan w) i = false) :
    fdbVlanWriteRun w i s = ((s.setPipe w { s.pipe w with vlan := smSet noVlan (s.pipe w).vlan i (s.fdbResReg w) }).clearUpset
      (memVlan w) i).fdbStatus w fdbOk := by
  unfold fdbVlanWriteRun
  rw [if_neg (Nat.not_lt.2 hi), h, if_neg Bool.false_ne_true]

theorem fdbVlanReadRun_read (hu : s.upsets = []) :
    fdbVlanReadRun w i s = (s.putRes w (smGet noVlan (s.pipe w).vlan i)).fdbStatus w fdbOk := by
  unfold fdbVlanReadRun
  simp only [if_neg (Nat.not_lt.2 hi), s.sideRead_clean hu, Bool.false_eq_true, if_false]

/-- DELETE_SHADOWED, whose lookup runs beside the shadow copy it has cleared: no entry of the key. -/
theorem fdbDeleteShadowedRun_notFound {t : State} (hu : s.upsets = []) (htt : t = s.putShadow w i
      { smGet noEntry (s.pipe w).shadow i with key := setNbits (smGet noEntry (s.pipe w).shadow i).key 0 4 0 })
    (h : t.findKey w (s.fdbKeyReg w) = none) : fdbDeleteShadowedRun w i s = t.fdbStatus w fdbNotFound := by
  unfold fdbDeleteShadowedRun
  simp only [if_neg (Nat.not_lt.2 hi), s.cmdRead_clean hu, ← htt, h, Bool.false_eq_true, if_false]

theorem fdbDeleteShadowedRun_found {t : State} {slot : Nat} (hu : s.upsets = []) (htt : t = s.putShadow w i
      { smGet noEntry (s.pipe w).shadow i with key := setNbits (smGet noEntry (s.pipe w).shadow i).key 0 4 0 })
    (h : t.findKey w (s.fdbKeyReg w) = some slot) : fdbDeleteShadowedRun w i s = (t.removeAt w slot).fdbStatus w fdbOk := by
  unfold fdbDeleteShadowedRun
  simp only [if_neg (Nat.not_lt.2 hi), s.cmdRead_clean hu, ← htt, h, Bool.false_eq_true, if_false]

section InsertShadowed
variable {t : State} {bad : Bool} (hkey : s.fdbKeyReg w % 16 = 1) (hbit : nbits (s.fdbResReg w) 57 1 = 0)
  (hstatic : nbits (s.fdbResReg w) 61 1 ≠ 0)
include hkey hbit hstatic

theorem fdbInsertShadowedRun_placed {slot : Nat} (h : s.placeFor w (s.fdbKeyReg w) = (some slot, bad, t)) :
    fdbInsertShadowedRun w i s =
      (((t.putFdb w slot ⟨s.fdbKeyReg w, s.fdbResReg w⟩).putShadow w i ⟨s.fdbKeyReg w, s.fdbResReg w⟩).wr (uPipe w)
        F.pipe_FDB_SLOT slot).fdbStatus w (if bad then fdbEccErr else fdbOk) := by
  unfold fdbInsertShadowedRun
  simp only [Nat.not_lt.2 hi, hkey, hbit, hstatic, ne_eq, not_true_eq_false, or_self, if_false, State.insertEntry_placed h]

theorem fdbInsertShadowedRun_full (h : s.placeFor w (s.fdbKeyReg w) = (none, bad, t)) :
    fdbInsertShadowedRun w i s = t.fdbStatus w fdbFull := by
  unfold fdbInsertShadowedRun
  simp only [Nat.not_lt.2 hi, hkey, hbit, hstatic, ne_eq, not_true_eq_false, or_self, if_false, State.insertEntry_full h]

end InsertShadowed

end WithinTheTable

theorem fdbInsertShadowedRun_badArg {s : State} {w : Bool} (i : Nat)
    (h : s.fdbKeyReg w % 16 ≠ 1 ∨ nbits (s.fdbResReg w) 57 1 ≠ 0 ∨ nbits (s.fdbResReg w) 61 1 = 0) :
    fdbInsertShadowedRun w i s = s.fdbStatus w fdbBadArg := by
  unfold fdbInsertShadowedRun
  exact if_pos (.inr h)

/-- Settles O38: beyond index 4,095 each command is BAD_ARG; within it each is told by its argument check, the ledger or the placement
of its key. -/
theorem fdbSideTables : Obligations.FdbSideTables := by
  unfold Obligations.FdbSideTables
  intro s w m i ht hb hclean q hq
  have hu : q.upsets = [] := by rw [hq, State.wr_upsets, hclean]
  rw [exec_fdbShadowWrite, exec_fdbShadowRead, exec_fdbVlanWrite, exec_fdbVlanRead, exec_fdbInsertShadowed, exec_fdbDeleteShadowed]
  simp only [State.fdbCommand_free ht hb, ← hq]
  refine ⟨fun hbeyond => ⟨?_, ?_, ?_, ?_, ?_, ?_⟩, fun hi => ⟨fun hres hkey => ?_, fun hok => ?_, ?_, fun hret => ?_, fun hret => ?_,
    ?_, fun hbad => ?_, fun hkey hbit hstatic => ⟨fun slot t hplace => ?_, fun t hplace => ?_⟩,
    fun t hcleared => ⟨fun hk => ?_, fun slot hk => ?_⟩⟩⟩
  · rw [fdbShadowWriteRun_beyond q w hbeyond]
  · rw [fdbShadowReadRun_beyond q w hbeyond]
  · rw [fdbVlanWriteRun_beyond q w hbeyond]
  · rw [fdbVlanReadRun_beyond q w hbeyond]
  · rw [fdbInsertShadowedRun_beyond q w hbeyond]
  · rw [fdbDeleteShadowedRun_beyond q w hbeyond]
  · rw [fdbShadowWriteRun_badArg hres hkey]
  · rw [fdbShadowWriteRun_stored hi hok]
  · rw [fdbShadowReadRun_read hi hu]
  · rw [fdbVlanWriteRun_retired hi hret]
  · rw [fdbVlanWriteRun_stored hi hret]
  · rw [fdbVlanReadRun_read hi hu]
  · rw [fdbInsertShadowedRun_badArg i hbad]
  · rw [fdbInsertShadowedRun_placed hi hkey hbit hstatic hplace, if_neg Bool.false_ne_true]
  · rw [fdbInsertShadowedRun_full hi hkey hbit hstatic hplace]
  · rw [fdbDeleteShadowedRun_notFound hi hu hcleared hk]
  · rw [fdbDeleteShadowedRun_found hi hu hcleared hk]

end Sys2Proof.Machine

/-! PROOFS. The Strainer (chapter 4: R97, R98, R100 to R107; 6.4, R440): the commands of RULE_CMD on the rule banks, the stream gates,
the keys that infusers submit, the TCAM scrub and the bus guards. -/

namespace Sys2Proof.Machine

/-! ### The commands and their operations -/

theorem exec_ruleNop (w : Bool) (m : Nat) (s : State) :
    exec (.ruleNop w m) s = .next (s.ruleCommand w m (fun s => s.ruleStatus w ruleOk)) := rfl

theorem exec_ruleCmdInvalid (w : Bool) (m : Nat) (s : State) :
    exec (.ruleCmdInvalid w m) s = .next (s.ruleCommand w m (fun s => s.ruleStatus w ruleBadArg)) := rfl

theorem exec_writeRule (w : Bool) (i : Nat) (b : Bool) (m : Nat) (s : State) :
    exec (.writeRule w i b m) s = .next (s.ruleWriteCommand w m b (writeRuleRun w i)) := rfl

theorem exec_clearRule (w : Bool) (i : Nat) (b : Bool) (m : Nat) (s : State) :
    exec (.clearRule w i b m) s = .next (s.ruleWriteCommand w m b (clearRuleRun w i)) := rfl

theorem exec_writeZpair (w : Bool) (i : Nat) (b : Bool) (m : Nat) (s : State) :
    exec (.writeZpair w i b m) s = .next (s.ruleWriteCommand w m b (writeZpairRun w i)) := rfl

theorem exec_writeZmap (w : Bool) (i : Nat) (b : Bool) (m : Nat) (s : State) :
    exec (.writeZmap w i b m) s = .next (s.ruleWriteCommand w m b (writeZmapRun w i)) := rfl

theorem exec_writePfx (w : Bool) (i : Nat) (b : Bool) (m : Nat) (s : State) :
    exec (.writePfx w i b m) s = .next (s.ruleWriteCommand w m b (writePfxRun w i)) := rfl

theorem exec_copyActive (w : Bool) (m : Nat) (s : State) :
    exec (.copyActive w m) s = .next (s.ruleCommand w m (fun s => s.ruleDraining w m (copyActiveRun w))) := rfl

theorem exec_readRule (w : Bool) (i : Nat) (b : Bool) (m : Nat) (s : State) :
    exec (.readRule w i b m) s = .next (s.ruleCommand w m (readRuleRun w i b)) := rfl

theorem exec_readZpair (w : Bool) (i : Nat) (b : Bool) (m : Nat) (s : State) :
    exec (.readZpair w i b m) s = .next (s.ruleCommand w m (readZpairRun w i b)) := rfl

theorem exec_readZmap (w : Bool) (i : Nat) (b : Bool) (m : Nat) (s : State) :
    exec (.readZmap w i b m) s = .next (s.ruleCommand w m (readZmapRun w i b)) := rfl

theorem exec_readPfx (w : Bool) (i : Nat) (b : Bool) (m : Nat) (s : State) :
    exec (.readPfx w i b m) s = .next (s.ruleCommand w m (readPfxRun w i b)) := rfl

theorem exec_ruleCmdComplete (w : Bool) (s : State) : exec (.ruleCmdComplete w) s = .next (ruleCompleteStep w s) := rfl

theorem exec_streamGateCycleStart (w : Bool) (g : Nat) (s : State) :
    exec (.streamGateCycleStart w g) s = .next (streamGateCycleStartStep w g s) := rfl

theorem exec_streamGateEntryExpiry (w : Bool) (g : Nat) (s : State) :
    exec (.streamGateEntryExpiry w g) s = .next (streamGateEntryExpiryStep w g s) := rfl

theorem exec_canKeySubmit (n : Nat) (s : State) : exec (.canKeySubmit n) s = .next (canKeySubmitStep n s) := rfl

theorem exec_canKeyJudge (s : State) : exec .canKeyJudge s = .next (canKeyJudgeStep s) := rfl

theorem exec_tcamRescan (w b : Bool) (s : State) : exec (.tcamRescan w b) s = .next (tcamRescanStep w (b2n b) s) := rfl

theorem exec_guardMatch (n id : Nat) (full : Bool) (age : Nat) (own : Bool) (s : State) :
    exec (.guardMatch n id ⟨full, age⟩ own) s = .next (guardMatchStep n id full own age s) := rfl

theorem exec_guardFlagEnd (n : Nat) (s : State) : exec (.guardFlagEnd n) s = .next (guardFlagEndStep n s) := rfl

theorem exec_guardDriveFault (n : Nat) (s : State) : exec (.guardDriveFault n) s = .next (guardDriveFaultStep n s) := rfl

/-! ### Code checks without an injection (R334) -/

theorem State.codeCheck_unarmed {s : State} {u : UnitNo} {d : Nat} (h : s.armed u d = false) (found : CodeResult) :
    s.codeCheck u d found = (found, false, s) := by
  unfold State.codeCheck
  rw [h, if_neg Bool.false_ne_true]

/-! ### RULE_CMD (R100, R101) -/

section Command
variable {s : State} {w : Bool} {m : Nat} (ht : s.takes (uStrain w) m = true)
include ht

/-- The write of a command, where the Strainer takes it and RULE_CMD is free: it is BUSY and runs. -/
theorem State.ruleCommand_free (hb : s.flag (uStrain w) F.strain_RULE_CMD_BUSY = false) (run : State → State) :
    s.ruleCommand w m run = run (s.wr (uStrain w) F.strain_RULE_CMD_BUSY 1) := by
  unfold State.ruleCommand State.ruleStart
  rw [State.command_ok ht, hb, if_neg Bool.false_ne_true]

theorem State.ruleCommand_busy (hb : s.flag (uStrain w) F.strain_RULE_CMD_BUSY = true) (run : State → State) :
    s.ruleCommand w m run = s.refuse m (ruleCmdAddr w) := by
  unfold State.ruleCommand State.ruleStart
  rw [State.command_ok ht, if_pos hb]

theorem State.ruleWriteCommand_free (hb : s.flag (uStrain w) F.strain_RULE_CMD_BUSY = false) (b : Bool) (run : Nat → State → State) :
    s.ruleWriteCommand w m b run = (s.wr (uStrain w) F.strain_RULE_CMD_BUSY 1).ruleWrite w m b run :=
  State.ruleCommand_free ht hb _

end Command

section WhileDraining
variable {s : State} {w : Bool} (he : s.enabled (uStrain w) = true) (hd : s.draining = true) (m : Nat)
include he hd

theorem State.ruleDraining_refused (run : State → State) :
    s.ruleDraining w m run =
      ((s.sat (uPipe true) F.pipe_GEN_STATUS_REJECTS).refuse m (ruleCmdAddr w)).ruleStatus w ruleBankBusy := by
  unfold State.ruleDraining
  exact if_pos ⟨he, hd⟩

theorem State.ruleWrite_refused (b : Bool) (run : Nat → State → State) :
    s.ruleWrite w m b run =
      ((s.sat (uPipe true) F.pipe_GEN_STATUS_REJECTS).refuse m (ruleCmdAddr w)).ruleStatus w ruleBankBusy :=
  State.ruleDraining_refused he hd m _

end WhileDraining

section Writable
variable {s : State} {w : Bool} (h : s.enabled (uStrain w) = false ∨ s.draining = false) (m : Nat)
include h

theorem State.ruleDraining_runs (run : State → State) : s.ruleDraining w m run = run s := by
  have hno : ¬ (s.enabled (uStrain w) = true ∧ s.draining = true) := by
    rintro ⟨he, hd⟩
    rcases h with h | h
    · simp [he] at h
    · simp [hd] at h
  unfold State.ruleDraining
  exact if_neg hno

theorem State.ruleWrite_runs {b : Bool} {g : Nat} (hg : g = if s.enabled (uStrain w) then 1 - s.curGen else s.readBank b)
    (run : Nat → State → State) : s.ruleWrite w m b run = run g s := by
  rw [hg]
  exact State.ruleDraining_runs h m _

end Writable

/-! ### The runs of RULE_CMD (Table 4.6) -/

section Rows
variable {s : State} {w : Bool} {i : Nat}

theorem writeRuleRun_stored (hi : i ≤ 4095) (hok : ruleBad (s.ruleOperand w F.strain_RULE_KEY) (s.ruleAct w) = false) (g : Nat) :
    writeRuleRun w i g s = (s.putRow w g i
      ⟨true, s.ruleOperand w F.strain_RULE_KEY, s.ruleOperand w F.strain_RULE_MASK, s.ruleAct w, 0⟩).ruleStatus w ruleOk := by
  unfold writeRuleRun
  simp only [hok, Bool.false_eq_true, false_or, if_neg (Nat.not_lt.2 hi)]

theorem writeRuleRun_badArg (h : 4095 < i ∨ ruleBad (s.ruleOperand w F.strain_RULE_KEY) (s.ruleAct w) = true) (g : Nat) :
    writeRuleRun w i g s = s.ruleStatus w ruleBadArg := by
  unfold writeRuleRun
  exact if_pos h.symm

theorem clearRuleRun_cleared (hi : i ≤ 4095) (g : Nat) :
    clearRuleRun w i g s =
      (s.putRow w g i { smGet noRow (s.bank w g).rows i with valid := false, count := 0 }).ruleStatus w ruleOk := by
  unfold clearRuleRun
  exact if_neg (Nat.not_lt.2 hi)

/-- A row whose staging word reads right is given whole (R101). -/
theorem readRuleRun_good {b : Bool} {r : RuleRow} {t : State} (hi : i ≤ 4095)
    (hgood : s.codeOf (memStaging w) (4096 * s.readBank b + i) = .good) (harm : s.armed (uStrain w) 0 = false)
    (hr : r = smGet noRow (s.bank w (s.readBank b)).rows i)
    (ht : t = (s.putRuleOperand w F.strain_RULE_KEY r.value).putRuleOperand w F.strain_RULE_MASK r.mask) :
    readRuleRun w i b s = ((((t.wr (uStrain w) F.strain_RULE_ACT_HI (r.act / 2 ^ 32)).wr (uStrain w) F.strain_RULE_ACT_LO r.act).wr
      (uStrain w) F.strain_RULE_CMD_VALID (b2n r.valid)).wr (uStrain w) F.strain_RULE_COUNT r.count).ruleStatus w ruleOk := by
  unfold readRuleRun
  simp only [if_neg (Nat.not_lt.2 hi), hgood, State.codeCheck_unarmed harm, ← hr, ← ht, reduceCtorEq, if_false]

end Rows

section Zones
variable (s : State) (w : Bool) {i : Nat}

theorem writeZpairRun_stored (hi : i ≤ 255) (g : Nat) :
    writeZpairRun w i g s =
      (s.setBank w g { s.bank w g with zpair := smSet zero0 (s.bank w g).zpair i (s.ruleAct w % 4) }).ruleStatus w ruleOk := by
  unfold writeZpairRun
  exact if_neg (Nat.not_lt.2 hi)

theorem writeZmapRun_stored (hi : i ≤ 127) (g : Nat) :
    writeZmapRun w i g s =
      (s.setBank w g { s.bank w g with zmap := smSet zero0 (s.bank w g).zmap i (s.ruleAct w % 16) }).ruleStatus w ruleOk := by
  unfold writeZmapRun
  exact if_neg (Nat.not_lt.2 hi)

theorem writePfxRun_stored (hi : i ≤ 62) (g : Nat) :
    writePfxRun w i g s = (s.setBank w g { s.bank w g with
      pfx := smSet noPfx (s.bank w g).pfx i (s.ruleOperand w F.strain_RULE_KEY % 2 ^ 64, bitOf (s.ruleAct w) 0) }).ruleStatus w ruleOk := by
  unfold writePfxRun
  exact if_neg (Nat.not_lt.2 hi)

theorem readZpairRun_read (hi : i ≤ 255) (b : Bool) :
    readZpairRun w i b s =
      (s.wr (uStrain w) F.strain_RULE_ACT_LO (smGet zero0 (s.bank w (s.readBank b)).zpair i)).ruleStatus w ruleOk := by
  unfold readZpairRun
  exact if_neg (Nat.not_lt.2 hi)

theorem readZmapRun_read (hi : i ≤ 127) (b : Bool) :
    readZmapRun w i b s =
      (s.wr (uStrain w) F.strain_RULE_ACT_LO (smGet zero0 (s.bank w (s.readBank b)).zmap i)).ruleStatus w ruleOk := by
  unfold readZmapRun
  exact if_neg (Nat.not_lt.2 hi)

theorem readPfxRun_read {b : Bool} {v : Nat × Bool} (hi : i ≤ 62) (hv : v = smGet noPfx (s.bank w (s.readBank b)).pfx i) :
    readPfxRun w i b s = (((s.wr (uStrain w) F.strain_RULE_KEY v.1).wr (uStrain w) F.strain_RULE_KEY (v.1 / 2 ^ 32) 1).wr
      (uStrain w) F.strain_RULE_ACT_LO (b2n v.2)).ruleStatus w ruleOk := by
  unfold readPfxRun
  rw [if_neg (Nat.not_lt.2 hi), hv]

end Zones

theorem ruleCompleteStep_busy {s : State} {w : Bool} (h : s.flag (uStrain w) F.strain_RULE_CMD_BUSY = true) :
    ruleCompleteStep w s =
      (s.wr (uStrain w) F.strain_RULE_CMD_BUSY 0).wr (uStrain w) F.strain_RULE_CMD_STATUS (s.strain w).cmdStatus := by
  unfold ruleCompleteStep
  exact if_pos h

theorem ruleCompleteStep_free {s : State} {w : Bool} (h : s.flag (uStrain w) F.strain_RULE_CMD_BUSY = false) :
    ruleCompleteStep w s = s := by
  unfold ruleCompleteStep
  rw [h, if_neg Bool.false_ne_true]

/-- Settles O39: a command that RULE_CMD takes runs on the BUSY Strainer; DRAINING refuses every write alike (`State.ruleWrite_refused`),
else each run works on the bank that `State.ruleWrite_runs` names. -/
theorem ruleCommandsWriteBanks : Obligations.RuleCommandsWriteBanks := by
  unfold Obligations.RuleCommandsWriteBanks
  refine fun s w b m i => ⟨State.ruleCommand_busy, fun ht hb q g hq hg => ?_, fun hb => ?_, fun hb => ?_⟩
  · simp only [exec_ruleNop, exec_ruleCmdInvalid, exec_writeRule, exec_clearRule, exec_writeZpair, exec_writeZmap, exec_writePfx,
      exec_copyActive, exec_readRule, exec_readZpair, exec_readZmap, exec_readPfx, State.ruleCommand_free ht hb,
      State.ruleWriteCommand_free ht hb, ← hq]
    refine ⟨trivial, trivial, fun he hd t hrefused => ?_, fun hw => ?_, fun hi => ?_, fun hi => ?_, fun hi v hv => ?_,
      fun hi hgood harm r t hr hoperands => ?_⟩
    · simp only [State.ruleWrite_refused he hd, State.ruleDraining_refused he hd, ← hrefused, and_self]
    · simp only [State.ruleWrite_runs hw m hg, State.ruleDraining_runs hw m]
      refine ⟨fun hi hok => ?_, fun hbad => ?_, fun hi => ?_, fun hi => ?_, fun hi => ?_, fun hi => ?_, trivial⟩
      · rw [writeRuleRun_stored hi hok]
      · rw [writeRuleRun_badArg hbad]
      · rw [clearRuleRun_cleared hi]
      · rw [writeZpairRun_stored q w hi]
      · rw [writeZmapRun_stored q w hi]
      · rw [writePfxRun_stored q w hi]
    · rw [readZpairRun_read q w hi]
    · rw [readZmapRun_read q w hi]
    · rw [readPfxRun_read q w hi hv]
    · rw [readRuleRun_good hi hgood harm hr hoperands]
  · rw [exec_ruleCmdComplete, ruleCompleteStep_busy hb]
  · rw [exec_ruleCmdComplete, ruleCompleteStep_free hb]

/-! ### Stream gates (R97) -/

section StreamGates
variable {s : State} {w : Bool} {g : Nat} {x : StreamGate} (hx : x = s.gateAt w g)

theorem streamGateCycleStartStep_disabled (h : s.flag (uStrain w) F.strain_GATE_CTRL_EN g = false) :
    streamGateCycleStartStep w g s = s := by
  unfold streamGateCycleStartStep
  simp only [h, Bool.false_eq_true, false_and, and_false, if_false]

include hx

theorem streamGateCycleStartStep_due (hg : g < 64) (hen : s.flag (uStrain w) F.strain_GATE_CTRL_EN g = true)
    (hdue : x.nextStart ≤ s.domNs x.td) :
    streamGateCycleStartStep w g s =
      s.gateBegin w g (s.acrossDomains x.td (s.rd (uStrain w) F.strain_GATE_CTRL_TD g) x.nextStart) := by
  subst hx
  unfold streamGateCycleStartStep
  exact if_pos ⟨hg, hen, hdue⟩

theorem streamGateCycleStartStep_early (h : s.domNs x.td < x.nextStart) : streamGateCycleStartStep w g s = s := by
  subst hx
  unfold streamGateCycleStartStep
  exact if_neg fun ⟨_, _, hdue⟩ => Int.not_le.2 h hdue

theorem streamGateEntryExpiryStep_due (hrun : x.running = true) (hmore : x.entry + 1 < x.list.length)
    (hinside : x.entryEnd < x.nextStart) (hdue : x.entryEnd ≤ s.domNs x.td) :
    streamGateEntryExpiryStep w g s =
      s.setGate w g { x with entry := x.entry + 1, entryEnd := x.entryEnd + entryNs (x.list.getD (x.entry + 1) 1) } := by
  subst hx
  unfold streamGateEntryExpiryStep
  exact if_pos ⟨hrun, hmore, hdue, hinside⟩

theorem streamGateEntryExpiryStep_early (h : s.domNs x.td < x.entryEnd) : streamGateEntryExpiryStep w g s = s := by
  subst hx
  unfold streamGateEntryExpiryStep
  exact if_neg fun ⟨_, _, hdue, _⟩ => Int.not_le.2 h hdue

end StreamGates

/-! ### Keys of the infusers (R98, R103, R104) -/

section Keys
variable {s : State} {n : Nat}

theorem canKeySubmitStep_entered {a : GwWork} {l : List GwWork} {k : CanKey} (hwork : (s.engine n).work = a :: l)
    (hkey : s.keyOf n a = some k) (hasked : (s.engine n).asked = false) (hroom : (s.strain true).canFifo.length < 64)
    (hsig : s.sigStopped n = false) :
    canKeySubmitStep n s = (s.setStrain true { s.strain true with canFifo := (s.strain true).canFifo ++ [k] }).setEngine n
      { s.engine n with asked := true } := by
  unfold canKeySubmitStep
  simp only [hwork, List.head?_cons, Option.bind_some, hkey, hasked, hsig, Nat.not_le.2 hroom, Bool.false_eq_true, or_self, if_false]

theorem canKeySubmitStep_noWork (h : (s.engine n).work = []) : canKeySubmitStep n s = s := by
  unfold canKeySubmitStep
  simp only [h, List.head?_nil, Option.bind_none]

theorem canKeySubmitStep_stopped (h : s.sigStopped n = true) : canKeySubmitStep n s = s := by
  unfold canKeySubmitStep
  cases hkey : (s.engine n).work.head?.bind (s.keyOf n) with
  | none => simp only [hkey]
  | some k => simp only [hkey, h, or_true, if_true]

end Keys

theorem canKeyJudgeStep_empty {s : State} (h : (s.strain true).canFifo = []) : canKeyJudgeStep s = s := by
  unfold canKeyJudgeStep
  simp only [h]

theorem canKeyJudgeStep_judged {s t : State} {k : CanKey} {l : List CanKey} {v : CanVerdict} (hfifo : (s.strain true).canFifo = k :: l)
    (hv : (s.setStrain true { s.strain true with canFifo := l }).judgeCan k = (v, t)) :
    canKeyJudgeStep s = t.giveVerdict k.infuser v := by
  unfold canKeyJudgeStep
  simp only [hfifo, hv]

/-! ### The scrub of the TCAM (R102) -/

theorem tcamRescanStep_good {s : State} {w : Bool} {g : Nat} (harm : s.armed (uStrain w) 0 = false)
    (hgood : s.codeOf (memTcam w) (4096 * g + (s.bank w g).rescan) = .good) :
    tcamRescanStep w g s = s.setBank w g { s.bank w g with rescan := ((s.bank w g).rescan + 1) % 4096 } := by
  unfold tcamRescanStep
  simp only [hgood, State.codeCheck_unarmed harm, ne_eq, not_true_eq_false, if_false]

/-! ### Bus guards (R105 to R108, R440) -/

theorem guardMatchStep_own (s : State) (n id : Nat) (full : Bool) (age : Nat) : guardMatchStep n id full true age s = s := by
  unfold guardMatchStep
  simp only [Bool.not_true, Bool.false_eq_true, false_and, and_false, if_false]

/-- A frame of another node that the list and the mask pick: destroyed, or counted at the limit of the tick (R106, R107). -/
theorem guardMatchStep_picked {s : State} {n id age : Nat} {full : Bool} (hn : n < 16) (hen : s.enabled (uCan n) = true)
    (hctrl : s.flag (uCan n) F.can_GUARD_CTRL_EN = true) (hdrives : s.guardDrives n = true)
    (hhit : guardHit (s.guardListAt n (s.clk.wc - age)) (s.rd (uCan n) F.can_GUARD_MASK_MASK) id full = true) :
    guardMatchStep n id full false age s =
      if max 1 (s.rd (uCan n) F.can_GUARD_CTRL_MAX_PER_TICK) ≤ (s.canAt n).guardUsed then s.sat (uCan n) F.can_GUARD_CAPPED
      else (s.inc (uCan n) F.can_GUARD_HITS).setCan n
        { s.canAt n with guardUsed := (s.canAt n).guardUsed + 1, guardFlag := true } := by
  unfold guardMatchStep
  exact if_pos ⟨hn, hen, hctrl, rfl, hdrives, hhit⟩

section GuardFlag
variable {s : State} {n : Nat}

theorem guardFlagEndStep_flag (hn : n < 16) (h : (s.canAt n).guardFlag = true) :
    guardFlagEndStep n s = (s.setCan n { s.canAt n with guardFlag := false }).check (uCan n) 0 false := by
  unfold guardFlagEndStep
  exact if_pos ⟨hn, h⟩

theorem guardDriveFaultStep_flag (hn : n < 16) (h : (s.canAt n).guardFlag = true) :
    guardDriveFaultStep n s = (s.setCan n { s.canAt n with guardFlag := false }).check (uCan n) 0 true := by
  unfold guardDriveFaultStep
  exact if_pos ⟨hn, h⟩

theorem guardFlagEndStep_noFlag (h : (s.canAt n).guardFlag = false) : guardFlagEndStep n s = s := by
  unfold guardFlagEndStep
  simp only [h, Bool.false_eq_true, and_false, if_false]

theorem guardDriveFaultStep_noFlag (h : (s.canAt n).guardFlag = false) : guardDriveFaultStep n s = s := by
  unfold guardDriveFaultStep
  simp only [h, Bool.false_eq_true, and_false, if_false]

end GuardFlag

/-- Settles O40: each command is told by the guard of its step: a gate by its instant, a key by its infuser, a guard by the limit of the
tick (`guardMatchStep_picked`) and by the flag that it drives. -/
theorem gatesKeysAndGuards : Obligations.GatesKeysAndGuards := by
  unfold Obligations.GatesKeysAndGuards
  refine fun s w g n => ⟨fun x hx hg hen => ⟨fun hdue => ?_, fun hearly => ?_⟩, fun hoff => ?_,
    fun x hx hrun hmore hinside => ⟨fun hdue => ?_, fun hearly => ?_⟩, fun a l k hwork hkey hasked hroom hsig => ?_, fun hnone => ?_,
    fun k l v t hfifo hv => ?_, fun hempty => ?_, fun b harm hgood => ?_,
    fun hn hen hctrl hdrives id full age hhit => ⟨fun hroom => ?_, fun hcapped => ?_⟩, fun id full age => ?_,
    fun hn hflag => ⟨?_, ?_⟩, fun hflag => ⟨?_, ?_⟩⟩
  · rw [exec_streamGateCycleStart, streamGateCycleStartStep_due hx hg hen hdue]
  · rw [exec_streamGateCycleStart, streamGateCycleStartStep_early hx hearly]
  · rw [exec_streamGateCycleStart, streamGateCycleStartStep_disabled hoff]
  · rw [exec_streamGateEntryExpiry, streamGateEntryExpiryStep_due hx hrun hmore hinside hdue]
  · rw [exec_streamGateEntryExpiry, streamGateEntryExpiryStep_early hx hearly]
  · rw [exec_canKeySubmit, canKeySubmitStep_entered hwork hkey hasked hroom hsig]
  · rw [exec_canKeySubmit]
    rcases hnone with hwork | hsig
    · rw [canKeySubmitStep_noWork hwork]
    · rw [canKeySubmitStep_stopped hsig]
  · rw [exec_canKeyJudge, canKeyJudgeStep_judged hfifo hv]
  · rw [exec_canKeyJudge, canKeyJudgeStep_empty hempty]
  · rw [exec_tcamRescan, tcamRescanStep_good harm hgood]
  · rw [exec_guardMatch, guardMatchStep_picked hn hen hctrl hdrives hhit, if_neg (Nat.not_le.2 hroom)]
  · rw [exec_guardMatch, guardMatchStep_picked hn hen hctrl hdrives hhit, if_pos hcapped]
  · rw [exec_guardMatch, guardMatchStep_own]
  · rw [exec_guardFlagEnd, guardFlagEndStep_flag hn hflag]
  · rw [exec_guardDriveFault, guardDriveFaultStep_flag hn hflag]
  · rw [exec_guardFlagEnd, guardFlagEndStep_noFlag hflag]
  · rw [exec_guardDriveFault, guardDriveFaultStep_noFlag hflag]

end Sys2Proof.Machine

/-! PROOFS. The fabric and the shared buffer (chapter 5: R112, R116, R117, R119 to R123, R124, R126, R132, R133): a cell written and a
cell read, a copy at its admission, a cut-through copy whose ingress stops, and the release of cells. -/

namespace Sys2Proof.Machine

/-! ### The commands and their operations -/

theorem exec_cellWrite (port : Nat) (rx : Option RxIn) (s : State) :
    exec (.cellWrite port rx) s = .next (cellWriteStep port rx s) := rfl

theorem exec_copyEnqueue (s : State) : exec .copyEnqueue s = .next (copyEnqueueStep s) := rfl

theorem exec_ingressUnderrun (p tc : Nat) (s : State) :
    exec (.ingressUnderrun p tc) s = .next (ingressUnderrunStep p tc s) := rfl

theorem exec_discardWalk (s : State) : exec .discardWalk s = .next (discardWalkStep s) := rfl

theorem exec_cellRead (p : Nat) (s : State) : exec (.cellRead p) s = .next (cellReadStep p s).netmTake := rfl

/-! ### What the fabric's state operations change -/

theorem State.input_setInput (s : State) (p : Nat) (x : InPort) : (s.setInput p x).input p = x := smGet_smSet_self _ _ _ _

theorem State.frame_setFrame (s : State) (r : Nat) (f : Frame) : (s.setFrame r f).frame r = some f := pmGet_pmSet_self _ _ _

@[simp] theorem State.setInput_regs (s : State) (p : Nat) (x : InPort) : (s.setInput p x).regs = s.regs := rfl

@[simp] theorem State.setInput_cells (s : State) (p : Nat) (x : InPort) : (s.setInput p x).fab.cells = s.fab.cells := rfl

@[simp] theorem State.setInput_frame (s : State) (p r : Nat) (x : InPort) : (s.setInput p x).frame r = s.frame r := rfl

@[simp] theorem State.setFrame_regs (s : State) (r : Nat) (f : Frame) : (s.setFrame r f).regs = s.regs := rfl

@[simp] theorem State.setFrame_cells (s : State) (r : Nat) (f : Frame) : (s.setFrame r f).fab.cells = s.fab.cells := rfl

theorem State.updFrame_some {s : State} {r : Nat} {f : Frame} (h : s.frame r = some f) (g : Frame → Frame) :
    s.updFrame r g = s.setFrame r (g f) := by
  unfold State.updFrame
  rw [h]

theorem State.fabCheck_good {s : State} {mem idx : Nat} (harm : s.armed uFab 0 = false) (hgood : s.codeOf mem idx = .good)
    (rewrite : Bool) : s.fabCheck mem idx rewrite = (.good, s) := by
  unfold State.fabCheck
  simp only [hgood, State.codeCheck_unarmed harm]

/-! ### A held cell written (R117) -/

theorem cellWriteStep_noBytes {port : Nat} (hp : port < 12) (s : State) :
    cellWriteStep port none s = (s.macHand port).writeHeld port := by
  unfold cellWriteStep
  exact if_pos hp

/-- A held cell stored in the free cell `ptr`: its words are written afresh, and BUF_FREE falls. -/
def State.storeCell (s : State) (ptr : Nat) (c : HeldCell) : State :=
  let s := ((s.clearUpset (memCell ptr) (ptr % 8192)).clearUpset memLink ptr).clearUpset memOwner ptr
  let s := { s with fab := { s.fab with cells := pmSet s.fab.cells ptr ⟨c.data, c.record, 0, c.sof, c.eof, false, false⟩ } }
  s.setFree (s.rd uFab F.fab_BUF_FREE_FREE - 1)

@[simp] theorem State.storeCell_fab (s : State) (ptr : Nat) (c : HeldCell) :
    (s.storeCell ptr c).fab = { s.fab with cells := pmSet s.fab.cells ptr ⟨c.data, c.record, 0, c.sof, c.eof, false, false⟩ } :=
  State.setFree_fab _ _

theorem State.rd_storeCell (s : State) (ptr : Nat) (c : HeldCell) :
    (s.storeCell ptr c).rd uFab F.fab_BUF_FREE_FREE = s.rd uFab F.fab_BUF_FREE_FREE - 1 := by
  have hlt := s.rd_lt uFab F.fab_BUF_FREE_FREE 0 0
  exact (State.rd_setFree _ _).trans (Nat.mod_eq_of_lt (Nat.lt_of_le_of_lt (Nat.sub_le _ _) hlt))

/-- A frame's record with one more cell of its chain. -/
def Frame.withCell (f : Frame) (port ptr : Nat) (c : HeldCell) : Frame :=
  { f with chain := f.chain ++ [ptr], bytes := f.bytes + c.data.length, complete := c.eof, ended := c.eof && 12 ≤ port }

/-- An input after the oldest held cell has been written as cell number `n` of its frame. -/
def InPort.cellWritten (x : InPort) (port n : Nat) (c : HeldCell) (rest : List HeldCell) : InPort :=
  { x with hold := rest, heads := if headDue port n c.eof then x.heads ++ [c.record] else x.heads }

/-- A port that has had its turn takes the same free cell. -/
theorem State.popFree_usePort (s : State) (k slice : Nat) :
    (s.usePort k).popFree slice = (s.freeCellFrom slice 8192 (s.drawn 8192), (s.usePort k).draw) := by
  unfold State.popFree
  rw [State.freeCellFrom_usePort]
  rfl

section WriteHeld
variable {s : State} {port : Nat}

theorem State.writeHeld_idle (h : (s.input port).hold = [] ∨ s.fab.used.contains port = true) : s.writeHeld port = s := by
  unfold State.writeHeld
  split
  · rfl
  · rfl
  · next c t hhold hused =>
    rcases h with h | h
    · rw [hhold] at h
      cases h
    · rw [hused] at h
      cases h

variable {c : HeldCell} {rest : List HeldCell} (hhold : (s.input port).hold = c :: rest) (hused : s.fab.used.contains port = false)
include hhold hused

theorem State.writeHeld_skips (hfull : s.freeCellFrom ((port + s.fabCycle) % 16) 8192 (s.drawn 8192) = none) :
    s.writeHeld port = (s.usePort port).draw.inc uFab F.fab_SLICE_SKIP := by
  unfold State.writeHeld
  simp only [hhold, hused, State.popFree_usePort, hfull]

theorem State.writeHeld_stores {ptr : Nat} {f : Frame}
    (hfree : s.freeCellFrom ((port + s.fabCycle) % 16) 8192 (s.drawn 8192) = some ptr) (hframe : s.frame c.record = some f) :
    s.writeHeld port = (((s.usePort port).draw.storeCell ptr c).setFrame c.record (f.withCell port ptr c)).setInput port
      ((s.input port).cellWritten port (f.chain.length + 1) c rest) := by
  have hfab := State.storeCell_fab (s.usePort port).draw ptr c
  have hrecord : ((s.usePort port).draw.storeCell ptr c).frame c.record = some f := by
    unfold State.frame
    rw [hfab]
    exact hframe
  have hinput (g : Frame) : (((s.usePort port).draw.storeCell ptr c).setFrame c.record g).input port = s.input port := by
    unfold State.input State.setFrame
    rw [hfab]
    rfl
  unfold State.storeCell at hrecord hinput ⊢
  unfold State.writeHeld
  simp only [hhold, hused, State.popFree_usePort, hfree, hrecord, State.updFrame_some hrecord, hinput]
  rfl

end WriteHeld

/-! ### The MAC's hand-over (R116) -/

theorem State.macHand_idle {s : State} {port : Nat}
    (h : findIdx1 (s.macOwes port) (s.input port).rx 0 = none ∨ 2 ≤ (s.input port).hold.length) : s.macHand port = s := by
  unfold State.macHand
  dsimp only
  split
  · rfl
  · next i f hfound =>
    rcases h with h | h
    · rw [hfound] at h
      cases h
    · exact if_pos h

theorem State.roomForFrame_short {s : State} (h : s.rd uFab F.fab_BUF_FREE_FREE < 144 * (s.writingCount + 1)) :
    s.roomForFrame = false := by
  unfold State.roomForFrame
  exact decide_eq_false (Nat.not_le.2 h)

theorem State.macHand_noRoom {s : State} {port i : Nat} {f : MacFrame}
    (hfound : findIdx1 (s.macOwes port) (s.input port).rx 0 = some (i, f)) (hhold : (s.input port).hold.length < 2)
    (hfirst : f.cells = 0) (hfull : s.roomForFrame = false) :
    s.macHand port = (s.setInput port { s.input port with rx := (s.input port).rx.set i { f with lost := true } }).sat uFab
      F.fab_BUF_FULL_DROP := by
  unfold State.macHand
  simp only [hfound, if_neg (Nat.not_le.2 hhold), hfirst, hfull, Bool.not_false, and_self, if_true]

/-- Settles O25: the MAC hands over (`State.macHand_idle`, `State.macHand_noRoom`), then the oldest held cell waits, skips its slice or
is stored (`State.writeHeld_stores`). -/
theorem cellEntersItsSlice : Obligations.CellEntersItsSlice := by
  unfold Obligations.CellEntersItsSlice
  refine fun s port hp => ⟨?_, State.macHand_idle,
    fun i f hfound hhold hfirst hfew => State.macHand_noRoom hfound hhold hfirst (State.roomForFrame_short hfew)⟩
  rintro q rfl
  rw [exec_cellWrite, cellWriteStep_noBytes hp]
  generalize s.macHand port = q
  refine ⟨fun hidle => by rw [State.writeHeld_idle hidle], fun c rest hhold hused => ⟨fun hfull => ?_, fun ptr f hfree hframe => ?_⟩⟩
  · rw [State.writeHeld_skips hhold hused hfull]
  · refine ⟨_, congrArg _ (State.writeHeld_stores hhold hused hfree hframe), ?_, fun r hr => ?_, ?_, ?_, ?_⟩
    · rw [State.setInput_cells, State.setFrame_cells, State.storeCell_fab]
      exact pmGet_pmSet_self _ _ _
    · rw [State.setInput_cells, State.setFrame_cells, State.storeCell_fab]
      exact pmGet_pmSet_ne _ _ _ _ hr
    · rw [State.rd_regs (State.setInput_regs _ _ _), State.rd_regs (State.setFrame_regs _ _ _), State.rd_storeCell]
      rfl
    · have hended : f.withCell port ptr c =
          { f with chain := f.chain ++ [ptr], bytes := f.bytes + c.data.length, complete := c.eof, ended := false } := by
        unfold Frame.withCell
        simp [Nat.not_le.2 hp]
      rw [State.setInput_frame, State.frame_setFrame, hended]
    · rw [State.input_setInput]
      rfl

/-! ### A copy at its admission (R119, R122, R126, R132) -/

theorem copyEnqueueStep_none {s : State} (h : s.fab.toEnqueue = []) : copyEnqueueStep s = s := by
  unfold copyEnqueueStep
  rw [h]

theorem copyEnqueueStep_next {s : State} {r : Nat} {c : Copy} {rest : List (Nat × Copy)} (h : s.fab.toEnqueue = (r, c) :: rest) :
    copyEnqueueStep s = ({ s with fab := { s.fab with toEnqueue := rest } } : State).enqueueCopy r c := by
  unfold copyEnqueueStep
  rw [h]

/-- What each decision of the admission does with a copy of `n` cells, while queue entries are free (R126). -/
def State.admitted (s : State) (r : Nat) (c : Copy) (inPort n : Nat) : Admission → State
  | .reserved => s.enqueue r c n true false
  | .lossless => s.enqueue r c n false true
  | .normal l => (l.foldl (fun s e => s.evict e.1 e.2) s).enqueue r c n false false
  | .dropRed => s.dropCopy r c F.fab_QDROP_RED
  | .dropLimit => s.dropCopy r c F.fab_QDROP_LIMIT
  | .dropLossless => (s.sat uFab F.fab_LOSSLESS_DROP inPort).dropCopy r c F.fab_QDROP_LIMIT

/-- A copy that is no cut-through copy, or whose frame has ended, or that is taken, does not wait. -/
theorem Copy.not_waits {c : Copy} {f : Frame} {a : Admission} (h : c.ct = false ∨ f.ended = true ∨ a.admits = true) :
    ¬ (c.ct = true ∧ (!f.ended) = true ∧ (!a.admits) = true) := by
  rcases h with h | h | h <;> simp [h]

section EnqueueCopy
variable {s : State} {r : Nat} {c : Copy} {f : Frame} {a : Admission} (harm : s.armed uFab 0 = false)
  (hgood : s.codeOf memRecord r = .good) (hframe : s.frame r = some f)
  (ha : s.admission c.queue (s.acctOf f c) f.fm.inPort f.fm.colour = a)
include harm hgood hframe ha

/-- A cut-through copy that is not taken waits for its frame's end (R132). -/
theorem State.enqueueCopy_waits (hct : c.ct = true) (hended : f.ended = false) (hno : a.admits = false) :
    s.enqueueCopy r c = s.setFrame r { f with plan := f.plan ++ [{ c with ct := false }] } := by
  unfold State.enqueueCopy
  simp [State.fabCheck_good harm hgood, hframe, ha, hct, hended, hno]

variable (hnow : c.ct = false ∨ f.ended = true ∨ a.admits = true)
include hnow

/-- Any other copy is dropped while no queue entry is free (R122). -/
theorem State.enqueueCopy_noEntry (hpool : s.rd uFab F.fab_QENT_FREE_FREE = 0) :
    s.enqueueCopy r c = ((s.sat uFab F.fab_QENT_DROP).copyLost r c).walk r := by
  unfold State.enqueueCopy
  simp only [State.fabCheck_good harm hgood, hframe, ha, if_neg (Copy.not_waits hnow), if_pos hpool]

/-- With a free queue entry the admission decides (R126). -/
theorem State.enqueueCopy_admitted (hpool : s.rd uFab F.fab_QENT_FREE_FREE ≠ 0) :
    s.enqueueCopy r c = s.admitted r c f.fm.inPort (s.acctOf f c) a := by
  unfold State.enqueueCopy
  simp only [State.fabCheck_good harm hgood, hframe, ha, if_neg (Copy.not_waits hnow), if_neg hpool]
  cases a <;> rfl

end EnqueueCopy

/-- The copies at their moment are nothing that an admission looks at. -/
theorem State.admission_toEnqueue (s : State) (l : List (Nat × Copy)) (q n inPort colour : Nat) :
    ({ s with fab := { s.fab with toEnqueue := l } } : State).admission q n inPort colour = s.admission q n inPort colour := rfl

/-- Settles O26: the copy leaves the list of those at their moment, and is decided now (`State.enqueueCopy_noEntry`). -/
theorem emptyPoolDropsTheCopy : Obligations.EmptyPoolDropsTheCopy := by
  unfold Obligations.EmptyPoolDropsTheCopy
  intro s r c rest f hnext hframe harm hgood hpool hnow
  rw [exec_copyEnqueue, copyEnqueueStep_next hnext]
  exact congrArg _ (State.enqueueCopy_noEntry harm hgood hframe (State.admission_toEnqueue _ _ _ _ _ _) hnow hpool)

/-- Settles O27: a cut-through copy not taken waits (`State.enqueueCopy_waits`), the others go by the decision
(`State.enqueueCopy_admitted`). -/
theorem admissionDecides : Obligations.AdmissionDecides := by
  unfold Obligations.AdmissionDecides
  refine fun s => ⟨fun hnone => by rw [exec_copyEnqueue, copyEnqueueStep_none hnone], ?_⟩
  intro r c rest f q hnext hq hframe harm hgood
  have harm' : q.armed uFab 0 = false := by rw [hq]; exact harm
  have hgood' : q.codeOf memRecord r = .good := by rw [hq]; exact hgood
  have hframe' : q.frame r = some f := by rw [hq]; exact hframe
  have hfree : q.rd uFab F.fab_QENT_FREE_FREE = s.rd uFab F.fab_QENT_FREE_FREE := by rw [hq]; rfl
  have hexec : exec .copyEnqueue s = .next (q.enqueueCopy r c) := by
    rw [exec_copyEnqueue, copyEnqueueStep_next hnext, hq]
  refine ⟨fun hct hended hno => by rw [hexec, State.enqueueCopy_waits harm' hgood' hframe' rfl hct hended hno], fun hpool => ?_⟩
  rw [← hfree] at hpool
  have decides {a : Admission} (ha : q.admission c.queue (q.acctOf f c) f.fm.inPort f.fm.colour = a)
      (hnow : c.ct = false ∨ f.ended = true ∨ a.admits = true) :
      exec .copyEnqueue s = .next (q.admitted r c f.fm.inPort (q.acctOf f c) a) := by
    rw [hexec, State.enqueueCopy_admitted harm' hgood' hframe' ha hnow hpool]
  refine ⟨fun ha => decides ha (.inr (.inr rfl)), fun ha => decides ha (.inr (.inr rfl)), fun l ha => decides ha (.inr (.inr rfl)),
    fun hnow => ?_⟩
  have hdrop {b : Prop} : c.ct = false ∨ f.ended = true ∨ b := hnow.imp_right .inl
  exact ⟨fun ha => decides ha hdrop, fun ha => decides ha hdrop, fun ha => decides ha hdrop⟩

/-! ### A cut-through copy whose ingress stops (R133) -/

theorem ingressUnderrunStep_stomps {s q : State} {p tc : Nat} {r : Reading} {e : QEntry} {l : List QEntry} {f : Frame}
    (hread : (s.readingOf p).find? (fun r => r.tc == tc) = some r) (hqueue : s.queue (8 * p + tc) = e :: l)
    (hframe : s.frame e.frame = some f) (hp : p < 12) (hstarted : e.started = true) (hct : e.copy.ct = true)
    (hcomplete : f.complete = false)
    (hq : q = (s.setReading p ((s.readingOf p).filter (fun r => r.tc != tc))).removeEntry (8 * p + tc) e) :
    ingressUnderrunStep p tc s = ((q.stompTx p r f).walkFrom e.frame (r.cells.map (·.1))).sat uFab F.fab_UNDERRUN p := by
  unfold ingressUnderrunStep
  simp only [hread, hqueue, hframe, hq]
  exact if_pos ⟨hp, hstarted, hct, by simp [hcomplete]⟩

theorem ingressUnderrunStep_noCopy {s : State} {p tc : Nat}
    (h : (s.readingOf p).find? (fun r => r.tc == tc) = none ∨ s.queue (8 * p + tc) = [] ∨ 12 ≤ p) :
    ingressUnderrunStep p tc s = s := by
  unfold ingressUnderrunStep
  split
  · next r e l hread hqueue =>
    have hp : ¬ p < 12 := by
      rcases h with h | h | h
      · simp [hread] at h
      · simp [hqueue] at h
      · exact Nat.not_lt.2 h
    split
    · rfl
    · exact if_neg (fun hc => hp hc.1)
  · rfl

theorem ingressUnderrunStep_otherCopy {s : State} {p tc : Nat} {e : QEntry} {l : List QEntry} (hqueue : s.queue (8 * p + tc) = e :: l)
    (h : e.started = false ∨ e.copy.ct = false ∨ s.frame e.frame = none ∨ ∃ f, s.frame e.frame = some f ∧ f.complete = true) :
    ingressUnderrunStep p tc s = s := by
  unfold ingressUnderrunStep
  rw [hqueue]
  split
  · next r e' l' _ he =>
    obtain ⟨rfl, rfl⟩ := List.cons.inj he
    split
    · rfl
    · next f hframe =>
      refine if_neg ?_
      rintro ⟨-, hstarted, hct, hcomplete⟩
      rcases h with h | h | h | ⟨g, hg, hgc⟩
      · simp [hstarted] at h
      · simp [hct] at h
      · simp [hframe] at h
      · rw [hframe] at hg
        obtain rfl := Option.some.inj hg
        simp [hgc] at hcomplete
  · rfl

/-- Settles O28: the three cases of `ingressUnderrunStep`. -/
theorem underrunStomps : Obligations.UnderrunStomps := by
  unfold Obligations.UnderrunStomps
  refine fun s p tc => ⟨fun r e l f q hread hqueue hframe hp hstarted hct hcomplete hq => ?_, fun h => ?_, fun e l hqueue h => ?_⟩
  · rw [exec_ingressUnderrun, ingressUnderrunStep_stomps hread hqueue hframe hp hstarted hct hcomplete hq]
    rfl
  · rw [exec_ingressUnderrun, ingressUnderrunStep_noCopy h]
  · rw [exec_ingressUnderrun, ingressUnderrunStep_otherCopy hqueue h]

/-! ### The release of cells (R120, R121) -/

section Release
variable {s : State} {copies ptr : Nat} {c : Cell} (h : pmGet s.fab.cells ptr = some c)
include h

theorem State.release_counts (hmore : c.ref ≠ copies) :
    s.release copies ptr = { s with fab := { s.fab with cells := pmSet s.fab.cells ptr { c with ref := c.ref + 1 } } } := by
  unfold State.release
  simp only [h, if_neg hmore]

theorem State.release_last (hlast : c.ref = copies) : s.release copies ptr = s.freeCell ptr := by
  unfold State.release
  simp only [h, if_pos hlast]

end Release

/-- A field that shares no bit with one that may be written. -/
theorem State.rd_ite_wr_apart (s : State) (b : Prop) [Decidable b] (u u' : UnitNo) (f f' : Fld) (v i j i' j' : Nat)
    (h : apart u f i j u' f' i' j' = true) : (if b then s.wr u f v i j else s).rd u' f' i' j' = s.rd u' f' i' j' := by
  split
  · exact State.rd_wr_apart _ _ _ _ _ _ _ _ _ _ h
  · rfl

/-- A freed cell counts as free. -/
theorem State.rd_freeCell (s : State) (ptr : Nat) :
    (s.freeCell ptr).rd uFab F.fab_BUF_FREE_FREE = (s.rd uFab F.fab_BUF_FREE_FREE + 1) % 2 ^ F.fab_BUF_FREE_FREE.width := by
  unfold State.freeCell
  dsimp only
  rw [State.rd_setFree, State.rd_ite_wr_apart _ _ _ _ _ _ _ _ _ _ _ (by decide)]
  rfl

/-- A release touches no field but the counts of free cells and of strikes. -/
theorem State.rd_release_apart (s : State) (copies ptr : Nat) (u : UnitNo) (f : Fld) (i j : Nat)
    (hfree : apart uFab F.fab_BUF_FREE_FREE 0 0 u f i j = true) (hmin : apart uFab F.fab_BUF_FREE_MIN_MIN 0 0 u f i j = true)
    (hstrikes : apart uFab F.fab_AUDIT_STRIKES 0 0 u f i j = true) : (s.release copies ptr).rd u f i j = s.rd u f i j := by
  unfold State.release
  split
  · rfl
  · split
    · unfold State.freeCell
      dsimp only
      rw [State.rd_setFree_apart _ _ _ _ _ _ hfree hmin, State.rd_ite_wr_apart _ _ _ _ _ _ _ _ _ _ _ hstrikes]
      rfl
    · rfl

@[simp] theorem State.release_armed (s : State) (copies ptr d : Nat) : (s.release copies ptr).armed uFab d = s.armed uFab d := by
  unfold State.armed
  rw [s.rd_release_apart copies ptr uFab F.unit_INJECT 0 0 (by decide) (by decide) (by decide)]

@[simp] theorem State.release_codeOf (s : State) (copies ptr mem idx : Nat) :
    (s.release copies ptr).codeOf mem idx = s.codeOf mem idx := by
  unfold State.codeOf
  rw [State.release_upsets]

/-- A position before the last of the chain, or a chain that still grows, does not end a frame. -/
theorem Frame.not_atEnd {f : Frame} {n : Nat} (h : f.complete = false ∨ n ≠ f.chain.length) :
    ¬ (f.complete = true ∧ n = f.chain.length) := by
  rintro ⟨hcomplete, hlast⟩
  rcases h with h | h
  · simp [hcomplete] at h
  · exact h hlast

theorem discardWalkStep_none {s : State} (h : s.fab.walks = []) : discardWalkStep s = s := by
  unfold discardWalkStep
  simp only [h, List.take_nil, List.drop_nil, List.foldl_nil, List.append_nil]
  rw [← h]

/-- A walk at a cell before the last of the chain releases it and goes on. -/
theorem State.walkStep_releases {s : State} {k : Walk} {f : Frame} {ptr : Nat} (hframe : s.frame k.frame = some f)
    (hcell : f.chain[k.pos]? = some ptr) (hskip : k.skip.contains k.pos = false)
    (hmore : f.complete = false ∨ k.pos + 1 ≠ f.chain.length) (harm : s.armed uFab 0 = false)
    (hgood : s.codeOf memLink ptr = .good) :
    s.walkStep k = (some { k with pos := k.pos + 1 }, s.release f.copies ptr) := by
  have hcheck : (s.release f.copies ptr).fabCheck memLink ptr true = (.good, s.release f.copies ptr) :=
    State.fabCheck_good (by rw [State.release_armed, harm]) (by rw [State.release_codeOf, hgood]) true
  unfold State.walkStep
  simp only [hframe, hcell, hskip, Bool.false_eq_true, if_false, hcheck, if_neg (Frame.not_atEnd hmore)]

theorem discardWalkStep_one {s t : State} {k k' : Walk} (hwalks : s.fab.walks = [k]) (hstep : s.walkStep k = (some k', t)) :
    discardWalkStep s = { t with fab := { t.fab with walks := [k'] } } := by
  unfold discardWalkStep
  simp [hwalks, hstep]

/-- Settles O29: a release by REF (`State.release_counts`, `State.release_last`), a walk by its one step
(`State.walkStep_releases`). -/
theorem cellsAreReleasedOnce : Obligations.CellsAreReleasedOnce := by
  unfold Obligations.CellsAreReleasedOnce
  refine fun s => ⟨fun copies ptr c hcell => ⟨State.release_counts hcell, fun hlast => ?_⟩, fun hnone => ?_,
    fun k f ptr hwalks hframe hcell hskip hmore harm hgood => ?_⟩
  · rw [State.release_last hcell hlast]
    refine ⟨?_, State.rd_freeCell _ _⟩
    rw [State.freeCell_fab]
    exact pmGet_pmDel_self _ _
  · rw [exec_discardWalk, discardWalkStep_none hnone]
  · rw [exec_discardWalk, discardWalkStep_one hwalks (State.walkStep_releases hframe hcell hskip hmore harm hgood)]
    exact ⟨_, rfl, rfl, rfl⟩

/-! ### A cell read (R112, R123) -/

theorem cellReadStep_idle {s : State} {p : Nat} (h : s.readingOf p = [] ∨ s.fab.used.contains (16 + p) = true) :
    cellReadStep p s = s := by
  unfold cellReadStep
  rcases h with h | h
  · simp [h]
  · refine if_neg ?_
    rintro ⟨-, hfree⟩
    rw [h] at hfree
    exact Bool.false_ne_true hfree

/-- The one copy that an output reads, if it may be read on, is what the output reads in this cycle. -/
theorem cellReadStep_one {s : State} {p : Nat} {r : Reading} (hp : p < 16) (hused : s.fab.used.contains (16 + p) = false)
    (hread : s.readingOf p = [r]) (hmay : s.mayRead p r = true) :
    cellReadStep p s = ((s.usePort (16 + p)).readOne p r).getD s := by
  have hlist : ([r].filter (fun r => decide (6 ≤ r.tc)) ++ [r].filter (fun r => decide (r.tc < 6))).filter (s.mayRead p) = [r] := by
    rcases Nat.lt_or_ge r.tc 6 with h | h
    · simp [h, Nat.not_le.2 h, hmay]
    · simp [h, Nat.not_lt.2 h, hmay]
  unfold cellReadStep
  rw [if_pos ⟨hp, by rw [hused]; rfl⟩, hread]
  dsimp only
  rw [hlist]
  cases hone : (s.usePort (16 + p)).readOne p r <;> simp [hone]

section ReadOne
variable {s : State} {p : Nat} {r : Reading} {e : QEntry} {l : List QEntry} {f : Frame}
  (hqueue : s.queue (8 * p + r.tc) = e :: l) (hframe : s.frame e.frame = some f)
include hqueue hframe

theorem State.readOne_noCell (h : windowCell f r ((p + s.fabCycle) % 16) = none) : s.readOne p r = none := by
  unfold State.readOne
  simp only [hqueue, hframe, h]

theorem State.readOne_started {i ptr : Nat} (hstarted : e.started = true)
    (h : windowCell f r ((p + s.fabCycle) % 16) = some (i, ptr)) :
    s.readOne p r = some (s.takeCell p r { e with started := true } f i ptr) := by
  unfold State.readOne State.readHead
  simp [hqueue, hframe, h, hstarted]

end ReadOne

/-- A cell whose codes read right, not the last one unread, goes to its place in the one copy being read, and is released. -/
theorem State.takeCell_more {s : State} {p i ptr : Nat} {r : Reading} {f : Frame} {c : Cell} (e : QEntry)
    (hread : s.readingOf p = [r]) (hcell : pmGet s.fab.cells ptr = some c) (harm : s.armed uFab 0 = false)
    (hdata : s.codeOf (memCell ptr) (ptr % 8192) = .good) (hlink : s.codeOf memLink ptr = .good)
    (hmore : f.complete = false ∨ (pmSet r.cells i c.data).length ≠ f.chain.length) {t : State}
    (ht : t = (s.release f.copies ptr).setReading p [{ r with cells := pmSet r.cells i c.data }]) :
    s.takeCell p r e f i ptr = if p < 12 then t.bufferCell p r.tc else t := by
  unfold State.takeCell
  simp [State.fabCheck_good harm hdata, State.fabCheck_good harm hlink, hcell, hread, Frame.not_atEnd hmore, ht]

/-- Settles O30: the output's one copy is read (`cellReadStep_one`), by the cell of its window in the presented slice
(`State.takeCell_more`). -/
theorem cellReadTakesTheCell : Obligations.CellReadTakesTheCell := by
  unfold Obligations.CellReadTakesTheCell
  refine fun s p hp hring => ⟨fun hidle => ?_, fun r e l f hused hread hmay hqueue hstarted hframe =>
    ⟨fun hnone => ?_, fun i ptr c t hsome hcell harm hdata hlink hmore ht => ?_⟩⟩
  · rw [exec_cellRead, cellReadStep_idle hidle, hring]
  · have hone : (s.usePort (16 + p)).readOne p r = none := State.readOne_noCell hqueue hframe hnone
    rw [exec_cellRead, cellReadStep_one hp hused hread hmay, hone, Option.getD_none, hring]
  · have hone := State.readOne_started (s := s.usePort (16 + p)) hqueue hframe hstarted hsome
    rw [exec_cellRead, cellReadStep_one hp hused hread hmay, hone, Option.getD_some,
      State.takeCell_more (s := s.usePort (16 + p)) _ hread hcell harm hdata hlink hmore ht]

end Sys2Proof.Machine

/-! PROOFS. Egress scheduling (5.6 and chapter 6: R140 to R143, R147 to R150, R155, R156, R168): the selection of a Spout, its gates and
their list, preemption, and the link of an E-port. -/

namespace Sys2Proof.Machine

/-! ### The commands and their operations -/

theorem exec_spoutSelect (p : Nat) (s : State) : exec (.spoutSelect p) s = .next (spoutSelectStep p s) := rfl

theorem exec_gateCycleStart (p : Nat) (s : State) : exec (.gateCycleStart p) s = .next (gateCycleStartStep p s) := rfl

theorem exec_gateEntryExpiry (p : Nat) (s : State) : exec (.gateEntryExpiry p) s = .next (gateEntryExpiryStep p s) := rfl

theorem exec_gclDataWrite (p : Nat) (v : Word) (m : Nat) (s : State) :
    exec (.gclDataWrite p v m) s = .next (s.command (uSpout p) m (gclAddr p) (gclDataWriteStep p v m)) := rfl

theorem exec_gclDataRead (p : Nat) (s : State) : exec (.gclDataRead p) s = .next (gclDataReadStep p s) := rfl

theorem exec_framePreempt (p age : Nat) (s : State) : exec (.framePreempt p age) s = .next (framePreemptStep p age s) := rfl

theorem exec_preemptVerify (p o : Nat) (s : State) : exec (.preemptVerify p o) s = .next (preemptVerifyStep p o s) := rfl

theorem exec_ePortLinkChange (p mbps : Nat) (s : State) :
    exec (.ePortLinkChange p mbps) s = .next (ePortLinkChangeStep p mbps s) := rfl

/-! ### Masks -/

theorem bitOf_mod_two_pow {i n : Nat} (mask : Nat) (h : i < n) : bitOf (mask % 2 ^ n) i = bitOf mask i := by
  have hbit (k : Nat) : bitOf k i = k.testBit i := by
    rw [Nat.testBit_eq_decide_div_mod_eq]
    rfl
  rw [hbit, hbit, Nat.testBit_mod_two_pow, decide_eq_true h, Bool.true_and]

/-- The mask made of the bits of a mask is its low part. -/
theorem maskOf_bitsOf (n mask : Nat) : maskOf (bitsOf n mask) = mask % 2 ^ n := by
  induction n with
  | zero => exact (Nat.mod_one mask).symm
  | succ n ih =>
    have hclear : bitOf (mask % 2 ^ n) n = false := by
      unfold bitOf
      rw [Nat.div_eq_of_lt (Nat.mod_lt _ (Nat.two_pow_pos n))]
      rfl
    have hstep : maskOf (bitsOf (n + 1) mask) = if bitOf mask n then maskOf (bitsOf n mask) + 2 ^ n else maskOf (bitsOf n mask) := by
      rw [ih]
      unfold maskOf bitsOf at ih ⊢
      rw [List.range_succ, List.filter_append, List.foldl_append, ih]
      cases hbit : bitOf mask n <;> simp [hbit, setBit, hclear]
    rw [hstep, ih, Nat.mod_pow_succ]
    rcases Nat.mod_two_eq_zero_or_one (mask / 2 ^ n) with h | h <;> simp [bitOf, h]

/-- In a list that falls, the first element with a property is the greatest one. -/
theorem find?_of_falling {l : List Nat} (hl : l.Pairwise (· > ·)) {q : Nat → Bool} {c : Nat} (hc : c ∈ l) (hq : q c = true)
    (hmax : ∀ d ∈ l, c < d → q d = false) : l.find? q = some c := by
  induction l with
  | nil => cases hc
  | cons a l ih =>
    obtain ⟨hfall, hl⟩ := List.pairwise_cons.1 hl
    rcases List.mem_cons.1 hc with rfl | hc
    · exact List.find?_cons_of_pos hq
    · have ha : q a = false := hmax a List.mem_cons_self (hfall c hc)
      rw [List.find?_cons_of_neg (by simp [ha])]
      exact ih hl hc fun d hd => hmax d (List.mem_cons_of_mem _ hd)

/-- A search among the numbers below `n` sees the low part of a mask only. -/
theorem find?_bitOf_mod {l : List Nat} {n : Nat} (hl : ∀ d ∈ l, d < n) (mask : Nat) :
    l.find? (bitOf (mask % 2 ^ n)) = l.find? (bitOf mask) := by
  induction l with
  | nil => rfl
  | cons a l ih =>
    rw [List.find?_cons, List.find?_cons, bitOf_mod_two_pow mask (hl a List.mem_cons_self),
      ih fun d hd => hl d (List.mem_cons_of_mem _ hd)]

/-! ### Selection (R140, R141, R168) -/

theorem mem_highClasses {c : Nat} : c ∈ [7, 6, 5, 4] ↔ 4 ≤ c ∧ c ≤ 7 := by
  simp only [List.mem_cons, List.not_mem_nil, or_false]
  omega

theorem mem_lowClasses {c : Nat} : c ∈ [3, 2, 1, 0] ↔ c ≤ 3 := by
  simp only [List.mem_cons, List.not_mem_nil, or_false]
  omega

/-- With no copy being read and no HOLD every class may start. -/
theorem State.mayStart_free {s : State} {p : Nat} (hread : s.readingOf p = []) (hheld : s.held p = false) (c : Nat) :
    s.mayStart p c = true := by
  unfold State.mayStart
  simp only [hread, hheld, List.isEmpty_nil, Bool.true_or, Bool.not_false, Bool.or_true, Bool.and_self]

section Pick
variable {s : State} {p mask : Nat} (hread : s.readingOf p = []) (hheld : s.held p = false)
include hread hheld

/-- The eligible classes are then all candidates. -/
theorem State.mayStart_mask (mask : Nat) : maskOf ((bitsOf 8 mask).filter (s.mayStart p)) = mask % 2 ^ 8 := by
  rw [List.filter_eq_self.2 fun c _ => State.mayStart_free hread hheld c, maskOf_bitsOf]

theorem State.pick_high {c : Nat} (hfind : [7, 6, 5, 4].find? (bitOf mask) = some c) : s.pick p mask = (some c, s) := by
  unfold State.pick
  simp only [State.mayStart_mask hread hheld, find?_bitOf_mod (l := [7, 6, 5, 4]) (n := 8) (by decide), hfind]

/-- Without an eligible class above TC3, and without DWRR, strict priority goes on. -/
theorem State.pick_low (hfind : [7, 6, 5, 4].find? (bitOf mask) = none) (hwrr : s.flag (uSpout p) F.spout_SCHED_CFG_WRR_EN = false) :
    s.pick p mask = ([3, 2, 1, 0].find? (bitOf mask), s) := by
  unfold State.pick
  simp only [State.mayStart_mask hread hheld, find?_bitOf_mod (l := [7, 6, 5, 4]) (n := 8) (by decide),
    find?_bitOf_mod (l := [3, 2, 1, 0]) (n := 8) (by decide), hfind, hwrr, Bool.false_eq_true, if_false]

end Pick

section SpoutSelect
variable {s : State} {p : Nat}

theorem spoutSelectStep_off (hp : p < 12)
    (h : s.enabled (uSpout p) = false ∨ s.txStopped = true ∨ s.flag (uMac p) F.mac_TX_CFG_TX_EN = false) : spoutSelectStep p s = s := by
  have hoff : (!s.enabled (uSpout p)) = true ∨ (p < 12 ∧ (s.txStopped = true ∨ (!s.flag (uMac p) F.mac_TX_CFG_TX_EN) = true)) := by
    rcases h with h | h | h <;> simp [h, hp]
  unfold spoutSelectStep
  rw [if_pos (Nat.lt_trans hp (by decide)), if_pos hoff]

variable (hp : p < 12) (hen : s.enabled (uSpout p) = true) (hstop : s.txStopped = false)
  (htx : s.flag (uMac p) F.mac_TX_CFG_TX_EN = true)
include hp hen hstop htx

/-- A time message that waits, and may start, goes first (R168). -/
theorem spoutSelectStep_message {m : PtpMsg} {l : List PtpMsg} (hqueue : s.txQueue p = m :: l) (hmay : s.mayStart p 8 = true) :
    spoutSelectStep p s = (s.ptpTaken p).sendMsg p m := by
  unfold spoutSelectStep
  simp [Nat.lt_trans hp (show 12 < 16 by decide), hp, hen, hstop, htx, hqueue, hmay]

variable (hmsg : s.txQueue p = [] ∨ s.mayStart p 8 = false)
include hmsg

theorem spoutSelectStep_nothing (hnone : ∀ c, c < 8 → s.mayStart p c = false) : spoutSelectStep p s = s := by
  have hall : (List.range 8).any (s.mayStart p) = false := by
    simpa only [List.any_eq_false, List.mem_range, Bool.not_eq_true] using hnone
  unfold spoutSelectStep
  rcases hmsg with h | h <;> simp [Nat.lt_trans hp (show 12 < 16 by decide), hp, hen, hstop, htx, hall, h]

/-- With no time message to send, a Spout that may start a class takes the one that R141 picks. -/
theorem spoutSelectStep_picks {mask : Nat} {t q : State} {o : Option Nat} (hmay : s.mayStart p 0 = true)
    (hmask : s.eligibleMask p = (mask, t)) (hpick : t.pick p mask = (o, q)) :
    spoutSelectStep p s = o.elim q fun c => q.select p c (smGet intZero (t.spoutAt p).deficit c) := by
  have hany : (List.range 8).any (s.mayStart p) = true := List.any_eq_true.2 ⟨0, by decide, hmay⟩
  unfold spoutSelectStep
  rcases hmsg with h | h <;> cases o <;>
    simp [Nat.lt_trans hp (show 12 < 16 by decide), hp, hen, hstop, htx, h, hany, hmask, hpick]

end SpoutSelect

/-- Settles O31: the guards of the step in their order, then the highest eligible class of the upper four, or of the lower four
(`State.pick_high`, `State.pick_low`). -/
theorem spoutSelects : Obligations.SpoutSelects := by
  unfold Obligations.SpoutSelects
  refine fun s p hp => ⟨fun hoff => ?_, fun hen hstop htx => ⟨fun m l hqueue hmay => ?_, fun hnone hmsg => ?_,
    fun hempty hread hheld mask t hmask hread' hheld' => ?_⟩⟩
  · rw [exec_spoutSelect, spoutSelectStep_off hp hoff]
  · rw [exec_spoutSelect, spoutSelectStep_message hp hen hstop htx hqueue hmay]
  · rw [exec_spoutSelect, spoutSelectStep_nothing hp hen hstop htx hmsg hnone]
  have hexec {o : Option Nat} (hpick : t.pick p mask = (o, t)) :
      exec (.spoutSelect p) s = .next (o.elim t fun c => t.select p c (smGet intZero (t.spoutAt p).deficit c)) := by
    rw [exec_spoutSelect,
      spoutSelectStep_picks hp hen hstop htx (.inl hempty) (State.mayStart_free hread hheld 0) hmask hpick]
  refine ⟨fun c hlow hhigh hc hmax => ?_, fun hnone hwrr => ?_⟩
  · exact hexec (State.pick_high hread' hheld' (find?_of_falling (by decide) (mem_highClasses.2 ⟨hlow, hhigh⟩) hc
      fun d hd hcd => hmax d hcd (mem_highClasses.1 hd).2))
  have hhigh : [7, 6, 5, 4].find? (bitOf mask) = none :=
    List.find?_eq_none.2 fun d hd => by simp [hnone d (mem_highClasses.1 hd).1 (mem_highClasses.1 hd).2]
  have hpick := State.pick_low hread' hheld' hhigh hwrr
  refine ⟨fun c hle hc hmax => ?_, fun hnoLow => ?_⟩
  · rw [find?_of_falling (by decide) (mem_lowClasses.2 hle) hc fun d hd hcd => hmax d hcd (mem_lowClasses.1 hd)] at hpick
    exact hexec hpick
  · rw [List.find?_eq_none.2 fun d hd => by simp [hnoLow d (mem_lowClasses.1 hd)]] at hpick
    exact hexec hpick

/-! ### Gate cycles and entries (R147, R148, R150) -/

section Gates
variable {s : State} {p : Nat}

theorem gateCycleStartStep_swap (hp : p < 12) (hdue : s.swapDue (s.spoutAt p).gate = true) :
    gateCycleStartStep p s = s.gateCycle p (s.spoutAt p).gate.swap (s.spoutAt p).gate.swapAt := by
  unfold gateCycleStartStep
  simp only [if_pos hp, hdue, if_true]

variable {c : GateCfg} (hoper : (s.spoutAt p).gate.oper = some c)
include hoper

/-- Without a change that is due, the running list goes on to its next cycle once that has begun. -/
theorem gateCycleStartStep_running (hp : p < 12) (hdue : s.swapDue (s.spoutAt p).gate = false) :
    gateCycleStartStep p s = if (s.spoutAt p).gate.cycleStart + Int.ofNat c.cycle ≤ s.domNs c.td then
      s.gateCycle p (s.spoutAt p).gate ((s.spoutAt p).gate.cycleStart + Int.ofNat c.cycle) else s := by
  unfold gateCycleStartStep
  simp only [if_pos hp, hdue, hoper, Bool.false_eq_true, if_false]

theorem gateEntryExpiryStep_next (hp : p < 12) (hmore : (s.spoutAt p).gate.entry + 1 < (s.spoutAt p).gate.entries.length)
    (hended : (s.spoutAt p).gate.entryEnd ≤ s.domNs c.td) :
    gateEntryExpiryStep p s = s.setGates p ((s.spoutAt p).gate.enter (s.preemptActive p) ((s.spoutAt p).gate.entry + 1)
      ((s.spoutAt p).gate.entryEnd + entryNs ((s.spoutAt p).gate.entries.getD ((s.spoutAt p).gate.entry + 1) 1))) := by
  unfold gateEntryExpiryStep
  simp only [hoper]
  exact if_pos ⟨hp, hmore, hended⟩

theorem gateEntryExpiryStep_early (hearly : s.domNs c.td < (s.spoutAt p).gate.entryEnd) : gateEntryExpiryStep p s = s := by
  unfold gateEntryExpiryStep
  simp only [hoper]
  exact if_neg fun h => absurd h.2.2 (Int.not_le.2 hearly)

end Gates

/-! ### The gate control list (R148) -/

section GateList
variable {s : State} {p : Nat} (hp : p < 12)
include hp

theorem gclDataWriteStep_stores {v : Word} {m : Nat} (haddr : s.flag (uSpout p) F.spout_GCL_ADDR_OPER = false)
    (hpending : (s.spoutAt p).gate.pending = none) :
    gclDataWriteStep p v m s = ((s.setSpout p { s.spoutAt p with
      gate := (s.spoutAt p).gate.putAdmin (s.rd (uSpout p) F.spout_GCL_ADDR_INDEX)
        (s.rd (uSpout p) F.spout_GCL_DATA_HI * 2 ^ 32 + v.toNat) }).wr (uSpout p) F.spout_GCL_DATA_LO v.toNat).gclNext p := by
  unfold gclDataWriteStep
  simp only [if_pos hp, haddr, hpending, Option.isSome_none, Bool.false_eq_true, or_self, if_false]

theorem gclDataWriteStep_refuses {v : Word} {m : Nat}
    (h : s.flag (uSpout p) F.spout_GCL_ADDR_OPER = true ∨ (s.spoutAt p).gate.pending.isSome = true) :
    gclDataWriteStep p v m s = (s.sat (uSpout p) F.spout_GATE_STATUS_GCL_REJECTS).refuse m (gclAddr p) := by
  unfold gclDataWriteStep
  rw [if_pos hp]
  exact if_pos h

theorem gclDataReadStep_reads {e : Nat} (he : e = smGet zero0
    (if s.flag (uSpout p) F.spout_GCL_ADDR_OPER then (s.spoutAt p).gate.operList else (s.spoutAt p).gate.adminList)
    (s.rd (uSpout p) F.spout_GCL_ADDR_INDEX)) :
    gclDataReadStep p s = ({ (s.wr (uSpout p) F.spout_GCL_DATA_HI (e / 2 ^ 32)).wr (uSpout p) F.spout_GCL_DATA_LO e with
      readData := BitVec.ofNat 32 e } : State).gclNext p := by
  subst he
  unfold gclDataReadStep
  exact if_pos hp

end GateList

/-! ### Preemption and the link (R144, R155, R156) -/

/-- Express traffic selected or on the line, or a HOLD, cuts the preemptable fragment on the wire at its next point. -/
theorem framePreemptStep_cuts {s : State} {p n age : Nat} {e : Tx} (hp : p < 12) (hactive : s.preemptActive p = true)
    (hwire : s.onWire p = some e) (hpoint : s.nextPoint p e (e.start.getD 0 + age) = some n) (htc : e.tc < 6) (hcut : e.cut = none)
    (hwanted : ((s.readingOf p).any (fun r => decide (6 ≤ r.tc)) ||
      (s.spoutAt p).line.any (fun e => decide (6 ≤ e.tc) && e.tc != 9) || s.held p) = true) :
    framePreemptStep p age s = s.setSpout p { s.spoutAt p with
      line := (s.spoutAt p).line.map (fun y => if y.start.isSome then { y with cut := some n } else y) } := by
  unfold framePreemptStep
  rw [if_pos ⟨hp, hactive⟩]
  simp only [hwire, hpoint]
  exact if_pos ⟨hwanted, htc, by rw [hcut]; rfl⟩

theorem framePreemptStep_inactive {s : State} {p : Nat} (h : s.preemptActive p = false) (age : Nat) :
    framePreemptStep p age s = s := by
  unfold framePreemptStep
  exact if_neg fun hc => by simp [h] at hc

section Verify
variable {s : State} {p : Nat} (hp : p < 12)
include hp

theorem preemptVerifyStep_off (h : s.flag (uMac p) F.mac_PREEMPT_CFG_EN = false ∨ s.flag (uMac p) F.mac_PREEMPT_CFG_VERIFY_DIS = true)
    (o : Nat) : preemptVerifyStep p o s = s.wr (uMac p) F.mac_PREEMPT_STATUS_VERIFY 0 := by
  unfold preemptVerifyStep
  rw [if_pos hp]
  exact if_pos (h.imp_left fun h => by rw [h]; rfl)

variable (hen : s.flag (uMac p) F.mac_PREEMPT_CFG_EN = true) (hdis : s.flag (uMac p) F.mac_PREEMPT_CFG_VERIFY_DIS = false)
include hen hdis

/-- With verification on, the outcome of an attempt decides: it begins (0), succeeds (1), or fails and is counted. -/
theorem preemptVerifyStep_on (o : Nat) : preemptVerifyStep p o s =
    if o = 0 then (s.wr (uMac p) F.mac_PREEMPT_STATUS_VERIFY 2).holdEnd p
    else if o = 1 then s.wr (uMac p) F.mac_PREEMPT_STATUS_VERIFY 3
    else ((s.sat (uMac p) F.mac_VERIFY_FAIL).wr (uMac p) F.mac_PREEMPT_STATUS_VERIFY (if o = 2 then 2 else 4)).holdEnd p := by
  unfold preemptVerifyStep
  simp only [if_pos hp, hen, hdis, Bool.not_true, Bool.false_eq_true, or_self, if_false]

end Verify

theorem ePortLinkChangeStep_rate {s t : State} {p mbps : Nat} (hp : p < 12)
    (ht : t = { s with fab := { s.fab with links := smSet zero0 s.fab.links p mbps } }) :
    ePortLinkChangeStep p mbps s = if mbps = 0 then (t.preemptCfg p).holdEnd p else t := by
  subst ht
  unfold ePortLinkChangeStep
  exact if_pos hp

/-- Settles O41: each command is told by the guard of its step, the gates by their instants (`gateCycleStartStep_running`), the list by
its selection, preemption by its activity and the outcome of its verification (`preemptVerifyStep_on`). -/
theorem gatesOfTheSpouts : Obligations.GatesOfTheSpouts := by
  unfold Obligations.GatesOfTheSpouts
  refine fun s p hp => ⟨fun x hx => ?_, fun hactive e n age hwire hpoint htc hcut hwanted => ?_, fun hinactive age => ?_,
    fun hoff o => ?_, fun hen hdis => ?_, fun mbps t ht => ?_⟩
  · subst hx
    refine ⟨fun hdue => ?_, fun c hdue hoper => ⟨fun hcome => ?_, fun hearly => ?_⟩,
      fun c hoper hmore => ⟨fun hended => ?_, fun hearly => ?_⟩,
      fun m v htakes => ⟨fun haddr hpending => ?_, fun hclosed => ?_⟩, fun e he => ?_⟩
    · rw [exec_gateCycleStart, gateCycleStartStep_swap hp hdue]
    · rw [exec_gateCycleStart, gateCycleStartStep_running hoper hp hdue, if_pos hcome]
    · rw [exec_gateCycleStart, gateCycleStartStep_running hoper hp hdue, if_neg (Int.not_le.2 hearly)]
    · rw [exec_gateEntryExpiry, gateEntryExpiryStep_next hoper hp hmore hended]
    · rw [exec_gateEntryExpiry, gateEntryExpiryStep_early hoper hearly]
    · rw [exec_gclDataWrite, State.command_ok htakes, gclDataWriteStep_stores hp haddr hpending]
    · rw [exec_gclDataWrite, State.command_ok htakes, gclDataWriteStep_refuses hp hclosed]
    · rw [exec_gclDataRead, gclDataReadStep_reads hp he]
  · rw [exec_framePreempt, framePreemptStep_cuts hp hactive hwire hpoint htc hcut hwanted]
  · rw [exec_framePreempt, framePreemptStep_inactive hinactive]
  · rw [exec_preemptVerify, preemptVerifyStep_off hp hoff]
  · have hverify (o : Nat) := (exec_preemptVerify p o s).trans (congrArg _ (preemptVerifyStep_on hp hen hdis o))
    refine ⟨?_, ?_, ?_, ?_⟩
    · rw [hverify, if_pos rfl]
    · rw [hverify, if_neg (by decide), if_pos rfl]
    · rw [hverify, if_neg (by decide), if_neg (by decide), if_pos rfl]
    · rw [hverify, if_neg (by decide), if_neg (by decide), if_neg (by decide)]
  · rw [exec_ePortLinkChange, ePortLinkChangeStep_rate hp ht]

end Sys2Proof.Machine

/-! PROOFS. Time (chapter 7: R163 to R183; R264): the messages of the time engine, the commands and time-outs of its domains, the
timestamped pins, and the transceivers of the buses. -/

namespace Sys2Proof.Machine

/-! ### The commands and their operations -/

theorem exec_pdelayReqSend (p : Nat) (s : State) : exec (.pdelayReqSend p) s = .next (pdelayReqSendStep p s) := rfl

theorem exec_pdelayRespSend (p : Nat) (s : State) : exec (.pdelayRespSend p) s = .next (pdelayRespSendStep p s) := rfl

theorem exec_pdelayExchange (p : Nat) (a b : Option RxIn) (s : State) :
    exec (.pdelayExchange p a b) s = .next (pdelayExchangeStep p ((s.arrive p a).arrive p b)) := rfl

theorem exec_pdelayRespTimeout (p : Nat) (s : State) : exec (.pdelayRespTimeout p) s = .next (pdelayRespTimeoutStep p s) := rfl

theorem exec_announceReceive (p num : Nat) (a : Option RxIn) (s : State) :
    exec (.announceReceive p num a) s = .next (announceReceiveStep p num (s.arrive p a)) := rfl

theorem exec_announceReceiptTimeout (n p : Nat) (s : State) :
    exec (.announceReceiptTimeout n p) s = .next (announceReceiptTimeoutStep n p s) := rfl

theorem exec_announceTransmit (n p : Nat) (s : State) : exec (.announceTransmit n p) s = .next (announceTransmitStep n p s) := rfl

theorem exec_syncTransmit (n p : Nat) (s : State) : exec (.syncTransmit n p) s = .next (syncTransmitStep n p s) := rfl

theorem exec_signalingReceive (p : Nat) (a : Option RxIn) (s : State) :
    exec (.signalingReceive p a) s = .next (signalingReceiveStep p (s.arrive p a)) := rfl

theorem exec_syncProcess (p num : Nat) (a : Option RxIn) (s : State) :
    exec (.syncProcess p num a) s = .next (syncProcessStep p num (s.arrive p a)) := rfl

theorem exec_domAccept (n seq m : Nat) (s : State) : exec (.domAccept n seq m) s = .next (s.domCommand n 1 seq m) := rfl

theorem exec_domSet (n m : Nat) (s : State) : exec (.domSet n m) s = .next (s.domCommand n 2 0 m) := rfl

theorem exec_domResetGuard (n m : Nat) (s : State) : exec (.domResetGuard n m) s = .next (s.domCommand n 3 0 m) := rfl

theorem exec_domCmdInvalid (n m : Nat) (s : State) : exec (.domCmdInvalid n m) s = .next (s.domCommand n 0 0 m) := rfl

theorem exec_syncTimeout (n : Nat) (s : State) : exec (.syncTimeout n) s = .next (syncTimeoutStep n s) := rfl

theorem exec_holdExpiry (n : Nat) (s : State) : exec (.holdExpiry n) s = .next (holdExpiryStep n s) := rfl

theorem exec_snapshotTake (m : Nat) (s : State) :
    exec (.snapshotTake m) s = .next (s.command uTime m (fldAddr uTime F.time_SNAP_CTRL 0 0) snapshotTakeStep) := rfl

theorem exec_tsinCapture (i : Nat) (rising : Bool) (phase : Nat) (s : State) :
    exec (.tsinCapture i rising phase) s = .next (tsinCaptureStep i rising phase s) := rfl

theorem exec_tsinPop (i : Nat) (s : State) : exec (.tsinPop i) s = .next (tsinPopStep i s) := rfl

theorem exec_tsoutEdge (i : Nat) (s : State) : exec (.tsoutEdge i) s = .next (tsoutEdgeStep i s) := rfl

theorem exec_xcvrModeWrite (x : Nat) (v : Word) (m : Nat) (s : State) :
    exec (.xcvrModeWrite x v m) s = .next (xcvrModeWriteStep x v m (s.drain m)) := rfl

theorem exec_xcvrModeChange (x : Nat) (s : State) : exec (.xcvrModeChange x) s = .next (xcvrModeChangeStep x s) := rfl

theorem exec_txdDominantTimeout (x : Nat) (s : State) : exec (.txdDominantTimeout x) s = .next (txdDominantTimeoutStep x s) := rfl

theorem exec_txdRecessiveReturn (x : Nat) (s : State) : exec (.txdRecessiveReturn x) s = .next (txdRecessiveReturnStep x s) := rfl

theorem exec_busDominantTimeout (x : Nat) (s : State) : exec (.busDominantTimeout x) s = .next (busDominantTimeoutStep x s) := rfl

theorem exec_busRecessiveReturn (x : Nat) (s : State) : exec (.busRecessiveReturn x) s = .next (busRecessiveReturnStep x s) := rfl

theorem exec_vbatUndervoltage (s : State) : exec .vbatUndervoltage s = .next (s.vbatUv true) := rfl

theorem exec_vbatUvRecovery (s : State) : exec .vbatUvRecovery s = .next (s.vbatUv false) := rfl

theorem exec_vbatMeasurement (v : Nat) (s : State) : exec (.vbatMeasurement v) s = .next (vbatMeasurementStep v s) := rfl

/-- A command that brings no bytes leaves the line as it is. -/
@[simp] theorem State.arrive_none (s : State) (p : Nat) : s.arrive p none = s := rfl

/-! ### Path delay (R172) -/

theorem State.txRoom_iff (s : State) (p : Nat) : s.txRoom p = true ↔ (s.txQueue p).length < 4 ∧ s.txWaiting p = [] := by
  unfold State.txRoom
  rw [Bool.and_eq_true, decide_eq_true_iff, List.isEmpty_iff]

section PathDelay
variable {s : State} {p : Nat}

theorem pdelayReqSendStep_full (hfull : s.txRoom p = false) : pdelayReqSendStep p s = s := by
  unfold pdelayReqSendStep
  exact if_neg fun ⟨_, _, hroom⟩ => by simp [hfull] at hroom

variable (hen : s.enabled uTime = true) (hp : p < 12)
include hen hp

theorem pdelayReqSendStep_sends (hroom : s.txRoom p = true) {seq : Nat} {t : State}
    (hseq : s.nextSeq .pdelayReq (s.pdelayNum p) p = (seq, t)) :
    pdelayReqSendStep p s = (t.setPdelay p { t.pdelayAt p with sent := none, seq := seq }).ptpQueue
      { port := p, kind := .pdelayReq, domain := 0,
        data := ptpFrame p (ptpMessage .pdelayReq (s.pdelayMajor p) (s.pdelayNum p) (ptpFlags false) p seq
          (ofSigned 8 (s.logPdelay p)) (List.replicate 20 0#8)) } := by
  unfold pdelayReqSendStep
  rw [hseq]
  exact if_pos ⟨hen, hp, hroom⟩

theorem pdelayRespSendStep_answers {m : PtpRx} (hreq : s.rxFind p .pdelayReq (fun _ => true) = some m) (hroom : s.txRoom p = true) :
    ∃ b, pdelayRespSendStep p s = (s.rxTake m).ptpQueue { port := p, kind := .pdelayResp, domain := 0, data := b } := by
  unfold pdelayRespSendStep
  simp only [hreq, if_pos (And.intro hen (And.intro hp hroom))]
  exact ⟨_, rfl⟩

/-- An exchange is complete with the response to the outstanding request and its second step. -/
theorem pdelayExchangeStep_completes {q t : State} {r f : PtpRx} {t1 : Nat} {x : PdelayState} (hq : q = s.rxUnasked p)
    (hresp : q.rxFind p .pdelayResp (fun _ => true) = some r)
    (hfollow : q.rxFind p .pdelayRespFollowUp (fun _ => true) = some f) (hsent : (q.pdelayAt p).sent = some t1)
    (hx : x = pdelayNext (q.pdelayAt p) (q.rd uTime F.time_PDELAY_CFG_AVG_SHIFT p) (Int.ofNat t1) r.stamp f.stamp (Int.ofNat r.wc))
    (ht : t = ((((q.rxTake r).rxTake f).setPdelay p x).wr uTime F.time_MEAN_DELAY_DELAY (word32 (quot (x.delay.getD 0) 4096)) p).wr
      uTime F.time_PORT_NRR_RATE (word32 (quot (x.nrr.getD 0) 128)) p) :
    pdelayExchangeStep p s = t.setAsCapable p
      (decide (x.delay.getD 0 ≤ Int.ofNat (t.rd uTime F.time_PDELAY_CFG_THRESH p) * 65536) && x.nrr.isSome) := by
  have hruns : (!(s.enabled uTime && decide (p < 12))) ≠ true := by simp [hen, hp]
  unfold pdelayExchangeStep
  rw [if_neg hruns]
  simp only [← hq, hresp, hfollow, hsent, ← hx, ← ht]

/-- After the request interval the response counts as lost, and more losses than ALLOWED_LOST clear asCapable. -/
theorem pdelayRespTimeoutStep_lost {t1 : Nat} {x : PdelayState} (hsent : (s.pdelayAt p).sent = some t1)
    (hdue : intervalWc 1 (s.logPdelay p) ≤ s.wcSince t1)
    (hx : x = { s.pdelayAt p with lost := (s.pdelayAt p).lost + 1, sent := none }) :
    pdelayRespTimeoutStep p s = if s.rd uTime F.time_PDELAY_CFG_ALLOWED_LOST p < x.lost then
      ((s.setPdelay p { x with prev := none }).sat uTime F.time_PDELAY_LOST_COUNT p).setAsCapable p false
      else s.setPdelay p x := by
  subst hx
  unfold pdelayRespTimeoutStep
  simp only [hsent, if_pos (And.intro hen (And.intro hp hdue))]

end PathDelay

/-! ### Announce, Signaling and Sync (R163, R167, R169 to R171) -/

section Messages
variable {s : State} {n p : Nat} (hen : s.enabled uTime = true)
include hen

/-- An Announce that qualifies is kept for its port, and selection runs. -/
theorem announceReceiveStep_keeps {num : Nat} {m : PtpRx} (hmsg : s.rxFind p .announce (fun m => m.num == num) = some m)
    (hdom : (s.rxTake m).domOf num = some n) (hown : m.own = false) (hsteps : m.steps < 255)
    (hpart : (s.rxTake m).takesPart n p = true) :
    announceReceiveStep p num s = ((s.rxTake m).setDom n { (s.rxTake m).dom n with
      announced := pmSet ((s.rxTake m).dom n).announced p ⟨vectorOf m.system m.steps m.source, m.system % 2 ^ 64, byteAt m.data 7,
        be16 m.data 44, byteAt m.data 63, m.path⟩ }).selectStates n := by
  have hqualifies : ¬ (m.own = true ∨ 255 ≤ m.steps ∨ (!(s.rxTake m).takesPart n p) = true) := by
    rw [hown, hpart]
    rintro (h | h | h)
    · cases h
    · exact absurd hsteps (Nat.not_lt.2 h)
    · cases h
  unfold announceReceiveStep
  simp only [hmsg, hen, hdom, Bool.not_true, Bool.false_eq_true, if_false]
  exact if_neg hqualifies

theorem syncProcessStep_enabled (p num : Nat) :
    syncProcessStep p num s = (match s.domOf num with | some n => s.runDomCmd n | none => s).takeSync p num := by
  have hruns : (!s.enabled uTime) ≠ true := by simp [hen]
  unfold syncProcessStep
  exact if_neg hruns

/-- The intervals that a partner asks for are honoured, each in its range (Table 7.3). -/
theorem signalingReceiveStep_honours (hp : p < 12) {m : PtpRx} {one : Bool} {pd sy an : Int} {t : State} {i j : Intervals}
    (hmsg : s.rxFind p .signaling (fun _ => true) = some m) (hreq : m.request = some (one, pd, sy, an))
    (ht : t = (s.rxTake m).wr uTime F.time_PORT_STATUS_PARTNER_1STEP (b2n one) p) (hi : i = t.intervalsAt p)
    (hj : j = { i with sync := honour (-7) 0 sy i.sync, pdelay := honour (-3) 3 pd i.pdelay, announce := honour (-3) 3 an i.announce }) :
    signalingReceiveStep p s = { t with time := { t.time with intervals := smSet noIntervals t.time.intervals p j } } := by
  unfold signalingReceiveStep
  simp only [hmsg, if_pos (And.intro hen hp), hreq, ← ht, ← hi, ← hj]

variable (hn : n < 4)
include hn

theorem announceReceiptTimeoutStep_forgets :
    announceReceiptTimeoutStep n p s = (s.setDom n { s.dom n with announced := pmDel (s.dom n).announced p }).selectStates n := by
  unfold announceReceiptTimeoutStep
  exact if_pos ⟨hen, hn⟩

section Master
variable (hp : p < 12) (hrole : s.role n p = 1) (hpart : s.takesPart n p = true) (hroom : s.txRoom p = true) {seq : Nat} {t : State}
include hp hrole hpart hroom

theorem announceTransmitStep_sends (hseq : s.nextSeq .announce (s.rd uTime F.time_DOM_CFG_DOMAIN_NUMBER n) p = (seq, t)) :
    announceTransmitStep n p s = t.ptpQueue
      { port := p, kind := .announce, domain := n,
        data := ptpFrame p (ptpMessage .announce 1 (s.rd uTime F.time_DOM_CFG_DOMAIN_NUMBER n) (s.announceFlags n) p seq
          (ofSigned 8 (s.logAnnounce p)) (s.announceBody n)) } := by
  unfold announceTransmitStep
  rw [if_pos ⟨hen, hn, hp, hrole, hpart, hroom⟩]
  simp only [hseq]

/-- The grandmaster's Sync carries the origin 0 and no correction until it leaves. -/
theorem syncTransmitStep_grandmaster (hgm : s.domState n = domGm) (hleft : s.syncUnsent n p = false)
    (hseq : s.nextSeq .sync (s.rd uTime F.time_DOM_CFG_DOMAIN_NUMBER n) p = (seq, t)) :
    syncTransmitStep n p s = t.ptpQueue
      { port := p, kind := .sync, domain := n, data := s.syncData n p seq 0 0 (s.dom n).rate [],
        oneStep := s.flag uTime F.time_PORT_CFG_ONE_STEP p && s.flag uTime F.time_PORT_STATUS_PARTNER_1STEP p,
        rate := (s.dom n).rate } := by
  have hsends : ¬ ((!(decide (n < 4) && decide (p < 12) && s.enabled uTime && s.role n p == 1 && s.takesPart n p)) = true ∨
      (!s.txRoom p) = true ∨ s.syncUnsent n p = true) := by
    simp [hn, hp, hen, hrole, hpart, hroom, hleft]
  unfold syncTransmitStep
  rw [if_neg hsends, hseq]
  exact if_pos hgm

end Master

end Messages

/-- Settles O42: each message is sent or taken by the step of its command, whose guards are the statement's conditions; the bytes that a
command brings arrive before its step. -/
theorem timeMessages : Obligations.TimeMessages := by
  unfold Obligations.TimeMessages
  intro s p n hp hn hen
  refine ⟨fun seq t hroom hseq => ?_, fun hfull => ?_, s.txRoom_iff p, fun m hreq hroom => ?_,
    fun q r f t1 x t hq hresp hfollow hsent hx ht => ?_, fun t1 x hsent hdue hx => ⟨fun hfew => ?_, fun hmany => ?_⟩,
    fun num m hmsg hdom hown hsteps hpart => ?_, ?_, fun seq t hrole hpart hroom hseq b hb => ?_,
    fun seq t hrole hpart hroom hgm hleft hseq => ?_, fun m one pd sy an i j t hmsg hreq ht hi hj => ?_,
    fun num a => ⟨?_, ?_, ?_, fun b => ?_⟩, fun num => ?_⟩
  · rw [exec_pdelayReqSend, pdelayReqSendStep_sends hen hp hroom hseq]
  · rw [exec_pdelayReqSend, pdelayReqSendStep_full hfull]
  · obtain ⟨b, hsend⟩ := pdelayRespSendStep_answers hen hp hreq hroom
    exact ⟨b, by rw [exec_pdelayRespSend, hsend]⟩
  · exact (exec_pdelayExchange p none none s).trans
      (congrArg _ (pdelayExchangeStep_completes hen hp hq hresp hfollow hsent hx ht))
  · rw [exec_pdelayRespTimeout, pdelayRespTimeoutStep_lost hen hp hsent hdue hx, if_neg (Nat.not_lt.2 hfew)]
  · rw [exec_pdelayRespTimeout, pdelayRespTimeoutStep_lost hen hp hsent hdue hx, if_pos hmany]
  · exact (exec_announceReceive p num none s).trans
      (congrArg _ (announceReceiveStep_keeps hen hmsg hdom hown hsteps hpart))
  · rw [exec_announceReceiptTimeout, announceReceiptTimeoutStep_forgets hen hn]
  · rw [exec_announceTransmit, announceTransmitStep_sends hen hn hp hrole hpart hroom hseq, hb]
  · rw [exec_syncTransmit, syncTransmitStep_grandmaster hen hn hp hrole hpart hroom hgm hleft hseq]
  · exact (exec_signalingReceive p none s).trans
      (congrArg _ (signalingReceiveStep_honours hen hp hmsg hreq ht hi hj))
  · rw [exec_announceReceive, exec_announceReceive, State.arrive_none]
  · rw [exec_signalingReceive, exec_signalingReceive, State.arrive_none]
  · rw [exec_syncProcess, exec_syncProcess, State.arrive_none]
  · rw [exec_pdelayExchange, exec_pdelayExchange, State.arrive_none, State.arrive_none]
  · exact (exec_syncProcess p num none s).trans (congrArg _ (syncProcessStep_enabled hen p num))

/-! ### DOM_CMD (R175, Table 7.6) -/

section DomCommand
variable {s : State} {n m : Nat} (hn : n < 4) (htakes : s.takes uTime m = true)
include hn htakes

theorem State.domCommand_busy (hbusy : (pmGet s.time.cmds n).isSome = true) (op seq : Nat) :
    s.domCommand n op seq m = s.refuse m (domCmdAddr n) := by
  unfold State.domCommand
  rw [if_pos hn, State.command_ok htakes, if_pos hbusy]

theorem State.domCommand_free (hfree : pmGet s.time.cmds n = none) (op seq : Nat) :
    s.domCommand n op seq m =
      ({ s with time := { s.time with cmds := pmSet s.time.cmds n (op, seq) } } : State).wr uTime F.time_DOM_CMD_BUSY 1 n := by
  have hidle : (pmGet s.time.cmds n).isSome ≠ true := by simp [hfree]
  unfold State.domCommand
  rw [if_pos hn, State.command_ok htakes, if_neg hidle]

end DomCommand

/-- The command that a domain waits with is taken from it and executed by its opcode. -/
theorem State.runDomCmd_waiting {s q : State} {n op seq : Nat} (hcmd : pmGet s.time.cmds n = some (op, seq))
    (hq : q = { s with time := { s.time with cmds := pmDel s.time.cmds n } }) :
    s.runDomCmd n = if op = 1 then domAcceptStep n seq q else if op = 2 then domSetStep n q
      else if op = 3 then domResetGuardStep n q else q.domStatus n 2 := by
  unfold State.runDomCmd
  simp only [hcmd, ← hq]

section DomAccept
variable {s : State} {n seq : Nat}

theorem domAcceptStep_badState (h : s.domState n ≠ domFree ∧ s.domState n ≠ domHoldover ∨ s.flag uTime F.time_DOM_STATUS_REFUSED n = false) :
    domAcceptStep n seq s = s.domStatus n 2 := by
  have hbad : ¬ ((s.domState n = domFree ∨ s.domState n = domHoldover) ∧ s.flag uTime F.time_DOM_STATUS_REFUSED n = true) := by
    rintro ⟨hstate, hrefused⟩
    rcases h with ⟨hfree, hhold⟩ | h
    · exact hstate.elim hfree hhold
    · simp [h] at hrefused
  unfold domAcceptStep
  exact if_neg hbad

variable (hstate : s.domState n = domFree ∨ s.domState n = domHoldover) (hrefused : s.flag uTime F.time_DOM_STATUS_REFUSED n = true)
include hstate hrefused

theorem domAcceptStep_otherSeq (hseq : s.rd uTime F.time_REC_SEQ_SEQ n ≠ seq) : domAcceptStep n seq s = s.domStatus n 1 := by
  unfold domAcceptStep
  exact (if_pos ⟨hstate, hrefused⟩).trans (if_neg hseq)

/-- The recorded Sync accepted: the domain steps by its offset, runs at its rate, and is LOCKED. -/
theorem domAcceptStep_accepts (hseq : s.rd uTime F.time_REC_SEQ_SEQ n = seq) {t : State}
    (ht : t = (s.stepBy n (s.recOfs n * 2 ^ 47)).setRate n (s.dom n).syncRate) :
    domAcceptStep n seq s = ((((((t.setDom n { t.dom n with lastRate := (s.dom n).syncRate }).inc uTime F.time_STEPS_COUNT
      n).closeRefusal n).setDomState n domLocked).showOffset n (s.recOfs n * 2 ^ 47)).domStatus n 0).tickAfter n (s.synced n) false true := by
  subst ht
  unfold domAcceptStep
  exact (if_pos ⟨hstate, hrefused⟩).trans (if_pos hseq)

end DomAccept

theorem domSetStep_sets {s : State} {n : Nat} (h : s.domState n = domFree ∨ s.domState n = domGm) :
    domSetStep n s = ((((s.setDom n { s.dom n with
      time := Int.ofNat (s.rd uTime F.time_SET_HI_NS n * 2 ^ 32 + s.rd uTime F.time_SET_LO_NS n) * 2 ^ 47 }).stepConsumers n).inc uTime
        F.time_STEPS_COUNT n).domStatus n 0).tickAfter n (s.synced n) false true := by
  unfold domSetStep
  exact if_pos h

theorem domSetStep_badState {s : State} {n : Nat} (hfree : s.domState n ≠ domFree) (hgm : s.domState n ≠ domGm) :
    domSetStep n s = s.domStatus n 2 := by
  unfold domSetStep
  exact if_neg fun h => h.elim hfree hgm

/-! ### Holdover (R174, Table 7.2) -/

section Holdover
variable {s : State} {n : Nat}

theorem syncTimeoutStep_early (h : s.domState n ≠ domLocked ∨ s.syncLate n = false) : syncTimeoutStep n s = s := by
  unfold syncTimeoutStep
  exact if_neg fun ⟨_, _, hlocked, hlate⟩ => h.elim (· hlocked) fun h => by simp [h] at hlate

theorem holdExpiryStep_early (h : s.domState n ≠ domHoldover ∨ s.holdLate n = false) : holdExpiryStep n s = s := by
  unfold holdExpiryStep
  exact if_neg fun ⟨_, _, hhold, hlate, _⟩ => h.elim (· hhold) fun h => by simp [h] at hlate

variable (hen : s.enabled uTime = true) (hn : n < 4)
include hen hn

theorem syncTimeoutStep_late (hlocked : s.domState n = domLocked) (hlate : s.syncLate n = true) :
    syncTimeoutStep n s = (s.enterHoldover n).tickAfter n true false false := by
  unfold syncTimeoutStep
  exact if_pos ⟨hen, hn, hlocked, hlate⟩

theorem holdExpiryStep_late (hhold : s.domState n = domHoldover) (hlate : s.holdLate n = true)
    (hfirst : s.flag uTime F.time_DOM_STATUS_HOLD_EXPIRED n = false) :
    holdExpiryStep n s = (s.wr uTime F.time_DOM_STATUS_HOLD_EXPIRED 1 n).event uTime := by
  unfold holdExpiryStep
  exact if_pos ⟨hen, hn, hhold, hlate, by rw [hfirst]; rfl⟩

end Holdover

/-- Settles O43: a write of DOM_CMD waits or is refused (`State.domCommand_free`, `State.domCommand_busy`), the engine executes it by its
opcode (`State.runDomCmd_waiting`), and the time-outs act when they are late. -/
theorem timeDomainsAndCommands : Obligations.TimeDomainsAndCommands := by
  unfold Obligations.TimeDomainsAndCommands
  intro s n hn
  refine ⟨fun m seq htakes => ⟨fun run hrun hbusy => ?_, fun hfree => ?_⟩, fun op seq q hcmd hq => ?_, fun hen hlocked hlate => ?_,
    fun hearly => ?_, fun hen hhold hlate hfirst => ?_, fun hearly => ?_, fun m htakes => ?_⟩
  · rcases hrun with rfl | rfl | rfl | rfl
    · rw [exec_domAccept, State.domCommand_busy hn htakes hbusy]
    · rw [exec_domSet, State.domCommand_busy hn htakes hbusy]
    · rw [exec_domResetGuard, State.domCommand_busy hn htakes hbusy]
    · rw [exec_domCmdInvalid, State.domCommand_busy hn htakes hbusy]
  · rw [exec_domAccept, exec_domSet, exec_domResetGuard, exec_domCmdInvalid]
    simp only [State.domCommand_free hn htakes hfree, and_self]
  · have hruns := State.runDomCmd_waiting hcmd hq
    refine ⟨fun hop hstate hrefused => ⟨fun hseq => ?_, fun t hseq ht => ?_⟩, fun hop hbad => ?_, fun hop hstate => ?_,
      fun hop hfree hgm => ?_, fun hop => ?_, fun hop => ?_⟩
    · rw [hruns, if_pos hop, domAcceptStep_otherSeq hstate hrefused hseq]
    · rw [hruns, if_pos hop, domAcceptStep_accepts hstate hrefused hseq ht]
    · rw [hruns, if_pos hop, domAcceptStep_badState hbad]
    · rw [hruns, if_neg (by omega), if_pos hop, domSetStep_sets hstate]
    · rw [hruns, if_neg (by omega), if_pos hop, domSetStep_badState hfree hgm]
    · rw [hruns, if_neg (by omega), if_neg (by omega), if_pos hop]
    · rw [hruns, if_neg (by omega), if_neg (by omega), if_neg (by omega)]
  · rw [exec_syncTimeout, syncTimeoutStep_late hen hn hlocked hlate]
  · rw [exec_syncTimeout, syncTimeoutStep_early hearly]
  · rw [exec_holdExpiry, holdExpiryStep_late hen hn hhold hlate hfirst]
  · rw [exec_holdExpiry, holdExpiryStep_early hearly]
  · rw [exec_snapshotTake, State.command_ok htakes]
    rfl

/-! ### Timestamped pins (R177 to R179) -/

section Captures
variable {s : State} {i : Nat}

theorem tsinCaptureStep_otherEdge {rising : Bool} (h : bitOf (s.rd uTsio F.tsio_TSIN_CFG_EDGE i) (if rising then 0 else 1) = false)
    (phase : Nat) : tsinCaptureStep i rising phase s = s := by
  unfold tsinCaptureStep
  exact if_neg fun ⟨_, _, _, _, hedge⟩ => by simp [h] at hedge

theorem tsinPopStep_oldest (hi : i < 16) {c : Capture} {l : List Capture} (hl : s.captures i = c :: l) {w : Nat}
    (hw : w = 2 ^ 31 + b2n c.rising * 2 ^ 30 + c.clock * 2 ^ 27 + c.half % 2) :
    tsinPopStep i s = { ((((s.setCaptures i l).wr uTsio F.tsio_TSIN_DATA_HI_NS (c.half / 2 / 2 ^ 32) i).wr uTsio
      F.tsio_TSIN_DATA_LO_NS (c.half / 2) i).wr uTsio F.tsio_TSIN_DATA_X w i) with readData := BitVec.ofNat 32 w } := by
  unfold tsinPopStep
  rw [if_pos hi]
  simp only [hl, ← hw]

theorem tsinPopStep_empty (hi : i < 16) (hl : s.captures i = []) :
    tsinPopStep i s = { (((s.wr uTsio F.tsio_TSIN_DATA_HI_NS 0 i).wr uTsio F.tsio_TSIN_DATA_LO_NS 0 i).wr uTsio
      F.tsio_TSIN_DATA_X 0 i) with readData := 0#32 } := by
  unfold tsinPopStep
  rw [if_pos hi]
  simp only [hl]

variable {rising : Bool} {phase : Nat} (hi : i < 16) (hen : s.enabled uTsio = true) (hcfg : s.flag uTsio F.tsio_TSIN_CFG_EN i = true)
  (hpin : s.timePin i = true) (hedge : bitOf (s.rd uTsio F.tsio_TSIN_CFG_EDGE i) (if rising then 0 else 1) = true)
include hi hen hcfg hpin hedge

theorem tsinCaptureStep_full (hfull : 16 ≤ (s.captures i).length) :
    tsinCaptureStep i rising phase s = s.sat uTsio F.tsio_TSIN_STATUS_LOST i := by
  unfold tsinCaptureStep
  exact (if_pos ⟨hi, hen, hcfg, hpin, hedge⟩).trans (if_pos (.inr hfull))

/-- An edge that comes 8 ns after the last one or later (16 halves of a nanosecond) is captured where there is room. -/
theorem tsinCaptureStep_captures {c now : Nat}
    (hc : c = if s.rd uTsio F.tsio_TSIN_CFG_CLOCK i < 4 then s.rd uTsio F.tsio_TSIN_CFG_CLOCK i else 4)
    (hnow : now = s.clk.wc / 32768 + phase % 4) (hapart : ∀ l, pmGet s.time.lastEdge i = some l → l + 16 ≤ now)
    (hroom : (s.captures i).length < 16) :
    tsinCaptureStep i rising phase s =
      ({ s with time := { s.time with lastEdge := pmSet s.time.lastEdge i now } } : State).setCaptures i
        (s.captures i ++ [⟨((s.clockTime c / 2 ^ 46 + Int.ofNat (phase % 4)) % 2 ^ 65).toNat, rising, c⟩]) := by
  unfold tsinCaptureStep
  rw [if_pos ⟨hi, hen, hcfg, hpin, hedge⟩]
  simp only [← hc, ← hnow]
  cases hlast : pmGet s.time.lastEdge i with
  | none => exact if_neg (by simp [hroom])
  | some l => exact if_neg (by simp [hroom, hapart l hlast])

end Captures

theorem State.tsEval_running {s : State} {i : Nat} (h : s.tsActive i = true ∨ s.flag uTsio F.tsio_TSOUT_STATUS_ACTIVE i = false) :
    s.tsEval i = s.wr uTsio F.tsio_TSOUT_STATUS_ACTIVE (b2n (s.tsActive i)) i := by
  unfold State.tsEval
  exact if_neg fun ⟨hwas, hends, _⟩ => by rcases h with h | h <;> simp [h] at hwas hends

theorem tsoutEdgeStep_pin {i : Nat} (h : i < 8) (s : State) : tsoutEdgeStep i s = s.tsEval i := if_pos h

/-! ### Transceivers (R181 to R183) -/

theorem State.cosyWrite_ok {s : State} {ok : Bool} (hok : ok = true) (hup : s.flag uUlis F.ulis_ULIS_STATUS_UP = true) (m a : Nat)
    (run : State → State) : s.cosyWrite m a ok run = run s := by
  unfold State.cosyWrite
  rw [hok, hup]
  rfl

theorem State.cosyWrite_refused {s : State} {ok : Bool} (h : ok = false ∨ s.flag uUlis F.ulis_ULIS_STATUS_UP = false) (m a : Nat)
    (run : State → State) : s.cosyWrite m a ok run = s.refuse m a := by
  unfold State.cosyWrite
  rcases h with h | h
  · rw [h, Bool.false_and, if_neg Bool.false_ne_true]
  · rw [h, Bool.and_false, if_neg Bool.false_ne_true]

section Transceivers
variable {s : State} {x : Nat}

theorem xcvrModeWriteStep_writes {v : Word} {t r : State} (hx : xcvrExists x = true) (hsafe : s.safe = false)
    (hup : s.flag uUlis F.ulis_ULIS_STATUS_UP = true)
    (ht : t = ({ s with edge := { s.edge with xcvrReq := withNat s.edge.xcvrReq x } } : State).wr uCosy F.cosy_XCVR_MODE (getBits v 0 2) x)
    (hr : r = if getBits v 11 1 = 1 then t.wr uCosy F.cosy_XCVR_TXD_DOM 0 x else t) (m : Nat) :
    xcvrModeWriteStep x v m s = if getBits v 10 1 = 1 then r.wr uCosy F.cosy_XCVR_BUS_DOM 0 x else r := by
  subst ht hr
  have hok : (!s.safe) = true := by rw [hsafe]; rfl
  unfold xcvrModeWriteStep
  rw [if_pos hx, State.cosyWrite_ok hok hup]

theorem xcvrModeWriteStep_refuses (hx : xcvrExists x = true)
    (h : s.safe = true ∨ s.flag uUlis F.ulis_ULIS_STATUS_UP = false) (v : Word) (m : Nat) :
    xcvrModeWriteStep x v m s = s.refuse m (xcvrAddr x) := by
  have hbarred : (!s.safe) = false ∨ s.flag uUlis F.ulis_ULIS_STATUS_UP = false := h.imp_left fun h => by rw [h]; rfl
  unfold xcvrModeWriteStep
  rw [if_pos hx, State.cosyWrite_refused hbarred]

theorem xcvrModeChangeStep_requested (hx : xcvrExists x = true) (hsafe : s.safe = false) (hreq : s.edge.xcvrReq.contains x = true) :
    xcvrModeChangeStep x s = ({ s with edge := { s.edge with xcvrReq := withoutNat s.edge.xcvrReq x } } : State).setXcvr x
      (if 16 ≤ x ∧ s.rd uCosy F.cosy_XCVR_MODE x ≠ 0 then 3 else s.rd uCosy F.cosy_XCVR_MODE x) := by
  unfold xcvrModeChangeStep
  exact if_pos ⟨hx, by rw [hsafe]; rfl, hreq⟩

theorem xcvrModeChangeStep_none (hreq : s.edge.xcvrReq.contains x = false) : xcvrModeChangeStep x s = s := by
  unfold xcvrModeChangeStep
  exact if_neg fun ⟨_, _, h⟩ => by rw [hreq] at h; cases h

theorem txdDominantTimeoutStep_normal (hx : x < 12) (hnormal : s.xcvr x = 0) (hrun : s.cosy.brewRun = true) {t : State}
    (ht : t = s.wr uCosy F.cosy_XCVR_TXD_DOM 1 x) :
    txdDominantTimeoutStep x s =
      ({ t with edge := { t.edge with txdOff := withNat t.edge.txdOff x } } : State).check uCosy 0 true { addr := x } := by
  subst ht
  unfold txdDominantTimeoutStep
  exact if_pos ⟨hx, hnormal, hrun⟩

theorem txdDominantTimeoutStep_other (h : s.xcvr x ≠ 0 ∨ s.cosy.brewRun = false) : txdDominantTimeoutStep x s = s := by
  unfold txdDominantTimeoutStep
  exact if_neg fun ⟨_, hnormal, hrun⟩ => h.elim (· hnormal) fun h => by rw [h] at hrun; cases hrun

theorem busDominantTimeoutStep_listening (hx : x < 12) (hlisten : s.xcvr x ≤ 1) {t : State} (ht : t = s.wr uCosy F.cosy_XCVR_BUS_DOM 1 x) :
    busDominantTimeoutStep x s = { t with edge := { t.edge with rxHeld := withNat t.edge.rxHeld x } } := by
  subst ht
  unfold busDominantTimeoutStep
  exact if_pos ⟨hx, hlisten⟩

end Transceivers

/-- The always-on clock drives the measurement of VBAT (R264). -/
theorem vbatMeasurementStep_running {s t : State} (haon : s.aonRuns = true) {v : Nat}
    (ht : t = s.wr uCosy F.cosy_PWR_STATUS_VBAT (min v 1023)) :
    vbatMeasurementStep v s = t.wr uCosy F.cosy_VBAT_MIN_MIN (min (min v 1023) (t.rd uCosy F.cosy_VBAT_MIN_MIN)) := by
  subst ht
  have hruns : (!s.aonRuns) ≠ true := by simp [haon]
  unfold vbatMeasurementStep
  exact if_neg hruns

theorem vbatMeasurementStep_stopped {s : State} (haon : s.aonRuns = false) (v : Nat) : vbatMeasurementStep v s = s := by
  have hstops : (!s.aonRuns) = true := by rw [haon]; rfl
  unfold vbatMeasurementStep
  exact if_pos hstops

/-- Settles O44: the pins by the room and the distance of their captures, the transceivers by the guard of each step. -/
theorem pinsAndTransceivers : Obligations.PinsAndTransceivers := by
  unfold Obligations.PinsAndTransceivers
  refine fun s i x => ⟨fun rising phase c now hi hen hcfg hpin hedge hc hnow => ⟨fun hapart hroom => ?_, fun hfull => ?_⟩,
    fun rising phase hedge => ?_, fun c l w hi hl hw => ?_, fun hi hl => ?_, fun hi h => ?_,
    fun m v q t r hq hx hsafe hup ht hr => ?_, fun m v q hq hx h => ?_, fun m hx hsafe hreq hm => ?_, fun hreq => ?_,
    fun t hx hnormal hrun ht => ?_, fun h => ?_, ?_, fun t hx hlisten ht => ?_, ?_, ?_, ?_, fun v t haon ht => ?_,
    fun v haon => ?_⟩
  · rw [exec_tsinCapture, tsinCaptureStep_captures hi hen hcfg hpin hedge hc hnow hapart hroom]
  · rw [exec_tsinCapture, tsinCaptureStep_full hi hen hcfg hpin hedge hfull]
  · rw [exec_tsinCapture, tsinCaptureStep_otherEdge hedge]
  · rw [exec_tsinPop, tsinPopStep_oldest hi hl hw]
  · rw [exec_tsinPop, tsinPopStep_empty hi hl]
  · rw [exec_tsoutEdge, tsoutEdgeStep_pin hi, State.tsEval_running h]
  · rw [exec_xcvrModeWrite, ← hq, xcvrModeWriteStep_writes hx hsafe hup ht hr]
  · rw [exec_xcvrModeWrite, ← hq, xcvrModeWriteStep_refuses hx h]
  · rw [exec_xcvrModeChange, xcvrModeChangeStep_requested hx hsafe hreq, ← hm]
  · rw [exec_xcvrModeChange, xcvrModeChangeStep_none hreq]
  · rw [exec_txdDominantTimeout, txdDominantTimeoutStep_normal hx hnormal hrun ht]
  · rw [exec_txdDominantTimeout, txdDominantTimeoutStep_other h]
  · rw [exec_txdRecessiveReturn, txdRecessiveReturnStep]
  · rw [exec_busDominantTimeout, busDominantTimeoutStep_listening hx hlisten ht]
  · rw [exec_busRecessiveReturn, busRecessiveReturnStep]
  · rw [exec_vbatUndervoltage]
  · rw [exec_vbatUvRecovery]
  · rw [exec_vbatMeasurement, vbatMeasurementStep_running haon ht]
  · rw [exec_vbatMeasurement, vbatMeasurementStep_stopped haon]

end Sys2Proof.Machine

/-! PROOFS. Edge buses (chapter 8: R185 to R187, R189, R190, R193 to R205; R146, R160, R235): the receptions, transmissions, states and
releases of a CAN channel, LIN slots, SENT messages and sensor SPI, FlexRay's commands and slots, and the 10BASE-T1S segments. -/

namespace Sys2Proof.Machine

/-! ### The commands and their operations -/

theorem exec_canFrameReceive (n : Nat) (f : Option BusFrame) (sec : Option CanSecIn) (r : CanRxIn) (s : State) :
    exec (.canFrameReceive n f sec r) s = .next (canFrameReceiveStep n f sec r.age r.pass s) := rfl

theorem exec_canFrameTransmit (n phase : Nat) (tdcv : Option Nat) (s : State) :
    exec (.canFrameTransmit n phase tdcv) s = .next (canFrameTransmitStep n phase tdcv s) := rfl

theorem exec_canError (n : Nat) (e : CanErrIn) (s : State) : exec (.canError n e) s = .next (canErrorStep n e s) := rfl

theorem exec_canIntegrated (n : Nat) (s : State) : exec (.canIntegrated n) s = .next (canIntegratedStep n s) := rfl

theorem exec_canRecover_auto (n : Nat) (s : State) : exec (.canRecover n none) s = .next (canRecoverStep n true s) := rfl

theorem exec_canRecover_written (n m : Nat) (s : State) : exec (.canRecover n (some m)) s =
    .next (s.command (uCan n) m (fldAddr (uCan n) F.can_CAN_CTRL 0 0) (canRecoverStep n false)) := rfl

theorem exec_canRecoveryDone (n : Nat) (s : State) : exec (.canRecoveryDone n) s = .next (canRecoveryDoneStep n s) := rfl

theorem exec_canOpmode (n mode m : Nat) (s : State) : exec (.canOpmode n mode m) s =
    .next (s.command (uCan n) m (fldAddr (uCan n) F.can_CAN_CTRL 0 0) (canOpmodeStep n mode)) := rfl

theorem exec_canShaperRelease (n : Nat) (s : State) : exec (.canShaperRelease n) s = .next (canShaperReleaseStep n s) := rfl

theorem exec_linSlotStart (n : Nat) (s : State) : exec (.linSlotStart n) s = .next (linSlotStartStep n s) := rfl

theorem exec_linHeaderReceive (n id baud : Nat) (s : State) :
    exec (.linHeaderReceive n id baud) s = .next (linHeaderReceiveStep n id baud s) := rfl

theorem exec_linResponseComplete (n : Nat) (data : List Byte) (chk : Nat) (bitErr collision : Bool) (age : Nat) (s : State) :
    exec (.linResponseComplete n data chk bitErr collision age) s =
      .next (linResponseCompleteStep n data chk bitErr collision age s) := rfl

theorem exec_linResponseTimeout (n : Nat) (s : State) : exec (.linResponseTimeout n) s = .next (linResponseTimeoutStep n s) := rfl

theorem exec_linGoToSleep (n : Nat) (s : State) : exec (.linGoToSleep n) s = .next (linGoToSleepStep n s) := rfl

theorem exec_sentMessage (n : Nat) (m : SentIn) (s : State) : exec (.sentMessage n m) s = .next (sentMessageStep n m s) := rfl

theorem exec_qspiTransfer (q rx : Nat) (s : State) : exec (.qspiTransfer q rx) s = .next (qspiTransferStep q rx s) := rfl

theorem exec_flxConfig (m : Nat) (s : State) :
    exec (.flxConfig m) s = .next (s.command uFlx m flxCtrlAddr (fun s => s.pocCommand [0, 2] (some 1))) := rfl

theorem exec_flxReady (m : Nat) (s : State) :
    exec (.flxReady m) s = .next (s.command uFlx m flxCtrlAddr (fun s => s.pocCommand [1, 3, 4, 5, 6] (some 2))) := rfl

theorem exec_flxWakeup (m : Nat) (s : State) :
    exec (.flxWakeup m) s = .next (s.command uFlx m flxCtrlAddr (fun s => s.pocCommand [2] (some 3))) := rfl

theorem exec_flxRun (m : Nat) (s : State) :
    exec (.flxRun m) s = .next (s.command uFlx m flxCtrlAddr (fun s => s.pocCommand [2] (some 4))) := rfl

theorem exec_flxAllSlots (m : Nat) (s : State) :
    exec (.flxAllSlots m) s = .next (s.command uFlx m flxCtrlAddr (fun s => s.pocCommand [5, 6] none)) := rfl

theorem exec_flxHalt (m : Nat) (s : State) :
    exec (.flxHalt m) s = .next (s.command uFlx m flxCtrlAddr (fun s => s.pocCommand [5, 6] (some 7))) := rfl

theorem exec_flxFreeze (m : Nat) (s : State) :
    exec (.flxFreeze m) s = .next (s.command uFlx m flxCtrlAddr (fun s => s.pocCommand [0, 1, 2, 3, 4, 5, 6, 7] (some 7))) := rfl

theorem exec_flxSlot (slot cycle : Nat) (first passive : Bool) (a b : Option FlxRx) (age : Nat) (s : State) :
    exec (.flxSlot slot cycle first passive a b age) s = .next (flxSlotStep slot cycle first passive a b age s) := rfl

theorem exec_t1sFrameReceive (g : Nat) (b : List Byte) (bad : Bool) (s : State) :
    exec (.t1sFrameReceive g b bad) s = .next (t1sFrameReceiveStep g b bad s) := rfl

theorem exec_t1sTxOpportunity (g kind node : Nat) (s : State) :
    exec (.t1sTxOpportunity g kind node) s = .next (t1sTxOpportunityStep g kind node s) := rfl

/-! ### CAN: reception (R185, R186) -/

section Reception
variable {s t : State} {n : Nat} {f : BusFrame}

/-- CANsec is for XL frames: a frame of another format is kept, unverified (R355). -/
theorem State.canSecCheck_notXl (hf : f.format ≠ 2) (s : State) (sec : Option CanSecIn) : s.canSecCheck n f sec = (true, false, s) := by
  unfold State.canSecCheck
  exact if_pos (.inl hf)

theorem State.netmCan_other (h : s.ringCanFrame n f = false) : s.netmCan n f = s := by
  have hno : ¬ s.ringCanFrame n f = true := by rw [h]; exact Bool.false_ne_true
  exact if_neg hno

/-- A classical frame at a channel that is on joins the receive buffer where its slots fit in 64. -/
theorem State.canReceive_classical (hon : s.canOn n = true) (hf : f.format = 0) (ht : t = (s.canRecDown n).canIdle n)
    (sec : Option CanSecIn) (age : Nat) :
    s.canReceive n f sec age =
      if 64 < slotsOf (t.canAt n).rxb + frameSlots f then (false, t.sat (uCan n) F.can_RX_OVF)
      else (true, (t.setCan n { t.canAt n with rxb := (t.canAt n).rxb ++ [{ f with cansec := false, td0 := t.td0Stamp age }] }).inc
        (uCan n) F.can_RX_FRAMES) := by
  have htaken : s.canOn n = true ∧ f.format < 3 ∧ (f.format ≠ 1 ∨ s.flag (uCan n) F.can_CAN_CFG_FD_EN = true) ∧
      (f.format ≠ 2 ∨ s.flag (uCan n) F.can_CAN_CFG_XL_EN = true) := by simp [hon, hf]
  have hplain : t.canSecCheck n f sec = (true, false, t) := State.canSecCheck_notXl (by simp [hf]) t sec
  unfold State.canReceive
  rw [if_pos htaken]
  simp only [← ht, hplain]
  rfl

theorem canFrameReceiveStep_disabled (hen : s.enabled (uCan n) = false) (g : Option BusFrame) (sec : Option CanSecIn) (age : Nat)
    (pass : Bool) : canFrameReceiveStep n g sec age pass s = s := by
  unfold canFrameReceiveStep
  exact if_neg fun ⟨_, h⟩ => by simp [hen] at h

variable (hn : n < 16) (hen : s.enabled (uCan n) = true)
include hn hen

theorem canFrameReceiveStep_passes (sec : Option CanSecIn) (age : Nat) : canFrameReceiveStep n none sec age true s = s.canPass n := by
  unfold canFrameReceiveStep
  exact if_pos ⟨hn, hen⟩

theorem canFrameReceiveStep_lost {sec : Option CanSecIn} {age : Nat} (h : s.canReceive n f sec age = (false, t)) :
    canFrameReceiveStep n (some f) sec age false s = t := by
  unfold canFrameReceiveStep
  rw [if_pos ⟨hn, hen⟩]
  simp [h]

/-- A frame that the controller keeps is seen by NETM, which takes none but ring messages (R230). -/
theorem canFrameReceiveStep_stored {sec : Option CanSecIn} {age : Nat} (h : s.canReceive n f sec age = (true, t))
    (hring : t.ringCanFrame n f = false) : canFrameReceiveStep n (some f) sec age false s = t := by
  unfold canFrameReceiveStep
  rw [if_pos ⟨hn, hen⟩]
  simp [h, State.netmCan_other hring]

end Reception

/-! ### CAN: transmission (R187, R189) -/

section Transmission
variable {s : State} {n i : Nat} {f : BusFrame}

theorem State.canStart_lowest {q : State} (hq : q = s.canIdle n) (hmay : q.canMaySend n = true)
    (hlow : lowestArb (q.canAt n).txq 0 none = some i) (hf : (q.canAt n).txq[i]? = some f) (hrun : q.txStopped = false)
    (hplain : q.canProtects n f = false) : s.canStart n = q.setCan n { q.canAt n with active := some i } := by
  unfold State.canStart
  simp [← hq, hlow, hf, hmay, hrun, hplain]

theorem State.canAttemptFailed_oneShot (hact : (s.canAt n).active = some i) (h : s.flag (uCan n) F.can_CAN_CFG_ONE_SHOT = true) :
    s.canAttemptFailed n = (s.canDequeue n i).sat (uCan n) F.can_TX_ABORT := by
  unfold State.canAttemptFailed
  simp only [hact, h, if_true]

theorem State.canAttemptFailed_again (hact : (s.canAt n).active = some i) (h : s.flag (uCan n) F.can_CAN_CFG_ONE_SHOT = false) :
    s.canAttemptFailed n = (s.setCan n { s.canAt n with active := none }).canIdle n := by
  unfold State.canAttemptFailed
  simp only [hact, h, Bool.false_eq_true, if_false]

variable (hn : n < 16) (hsafe : s.safe = false)
include hn hsafe

theorem canFrameTransmitStep_idle (hact : (s.canAt n).active = none) (tdcv : Option Nat) :
    canFrameTransmitStep n 0 tdcv s = s.canStart n := by
  unfold canFrameTransmitStep
  rw [if_pos ⟨hn, by simp [hsafe]⟩]
  simp [hact]

theorem canFrameTransmitStep_failed (hact : (s.canAt n).active = some i) (hf : (s.canAt n).txq[i]? = some f) (tdcv : Option Nat) :
    canFrameTransmitStep n 2 tdcv s = s.canAttemptFailed n := by
  unfold canFrameTransmitStep
  rw [if_pos ⟨hn, by simp [hsafe]⟩]
  simp [hact, hf]

/-- Without a measured loop delay no delay is too long (R189). -/
theorem canFrameTransmitStep_sent (hact : (s.canAt n).active = some i) (hf : (s.canAt n).txq[i]? = some f)
    (hmay : s.canMaySend n = true) : canFrameTransmitStep n 1 none s = s.canSent n i f := by
  unfold canFrameTransmitStep
  rw [if_pos ⟨hn, by simp [hsafe]⟩]
  simp [hact, hf, hmay, State.canTdc]

end Transmission

/-! ### CAN: errors and states (R190, R193) -/

section States
variable {s : State} {n : Nat} (hn : n < 16)
include hn

theorem canErrorStep_counts {e : CanErrIn} (hon : s.canOn n = true) (hlow : 1 ≤ e.kind) (hhigh : e.kind ≤ 7) :
    canErrorStep n e s = s.canErrorCount n e := if_pos ⟨hn, hon, hlow, hhigh⟩

theorem canIntegratedStep_integrating (h : s.canState n = 1) :
    canIntegratedStep n s = (s.canIdle n).wr (uCan n) F.can_CAN_STATUS_STATE 2 := if_pos ⟨hn, h⟩

theorem canRecoverStep_busOff {auto : Bool} (h : s.canState n = 4)
    (hmay : auto = false ∨ s.flag (uCan n) F.can_CAN_CFG_BUSOFF_AUTO = true) :
    canRecoverStep n auto s = s.wr (uCan n) F.can_CAN_STATUS_STATE 5 := by
  unfold canRecoverStep
  exact if_pos ⟨hn, h, hmay.imp_left fun h => by rw [h]; rfl⟩

omit hn in
theorem canRecoverStep_noAuto (h : s.flag (uCan n) F.can_CAN_CFG_BUSOFF_AUTO = false) : canRecoverStep n true s = s := by
  unfold canRecoverStep
  exact if_neg fun ⟨_, _, hmay⟩ => by simp [h] at hmay

theorem canRecoveryDoneStep_recovering (h : s.canState n = 5) :
    canRecoveryDoneStep n s = (((s.canIdle n).wr (uCan n) F.can_CAN_STATUS_TEC 0).wr (uCan n) F.can_CAN_STATUS_REC 0).wr (uCan n)
      F.can_CAN_STATUS_STATE 2 := if_pos ⟨hn, h⟩

variable {t : State} {mode : Nat} (ht : t = s.wr (uCan n) F.can_CAN_CTRL_OPMODE mode)
include ht

theorem canOpmodeStep_off (h : mode % 4 = 0) :
    canOpmodeStep n mode s = (t.setCan n { t.canAt n with active := none }).wr (uCan n) F.can_CAN_STATUS_STATE 0 := by
  subst ht
  unfold canOpmodeStep
  exact (if_pos hn).trans (if_pos h)

theorem canOpmodeStep_on (h : mode % 4 ≠ 0) : canOpmodeStep n mode s = (t.canSwitchOn n).canIdle n := by
  subst ht
  unfold canOpmodeStep
  exact (if_pos hn).trans (if_neg h)

end States

/-! ### CAN: the shaper's releases (R146, R160) -/

section Shaper
variable {s t : State} {n : Nat} (hn : n < 16) (hen : s.enabled (uCan n) = true) (ht : t = s.canSettle n)
include hn hen ht

theorem canShaperReleaseStep_nothing (hnext : t.canNext n = none) : canShaperReleaseStep n s = t := by
  unfold canShaperReleaseStep
  rw [if_pos ⟨hn, hen⟩]
  simp only [← ht, hnext]

variable {x : CanState} (hx : x = t.canAt n)
include hx

theorem canShaperReleaseStep_held {e : Option Nat × BusFrame} (hnext : t.canNext n = some e)
    (hpcs : t.flag (uCan n) F.can_TX_PCS_CFG_EN = true) (hcredit : x.credit < 0) (hheld : x.held = false) :
    canShaperReleaseStep n s = (t.setCan n { x with held := true }).inc (uCan n) F.can_TX_PCS_HELD := by
  unfold canShaperReleaseStep
  rw [if_pos ⟨hn, hen⟩]
  simp [← ht, ← hx, hnext, hpcs, hcredit, hheld]

variable (hpcs : t.flag (uCan n) F.can_TX_PCS_CFG_EN = false)
include hpcs

theorem canShaperReleaseStep_full {e : Option Nat × BusFrame} (hnext : t.canNext n = some e)
    (hfull : 16 ≤ x.txq.length ∨ 128 < slotsOf x.txq + frameSlots e.2) : canShaperReleaseStep n s = t := by
  unfold canShaperReleaseStep
  rw [if_pos ⟨hn, hen⟩]
  simp [← ht, ← hx, hnext, hpcs, hfull]

/-- A frame of the outbound buffer goes to the transmit queue; without the shaper its credit stays. -/
theorem canShaperReleaseStep_released {f : BusFrame} (hnext : t.canNext n = some (none, f)) (hframes : x.txq.length < 16)
    (hslots : slotsOf x.txq + frameSlots f ≤ 128) {r : State} (hr : r = (t.setOutQ n (t.outQ n).tail).inc uGwAny F.gw_OUT_FRAMES n) :
    canShaperReleaseStep n s =
      (r.setCan n { x with txq := x.txq ++ [f], credit := x.credit, lastSig := false, held := false }).canSettle n := by
  have hroom : ¬ (16 ≤ x.txq.length ∨ 128 < slotsOf x.txq + frameSlots f) := by omega
  unfold canShaperReleaseStep
  rw [if_pos ⟨hn, hen⟩]
  simp [← ht, ← hx, ← hr, hnext, hpcs, hroom]

end Shaper

/-- Settles O45: a reception by the room for its slots (`State.canReceive_classical`), a transmission by its phase, a state by the guard
of its event, and a release by credit and room. -/
theorem canNodes : Obligations.CanNodes := by
  unfold Obligations.CanNodes
  refine fun s n hn => ⟨fun hen hon f age t hf ht => ⟨fun hfull => ?_, fun hroom g x hg hx hring => ?_⟩, fun hen => ?_,
    fun hen f c r => ?_, fun hsafe i f => ⟨fun q hq hact hmay hlow hf hrun hplain x hx => ?_,
      fun hact hf => ⟨fun hmay => ?_, fun hshot => ?_, fun hshot x hx => ?_⟩⟩,
    fun e hon hlow hhigh => ?_, fun hst => ?_, fun hst => ⟨fun m htakes => ?_, fun hauto => ?_, fun hauto => ?_⟩, fun hst => ?_,
    fun m mode t htakes ht => ⟨fun hmode x hx => ?_, fun hmode => ?_⟩,
    fun hen t x ht hx => ⟨fun hnext => ?_, fun e hnext hpcs hcredit hheld => ?_, fun e hnext hpcs hfull => ?_,
      fun f r hnext hpcs hframes hslots hr => ?_⟩⟩
  · have hlost := State.canReceive_classical hon hf ht none age
    rw [if_pos hfull] at hlost
    rw [exec_canFrameReceive, canFrameReceiveStep_lost hn hen hlost]
  · subst hg hx
    have hstored := State.canReceive_classical hon hf ht none age
    rw [if_neg (Nat.not_lt.2 hroom)] at hstored
    rw [exec_canFrameReceive, canFrameReceiveStep_stored hn hen hstored hring]
  · rw [exec_canFrameReceive, canFrameReceiveStep_passes hn hen]
  · rw [exec_canFrameReceive, canFrameReceiveStep_disabled hen]
  · rw [exec_canFrameTransmit, canFrameTransmitStep_idle hn hsafe hact, State.canStart_lowest hq hmay hlow hf hrun hplain, hx]
  · rw [exec_canFrameTransmit, canFrameTransmitStep_sent hn hsafe hact hf hmay]
  · rw [exec_canFrameTransmit, canFrameTransmitStep_failed hn hsafe hact hf, State.canAttemptFailed_oneShot hact hshot]
  · rw [exec_canFrameTransmit, canFrameTransmitStep_failed hn hsafe hact hf, State.canAttemptFailed_again hact hshot, hx]
  · rw [exec_canError, canErrorStep_counts hn hon hlow hhigh]
  · rw [exec_canIntegrated, canIntegratedStep_integrating hn hst]
  · rw [exec_canRecover_written, State.command_ok htakes, canRecoverStep_busOff hn hst (.inl rfl)]
  · rw [exec_canRecover_auto, canRecoverStep_busOff hn hst (.inr hauto)]
  · rw [exec_canRecover_auto, canRecoverStep_noAuto hauto]
  · rw [exec_canRecoveryDone, canRecoveryDoneStep_recovering hn hst]
  · rw [exec_canOpmode, State.command_ok htakes, canOpmodeStep_off hn ht hmode, hx]
  · rw [exec_canOpmode, State.command_ok htakes, canOpmodeStep_on hn ht hmode]
  · rw [exec_canShaperRelease, canShaperReleaseStep_nothing hn hen ht hnext]
  · rw [exec_canShaperRelease, canShaperReleaseStep_held hn hen ht hx hnext hpcs hcredit hheld]
  · rw [exec_canShaperRelease, canShaperReleaseStep_full hn hen ht hx hpcs hnext hfull]
  · rw [exec_canShaperRelease, canShaperReleaseStep_released hn hen ht hx hpcs hnext hframes hslots hr]

/-! ### LIN slots (R194, R195, R235) -/

section SlotStart
variable {s t : State} {n req p : Nat} {x : LinState} (hn : n < 8) (hon : s.linOn n = true) (hrole : s.rd uLin F.lin_LIN_CFG_ROLE n = 0)
  (hrun : s.txStopped = false) (hdrives : s.linDrives n = true) (hgo : (s.linAt n).stopped = false)
  (hreq : req = s.rd uLin F.lin_LIN_SCHED_REQ n) (ht : t = s.wr uLin F.lin_LIN_SCHED_ACTIVE req n) (hx : x = t.linAt n)
  (hp : p = if req = s.rd uLin F.lin_LIN_SCHED_ACTIVE n then x.next else 0)
include hn hon hrole hrun hdrives hgo hreq ht hx hp

theorem linSlotStartStep_empty (hnext : t.linNext n req p = none) : linSlotStartStep n s = t.setLin n { x with slot := none } := by
  unfold linSlotStartStep
  rw [if_pos ⟨hn, hon, hrole, by simp [hrun], hdrives, by simp [hgo]⟩]
  simp only [← hreq, ← ht, ← hx, ← hp, hnext]

theorem linSlotStartStep_entry {e : Nat} (hnext : t.linNext n req p = some e) :
    linSlotStartStep n s = ((t.setLin n { x with next := (e + 1) % 32, slot := some (t.linSlotOf n (t.linEntry n req e)) }).wr uLin
      F.lin_LIN_STATUS_ENTRY e n).inc uLin F.lin_HEADERS n := by
  unfold linSlotStartStep
  rw [if_pos ⟨hn, hon, hrole, by simp [hrun], hdrives, by simp [hgo]⟩]
  simp only [← hreq, ← ht, ← hx, ← hp, hnext]

end SlotStart

section Header
variable {s : State} {n baud : Nat} (hn : n < 8) (hon : s.linOn n = true) (hrole : s.rd uLin F.lin_LIN_CFG_ROLE n = 1)
include hn hon hrole

theorem linHeaderReceiveStep_syncError (h : 115 * s.linBaud n < 100 * baud ∨ 100 * baud < 85 * s.linBaud n) (id : Nat) :
    linHeaderReceiveStep n id baud s = (s.sat uLin F.lin_SYNC_ERR n).wr uLin F.lin_LIN_STATUS_LAST_ERR 4 n := by
  unfold linHeaderReceiveStep
  exact (if_pos ⟨hn, hon, hrole⟩).trans (if_pos h)

theorem linHeaderReceiveStep_opens (hfast : 100 * baud ≤ 115 * s.linBaud n) (hslow : 85 * s.linBaud n ≤ 100 * baud) (id : Nat) :
    linHeaderReceiveStep n id baud s = (s.inc uLin F.lin_HEADERS n).linOpenSlot n (s.linFind n id) := by
  unfold linHeaderReceiveStep
  exact (if_pos ⟨hn, hon, hrole⟩).trans (if_neg (by omega))

end Header

section Response
variable {s t : State} {n : Nat} {sl : LinSlot} {data : List Byte} {chk age : Nat} (hn : n < 8) (hon : s.linOn n = true)
  (hslot : (s.linAt n).slot = some sl) (ht : t = s.setLin n { s.linAt n with slot := none })
include hn hon hslot ht

theorem linResponseTimeoutStep_listening (hpub : sl.pub = false) :
    linResponseTimeoutStep n s = (t.sat uLin F.lin_NO_RESP n).wr uLin F.lin_LIN_STATUS_LAST_ERR 1 n := by
  unfold linResponseTimeoutStep
  simp [hslot, hn, hon, hpub, ← ht]

theorem linResponseCompleteStep_good (hpub : sl.pub = false) (hlen : data.length = sl.len) (hchk : chk = s.linChecksum n sl.id data) :
    linResponseCompleteStep n data chk false false age s = (t.inc uLin F.lin_RESP_OK n).handOff (16 + n)
      { format := 3, id := sl.id * 2 ^ 18, data := data, td0 := s.td0Stamp age } := by
  unfold linResponseCompleteStep
  simp [hslot, hn, hon, hpub, hlen, ← hchk, ← ht]

theorem linResponseCompleteStep_badChecksum (hpub : sl.pub = false) (hlen : data.length = sl.len)
    (hchk : chk ≠ s.linChecksum n sl.id data) :
    linResponseCompleteStep n data chk false false age s = (t.sat uLin F.lin_CHK_ERR n).wr uLin F.lin_LIN_STATUS_LAST_ERR 2 n := by
  unfold linResponseCompleteStep
  simp [hslot, hn, hon, hpub, hlen, hchk, ← ht]

theorem linResponseCompleteStep_collision (htype : sl.type = 1) {bitErr : Bool} {r : State}
    (hr : r = (t.sat uLin F.lin_ET_COLL n).wr uLin F.lin_LIN_STATUS_LAST_ERR 5 n) :
    linResponseCompleteStep n data chk bitErr true age s = { r with gw := { r.gw with collisions := r.gw.collisions ++ [16 + n] } } := by
  unfold linResponseCompleteStep
  simp [hslot, hn, hon, htype, ← ht, ← hr]

/-- A response that this node publishes, and its transceiver has put on the bus without a read-back error. -/
theorem linResponseCompleteStep_published {d : List Byte} (hpub : sl.pub = true) (hresp : sl.resp = some d) (hhold : s.linHold n = false)
    (hsafe : s.safe = false) (hdrives : s.linDrives n = true) {r : State} (hr : r = t.inc uLin F.lin_RESP_OK n) :
    linResponseCompleteStep n data chk false false age s = { r with edge := { r.edge with
      busSent := r.edge.busSent ++ [(16 + n, { format := 3, id := sl.id * 2 ^ 18, data := d })] } } := by
  unfold linResponseCompleteStep
  simp [hslot, hn, hon, hpub, hresp, hhold, hsafe, hdrives, ← ht, ← hr]

end Response

theorem linGoToSleepStep_sleeps {s r : State} {n : Nat} (hn : n < 8) (hon : s.linOn n = true) (hrole : s.rd uLin F.lin_LIN_CFG_ROLE n = 0)
    (hdrives : s.linDrives n = true) (hrun : s.txStopped = false) (hphase : s.rd uNetm F.netm_NETM_STATUS_PHASE = 3)
    (hgo : (s.linAt n).stopped = false)
    (hr : r = (s.setLin n { s.linAt n with slot := none, stopped := true }).inc uLin F.lin_HEADERS n) :
    linGoToSleepStep n s = { r with edge := { r.edge with busSent := r.edge.busSent ++
      [(16 + n, { format := 3, id := 0x3C * 2 ^ 18, data := 0#8 :: List.replicate 7 0xFF#8 })] } } := by
  subst hr
  unfold linGoToSleepStep
  exact if_pos ⟨hn, hon, hrole, hdrives, by simp [hrun], hphase, by simp [hgo]⟩

/-! ### SENT messages and sensor SPI (R197, R198) -/

theorem sentMessageStep_off {s : State} {n : Nat} (h : s.flag uSent F.sent_SENT_CFG_EN n = false) (m : SentIn) :
    sentMessageStep n m s = s := by
  unfold sentMessageStep
  exact if_neg fun ⟨_, _, hcfg⟩ => by simp [h] at hcfg

section Sent
variable {s : State} {n w : Nat} {m : SentIn} (hn : n < 8) (hen : s.enabled uSent = true)
  (hcfg : s.flag uSent F.sent_SENT_CFG_EN n = true) (hw : w = 56 * 16 * clampNat 120 3600 (s.rd uSent F.sent_SENT_CFG_TICK n))
include hn hen hcfg hw

theorem sentMessageStep_badSync (h : w < 5 * m.sync - 5 * w + (5 * w - 5 * m.sync)) : sentMessageStep n m s = s.sentReject n 0 := by
  unfold sentMessageStep
  rw [if_pos ⟨hn, hen, hcfg⟩]
  simp [← hw, h]

variable (hnear : 5 * m.sync - 5 * w + (5 * w - 5 * m.sync) ≤ w) (hfirst : (s.sentAt n).lastSync = none)
  (hcount : s.rd uSent F.sent_SENT_CFG_NIBBLES n = 6)
include hnear hfirst hcount

theorem sentMessageStep_badCount (h : m.nibbles.length ≠ 6) : sentMessageStep n m s = s.sentReject n 1 := by
  unfold sentMessageStep
  rw [if_pos ⟨hn, hen, hcfg⟩]
  simp [← hw, Nat.not_lt.2 hnear, hfirst, hcount, h]

/-- The four checks of R197 in their order: the calibration pulse, the number and lengths of the nibbles, the checksum, the pause. -/
theorem sentMessageStep_accepted {ns : List Nat} {st cr : Nat} (hns : ns = m.nibbles.map (sentTicks m.sync))
    (hst : st = sentTicks m.sync m.status) (hcr : cr = sentTicks m.sync m.crc) (hsix : ns.length = 6)
    (hticks : ∀ v, v ∈ st :: cr :: ns → 12 ≤ v ∧ v ≤ 27)
    (hcrc : crc4 (s.flag uSent F.sent_SENT_CFG_CRC_MODE n) (ns.map (· - 12)) = cr - 12)
    (hpause : s.flag uSent F.sent_SENT_CFG_PAUSE n = false) {t r : State} {td0 : Option Nat}
    (ht : t = s.setSent n { s.sentAt n with lastSync := some m.sync })
    (hr : r = (((t.wr uSent F.sent_SENT_FAST_STAT (st - 12) n).wr uSent F.sent_SENT_FAST_DATA
      ((List.range 6).foldl (fun a i => a * 16 + (ns.map (· - 12)).getD i 0) 0) n).wr uSent F.sent_SENT_FAST_TS_NS m.wcNs n).wr
        uSent F.sent_SENT_STATUS_MEAS_TICK (m.sync / 56) n)
    (htd0 : td0 = r.td0Stamp (r.clk.wc - m.wcNs * 65536)) :
    sentMessageStep n m s = ((r.inc uSent F.sent_MSG_OK n).handOff (24 + n)
      { format := 3, data := beBytes 4 (r.word (fldAddr uSent F.sent_SENT_FAST n 0)).toNat, td0 := td0 }).sentSlow n (st - 12) td0 := by
  unfold sentMessageStep
  rw [if_pos ⟨hn, hen, hcfg⟩]
  simp only [← hw, ← hns, ← hst, ← hcr, hfirst, hcount]
  refine (if_neg ?_).trans ((if_neg ?_).trans ((if_neg ?_).trans ((if_neg ?_).trans ?_)))
  · simpa using hnear
  · simpa [hsix] using hticks
  · simpa using hcrc
  · simp [hpause]
  · simp only [← ht, ← hr, ← htd0]

end Sent

theorem qspiTransferStep_transfers {s r : State} {q rx : Nat} (hq : q < 4) (hen : s.enabled uSent = true)
    (hcfg : s.flag uSent F.sent_QSPI_CFG_EN q = true) (hsafe : s.safe = false) (hr : r = s.inc uSent F.sent_QSPI_COUNT q) :
    qspiTransferStep q rx s =
      { r with edge := { r.edge with spi := pmSet r.edge.spi q (rx % 2 ^ (max 7 (s.rd uSent F.sent_QSPI_CFG_WORD q) + 1)) } } := by
  subst hr
  unfold qspiTransferStep
  exact if_pos ⟨hq, hen, hcfg, by simp [hsafe]⟩

/-- Settles O46: a slot by the next entry of the table, a header by its rate, a response by how it ends (each end closes the slot), a SENT
message by the first check that it fails. -/
theorem linSentAndQspi : Obligations.LinSentAndQspi := by
  unfold Obligations.LinSentAndQspi
  refine fun s n hn => ⟨fun hon hrole hrun hdrives hgo req t hreq ht x p hx hp => ⟨fun hnext => ?_, fun e hnext => ?_⟩,
    fun hon hrole id baud => ⟨fun hfar => ?_, fun hfast hslow => ?_⟩,
    fun sl x hslot hon hx hpub => ⟨?_, fun _ data chk age t ht hlen => ⟨fun hchk => ?_, fun hchk => ?_⟩⟩,
    fun sl x t hslot hon hx ht => ⟨fun htype data chk be age r hr => ?_,
      fun d data chk age r hpub hresp hhold hsafe hdrives hr => ?_⟩,
    fun hon hrole hdrives hrun hphase hgo x r hx hr => ?_, fun hoff m => ?_,
    fun hen hcfg m w hw => ⟨fun hfar => ?_, fun hnear hfirst hcount hlen => ?_⟩, fun q rx r hq hen hcfg hsafe hr => ?_⟩
  · rw [exec_linSlotStart, linSlotStartStep_empty hn hon hrole hrun hdrives hgo hreq ht hx hp hnext]
  · rw [exec_linSlotStart, linSlotStartStep_entry hn hon hrole hrun hdrives hgo hreq ht hx hp hnext]
  · rw [exec_linHeaderReceive, linHeaderReceiveStep_syncError hn hon hrole hfar]
  · rw [exec_linHeaderReceive, linHeaderReceiveStep_opens hn hon hrole hfast hslow]
  · rw [exec_linResponseTimeout, linResponseTimeoutStep_listening hn hon hslot rfl hpub, hx]
  · rw [exec_linResponseComplete, linResponseCompleteStep_good hn hon hslot (hx ▸ ht) hpub hlen hchk]
  · rw [exec_linResponseComplete, linResponseCompleteStep_badChecksum hn hon hslot (hx ▸ ht) hpub hlen hchk]
  · rw [exec_linResponseComplete, linResponseCompleteStep_collision hn hon hslot (hx ▸ ht) htype hr]
  · rw [exec_linResponseComplete, linResponseCompleteStep_published hn hon hslot (hx ▸ ht) hpub hresp hhold hsafe hdrives hr]
  · rw [exec_linGoToSleep, linGoToSleepStep_sleeps hn hon hrole hdrives hrun hphase hgo (hx ▸ hr)]
  · rw [exec_sentMessage, sentMessageStep_off hoff]
  · rw [exec_sentMessage, sentMessageStep_badSync hn hen hcfg hw hfar]
  · rw [exec_sentMessage, sentMessageStep_badCount hn hen hcfg hw hnear hfirst hcount hlen]
  · rw [exec_qspiTransfer, qspiTransferStep_transfers hq hen hcfg hsafe hr]

/-- Settles O47: the message passes every check of R197 (`sentMessageStep_accepted`). -/
theorem sentMessageAccepted : Obligations.SentMessageAccepted := by
  unfold Obligations.SentMessageAccepted
  intro s n m w hn hen hcfg hw hnear hfirst hcount ns st cr hns hst hcr hsix hticks hcrc hpause x t r td0 hx ht hr htd0
  rw [exec_sentMessage, sentMessageStep_accepted hn hen hcfg hw hnear hfirst hcount hns hst hcr hsix hticks hcrc hpause (hx ▸ ht) hr htd0]

/-! ### FlexRay's protocol commands (R200) -/

section Poc
variable {s t : State} {accepts : List Nat}

section Accepted
variable (hen : s.enabled uFlx = true) (hacc : s.poc ∈ accepts) (ht : t = s.wr uFlx F.flx_FLX_STATUS_CMD_ERR 0)
include hen hacc ht

theorem State.pocCommand_moves (p : Nat) : s.pocCommand accepts (some p) = t.wr uFlx F.flx_FLX_STATUS_POC_STATE p := by
  subst ht
  exact if_pos ⟨hen, List.contains_iff_mem.2 hacc⟩

theorem State.pocCommand_stays : s.pocCommand accepts none = t := by
  subst ht
  exact if_pos ⟨hen, List.contains_iff_mem.2 hacc⟩

end Accepted

theorem State.pocCommand_refused (hrej : s.poc ∉ accepts) (ht : t = s.wr uFlx F.flx_FLX_STATUS_CMD_ERR 1) (next : Option Nat) :
    s.pocCommand accepts next = t := by
  subst ht
  exact if_neg fun ⟨_, hacc⟩ => hrej (List.contains_iff_mem.1 hacc)

end Poc

/-! ### FlexRay's slots (R199, R201) -/

theorem flxSlotStep_disabled {s : State} (hen : s.enabled uFlx = false) (slot cycle : Nat) (first passive : Bool) (a b : Option FlxRx)
    (age : Nat) : flxSlotStep slot cycle first passive a b age s = s := by
  unfold flxSlotStep
  exact if_neg fun ⟨h, _⟩ => by simp [hen] at h

/-- FLX_NODE.CHANNELS 1: the node is on channel A. -/
theorem channels_onlyA : (List.range 2).filter (bitOf 1) = [0] := by decide

theorem flxSlotStep_listens {s t : State} {cycle : Nat} {passive : Bool} (hen : s.enabled uFlx = true) (hlow : 4 ≤ s.poc)
    (hhigh : s.poc ≤ 6)
    (ht : t = (s.wr uFlx F.flx_FLX_STATUS_POC_STATE (if passive then 6 else 5)).wr uFlx F.flx_FLX_STATUS_CYCLE cycle)
    (hchan : t.rd uFlx F.flx_FLX_NODE_CHANNELS = 1) (hquiet : passive = true ∨ t.txStopped = true) (slot age : Nat) (a : Option FlxRx) :
    flxSlotStep slot cycle false passive a none age s = t.flxReceive slot cycle 0 age a := by
  unfold flxSlotStep
  rw [if_pos ⟨hen, hlow, hhigh⟩]
  simp [← ht, hchan, channels_onlyA, hquiet]

/-! ### 10BASE-T1S segments (R202 to R204) -/

section Segment
variable {s : State} {g : Nat} (hg : g < 8) (hon : s.segOn g = true)
include hg hon

theorem t1sFrameReceiveStep_drops {b : List Byte} {bad : Bool}
    (h : bad = true ∨ b.length < 64 ∨ 1522 < b.length ∨ 4096 < s.segRxUsed g + b.length) :
    t1sFrameReceiveStep g b bad s = s.sat uT1s F.t1s_RX_DROP g := by
  unfold t1sFrameReceiveStep
  exact (if_pos ⟨hg, hon⟩).trans (if_pos h)

theorem t1sFrameReceiveStep_offers {b : List Byte} (hmin : 64 ≤ b.length) (hmax : b.length ≤ 1522)
    (hroom : s.segRxUsed g + b.length ≤ 4096) :
    t1sFrameReceiveStep g b false s =
      s.offer 12 { inPort := 12, inSub := g, tc := s.segClass g b, ts := s.wcNs % 2 ^ 32 } b := by
  have hfits : ¬ (false = true ∨ b.length < 64 ∨ 1522 < b.length ∨ 4096 < s.segRxUsed g + b.length) := by
    rintro (h | h)
    · exact Bool.false_ne_true h
    · omega
  unfold t1sFrameReceiveStep
  exact (if_pos ⟨hg, hon⟩).trans (if_neg hfits)

section WithoutPlca
variable (hplca : s.plca g = false) (node : Nat)
include hplca

theorem t1sTxOpportunityStep_collision : t1sTxOpportunityStep g 1 node s = s.sat uT1s F.t1s_COLLISIONS g := by
  unfold t1sTxOpportunityStep
  simp [hg, hon, hplca]

theorem t1sTxOpportunityStep_idleMedium :
    t1sTxOpportunityStep g 0 node s = if s.segDrives g then s.segSend g 1 else s := by
  unfold t1sTxOpportunityStep
  simp [hg, hon, hplca]

end WithoutPlca

section Plca
variable (hplca : s.plca g = true) (node : Nat)
include hplca

theorem t1sTxOpportunityStep_noBeacon :
    t1sTxOpportunityStep g 2 node s = (s.sat uT1s F.t1s_BEACON_LOSS g).wr uT1s F.t1s_T1S_STATUS_PLCA_ACTIVE 0 g := by
  unfold t1sTxOpportunityStep
  simp [hg, hon, hplca]

theorem t1sTxOpportunityStep_beacon (hnode : s.rd uT1s F.t1s_T1S_CFG_NODE_ID g ≠ 0) :
    t1sTxOpportunityStep g 3 node s = s.segBeacon g := by
  unfold t1sTxOpportunityStep
  simp [hg, hon, hplca, hnode]

/-- The coordinator begins with its beacon (R204). -/
theorem t1sTxOpportunityStep_coordinator (hnode : s.rd uT1s F.t1s_T1S_CFG_NODE_ID g = 0)
    (hinactive : s.flag uT1s F.t1s_T1S_STATUS_PLCA_ACTIVE g = false) (hdrives : s.segDrives g = true) :
    t1sTxOpportunityStep g 0 node s = s.segBeacon g := by
  unfold t1sTxOpportunityStep
  simp [hg, hon, hplca, hnode, hinactive, hdrives]

theorem t1sTxOpportunityStep_own {node : Nat} {t : State} (hactive : s.flag uT1s F.t1s_T1S_STATUS_PLCA_ACTIVE g = true)
    (ht : t = s.wr uT1s F.t1s_T1S_STATUS_CUR_ID node g) (hnode : node = t.rd uT1s F.t1s_T1S_CFG_NODE_ID g)
    (hstill : t.flag uT1s F.t1s_T1S_STATUS_PLCA_ACTIVE g = true) (hdrives : t.segDrives g = true) :
    t1sTxOpportunityStep g 0 node s = t.segSend g (1 + t.rd uT1s F.t1s_T1S_BURST_BURST_COUNT g) := by
  have hrunning : ¬ (s.rd uT1s F.t1s_T1S_CFG_NODE_ID g = 0 ∧ (!s.flag uT1s F.t1s_T1S_STATUS_PLCA_ACTIVE g) = true) := by
    simp [hactive]
  unfold t1sTxOpportunityStep
  rw [if_pos ⟨hg, hon⟩]
  simp only [hplca, hrunning, ← ht, if_false, Nat.reduceEqDiff, Bool.not_true, Bool.false_eq_true]
  exact if_pos ⟨hnode, hstill, hdrives⟩

end Plca

end Segment

/-- Settles O48: a protocol command by the states that accept it (`State.pocCommand_moves`, `State.pocCommand_refused`), a segment's frame
by its length and room, an opportunity by its kind and by PLCA. -/
theorem flexRayAndT1s : Obligations.FlexRayAndT1s := by
  unfold Obligations.FlexRayAndT1s
  refine fun s => ⟨fun m hen htakes t ht => ⟨fun h => ?_, fun h => ?_, fun h => ⟨?_, ?_⟩, fun h => ⟨?_, ?_⟩, fun h => ?_⟩,
    fun m htakes t ht => ⟨fun h => ?_, fun h => ⟨?_, ?_⟩, fun h => ⟨?_, ?_⟩, fun h => ?_⟩,
    fun slot cycle passive age t hen hlow hhigh ht hchan hquiet rx => ?_, fun hen slot cycle first passive a b age => ?_,
    fun g hg hon => ⟨fun b => ?_, fun b bad h => ?_, fun b hmin hmax hroom => ?_,
      fun hplca node => ⟨?_, fun hdrives => ?_, fun hdrives => ?_⟩,
      fun hplca node => ⟨?_, fun hnode => ?_, fun hnode hinactive hdrives => ?_, fun t ht hactive hnode hstill hdrives => ?_⟩⟩⟩
  · rw [exec_flxConfig, State.command_ok htakes, State.pocCommand_moves hen (by simpa using h) ht]
  · rw [exec_flxReady, State.command_ok htakes, State.pocCommand_moves hen (by simpa using h) ht]
  · rw [exec_flxWakeup, State.command_ok htakes, State.pocCommand_moves hen (by simpa using h) ht]
  · rw [exec_flxRun, State.command_ok htakes, State.pocCommand_moves hen (by simpa using h) ht]
  · rw [exec_flxAllSlots, State.command_ok htakes, State.pocCommand_stays hen (by simpa using h) ht]
  · rw [exec_flxHalt, State.command_ok htakes, State.pocCommand_moves hen (by simpa using h) ht]
  · rw [exec_flxFreeze, State.command_ok htakes, State.pocCommand_moves hen (by simp; omega) ht]
  · rw [exec_flxConfig, State.command_ok htakes, State.pocCommand_refused (by simp; omega) ht]
  · rw [exec_flxWakeup, State.command_ok htakes, State.pocCommand_refused (by simpa using h) ht]
  · rw [exec_flxRun, State.command_ok htakes, State.pocCommand_refused (by simpa using h) ht]
  · rw [exec_flxAllSlots, State.command_ok htakes, State.pocCommand_refused (by simp; omega) ht]
  · rw [exec_flxHalt, State.command_ok htakes, State.pocCommand_refused (by simp; omega) ht]
  · rw [exec_flxReady, State.command_ok htakes, State.pocCommand_refused (by simp; omega) ht]
  · rw [exec_flxSlot, flxSlotStep_listens hen hlow hhigh ht hchan hquiet]
  · rw [exec_flxSlot, flxSlotStep_disabled hen]
  · rw [exec_t1sFrameReceive, t1sFrameReceiveStep_drops hg hon (.inl rfl)]
  · rw [exec_t1sFrameReceive, t1sFrameReceiveStep_drops hg hon (.inr h)]
  · rw [exec_t1sFrameReceive, t1sFrameReceiveStep_offers hg hon hmin hmax hroom]
  · rw [exec_t1sTxOpportunity, t1sTxOpportunityStep_collision hg hon hplca]
  · rw [exec_t1sTxOpportunity, t1sTxOpportunityStep_idleMedium hg hon hplca, hdrives, if_pos rfl]
  · rw [exec_t1sTxOpportunity, t1sTxOpportunityStep_idleMedium hg hon hplca, hdrives, if_neg Bool.false_ne_true]
  · rw [exec_t1sTxOpportunity, t1sTxOpportunityStep_noBeacon hg hon hplca]
  · rw [exec_t1sTxOpportunity, t1sTxOpportunityStep_beacon hg hon hplca node hnode]
  · rw [exec_t1sTxOpportunity, t1sTxOpportunityStep_coordinator hg hon hplca node hnode hinactive hdrives]
  · rw [exec_t1sTxOpportunity, t1sTxOpportunityStep_own hg hon hplca hactive ht hnode hstill hdrives]

end Sys2Proof.Machine

/-! PROOFS. The infusers (chapter 9: R207, R208, R211, R212, R214, R215, R217, R221, R226, R229): the items of an engine, its hand-off to
port 13 and the dispatch from it, and TBL_CMD and MEM_DATA. -/

namespace Sys2Proof.Machine

/-! ### The commands and their operations -/

theorem exec_infuserRxItem (n : Nat) (s : State) : exec (.infuserRxItem n) s = .next (rxItemStep n s) := rfl

theorem exec_infuserEthItem (n : Nat) (s : State) : exec (.infuserEthItem n) s = .next (ethItemStep n s) := rfl

theorem exec_infuserSbItem (n : Nat) (s : State) : exec (.infuserSbItem n) s = .next (sbItemStep n s) := rfl

theorem exec_infuserMgmtItem (n : Nat) (req : MgmtReq) (s : State) :
    exec (.infuserMgmtItem n req) s = .next (mgmtItemStep n req s) := rfl

theorem exec_sigStep (n : Nat) (s : State) : exec (.sigStep n) s = .next (sigItem n (fun _ => true) s) := rfl

theorem exec_signalTimeout (n p : Nat) (s : State) :
    exec (.signalTimeout n p) s = .next (sigItem n (fun j => j.2.1 == 1 && j.2.2 == p) s) := rfl

theorem exec_pduDue (n p : Nat) (s : State) :
    exec (.pduDue n p) s = .next (sigItem n (fun j => j.2.1 == 2 && j.2.2 == p) s) := rfl

theorem exec_p13PduHandoff (n : Nat) (s : State) : exec (.p13PduHandoff n) s = .next (p13PduHandoffStep n s) := rfl

theorem exec_p13Dispatch (s : State) : exec .p13Dispatch s = .next (p13DispatchStep s) := rfl

theorem exec_tblNop (n m : Nat) (s : State) :
    exec (.tblNop n m) s = .next (s.tblCommand n m (fun s => s.tblStatus tblOk)) := rfl

theorem exec_tblWrite (n table i m : Nat) (s : State) :
    exec (.tblWrite n table i m) s = .next (s.tblCommand n m (tblWriteRun table i)) := rfl

theorem exec_tblRead (n table i m : Nat) (s : State) :
    exec (.tblRead n table i m) s = .next (s.tblCommand n m (tblReadRun n table i)) := rfl

theorem exec_tblClear (n table i m : Nat) (s : State) :
    exec (.tblClear n table i m) s = .next (s.tblCommand n m (tblClearRun table i)) := rfl

theorem exec_tblCmdInvalid (n m : Nat) (s : State) :
    exec (.tblCmdInvalid n m) s = .next (s.tblCommand n m (fun s => s.tblStatus tblBadArg)) := rfl

theorem exec_memDataWrite (n : Nat) (v : Word) (m : Nat) (s : State) :
    exec (.memDataWrite n v m) s = .next (memDataWriteStep n v m s) := rfl

theorem exec_memDataRead (n : Nat) (s : State) : exec (.memDataRead n) s = .next (memDataReadStep n s) := rfl

/-! ### Items of an engine that does not run (R207) -/

section Idle
variable {s : State} {n : Nat} (hoff : s.engRuns n = false)
include hoff

theorem rxItemStep_off : rxItemStep n s = s := if_neg (ne_true_of_eq_false hoff)

theorem ethItemStep_off : ethItemStep n s = s := if_neg fun ⟨h, _⟩ => ne_true_of_eq_false hoff h

theorem sbItemStep_off : sbItemStep n s = s := if_neg fun ⟨h, _⟩ => ne_true_of_eq_false hoff h

theorem sigItem_off (want : Nat × Nat × Nat → Bool) : sigItem n want s = s := if_neg (ne_true_of_eq_false hoff)

end Idle

/-! ### Items of a running engine (R208, R215, R221, R226) -/

section Items
variable {s : State} {n : Nat} (hruns : s.engRuns n = true)
include hruns

/-- A frame leaves the head of its source, and is routed. -/
theorem rxItemStep_frame {r : State} {b : Nat} {f : BusFrame} {t : List BusFrame} (hpick : s.nextItem n false = .src b) (hb : b ≠ 38)
    (hq : s.inQ b = f :: t) (hr : r = (s.item n false).setInQ b t) :
    rxItemStep n s = (r.setEngine n { r.engine n with rr := b }).routeFrame n b f := by
  subst hr
  unfold rxItemStep
  rw [if_pos hruns]
  simp only [hpick, hq]
  exact if_neg hb

section Ethernet
variable {r y : State} {k : Nat} {b : List Byte} {t : List (Nat × List Byte)} (hpick : s.nextItem n false = .src 38)
  (hin : (s.engine n).ethIn = (k, b) :: t) (hr : r = s.item n false)
  (hy : y = r.setEngine n { r.engine n with ethIn := t, rr := 38 })
include hpick hin hr hy

theorem ethItemStep_noAvtp (havtp : y.avtpOf b = none) : ethItemStep n s = y := by
  unfold ethItemStep
  rw [if_pos ⟨hruns, hpick⟩]
  simp [hin, ← hr, ← hy, havtp]

theorem ethItemStep_unpacks {a : List Byte} {j : Nat} (havtp : y.avtpOf b = some a) (htun : y.inboundTunnel a = some j) :
    ethItemStep n s = y.unpack n j a := by
  unfold ethItemStep
  rw [if_pos ⟨hruns, hpick⟩]
  simp [hin, ← hr, ← hy, havtp, htun]

end Ethernet

theorem sbItemStep_takes {r : State} (hpick : s.nextItem n false = .sb) (hr : r = s.item n (s.engine n).lastSig) :
    sbItemStep n s = (r.setEngine n { r.engine n with sb := (r.engine n).sb.tail }).idlePass n := by
  subst hr
  exact if_pos ⟨hruns, hpick⟩

section Management
variable {r : State} (hpick : s.nextItem n true = .mgmt) (hr : r = s.item n false)
include hpick hr

theorem mgmtItemStep_read (a : Nat) : mgmtItemStep n (.read a) s = r.regReadTo (32 + n) a := by
  subst hr
  exact if_pos ⟨hruns, hpick⟩

/-- The engine is a master like another: LIN takes its write as a staged one (log entry 110). -/
theorem mgmtItemStep_linSched {ch a : Nat} (hch : ch < 8) (ha : a = fldAddr uLin F.lin_LIN_SCHED_REQ ch 0)
    (htakes : r.takes uLin (32 + n) = true) (table : Nat) :
    mgmtItemStep n (.linSched ch table) s =
      r.stage uLin (32 + n) a (setBits (r.stagedWord a) F.lin_LIN_SCHED_REQ.lsb F.lin_LIN_SCHED_REQ.width table) := by
  subst hr ha
  unfold mgmtItemStep
  rw [if_pos ⟨hruns, hpick⟩]
  exact (if_pos hch).trans (State.command_ok htakes _ _)

end Management

/-- A signal step is done by a command that asks for it, and by no other (R208). -/
theorem sigItem_turn {turn : Bool} {j : Nat × Nat × Nat} {l : List (Nat × Nat × Nat)} (hpick : s.nextItem n false = .sig turn)
    (hjob : (s.engine n).job = j :: l) (want : Nat × Nat × Nat → Bool) :
    sigItem n want s = if want j then (s.item n turn).sigStep n else s := by
  unfold sigItem
  rw [if_pos hruns]
  simp only [hpick, hjob]

end Items

/-- A job of another kind or of another number is not the one that a command names. -/
theorem other_job {j : Nat × Nat × Nat} {kind p : Nat} (h : j.2.1 ≠ kind ∨ j.2.2 ≠ p) : ¬ (j.2.1 == kind && j.2.2 == p) = true := by
  rw [Bool.and_eq_true, beq_iff_eq, beq_iff_eq]
  rintro ⟨hkind, hp⟩
  exact h.elim (fun hother => hother hkind) (fun hother => hother hp)

/-! ### Port 13 (R211, R212) -/

section Handoff
variable {s : State} {n : Nat} (hn : n < 13) (hen : s.enabled (uGw n) = true)
include hn hen

theorem p13PduHandoffStep_offers {i : Nat} {p : Nat × List Byte}
    (hfirst : findIdx1 (fun (p : Nat × List Byte) => !s.stalledClass 13 p.1) (s.engine n).p13Out 0 = some (i, p)) :
    p13PduHandoffStep n s = (s.setEngine n { s.engine n with p13Out := (s.engine n).p13Out.eraseIdx i }).offer 13
      { inPort := 13, inSub := n, tc := p.1, ts := s.wcNs % 2 ^ 32 } p.2 := by
  unfold p13PduHandoffStep
  rw [if_pos ⟨hn, hen⟩]
  simp only [hfirst]

theorem p13PduHandoffStep_stalled
    (hnone : findIdx1 (fun (p : Nat × List Byte) => !s.stalledClass 13 p.1) (s.engine n).p13Out 0 = none) :
    p13PduHandoffStep n s = s := by
  unfold p13PduHandoffStep
  rw [if_pos ⟨hn, hen⟩]
  simp only [hnone]

end Handoff

theorem p13DispatchStep_none {s : State} (h : findIdx1 (fun (d : Delivered) => d.port == 13) s.fab.delivered 0 = none) :
    p13DispatchStep s = s := by
  unfold p13DispatchStep
  simp only [h]

section Dispatch
variable {s q : State} {i : Nat} {d : Delivered}
  (hfirst : findIdx1 (fun (d : Delivered) => d.port == 13) s.fab.delivered 0 = some (i, d))
  (hq : q = { s with fab := { s.fab with delivered := s.fab.delivered.eraseIdx i } })
include hfirst hq

theorem p13DispatchStep_noStream (hstream : (q.avtpOf d.bytes).bind q.inboundTunnel = none) :
    p13DispatchStep s = q.sat uGwAny F.gw_NO_STREAM_COUNT := by
  unfold p13DispatchStep
  simp only [hfirst, ← hq, hstream]

variable {t n : Nat} (hstream : (q.avtpOf d.bytes).bind q.inboundTunnel = some t)
  (hown : q.engineOf (tunOwner (q.tblAt 1 t)) = some n)
include hstream hown

/-- A frame of a known stream goes to the engine of its tunnel, where its buffer has room for it (log entry 78). -/
theorem p13DispatchStep_stream : p13DispatchStep s =
    if 8 ≤ (q.engine n).ethIn.length ∨ 1522 < d.bytes.length then q.sat (uGw n) F.gw_ETH_IN_DROP
    else q.setEngine n { q.engine n with ethIn := (q.engine n).ethIn ++ [(t, d.bytes)] } := by
  unfold p13DispatchStep
  simp only [hfirst, ← hq, hstream, hown]

end Dispatch

/-- Settles O49: an item by what the engine picks, a signal step by the command that asks for it (`sigItem_turn`), the hand-off to port 13
by its first PDU that may go, and the dispatch from it by the stream and the room (`p13DispatchStep_stream`). -/
theorem gatewayItems : Obligations.GatewayItems := by
  unfold Obligations.GatewayItems
  refine fun s n => ⟨fun hruns => ⟨fun b f t r x hpick hb hq hr hx => ?_, fun k b t r x y hpick hin hr hx hy => ?_,
      fun r x hpick hr hx => ?_, fun hpick r hr => ⟨fun a => ?_, fun ch table a hch ha htakes => ?_⟩,
      fun turn j l hpick hjob => ⟨?_, fun p hj => ?_, fun p hj => ?_, fun p hj => ?_, fun p hj => ?_⟩⟩,
    fun hoff => ⟨?_, ?_, ?_, ?_⟩, fun hn hen x hx => ⟨fun i p hfirst => ?_, fun hnone => ?_⟩, fun hnone => ?_,
    fun i d f q hfirst hf hq => ⟨fun hstream => ?_, fun t x hstream hown hx => ⟨fun hfull => ?_, fun hroom hlen => ?_⟩⟩⟩
  · rw [exec_infuserRxItem, rxItemStep_frame hruns hpick hb hq hr, hx]
  · subst hx
    refine ⟨fun havtp => ?_, fun a j havtp htun => ?_⟩
    · rw [exec_infuserEthItem, ethItemStep_noAvtp hruns hpick hin hr hy havtp]
    · rw [exec_infuserEthItem, ethItemStep_unpacks hruns hpick hin hr hy havtp htun]
  · rw [exec_infuserSbItem, sbItemStep_takes hruns hpick hr, hx]
  · rw [exec_infuserMgmtItem, mgmtItemStep_read hruns hpick hr]
  · rw [exec_infuserMgmtItem, mgmtItemStep_linSched hruns hpick hr hch ha htakes]
  · rw [exec_sigStep, sigItem_turn hruns hpick hjob, if_pos rfl]
  · rw [exec_signalTimeout, sigItem_turn hruns hpick hjob, if_pos (by simp [hj])]
  · rw [exec_pduDue, sigItem_turn hruns hpick hjob, if_pos (by simp [hj])]
  · rw [exec_signalTimeout, sigItem_turn hruns hpick hjob, if_neg (other_job hj)]
  · rw [exec_pduDue, sigItem_turn hruns hpick hjob, if_neg (other_job hj)]
  · rw [exec_infuserRxItem, rxItemStep_off hoff]
  · rw [exec_infuserEthItem, ethItemStep_off hoff]
  · rw [exec_infuserSbItem, sbItemStep_off hoff]
  · rw [exec_sigStep, sigItem_off hoff]
  · subst hx
    rw [exec_p13PduHandoff, p13PduHandoffStep_offers hn hen hfirst]
  · subst hx
    rw [exec_p13PduHandoff, p13PduHandoffStep_stalled hn hen hnone]
  · rw [exec_p13Dispatch, p13DispatchStep_none hnone]
  · subst hf
    rw [exec_p13Dispatch, p13DispatchStep_noStream hfirst hq hstream]
  · subst hf
    rw [exec_p13Dispatch, p13DispatchStep_stream hfirst hq hstream hown, ← hx, if_pos hfull]
  · subst hf
    rw [exec_p13Dispatch, p13DispatchStep_stream hfirst hq hstream hown, ← hx, if_neg (by omega)]

/-! ### TBL_CMD (R217, R229) -/

theorem State.tblCommand_ok {s : State} {n m : Nat} (hn : n < 13) (htakes : s.takes (uGw n) m = true) (run : State → State) :
    s.tblCommand n m run = run s := (if_pos hn).trans (State.command_ok htakes _ run)

section Outside
variable {table i : Nat} (hout : 4 ≤ table ∨ tblSize table ≤ i)
include hout

theorem tblWriteRun_outside (s : State) : tblWriteRun table i s = s.tblStatus tblBadArg := if_pos hout

theorem tblReadRun_outside (s : State) (n : Nat) : tblReadRun n table i s = s.tblStatus tblBadArg := if_pos hout

theorem tblClearRun_outside (s : State) : tblClearRun table i s = s.tblStatus tblBadArg := if_pos hout

end Outside

section Inside
variable {s : State} {table i : Nat} (hin : ¬ (4 ≤ table ∨ tblSize table ≤ i))
include hin

/-- The entry in TBL_DATA is stored, except a route out of order (R214). -/
theorem tblWriteRun_inside : tblWriteRun table i s =
    if table = 0 ∧ !s.routeOrdered i (s.tblData table) then s.tblStatus tblBadArg
    else (s.putTbl table i (s.tblData table)).tblStatus tblOk := if_neg hin

theorem tblReadRun_good {q : State} {n : Nat} (hcheck : s.tblCheck n table i = (false, q)) :
    tblReadRun n table i s = (q.setTblData table (q.tblAt table i)).tblStatus tblOk := by
  unfold tblReadRun
  rw [if_neg hin, hcheck]
  exact if_neg Bool.false_ne_true

theorem tblReadRun_failing {q : State} {n : Nat} (hcheck : s.tblCheck n table i = (true, q)) :
    tblReadRun n table i s = q.tblStatus tblEccErr := by
  unfold tblReadRun
  rw [if_neg hin, hcheck]
  exact if_pos rfl

theorem tblClearRun_inside : tblClearRun table i s = (s.putTbl table i 0).tblStatus tblOk := if_neg hin

end Inside

/-- Without an injection the check finds what the word is. -/
theorem State.tblCheck_unarmed {s : State} {n : Nat} (harm : s.armed (uGw n) 0 = false) (table i : Nat) :
    s.tblCheck n table i = if s.tblFailed table i then (true, s.tblFault n table i) else (false, s) := by
  unfold State.tblCheck
  rw [State.codeCheck_unarmed harm]
  cases s.tblFailed table i <;> rfl

/-! ### MEM_DATA (R229) -/

section MemData
variable {s : State} {n m : Nat} (hn : n < 13)
include hn

theorem memDataWriteStep_disabled (htakes : s.takes (uGw n) m = true) (hen : s.enabled (uGw n) = false) (v : Word) :
    memDataWriteStep n v m s =
      ({ s with gw := { s.gw with mem := smSet zero0 s.gw.mem (s.memIndex n) v.toNat } } : State).memNext n := by
  unfold memDataWriteStep
  rw [if_pos hn, hen, if_neg Bool.false_ne_true, State.command_ok htakes]

theorem memDataWriteStep_enabled (htakes : s.takes (uGw n) m = true) (hen : s.enabled (uGw n) = true) (v : Word) :
    memDataWriteStep n v m s =
      if v = BitVec.ofNat 32 (smGet zero0 s.gw.mem (s.memIndex n)) then s
      else s.refuse m (fldAddr (uGw n) F.gw_MEM_DATA_DATA 0 0) := by
  unfold memDataWriteStep
  rw [if_pos hn, if_pos hen, State.command_ok htakes]

theorem memDataReadStep_good {inj : Bool} {q : State} (hcheck : s.codeCheck (uGw n) 0 .good = (.good, inj, q)) :
    memDataReadStep n s = { (q.memNext n) with readData := BitVec.ofNat 32 (smGet zero0 s.gw.mem (s.memIndex n)) } := by
  unfold memDataReadStep
  rw [if_pos hn]
  simp only [hcheck, if_true]

end MemData

/-- Settles O50: a command that TBL_CMD takes runs at once (`State.tblCommand_ok`), and each run is told by its table and index, by the
order of the routes or by the code check; MEM_DATA by whether the engine is enabled. -/
theorem gatewayTables : Obligations.GatewayTables := by
  unfold Obligations.GatewayTables
  refine fun s n m hn htakes => ⟨?_, ?_, fun t i hout => ⟨?_, ?_, ?_⟩, fun t i ht hi => ?_, fun v g hg hen => ?_,
    fun v hen => ⟨fun hsame => ?_, fun hdiffers => ?_⟩, fun inj q hcheck => ?_⟩
  · rw [exec_tblNop, State.tblCommand_ok hn htakes]
  · rw [exec_tblCmdInvalid, State.tblCommand_ok hn htakes]
  · rw [exec_tblWrite, State.tblCommand_ok hn htakes, tblWriteRun_outside hout]
  · rw [exec_tblRead, State.tblCommand_ok hn htakes, tblReadRun_outside hout]
  · rw [exec_tblClear, State.tblCommand_ok hn htakes, tblClearRun_outside hout]
  · have hin : ¬ (4 ≤ t ∨ tblSize t ≤ i) := by omega
    refine ⟨fun hordered => ?_, fun hroute hdisorder => ?_, fun q hcheck => ?_, fun q hcheck => ?_,
      fun harm => ⟨fun hgood => ?_, fun hfailed => ?_⟩, ?_⟩
    · have hkept : ¬ (t = 0 ∧ (!s.routeOrdered i (s.tblData t)) = true) := by
        rcases hordered with hother | hordered
        · exact fun ⟨hroute, _⟩ => hother hroute
        · simp [hordered]
      rw [exec_tblWrite, State.tblCommand_ok hn htakes, tblWriteRun_inside hin, if_neg hkept]
    · rw [exec_tblWrite, State.tblCommand_ok hn htakes, tblWriteRun_inside hin, if_pos ⟨hroute, by rw [hdisorder]; rfl⟩]
    · rw [exec_tblRead, State.tblCommand_ok hn htakes, tblReadRun_good hin hcheck]
    · rw [exec_tblRead, State.tblCommand_ok hn htakes, tblReadRun_failing hin hcheck]
    · rw [State.tblCheck_unarmed harm, hgood, if_neg Bool.false_ne_true]
    · rw [State.tblCheck_unarmed harm, hfailed, if_pos rfl]
    · rw [exec_tblClear, State.tblCommand_ok hn htakes, tblClearRun_inside hin]
  · subst hg
    rw [exec_memDataWrite, memDataWriteStep_disabled hn htakes hen]
  · rw [exec_memDataWrite, memDataWriteStep_enabled hn htakes hen, if_pos hsame]
  · rw [exec_memDataWrite, memDataWriteStep_enabled hn htakes hen, if_neg hdiffers]
  · rw [exec_memDataRead, memDataReadStep_good hn hcheck]

end Sys2Proof.Machine

/-! PROOFS. Sleep and wake (chapter 10: R231 to R243; R251): the rounds, messages and times of the consent rings, the commit to Sleep and
the wake sources. -/

namespace Sys2Proof.Machine

/-! ### The commands and their operations -/

theorem exec_roundStart (r : Nat) (s : State) : exec (.roundStart r) s = .next (roundStartStep r s) := rfl

theorem exec_tokenTimeout (r : Nat) (s : State) : exec (.tokenTimeout r) s = .next (tokenTimeoutStep r s) := rfl

theorem exec_ringToken (r : Nat) (m : RingIn) (s : State) : exec (.ringToken r m) s = .next (ringTokenStep r m s) := rfl

theorem exec_ringAgree (r : Nat) (m : RingIn) (s : State) : exec (.ringAgree r m) s = .next (ringAgreeStep r m s) := rfl

theorem exec_ringDrain (r : Nat) (m : RingIn) (s : State) : exec (.ringDrain r m) s = .next (ringDrainStep r m s) := rfl

theorem exec_ringCommit (r : Nat) (m : RingIn) (s : State) : exec (.ringCommit r m) s = .next (ringCommitStep r m s) := rfl

theorem exec_ringWake (r : Nat) (m : RingIn) (s : State) : exec (.ringWake r m) s = .next (ringWakeStep r m s) := rfl

theorem exec_ringBadMsg (r : Nat) (s : State) : exec (.ringBadMsg r) s = .next (if s.ringRuns r then s.badMsg else s) := rfl

theorem exec_agreeTicksExpiry (s : State) : exec .agreeTicksExpiry s = .next (agreeTicksExpiryStep s) := rfl

theorem exec_drainExpiry (s : State) : exec .drainExpiry s = .next (drainExpiryStep s) := rfl

theorem exec_backboneTimeout (s : State) : exec .backboneTimeout s = .next (backboneTimeoutStep s) := rfl

theorem exec_commitRequest (s : State) : exec .commitRequest s = .next (commitRequestStep s) := rfl

theorem exec_commitDelayExpiry (s : State) : exec .commitDelayExpiry s = .next (commitDelayExpiryStep s) := rfl

theorem exec_wakeDetect (w : WakeIn) (s : State) : exec (.wakeDetect w) s = .next (wakeDetectStep w s) := rfl

theorem exec_selectiveWakeFrame (n : Nat) (f : BusFrame) (err : Bool) (s : State) :
    exec (.selectiveWakeFrame n f err) s = .next (selectiveWakeFrameStep n f err s) := rfl

theorem exec_wakeTimerExpiry (s : State) : exec .wakeTimerExpiry s = .next (wakeTimerExpiryStep s) := rfl

theorem exec_localWake (m : Nat) (s : State) : exec (.localWake m) s =
    .next (s.command uNetm m (fldAddr uNetm F.netm_NETM_CMD_WAKE 0 0) localWakeStep) := rfl

theorem exec_localHold (v : Word) (m : Nat) (s : State) : exec (.localHold v m) s =
    .next (s.command uNetm m (fldAddr uNetm F.netm_NETM_LOCAL_HOLD 0 0) (localHoldStep v)) := rfl

/-! ### Rounds (R233) -/

section Rounds
variable {s : State} {r : Nat}

theorem roundStartStep_due (hat : s.roundsAt r = true) (hdue : (s.ring r).fresh = true ∨
    ((s.ring r).waiting = false ∧ max 1 (s.rd uNetm F.netm_NETM_TIMING_ROUND_TICKS) ≤ (s.ring r).since)) :
    roundStartStep r s = s.startRound r := by
  unfold roundStartStep
  exact if_pos ⟨hat, hdue.imp_right fun ⟨hidle, hlong⟩ => ⟨by rw [hidle]; rfl, hlong⟩⟩

theorem tokenTimeoutStep_late (hat : s.roundsAt r = true) (hwaits : (s.ring r).waiting = true)
    (hlate : max 1 (s.rd uNetm F.netm_NETM_TIMING_TOKEN_TIMEOUT) ≤ (s.ring r).since) :
    tokenTimeoutStep r s = (s.sat uNetm F.netm_TOKEN_LOST).startRound r := by
  unfold tokenTimeoutStep
  exact if_pos ⟨hat, hwaits, hlate⟩

variable (hnot : s.roundsAt r = false)
include hnot

theorem roundStartStep_elsewhere : roundStartStep r s = s := by
  unfold roundStartStep
  exact if_neg fun ⟨hat, _⟩ => ne_true_of_eq_false hnot hat

theorem tokenTimeoutStep_elsewhere : tokenTimeoutStep r s = s := by
  unfold tokenTimeoutStep
  exact if_neg fun ⟨hat, _⟩ => ne_true_of_eq_false hnot hat

end Rounds

/-! ### Messages (R231, R232, R235) -/

section Messages
variable {s : State} {r : Nat} {m : RingIn}

theorem State.ringMessage_stopped (hoff : s.ringRuns r = false) (run : State → State) : s.ringMessage r m run = s := by
  unfold State.ringMessage
  rw [hoff]
  rfl

theorem ringTokenStep_stopped (hoff : s.ringRuns r = false) : ringTokenStep r m s = s := by
  unfold ringTokenStep
  rw [hoff]
  rfl

/-- The five messages have one outcome where the ring itself decides it, whatever a message would do if it were taken. -/
theorem exec_ringMessages {x : State} (htoken : ringTokenStep r m s = x) (hany : ∀ run, s.ringMessage r m run = x) :
    exec (.ringToken r m) s = .next x ∧ exec (.ringAgree r m) s = .next x ∧ exec (.ringDrain r m) s = .next x ∧
      exec (.ringCommit r m) s = .next x ∧ exec (.ringWake r m) s = .next x := by
  rw [exec_ringToken, exec_ringAgree, exec_ringDrain, exec_ringCommit, exec_ringWake, htoken]
  unfold ringAgreeStep ringDrainStep ringCommitStep ringWakeStep
  simp only [hany, and_self]

variable (hruns : s.ringRuns r = true)
include hruns

theorem State.ringMessage_otherRing (hring : m.ring % 256 ≠ s.ringId r) (run : State → State) :
    s.ringMessage r m run = s.badMsg := by
  unfold State.ringMessage
  rw [hruns, Bool.not_true, if_neg Bool.false_ne_true, if_pos hring]

theorem ringTokenStep_otherRing (hring : m.ring % 256 ≠ s.ringId r) : ringTokenStep r m s = s.badMsg := by
  unfold ringTokenStep
  rw [hruns, Bool.not_true, if_neg Bool.false_ne_true, if_pos hring]

variable (hring : m.ring % 256 = s.ringId r)
include hring

theorem State.ringMessage_own (hown : m.sender % 64 = s.ringPos r) (run : State → State) : s.ringMessage r m run = s := by
  unfold State.ringMessage
  rw [hruns, Bool.not_true, if_neg Bool.false_ne_true, if_neg (not_not_intro hring), if_pos hown]

/-- A TOKEN of the ring goes no further if the device sent it itself, or outside Awake. -/
theorem ringTokenStep_ignored (h : m.sender % 64 = s.ringPos r ∨ s.phase ≠ phAwake) : ringTokenStep r m s = s := by
  unfold ringTokenStep
  rw [hruns, Bool.not_true, if_neg Bool.false_ne_true, if_neg (not_not_intro hring), if_pos h]

variable (hother : m.sender % 64 ≠ s.ringPos r)
include hother

theorem ringTokenStep_awake (hawake : s.phase = phAwake) :
    ringTokenStep r m s = if s.tokenFits r m then s.ringMessage r m (fun s => s.takeToken r m) else s.badMsg := by
  unfold ringTokenStep
  rw [hruns, Bool.not_true, if_neg Bool.false_ne_true, if_neg (not_not_intro hring), if_neg fun h => h.elim hother (· hawake)]

variable {t : State} (ht : t = if r = 0 then
  ({ s with netm := { s.netm with bbSince := 0 } } : State).wr uNetm F.netm_NETM_STATUS_BB_SEEN 1 else s)
include ht

theorem State.ringMessage_taken (run : State → State) : s.ringMessage r m run = run t := by
  subst ht
  unfold State.ringMessage
  rw [hruns, Bool.not_true, if_neg Bool.false_ne_true, if_neg (not_not_intro hring), if_neg hother]

theorem ringTokenStep_taken (hawake : s.phase = phAwake) (hfits : s.tokenFits r m = true) :
    ringTokenStep r m s = t.takeToken r m := by
  rw [ringTokenStep_awake hruns hring hother hawake, if_pos hfits, State.ringMessage_taken hruns hring hother ht]

theorem ringAgreeStep_follows (hf : t.followsIn r phAwake = true) :
    ringAgreeStep r m s = { t with netm := { t.netm with agreeSeen := true } } :=
  (State.ringMessage_taken hruns hring hother ht _).trans (if_pos hf)

theorem ringDrainStep_follows (hf : t.followsIn r phAgreed = true) :
    ringDrainStep r m s = { t with netm := { t.netm with drainSeen := some (m.arg % 256) } } :=
  (State.ringMessage_taken hruns hring hother ht _).trans (if_pos hf)

theorem ringCommitStep_follows (hf : t.followsIn r phDraining = true) :
    ringCommitStep r m s = { t with netm := { t.netm with commitSeen := true } } :=
  (State.ringMessage_taken hruns hring hother ht _).trans (if_pos hf)

theorem ringWakeStep_taken : ringWakeStep r m s = (if r = 0 then t else t.setRingOk r false).ringAbort 8 r :=
  State.ringMessage_taken hruns hring hother ht _

end Messages

/-! ### The times of the phases (R235, Table 10.2) -/

section Times
variable {s : State}

section Driver
variable (hrun : s.ringsRun = true) (hdrives : s.drives = true)
include hrun hdrives

theorem agreeTicksExpiryStep_driver (hphase : s.phase = phAgreed)
    (hpast : max 1 (s.rd uNetm F.netm_NETM_TIMING_AGREE_TICKS) ≤ s.netm.timer) :
    agreeTicksExpiryStep s = s.enterDraining (s.rd uNetm F.netm_NETM_TIMING_DRAIN_TICKS) := if_pos ⟨hrun, hphase, hdrives, hpast⟩

theorem drainExpiryStep_driver (hphase : s.phase = phDraining) (hpast : s.netm.drainLen ≤ s.netm.timer) :
    drainExpiryStep s = s.enterCommitted := if_pos ⟨hrun, hphase, hdrives, hpast⟩

end Driver

section Follower
variable (hfollows : s.drives = false)
include hfollows

theorem agreeTicksExpiryStep_follower : agreeTicksExpiryStep s = s :=
  if_neg fun ⟨_, _, hdrives, _⟩ => ne_true_of_eq_false hfollows hdrives

theorem drainExpiryStep_follower : drainExpiryStep s = s :=
  if_neg fun ⟨_, _, hdrives, _⟩ => ne_true_of_eq_false hfollows hdrives

/-- In Agreed the message that a follower waits for is DRAIN. -/
theorem backboneTimeoutStep_agreed (hphase : s.phase = phAgreed) (hwaits : s.netm.drainSeen = none)
    (hpast : max 1 (s.rd uNetm F.netm_NETM_TIMING_AGREE_TICKS) + max 1 (s.rd uNetm F.netm_NETM_TIMING_TOKEN_TIMEOUT) ≤ s.netm.timer) :
    backboneTimeoutStep s = s.ringAbort 10 0 := by
  unfold backboneTimeoutStep
  simp only [if_pos hphase]
  exact if_pos ⟨by rw [hfollows]; rfl, by rw [hwaits]; rfl, hpast⟩

end Follower

theorem backboneTimeoutStep_driver (hdrives : s.drives = true) : backboneTimeoutStep s = s := by
  unfold backboneTimeoutStep
  exact if_neg fun ⟨hfollows, _⟩ => by simp [hdrives] at hfollows

end Times

/-- Settles O51: where the ring itself decides (it does not run, it is another, or the message is the device's own) all messages share
one outcome (`exec_ringMessages`); a message that is taken runs on the state that has noted it (`State.ringMessage_taken`); the rounds
and the times of the phases act when they are due. -/
theorem ringMessages : Obligations.RingMessages := by
  unfold Obligations.RingMessages
  refine fun s r m => ⟨fun hat hdue => ?_, fun hat hwaits hlate => ?_, fun hnot => ⟨?_, ?_⟩, fun hoff => ?_,
    fun hruns => ⟨?_, fun hring => ?_, fun hring hown => ?_, fun hring hother t ht =>
      ⟨fun hphase => ?_, fun hawake hmisfit => ?_, fun hawake hfits => ?_, fun hf x hx => ?_, fun hf x hx => ?_, fun hf x hx => ?_, ?_⟩⟩,
    fun hrun hphase hdrives hpast => ?_, fun hrun hphase hdrives hpast => ?_, fun hfollows => ⟨?_, ?_⟩,
    fun hfollows hphase hwaits hpast => ?_, fun hdrives => ?_⟩
  · rw [exec_roundStart, roundStartStep_due hat hdue]
  · rw [exec_tokenTimeout, tokenTimeoutStep_late hat hwaits hlate]
  · rw [exec_roundStart, roundStartStep_elsewhere hnot]
  · rw [exec_tokenTimeout, tokenTimeoutStep_elsewhere hnot]
  · obtain ⟨htoken, hagree, hdrain, hcommit, hwake⟩ :=
      exec_ringMessages (ringTokenStep_stopped hoff) (State.ringMessage_stopped (m := m) hoff)
    exact ⟨htoken, hagree, hdrain, hcommit, hwake, by rw [exec_ringBadMsg, if_neg (ne_true_of_eq_false hoff)]⟩
  · rw [exec_ringBadMsg, if_pos hruns, State.badMsg]
  · exact exec_ringMessages (ringTokenStep_otherRing hruns hring) (State.ringMessage_otherRing hruns hring)
  · exact exec_ringMessages (ringTokenStep_ignored hruns hring (.inl hown)) (State.ringMessage_own hruns hring hown)
  · rw [exec_ringToken, ringTokenStep_ignored hruns hring (.inr hphase)]
  · rw [exec_ringToken, ringTokenStep_awake hruns hring hother hawake, if_neg (ne_true_of_eq_false hmisfit), State.badMsg]
  · rw [exec_ringToken, ringTokenStep_taken hruns hring hother ht hawake hfits]
  · rw [exec_ringAgree, ringAgreeStep_follows hruns hring hother ht hf, hx]
  · rw [exec_ringDrain, ringDrainStep_follows hruns hring hother ht hf, hx]
  · rw [exec_ringCommit, ringCommitStep_follows hruns hring hother ht hf, hx]
  · rw [exec_ringWake, ringWakeStep_taken hruns hring hother ht]
  · rw [exec_agreeTicksExpiry, agreeTicksExpiryStep_driver hrun hdrives hphase hpast]
  · rw [exec_drainExpiry, drainExpiryStep_driver hrun hdrives hphase hpast]
  · rw [exec_agreeTicksExpiry, agreeTicksExpiryStep_follower hfollows]
  · rw [exec_drainExpiry, drainExpiryStep_follower hfollows]
  · rw [exec_backboneTimeout, backboneTimeoutStep_agreed hfollows hphase hwaits hpast]
  · rw [exec_backboneTimeout, backboneTimeoutStep_driver hdrives]

/-! ### The commit to Sleep (R237, R238) -/

section Commit
variable {s t : State}

theorem commitRequestStep_none (hreq : s.cosy.commitReq = false) : commitRequestStep s = s := by
  unfold commitRequestStep
  rw [hreq]
  rfl

theorem commitRequestStep_accepts (hreq : s.cosy.commitReq = true) (hlatched : s.cosy.latched = false) (hmay : s.maySleep = true)
    (ht : t = s.cancelActivation 7) :
    commitRequestStep s = { t with cosy := { t.cosy with
      commitReq := false, committed := true, locked := true, timerOn := t.flag uCosy F.cosy_WAKE_CFG_TIMER_EN } } := by
  have haccepted : ¬ (s.cosy.latched = true ∨ (!s.maySleep) = true) := by simp [hlatched, hmay]
  subst ht
  unfold commitRequestStep
  rw [hreq]
  exact if_neg haccepted

theorem commitDelayExpiryStep_none (hnone : s.cosy.committed = false) : commitDelayExpiryStep s = s := by
  unfold commitDelayExpiryStep
  rw [hnone]
  rfl

theorem commitDelayExpiryStep_sleeps (hcommitted : s.cosy.committed = true) (hmay : s.maySleep = true) {target : Bool}
    (htarget : target = s.flag uCosy F.cosy_SLEEP_CFG_TARGET)
    (ht : t = ((s.sat uNetm F.netm_COMMIT_DISCARD 0 0 s.queuedEdge).xcvrSleep target).powerDown (if target then pwStandby else pwSleep)) :
    commitDelayExpiryStep s = { t with cosy := { t.cosy with committed := false } } := by
  subst ht htarget
  unfold commitDelayExpiryStep
  rw [hcommitted, hmay]
  rfl

end Commit

/-! ### Wake sources (R236, R239 to R242) -/

section Detectors
variable {s t : State}

section Pin
variable {p : Nat} {level : Bool}
  (ht : t = { s with cosy := { s.cosy with wakePins := if level then setBit s.cosy.wakePins p else clearBit s.cosy.wakePins p } })
include ht

theorem wakeDetectStep_pin : wakeDetectStep (.pin p level) s =
    if p < 4 ∧ bitOf (s.rd uCosy F.cosy_WAKE_CFG_PIN_EN) p = true ∧ t.pinActive p = true then t.wakeEvent 1 p else t := by
  subst ht
  rfl

theorem wakeDetectStep_pin_active (hp : p < 4) (hen : bitOf (s.rd uCosy F.cosy_WAKE_CFG_PIN_EN) p = true)
    (hactive : t.pinActive p = true) : wakeDetectStep (.pin p level) s = t.wakeEvent 1 p :=
  (wakeDetectStep_pin ht).trans (if_pos ⟨hp, hen, hactive⟩)

theorem wakeDetectStep_pin_inactive (hidle : t.pinActive p = false) : wakeDetectStep (.pin p level) s = t :=
  (wakeDetectStep_pin ht).trans (if_neg fun ⟨_, _, hactive⟩ => ne_true_of_eq_false hidle hactive)

end Pin

theorem wakeDetectStep_wup {c : Nat} (hc : c < 8) (hen : bitOf (s.rd uCosy F.cosy_WAKE_CFG_WUP_EN) c = true) :
    wakeDetectStep (.wup c) s = s.wakeEvent 2 c := if_pos ⟨hc, hen⟩

theorem wakeDetectStep_wup_disabled {c : Nat} (hdis : bitOf (s.rd uCosy F.cosy_WAKE_CFG_WUP_EN) c = false) :
    wakeDetectStep (.wup c) s = s := if_neg fun ⟨_, hen⟩ => ne_true_of_eq_false hdis hen

theorem wakeDetectStep_lin {c : Nat} (hc : c < 4) (hen : bitOf (s.rd uCosy F.cosy_WAKE_CFG_LWAKE_EN) c = true) :
    wakeDetectStep (.lin c) s = s.wakeEvent 5 c := if_pos ⟨hc, hen⟩

theorem wakeTimerExpiryStep_running (hon : s.cosy.timerOn = true) : wakeTimerExpiryStep s = s.wakeEvent 6 0 := if_pos hon

theorem wakeTimerExpiryStep_stopped (hoff : s.cosy.timerOn = false) : wakeTimerExpiryStep s = s := if_neg (ne_true_of_eq_false hoff)

end Detectors

section SelectiveWake
variable {s t : State} {n : Nat} {f : BusFrame} (hn : n < 8) (harmed : s.cosy.armed = true)
  (hen : s.flag uCosy F.cosy_SW_CFG_EN n = true) (hpower : 2 ≤ s.cosy.power)
include hn harmed hen hpower

theorem selectiveWakeFrameStep_otherFormat (hf : f.format ≠ 0) (err : Bool) : selectiveWakeFrameStep n f err s = s := by
  unfold selectiveWakeFrameStep
  exact (if_pos ⟨hn, harmed, hen, hpower⟩).trans (if_pos hf)

variable (hf : f.format = 0)
include hf

/-- An erroneous frame counts up; the 32nd wakes (R242). -/
theorem selectiveWakeFrameStep_erroneous {c : Nat} (hc : c = s.rd uCosy F.cosy_SW_CFG_ERR_CNT n)
    (ht : t = s.wr uCosy F.cosy_SW_CFG_ERR_CNT (min 63 (c + 1)) n) :
    selectiveWakeFrameStep n f true s = if c + 1 = 32 then t.wakeEvent 4 n else t := by
  subst ht hc
  unfold selectiveWakeFrameStep
  exact (if_pos ⟨hn, harmed, hen, hpower⟩).trans (if_neg (not_not_intro hf))

variable (ht : t = s.wr uCosy F.cosy_SW_CFG_ERR_CNT (s.rd uCosy F.cosy_SW_CFG_ERR_CNT n - 1) n)
include ht

theorem selectiveWakeFrameStep_remote (hremote : f.remote = true) : selectiveWakeFrameStep n f false s = t := by
  subst ht
  unfold selectiveWakeFrameStep
  exact (if_pos ⟨hn, harmed, hen, hpower⟩).trans ((if_neg (not_not_intro hf)).trans (if_pos hremote))

variable (hdata : f.remote = false)
include hdata

theorem selectiveWakeFrameStep_match {k : Nat} (hfind : [0, 1, 2, 3].find? (fun k => t.swfMatch n k f) = some k) :
    selectiveWakeFrameStep n f false s = t.wakeEvent 3 (4 * n + k) := by
  unfold selectiveWakeFrameStep
  rw [if_pos ⟨hn, harmed, hen, hpower⟩]
  simp only [hf, hdata, ← ht, hfind, ne_eq, not_true_eq_false, Bool.false_eq_true, if_false]

theorem selectiveWakeFrameStep_noMatch (hfind : [0, 1, 2, 3].find? (fun k => t.swfMatch n k f) = none) :
    selectiveWakeFrameStep n f false s = t := by
  unfold selectiveWakeFrameStep
  rw [if_pos ⟨hn, harmed, hen, hpower⟩]
  simp only [hf, hdata, ← ht, hfind, ne_eq, not_true_eq_false, Bool.false_eq_true, if_false]

end SelectiveWake

/-- Settles O52: a commit is told by its request and its delay, each detector by what enables it, an erroneous frame by the count that it
reaches (`selectiveWakeFrameStep_erroneous`), and the commands of NETM run where it takes them. -/
theorem sleepAndWake : Obligations.SleepAndWake := by
  unfold Obligations.SleepAndWake
  refine fun s => ⟨fun hreq => ?_, fun hreq hlatched hmay t c ht hc => ?_, fun hnone => ?_,
    fun hcommitted hmay target t c htarget ht hc => ?_, fun p level c t hc ht hp => ?_, fun c hc hen => ?_, fun c hdis => ?_,
    fun c hc hen => ?_, fun n hn harmed hen hpower f c hc => ⟨fun hf err => ?_, fun hf hfew => ?_, fun hf hlast => ?_, fun hf t ht => ?_⟩,
    fun hon => ?_, fun hoff => ?_, fun m htakes => ⟨?_, fun v => ?_⟩⟩
  · rw [exec_commitRequest, commitRequestStep_none hreq]
  · rw [exec_commitRequest, commitRequestStep_accepts hreq hlatched hmay ht, hc]
  · rw [exec_commitDelayExpiry, commitDelayExpiryStep_none hnone]
  · rw [exec_commitDelayExpiry, commitDelayExpiryStep_sleeps hcommitted hmay htarget ht, hc]
  · subst hc
    refine ⟨fun hen hactive => ?_, fun hidle => ?_⟩
    · rw [exec_wakeDetect, wakeDetectStep_pin_active ht hp hen hactive]
    · rw [exec_wakeDetect, wakeDetectStep_pin_inactive ht hidle]
  · rw [exec_wakeDetect, wakeDetectStep_wup hc hen]
  · rw [exec_wakeDetect, wakeDetectStep_wup_disabled hdis]
  · rw [exec_wakeDetect, wakeDetectStep_lin hc hen]
  · rw [exec_selectiveWakeFrame, selectiveWakeFrameStep_otherFormat hn harmed hen hpower hf]
  · rw [exec_selectiveWakeFrame, selectiveWakeFrameStep_erroneous hn harmed hen hpower hf hc rfl, if_neg (by omega)]
  · rw [exec_selectiveWakeFrame, selectiveWakeFrameStep_erroneous hn harmed hen hpower hf hc rfl, if_pos (by omega)]
  · subst hc
    refine ⟨fun hremote => ?_, fun k hdata hfind => ?_, fun hdata hfind => ?_⟩
    · rw [exec_selectiveWakeFrame, selectiveWakeFrameStep_remote hn harmed hen hpower hf ht hremote]
    · rw [exec_selectiveWakeFrame, selectiveWakeFrameStep_match hn harmed hen hpower hf ht hdata hfind]
    · rw [exec_selectiveWakeFrame, selectiveWakeFrameStep_noMatch hn harmed hen hpower hf ht hdata hfind]
  · rw [exec_wakeTimerExpiry, wakeTimerExpiryStep_running hon]
  · rw [exec_wakeTimerExpiry, wakeTimerExpiryStep_stopped hoff]
  · rw [exec_localWake, State.command_ok htakes, localWakeStep]
  · rw [exec_localHold, State.command_ok htakes, localHoldStep]

end Sys2Proof.Machine

/-! PROOFS. What every step keeps, the fields and counters that every statement is written with, and the register writes that reach no
register (the invariants of chapters 1, 7, 9, 10, 12, 14, 15 and 16; R11, R13, R380, R397). -/

namespace Sys2Proof.Machine

/-- A command completes, and on the way from `a` to the state that it leaves nothing has happened that `Kept` rules out. -/
def Completes (a : State) (o : Host.Outcome State Fault Refusal) : Prop := ∃ t, o = .next t ∧ Kept a t

theorem Kept.completes {a t : State} (h : Kept a t) : Completes a (.next t) := ⟨t, rfl, h⟩

theorem canRecover_completes {a s : State} (ch : Nat) (master : Option Nat) (h : Kept a s) :
    Completes a (exec (.canRecover ch master) s) :=
  match master with
  | none => (canRecoverStep_kept _ _ _ h).completes
  | some _ => (State.command_kept _ _ _ _ _ h (canRecoverStep_kept _ _)).completes

theorem fenceRead_completes {a s : State} (m : Nat) (h : Kept a s) : Completes a (exec (.fenceRead m) s) := by
  show Completes a (execFenceRead m s)
  unfold execFenceRead
  split
  · exact (State.regReadTo_kept _ _ _ h).completes
  · split
    · exact (State.regReadTo_kept _ _ _ h).completes
    · split
      · exact (State.regReadTo_kept _ _ _ h).completes
      · exact h.completes

theorem exec_completes {a s : State} (c : Instr) (h : Kept a s) : Completes a (exec c s) :=
  match c with
  | .registerWrite .. => (State.regWrite_kept _ _ _ _ h).completes
  | .readClear .. => (State.regReadTo_kept _ _ _ h).completes
  | .latchingRead .. => (State.regReadTo_kept _ _ _ h).completes
  | .tickBoundary .. => (tickBoundaryStep_kept _ _ _ _ h).completes
  | .tickJobBudgetSpent .. => (tickJobBudgetSpentStep_kept _ _ h).completes
  | .unitEnable .. => (State.unitWrite_kept _ _ _ _ _ _ h fun _ => State.setEnable_kept _ _ _).completes
  | .unitReset .. => (State.unitWrite_kept _ _ _ _ _ _ h fun _ => State.unitReset_kept _ _).completes
  | .faultClear .. =>
    (State.unitWrite_kept _ _ _ _ _ _ h fun _ k => Kept.ite (State.refuse_kept _ _ _ k) (State.faultClear_kept _ _ _ k)).completes
  | .injectArm .. => (State.unitWrite_kept _ _ _ _ _ _ h fun _ => State.injectArm_kept _ _ _).completes
  | .commitDiscard .. => (State.unitWrite_kept _ _ _ _ _ _ h fun _ => State.commitDiscard_kept _ _).completes
  | .cellWrite .. => (cellWriteStep_kept _ _ _ h).completes
  | .headDeliver .. => (headDeliverStep_kept _ _ h).completes
  | .frameEnd .. => (frameEndStep_kept _ _ _ h).completes
  | .pauseFrameReceive .. => (pauseFrameReceiveStep_kept _ _ (Kept.ite h (cellWriteStep_kept _ _ _ h))).completes
  | .pauseTimerExpiry .. => (pauseTimerExpiryStep_kept _ _ _ h).completes
  | .bankRelease => (bankReleaseStep_kept _ h).completes
  | .releaseTimeout => (releaseTimeoutStep_kept _ h).completes
  | .sourceEvent .. => (sourceEventStep_kept _ _ h).completes
  | .hitUpdate .. => (hitUpdateStep_kept _ _ h).completes
  | .learnInsert .. => (learnInsertStep_kept _ _ h).completes
  | .fdbNop .. => (State.fdbCommand_kept _ _ _ _ h (fdbNopRun_kept _)).completes
  | .fdbInsert .. => (State.fdbCommand_kept _ _ _ _ h (fdbInsertRun_kept _)).completes
  | .fdbDelete .. => (State.fdbCommand_kept _ _ _ _ h (fdbDeleteRun_kept _)).completes
  | .fdbLookup .. => (State.fdbCommand_kept _ _ _ _ h (fdbLookupRun_kept _)).completes
  | .fdbReadSlot .. => (State.fdbCommand_kept _ _ _ _ h (fdbReadSlotRun_kept _ _)).completes
  | .fdbFlush .. => (State.fdbCommand_kept _ _ _ _ h (fdbFlushRun_kept _)).completes
  | .fdbShadowWrite .. => (State.fdbCommand_kept _ _ _ _ h (fdbShadowWriteRun_kept _ _)).completes
  | .fdbShadowRead .. => (State.fdbCommand_kept _ _ _ _ h (fdbShadowReadRun_kept _ _)).completes
  | .fdbVlanWrite .. => (State.fdbCommand_kept _ _ _ _ h (fdbVlanWriteRun_kept _ _)).completes
  | .fdbVlanRead .. => (State.fdbCommand_kept _ _ _ _ h (fdbVlanReadRun_kept _ _)).completes
  | .fdbInsertShadowed .. => (State.fdbCommand_kept _ _ _ _ h (fdbInsertShadowedRun_kept _ _)).completes
  | .fdbDeleteShadowed .. => (State.fdbCommand_kept _ _ _ _ h (fdbDeleteShadowedRun_kept _ _)).completes
  | .fdbCmdInvalid .. => (State.fdbCommand_kept _ _ _ _ h (fdbInvalidRun_kept _)).completes
  | .fdbCmdComplete .. => (fdbCompleteStep_kept _ _ h).completes
  | .canKeySubmit .. => (canKeySubmitStep_kept _ _ h).completes
  | .canKeyJudge => (canKeyJudgeStep_kept _ h).completes
  | .streamGateCycleStart .. => (streamGateCycleStartStep_kept _ _ _ h).completes
  | .streamGateEntryExpiry .. => (streamGateEntryExpiryStep_kept _ _ _ h).completes
  | .tcamRescan .. => (tcamRescanStep_kept _ _ _ h).completes
  | .ruleNop .. => (State.ruleCommand_kept _ _ _ _ h fun _ => State.ruleStatus_kept _ _ _).completes
  | .writeRule .. => (State.ruleWriteCommand_kept _ _ _ _ _ h (writeRuleRun_kept _ _)).completes
  | .readRule .. => (State.ruleCommand_kept _ _ _ _ h (readRuleRun_kept _ _ _)).completes
  | .clearRule .. => (State.ruleWriteCommand_kept _ _ _ _ _ h (clearRuleRun_kept _ _)).completes
  | .writeZpair .. => (State.ruleWriteCommand_kept _ _ _ _ _ h (writeZpairRun_kept _ _)).completes
  | .readZpair .. => (State.ruleCommand_kept _ _ _ _ h (readZpairRun_kept _ _ _)).completes
  | .writeZmap .. => (State.ruleWriteCommand_kept _ _ _ _ _ h (writeZmapRun_kept _ _)).completes
  | .readZmap .. => (State.ruleCommand_kept _ _ _ _ h (readZmapRun_kept _ _ _)).completes
  | .writePfx .. => (State.ruleWriteCommand_kept _ _ _ _ _ h (writePfxRun_kept _ _)).completes
  | .readPfx .. => (State.ruleCommand_kept _ _ _ _ h (readPfxRun_kept _ _ _)).completes
  | .copyActive .. => (State.ruleCommand_kept _ _ _ _ h fun _ k => State.ruleDraining_kept _ _ _ _ k (copyActiveRun_kept _)).completes
  | .ruleCmdInvalid .. => (State.ruleCommand_kept _ _ _ _ h fun _ => State.ruleStatus_kept _ _ _).completes
  | .ruleCmdComplete .. => (ruleCompleteStep_kept _ _ h).completes
  | .guardMatch .. => (guardMatchStep_kept _ _ _ _ _ _ h).completes
  | .guardFlagEnd .. => (guardFlagEndStep_kept _ _ h).completes
  | .guardDriveFault .. => (guardDriveFaultStep_kept _ _ h).completes
  | .copyEnqueue => (copyEnqueueStep_kept _ h).completes
  | .discardWalk => (discardWalkStep_kept _ h).completes
  | .cellRead .. => (State.netmTake_kept _ (cellReadStep_kept _ _ h)).completes
  | .pfcRefresh .. => (pfcRefreshStep_kept _ _ _ h).completes
  | .ingressUnderrun .. => (ingressUnderrunStep_kept _ _ _ h).completes
  | .spoutSelect .. => (spoutSelectStep_kept _ _ h).completes
  | .gateCycleStart .. => (gateCycleStartStep_kept _ _ h).completes
  | .gateEntryExpiry .. => (gateEntryExpiryStep_kept _ _ h).completes
  | .gclDataWrite .. => (State.command_kept _ _ _ _ _ h (gclDataWriteStep_kept _ _ _)).completes
  | .gclDataRead .. => (gclDataReadStep_kept _ _ h).completes
  | .framePreempt .. => (framePreemptStep_kept _ _ _ h).completes
  | .preemptVerify .. => (preemptVerifyStep_kept _ _ _ h).completes
  | .syncProcess .. => (syncProcessStep_kept _ _ _ (State.arrive_kept _ _ _ h)).completes
  | .syncTransmit .. => (syncTransmitStep_kept _ _ _ h).completes
  | .pdelayReqSend .. => (pdelayReqSendStep_kept _ _ h).completes
  | .pdelayExchange .. => (pdelayExchangeStep_kept _ _ (State.arrive_kept _ _ _ (State.arrive_kept _ _ _ h))).completes
  | .pdelayRespTimeout .. => (pdelayRespTimeoutStep_kept _ _ h).completes
  | .pdelayRespSend .. => (pdelayRespSendStep_kept _ _ h).completes
  | .announceReceive .. => (announceReceiveStep_kept _ _ _ (State.arrive_kept _ _ _ h)).completes
  | .syncTimeout .. => (syncTimeoutStep_kept _ _ h).completes
  | .holdExpiry .. => (holdExpiryStep_kept _ _ h).completes
  | .domAccept .. => (State.domCommand_kept _ _ _ _ _ h).completes
  | .domSet .. => (State.domCommand_kept _ _ _ _ _ h).completes
  | .domResetGuard .. => (State.domCommand_kept _ _ _ _ _ h).completes
  | .domCmdInvalid .. => (State.domCommand_kept _ _ _ _ _ h).completes
  | .snapshotTake .. => (State.command_kept _ _ _ _ _ h snapshotTakeStep_kept).completes
  | .tsinCapture .. => (tsinCaptureStep_kept _ _ _ _ h).completes
  | .tsinPop .. => (tsinPopStep_kept _ _ h).completes
  | .tsoutEdge .. => (tsoutEdgeStep_kept _ _ h).completes
  | .xcvrModeWrite .. => (xcvrModeWriteStep_kept _ _ _ _ (State.drain_kept _ _ h)).completes
  | .xcvrModeChange .. => (xcvrModeChangeStep_kept _ _ h).completes
  | .txdDominantTimeout .. => (txdDominantTimeoutStep_kept _ _ h).completes
  | .busDominantTimeout .. => (busDominantTimeoutStep_kept _ _ h).completes
  | .vbatUndervoltage => (State.vbatUv_kept _ _ h).completes
  | .canFrameReceive .. => (canFrameReceiveStep_kept _ _ _ _ _ _ h).completes
  | .canFrameTransmit .. => (canFrameTransmitStep_kept _ _ _ _ h).completes
  | .canError .. => (canErrorStep_kept _ _ _ h).completes
  | .canIntegrated .. => (canIntegratedStep_kept _ _ h).completes
  | .canRecover .. => canRecover_completes _ _ h
  | .canRecoveryDone .. => (canRecoveryDoneStep_kept _ _ h).completes
  | .canOpmode .. => (State.command_kept _ _ _ _ _ h (canOpmodeStep_kept _ _)).completes
  | .canShaperRelease .. => (canShaperReleaseStep_kept _ _ h).completes
  | .linSlotStart .. => (linSlotStartStep_kept _ _ h).completes
  | .linHeaderReceive .. => (linHeaderReceiveStep_kept _ _ _ _ h).completes
  | .linResponseTimeout .. => (linResponseTimeoutStep_kept _ _ h).completes
  | .sentMessage .. => (sentMessageStep_kept _ _ _ h).completes
  | .qspiTransfer .. => (qspiTransferStep_kept _ _ _ h).completes
  | .flxConfig .. => (State.command_kept _ _ _ _ _ h fun _ => State.pocCommand_kept _ _ _).completes
  | .flxReady .. => (State.command_kept _ _ _ _ _ h fun _ => State.pocCommand_kept _ _ _).completes
  | .flxWakeup .. => (State.command_kept _ _ _ _ _ h fun _ => State.pocCommand_kept _ _ _).completes
  | .flxRun .. => (State.command_kept _ _ _ _ _ h fun _ => State.pocCommand_kept _ _ _).completes
  | .flxAllSlots .. => (State.command_kept _ _ _ _ _ h fun _ => State.pocCommand_kept _ _ _).completes
  | .flxHalt .. => (State.command_kept _ _ _ _ _ h fun _ => State.pocCommand_kept _ _ _).completes
  | .flxFreeze .. => (State.command_kept _ _ _ _ _ h fun _ => State.pocCommand_kept _ _ _).completes
  | .flxSlot .. => (flxSlotStep_kept _ _ _ _ _ _ _ _ h).completes
  | .t1sFrameReceive .. => (t1sFrameReceiveStep_kept _ _ _ _ h).completes
  | .t1sTxOpportunity .. => (t1sTxOpportunityStep_kept _ _ _ _ h).completes
  | .infuserRxItem .. => (rxItemStep_kept _ _ h).completes
  | .infuserEthItem .. => (ethItemStep_kept _ _ h).completes
  | .infuserSbItem .. => (sbItemStep_kept _ _ h).completes
  | .infuserMgmtItem .. => (mgmtItemStep_kept _ _ _ h).completes
  | .sigStep .. => (sigItem_kept _ _ _ h).completes
  | .signalTimeout .. => (sigItem_kept _ _ _ h).completes
  | .pduDue .. => (sigItem_kept _ _ _ h).completes
  | .p13PduHandoff .. => (p13PduHandoffStep_kept _ _ h).completes
  | .p13Dispatch => (p13DispatchStep_kept _ h).completes
  | .tblNop .. => (State.tblCommand_kept _ _ _ _ h fun _ => State.tblStatus_kept _ _).completes
  | .tblWrite .. => (State.tblCommand_kept _ _ _ _ h (tblWriteRun_kept _ _)).completes
  | .tblRead .. => (State.tblCommand_kept _ _ _ _ h (tblReadRun_kept _ _ _)).completes
  | .tblClear .. => (State.tblCommand_kept _ _ _ _ h (tblClearRun_kept _ _)).completes
  | .tblCmdInvalid .. => (State.tblCommand_kept _ _ _ _ h fun _ => State.tblStatus_kept _ _).completes
  | .memDataWrite .. => (memDataWriteStep_kept _ _ _ _ h).completes
  | .memDataRead .. => (memDataReadStep_kept _ _ h).completes
  | .roundStart .. => (roundStartStep_kept _ _ h).completes
  | .tokenTimeout .. => (tokenTimeoutStep_kept _ _ h).completes
  | .ringToken .. => (ringTokenStep_kept _ _ _ h).completes
  | .ringAgree .. => (ringAgreeStep_kept _ _ _ h).completes
  | .ringDrain .. => (ringDrainStep_kept _ _ _ h).completes
  | .ringCommit .. => (ringCommitStep_kept _ _ _ h).completes
  | .ringWake .. => (ringWakeStep_kept _ _ _ h).completes
  | .ringBadMsg .. => (Kept.ite (State.badMsg_kept _ h) h).completes
  | .agreeTicksExpiry => (agreeTicksExpiryStep_kept _ h).completes
  | .drainExpiry => (drainExpiryStep_kept _ h).completes
  | .backboneTimeout => (backboneTimeoutStep_kept _ h).completes
  | .commitRequest => (commitRequestStep_kept _ h).completes
  | .commitDelayExpiry => (commitDelayExpiryStep_kept _ h).completes
  | .wakeDetect .. => (wakeDetectStep_kept _ _ h).completes
  | .selectiveWakeFrame .. => (selectiveWakeFrameStep_kept _ _ _ _ h).completes
  | .wakeTimerExpiry => (wakeTimerExpiryStep_kept _ h).completes
  | .localWake .. => (State.command_kept _ _ _ _ _ h localWakeStep_kept).completes
  | .localHold .. => (State.command_kept _ _ _ _ _ h (localHoldStep_kept _)).completes
  | .linGoToSleep .. => (linGoToSleepStep_kept _ _ h).completes
  | .cosyPowerOn => (cosyPowerOnStep_kept _ h).completes
  | .powerOff => (powerOffStep_kept _ h).completes
  | .pmicPgHigh => (pmicPgHighStep_kept _ h).completes
  | .pgTimeout => (pgTimeoutStep_kept _ h).completes
  | .inhRetryExpiry => (inhRetryExpiryStep_kept _ h).completes
  | .pgLoss => (pgLossStep_kept _ h).completes
  | .clockLoss => (clockLossStep_kept _ h).completes
  | .clockRestored => (clockRestoredStep_kept _ h).completes
  | .rstPin => (rstPinStep_kept _ h).completes
  | .forceSleep .. => (forceSleepStep_kept _ _ _ (State.drain_kept _ _ h)).completes
  | .x32Check .. => (x32CheckStep_kept _ _ h).completes
  | .brewStart .. => (brewStartStep_kept _ _ h).completes
  | .selftestDone .. => (selftestDoneStep_kept _ _ h).completes
  | .segmentHeaderCheck .. => (segmentHeaderCheckStep_kept _ _ h).completes
  | .flashBlockArrive .. => (flashBlockArriveStep_kept _ _ h).completes
  | .essentialEnable => (essentialEnableStep_kept _ h).completes
  | .handOver => (handOverStep_kept _ h).completes
  | .bootComplete => (bootCompleteStep_kept _ h).completes
  | .startFail .. => (startFailStep_kept _ _ _ _ _ h).completes
  | .bootDeadline => (bootDeadlineStep_kept _ h).completes
  | .keyRevoke .. => (State.command_kept _ _ _ _ _ h (keyRevokeRun_kept _ _ _)).completes
  | .retry .. => (State.command_kept _ _ _ _ _ h (retryRun_kept _)).completes
  | .updArm .. => (State.command_kept _ _ _ _ _ h (updArmRun_kept _)).completes
  | .updCancel .. => (State.command_kept _ _ _ _ _ h (updCancelRun_kept _)).completes
  | .activationFire => (activationFireStep_kept _ h).completes
  | .activationRestart => (activationRestartStep_kept _ h).completes
  | .activationCancel => (activationCancelStep_kept _ h).completes
  | .triadTransaction .. => (triadTransactionStep_kept _ _ h).completes
  | .triadEventLatch .. => (triadEventLatchStep_kept _ _ _ h).completes
  | .agreeOfferExpiry .. => (agreeOfferExpiryStep_kept _ _ h).completes
  | .digestCompare .. => (digestCompareStep_kept _ _ _ _ h).completes
  | .resyncDone .. => (resyncDoneStep_kept _ _ _ _ _ h).completes
  | .debugHalt => (debugHaltStep_kept _ h).completes
  | .mailboxDoorbell .. => (State.command_kept _ _ _ _ _ h (mailboxDoorbellRun_kept _ _)).completes
  | .mailboxResponse .. => (mailboxResponseStep_kept _ _ _ _ h).completes
  | .mailboxAck .. => (State.command_kept _ _ _ _ _ h (mailboxAckRun_kept _ _)).completes
  | .saucerReport => (saucerReportStep_kept _ h).completes
  | .safeStateEntry => (safeStateEntryStep_kept _ h).completes
  | .saucerRestart => (saucerRestartStep_kept _ h).completes
  | .episodeEnd .. => (State.command_kept _ _ _ _ _ h (episodeEndRun_kept _ _ _)).completes
  | .cosyGraceTimeout => (cosyGraceTimeoutStep_kept _ h).completes
  | .tickMessageTimeout => (tickMessageTimeoutStep_kept _ h).completes
  | .keyWrite .. => (State.keyCommand_kept _ _ _ h (keyWriteRun_kept _)).completes
  | .keyErase .. => (State.keyCommand_kept _ _ _ h (keyEraseRun_kept _)).completes
  | .keyEraseAll .. => (State.keyCommand_kept _ _ _ h keyEraseAllRun_kept).completes
  | .jobSubmit .. => (State.command_kept _ _ _ _ _ h (jobSubmitRun_kept _ _ _)).completes
  | .gcmEnc => (State.runJob_kept _ _ _ h jobGcmEnc_kept).completes
  | .gcmDec => (State.runJob_kept _ _ _ h jobGcmDec_kept).completes
  | .cmacGen => (State.runJob_kept _ _ _ h (jobCmac_kept _)).completes
  | .cmacVer => (State.runJob_kept _ _ _ h (jobCmac_kept _)).completes
  | .hmacGen => (State.runJob_kept _ _ _ h (jobHmac_kept _)).completes
  | .hmacVer => (State.runJob_kept _ _ _ h (jobHmac_kept _)).completes
  | .sha256 => (State.runJob_kept _ _ _ h jobSha_kept).completes
  | .ecdsaVer => (State.runJob_kept _ _ _ h jobEcdsa_kept).completes
  | .kdf => (State.runJob_kept _ _ _ h jobKdf_kept).completes
  | .random => (State.runJob_kept _ _ _ h jobRandom_kept).completes
  | .genKey => (State.runJob_kept _ _ _ h jobGenKey_kept).completes
  | .loadBlob => (State.runJob_kept _ _ _ h jobLoadBlob_kept).completes
  | .wrapSlot => (State.runJob_kept _ _ _ h jobWrap_kept).completes
  | .importKey => (State.runJob_kept _ _ _ h jobImport_kept).completes
  | .keyFetch => (keyFetchStep_kept _ h).completes
  | .saInstall .. => (State.command_kept _ _ _ _ _ h (saInstallRun_kept _ _ _ _ _)).completes
  | .saRetire .. => (State.command_kept _ _ _ _ _ h (saRetireRun_kept _ _ _)).completes
  | .drbgReseed .. => (drbgReseedStep_kept _ _ h).completes
  | .alarm .. => (alarmStep_kept _ _ h).completes
  | .alarmClear .. => (State.command_kept _ _ _ _ _ h (alarmClearRun_kept _ _ _)).completes
  | .tamperUnpowered => (tamperUnpoweredStep_kept _ h).completes
  | .advance .. => (State.lcCommand_kept _ _ _ _ _ h fun _ _ => advanceRun_kept _).completes
  | .progSign .. => (State.lcCommand_kept _ _ _ _ _ h (progSignRun_kept _)).completes
  | .progFb .. => (State.lcCommand_kept _ _ _ _ _ h progFbRun_kept).completes
  | .progDbg .. => (State.lcCommand_kept _ _ _ _ _ h progDbgRun_kept).completes
  | .dbgAuth .. => (dbgAuthStep_kept _ _ _ _ _ h).completes
  | .pcieMemoryRequest .. => (pcieMemoryRequestStep_kept _ _ _ _ _ _ h).completes
  | .txDescriptor .. => (txDescriptorStep_kept _ _ _ h).completes
  | .rxDelivery .. => (rxDeliveryStep_kept _ _ h).completes
  | .functionLevelReset .. => (functionLevelResetStep_kept _ _ h).completes
  | .pciePerst => (pciePerstStep_kept _ h).completes
  | .intEoi .. => (State.command_kept _ _ _ _ _ h fun _ => State.intEoi_kept _).completes
  | .mspiNop => (State.mspiBegin_kept _ h).completes
  | .mspiWrite .. => (mspiWriteStep_kept _ _ _ _ h).completes
  | .mspiRead .. => (mspiReadStep_kept _ _ _ h).completes
  | .mspiFrameError .. => (State.mspiRefused_kept _ _ (State.mspiBegin_kept _ h)).completes
  | .mspiAbandon .. => (mspiAbandonStep_kept _ _ h).completes
  | .fenceRead .. => fenceRead_completes _ h
  | .postedWriteResolution => (postedWriteResolutionStep_kept _ h).completes
  | .ulisPacketRetry .. => (ulisPacketRetryStep_kept _ _ h).completes
  | .ulisLinkDown => (State.ulisDown_kept _ h).completes
  | .ulisLinkUp => (ulisLinkUpStep_kept _ h).completes
  | .ulisAuthExchange .. => (ulisAuthExchangeStep_kept _ _ h).completes
  | .saucerBoundary .. => (saucerBoundaryStep_kept _ _ h).completes
  | .ePortLinkChange .. => (ePortLinkChangeStep_kept _ _ _ h).completes
  | .pcieLinkChange .. => (pcieLinkChangeStep_kept _ _ _ _ h).completes
  | .pcieConfigWrite .. => (pcieConfigWriteStep_kept _ _ _ _ _ h).completes
  | .rstNRelease => (rstNReleaseStep_kept _ h).completes
  | .vbatUvRecovery => (State.vbatUv_kept _ _ h).completes
  | .busRecessiveReturn .. => (busRecessiveReturnStep_kept _ _ h).completes
  | .txdRecessiveReturn .. => (txdRecessiveReturnStep_kept _ _ h).completes
  | .linResponseComplete .. => (linResponseCompleteStep_kept _ _ _ _ _ _ _ h).completes
  | .announceTransmit .. => (announceTransmitStep_kept _ _ _ h).completes
  | .announceReceiptTimeout .. => (announceReceiptTimeoutStep_kept _ _ _ h).completes
  | .signalingReceive .. => (signalingReceiveStep_kept _ _ (State.arrive_kept _ _ _ h)).completes
  | .vbatMeasurement .. => (vbatMeasurementStep_kept _ _ h).completes

/-! ### The step -/

theorem step_idle {s : State} (h : s.pending = []) : step s = .next s.idle := by
  unfold step
  rw [h]

theorem step_front {s : State} {c : Instr} {rest : List Instr} (h : s.pending = c :: rest) :
    step s = exec c { s with pending := rest } := by
  unfold step
  rw [h]

/-- What every step keeps, whichever command stood at the front of the queue. -/
theorem step_kept {s t : State} (h : step s = .next t) : ∃ rest, Kept { s with pending := rest } t := by
  cases hq : s.pending with
  | nil =>
    rw [step_idle hq] at h
    cases h
    exact ⟨s.pending, State.idle_kept s (Kept.refl s)⟩
  | cons c rest =>
    obtain ⟨u, hu, hk⟩ := exec_completes c (Kept.refl { s with pending := rest })
    rw [step_front hq, hu] at h
    cases h
    exact ⟨rest, hk⟩

/-- Settles O4: `Kept` holds along every step, and says so of the register file. -/
theorem registersStayCanonical : Obligations.RegistersStayCanonical := fun _ _ hwf h =>
  let ⟨_, hk⟩ := step_kept h
  hk.regs hwf

/-- Settles O5: `Kept` holds along every step, and says so of the byte memories. -/
theorem memoriesStayCanonical : Obligations.MemoriesStayCanonical := fun _ _ hwf h =>
  let ⟨_, hk⟩ := step_kept h
  hk.mem hwf

/-- Settles O6: `Kept` holds along every step, and says so of the one-time-programmable store. -/
theorem otpNeverLoses : Obligations.OtpNeverLoses := fun _ _ h =>
  let ⟨_, hk⟩ := step_kept h
  hk.otp

/-- Settles O3: every command completes (`exec_completes`), and `Kept` leaves the queue as it was. -/
theorem everyCommandCompletes : Obligations.EveryCommandCompletes := fun c s =>
  let ⟨t, ht, hk⟩ := exec_completes c (Kept.refl s)
  ⟨t, ht, hk.pending⟩

/-- Settles O1: `step_front`. -/
theorem frontCommandRuns : Obligations.FrontCommandRuns := fun _ _ _ => step_front

/-- Settles O7: no register is listed after reset, no memory is filled, no command waits. -/
theorem resetIsCanonical : Obligations.ResetIsCanonical := ⟨rfl, ⟨rfl, rfl, rfl, rfl⟩, rfl⟩

/-- No time passes on a Brew die without a clock. -/
theorem State.pass_unclocked {s : State} (h : s.clocked = false) (n : Nat) : s.pass n = s := by
  unfold State.pass
  rw [h, if_pos (by decide)]

/-- Settles O2: without a clock nothing passes, and on a quiet die the clocks alone do (`State.pass_wc`, `State.pass_frame`). -/
theorem emptyQueueIdles : Obligations.EmptyQueueIdles := by
  unfold Obligations.EmptyQueueIdles
  intro s hq
  refine ⟨fun hc => ?_, fun hc hquiet => ⟨s.idle, step_idle hq, s.pass_wc _ hc hquiet, s.pass_frame _ hc hquiet⟩⟩
  rw [step_idle hq, State.idle, State.pass_unclocked hc]

/-! ### Fields and counters -/

/-- A field of the register at the address of another field, which shares no bit with it. -/
theorem apart_of_disjoint {u : UnitNo} {f g : Fld} {i j : Nat} (hf : f.lsb + f.width ≤ 32)
    (hd : g.lsb + g.width ≤ f.lsb ∨ f.lsb + f.width ≤ g.lsb) : apart u f i j u g i j = true := by
  unfold apart
  simp only [hf, Bool.or_eq_true, Bool.and_eq_true, decide_eq_true_eq]
  exact .inr ⟨trivial, hd⟩

/-- Settles O8: a field reads as written (`State.rd_wr_self`), and one that shares no bit with it as before (`State.rd_wr_apart`). -/
theorem fieldWriteChangesItsField : Obligations.FieldWriteChangesItsField := fun s u f v i j hf =>
  ⟨s.rd_wr_self u f v i j hf, fun g _ hd => s.rd_wr_apart u u f g v i j i j (apart_of_disjoint hf hd), OnlyRegs.wr s u f v i j⟩

/-- Settles O9: `State.rd_inc_self`, `State.rd_sat_self`, and both counters are writes of their field. -/
theorem countersCount : Obligations.CountersCount := fun s u f i j n hf =>
  ⟨s.rd_inc_self u f i j n hf, s.rd_sat_self u f i j n hf, OnlyRegs.inc s u f i j n, OnlyRegs.sat s u f i j n⟩

/-! ### A register write that reaches no register -/

theorem State.regWrite_debugBarred {s : State} {m : Nat} (h : s.debugBarred m = true) (a : Nat) (v : Word) : s.regWrite m a v = s := by
  unfold State.regWrite
  rw [h, if_pos rfl]

section RegWrite
variable {s : State} {m a : Nat} (hd : s.debugBarred m = false)
include hd

theorem State.regWrite_outside (h : a % 4 ≠ 0 ∨ 2 ^ 32 ≤ a ∨ s.vfBarred m = true) (v : Word) : s.regWrite m a v = s.refuse m a := by
  unfold State.regWrite
  rw [hd, if_neg Bool.false_ne_true, if_pos h]

variable (h4 : a % 4 = 0) (hl : a < 2 ^ 32) (hv : s.vfBarred m = false) (hc : cosyAddr a = true)
include h4 hl hv hc

/-- A write to the Cosy die finds the link down, is applied at once for Kettle, or is posted. -/
theorem State.regWrite_cosy (v : Word) :
    s.regWrite m a v = if !s.flag uUlis F.ulis_ULIS_STATUS_UP then s.refuse m a
      else if m = 0x18 then s.cosyWriteAt m a v
      else s.setHost { s.host with posted := s.host.posted ++ [⟨m, a, v, s.rd uMspi F.mspi_TRANSFERS, false⟩] } := by
  unfold State.regWrite
  rw [hd, if_neg Bool.false_ne_true, if_neg (by simp [hv, h4]; omega), if_pos hc]

end RegWrite

theorem State.writeAt_nowhere {a : Nat} (h : findReg a = none) (s : State) (m : Nat) (v : Word) : s.writeAt m a v = s.refuse m a := by
  unfold State.writeAt
  rw [h]

theorem State.writeAt_barred {s : State} {m a : Nat} {f : Found} (hf : findReg a = some f)
    (h : s.barred f.unit m = true ∨ ownedBy m f = false) (v : Word) : s.writeAt m a v = s.refuse m a := by
  unfold State.writeAt
  rw [hf]
  exact if_pos (h.imp_right (by simp [·]))

/-- Settles O11: the cases of `State.regWrite`, and of `State.writeAt` on the Brew die. -/
theorem registerWriteRefusedOrPosted : Obligations.RegisterWriteRefusedOrPosted := by
  unfold Obligations.RegisterWriteRefusedOrPosted
  simp only [exec_registerWrite]
  refine fun s a m v => ⟨fun hd => by rw [State.regWrite_debugBarred hd], fun hd => ⟨fun h => by rw [State.regWrite_outside hd h],
    fun h4 hl hv => ⟨fun hc => ?_, fun hc => ?_⟩⟩⟩
  · rw [State.regWrite_cosy hd h4 hl hv hc]
    exact ⟨fun hdown => by simp [hdown], fun hup hm => by simp [hup, hm, State.setHost]⟩
  · rw [State.regWrite_brew hd h4 hl hv hc]
    exact ⟨fun hf => by rw [State.writeAt_nowhere hf], fun f hf hb => by rw [State.writeAt_barred hf hb]⟩

end Sys2Proof.Machine

/-! PROOFS. The events of the supplies, the reset pin and the clock (spec 11, R248 to R264). One equation for each event's
command and one lemma for each branch of its step; the obligation cites them. -/

namespace Sys2Proof.Machine

theorem exec_cosyPowerOn (s : State) : exec .cosyPowerOn s = .next (cosyPowerOnStep s) := rfl

theorem exec_powerOff (s : State) : exec .powerOff s = .next (powerOffStep s) := rfl

theorem exec_pmicPgHigh (s : State) : exec .pmicPgHigh s = .next (pmicPgHighStep s) := rfl

theorem exec_pgTimeout (s : State) : exec .pgTimeout s = .next (pgTimeoutStep s) := rfl

theorem exec_inhRetryExpiry (s : State) : exec .inhRetryExpiry s = .next (inhRetryExpiryStep s) := rfl

theorem exec_pgLoss (s : State) : exec .pgLoss s = .next (pgLossStep s) := rfl

theorem exec_clockLoss (s : State) : exec .clockLoss s = .next (clockLossStep s) := rfl

theorem exec_clockRestored (s : State) : exec .clockRestored s = .next (clockRestoredStep s) := rfl

theorem exec_rstPin (s : State) : exec .rstPin s = .next (rstPinStep s) := rfl

theorem exec_rstNRelease (s : State) : exec .rstNRelease s = .next (rstNReleaseStep s) := rfl

theorem exec_forceSleep (key m : Nat) (s : State) : exec (.forceSleep key m) s = .next (forceSleepStep key m (s.drain m)) := rfl

theorem exec_x32Check (ok : Bool) (s : State) : exec (.x32Check ok) s = .next (x32CheckStep ok s) := rfl

/-! ### The supplies -/

theorem cosyPowerOnStep_off {s : State} (h : s.cosy.power = pwOff) :
    cosyPowerOnStep s = { State.reset with otp := s.otp, readData := s.readData, free := s.free, pending := s.pending } := if_pos h

theorem cosyPowerOnStep_on {s : State} (h : s.cosy.power ≠ pwOff) : cosyPowerOnStep s = s := if_neg h

theorem pmicPgHighStep_ready {s : State} (hp : pwReady ≤ s.cosy.power) (hinh : s.flag uCosy F.cosy_PWR_STATUS_INH = true) :
    pmicPgHighStep s = (({ s with cosy := { s.cosy with pgFails := 0 } } : State).wr uCosy F.cosy_PWR_STATUS_PMIC_PG 1).brewRelease :=
  if_pos ⟨hp, hinh⟩

section PgTimeout
variable {s t : State} {n : Nat} (hp : s.cosy.power = pwReady) (hrun : s.cosy.brewRun = false)
  (hinh : s.flag uCosy F.cosy_PWR_STATUS_INH = true) (hlow : s.pgHigh = false) (ht : t = s.sat uCosy F.cosy_PG_FAIL_COUNT)
  (hn : n = t.cosy.pgFails + 1)
include hp hrun hinh hlow ht hn

/-- The last try goes to Sleep (R252). -/
theorem pgTimeoutStep_sleeps (hlast : max 1 (t.rd uCosy F.cosy_PWR_CFG_PG_RETRIES) ≤ n) :
    pgTimeoutStep s = ((({ t with cosy := { t.cosy with pgFails := 0 } } : State).xcvrSleep false).powerDown pwSleep).arm := by
  subst ht hn
  exact (if_pos ⟨hp, by simp [hrun], hinh, by simp [hlow]⟩).trans (if_pos hlast)

/-- An earlier one cycles INH (R252). -/
theorem pgTimeoutStep_retries (hfew : n < max 1 (t.rd uCosy F.cosy_PWR_CFG_PG_RETRIES)) {u : State}
    (hu : u = (t.brewReset false).wr uCosy F.cosy_PWR_STATUS_INH 0) :
    pgTimeoutStep s = { u with cosy := { u.cosy with pgFails := n, inhLow := true } } := by
  subst ht hn hu
  exact (if_pos ⟨hp, by simp [hrun], hinh, by simp [hlow]⟩).trans (if_neg (Nat.not_le.2 hfew))

end PgTimeout

theorem pgTimeoutStep_pgHigh {s : State} (h : s.pgHigh = true) : pgTimeoutStep s = s := if_neg fun ⟨_, _, _, hlow⟩ => by simp [h] at hlow

theorem inhRetryExpiryStep_low {s : State} (h : s.cosy.inhLow = true) :
    inhRetryExpiryStep s = { s.wr uCosy F.cosy_PWR_STATUS_INH 1 with cosy := { s.cosy with inhLow := false } } := if_pos h

theorem inhRetryExpiryStep_asserted {s : State} (h : s.cosy.inhLow = false) : inhRetryExpiryStep s = s := if_neg (ne_true_of_eq_false h)

section PgLoss
variable {s t : State} (hp : pwReady ≤ s.cosy.power) (hpg : s.pgHigh = true) (ht : t = s.wr uCosy F.cosy_PWR_STATUS_PMIC_PG 0)
include hp hpg ht

theorem pgLossStep_running (h : t.cosy.brewRun = true) : pgLossStep s = (t.sat uCosy F.cosy_PG_DROP_COUNT).brewRestart 1 := by
  subst ht
  exact (if_pos ⟨hp, hpg⟩).trans (if_pos h)

theorem pgLossStep_held (h : t.cosy.brewRun = false) : pgLossStep s = t.brewReset false := by
  subst ht
  exact (if_pos ⟨hp, hpg⟩).trans (if_neg (ne_true_of_eq_false h))

end PgLoss

/-! ### The clock and the reset pin -/

theorem clockLossStep_running {s : State} (h : s.cosy.brewRun = true) :
    clockLossStep s = ({ s.sat uCosy F.cosy_CLK_LOSS_COUNT with cosy := { s.cosy with clockLost := true } } : State).brewRestart 2 :=
  if_pos h

theorem clockRestoredStep_lost {s : State} (h : s.cosy.clockLost = true) :
    clockRestoredStep s = ({ s with cosy := { s.cosy with clockLost := false } } : State).brewRelease := if_pos h

theorem clockRestoredStep_running {s : State} (h : s.cosy.clockLost = false) : clockRestoredStep s = s :=
  if_neg (ne_true_of_eq_false h)

theorem rstPinStep_falls {s t : State} (hwas : s.flag uCosy F.cosy_PWR_STATUS_RST_N = true)
    (ht : t = s.wr uCosy F.cosy_PWR_STATUS_RST_N 0) (hp : pwReady ≤ t.cosy.power) :
    rstPinStep s = (t.sat uCosy F.cosy_RST_PIN_COUNT).brewRestart 3 := by
  subst ht
  exact if_pos ⟨hwas, hp⟩

/-! ### FORCE_SLEEP and the crystal -/

theorem forceSleepStep_requests {q t : State} {m : Nat} (hup : q.flag uUlis F.ulis_ULIS_STATUS_UP = true)
    (hp : q.cosy.power = pwActive ∨ q.cosy.power = pwFallback) (hc : q.cosy.committed = false) (ht : t = q.armOnly) :
    forceSleepStep 0x57A9 m q = ({ t with cosy := { t.cosy with commitReq := true } } : State).reportActive := by
  subst ht
  exact if_pos (by simpa [hup, hc] using hp)

theorem forceSleepStep_wrongKey {key : Nat} (h : key ≠ 0x57A9) (m : Nat) (q : State) :
    forceSleepStep key m q = q.refuse m pwrCmdAddr := if_neg (by simp [h])

theorem x32CheckStep_shows {s : State} (ha : s.aonRuns = true) (hen : s.flag uCosy F.cosy_PWR_CFG_X32_EN = true) (ok : Bool) :
    x32CheckStep ok s = s.wr uCosy F.cosy_PWR_STATUS_X32_OK (b2n ok) := if_pos ⟨ha, hen⟩

theorem x32CheckStep_stopped {s : State} (h : s.aonRuns = false) (ok : Bool) : x32CheckStep ok s = s :=
  if_neg fun ⟨ha, _⟩ => ne_true_of_eq_false h ha

/-- Settles O53: the cases of each event, as the lemmas above name them. -/
theorem powerStates : Obligations.PowerStates := by
  unfold Obligations.PowerStates
  refine fun s => ⟨fun h => ?_, fun h => ?_, exec_powerOff s, fun hp hinh c hc => ?_,
    fun hp hrun hinh hlow t n c u d ht hn hc hu hd => ⟨fun hlast => ?_, fun hfew => ?_⟩, fun h => ?_, fun h t c ht hc => ?_, fun h => ?_,
    fun hp hpg t ht => ⟨fun h => ?_, fun h => ?_⟩, fun h t c ht hc => ?_, fun h c hc => ?_, fun h => ?_, fun h t ht hp => ?_,
    exec_rstNRelease s, fun m q hq hup => ⟨fun hp hcom t c ht hc => ?_, fun key h => ?_⟩, fun ok ha hen => ?_, fun ok h => ?_⟩
  · rw [exec_cosyPowerOn, cosyPowerOnStep_off h]
  · rw [exec_cosyPowerOn, cosyPowerOnStep_on h]
  · rw [exec_pmicPgHigh, pmicPgHighStep_ready hp hinh, hc]
  · rw [exec_pgTimeout, pgTimeoutStep_sleeps hp hrun hinh hlow ht hn hlast, hc]
  · rw [exec_pgTimeout, pgTimeoutStep_retries hp hrun hinh hlow ht hn hfew hu, hd]
  · rw [exec_pgTimeout, pgTimeoutStep_pgHigh h]
  · rw [exec_inhRetryExpiry, inhRetryExpiryStep_low h, ht, hc]
  · rw [exec_inhRetryExpiry, inhRetryExpiryStep_asserted h]
  · rw [exec_pgLoss, pgLossStep_running hp hpg ht h]
  · rw [exec_pgLoss, pgLossStep_held hp hpg ht h]
  · rw [exec_clockLoss, clockLossStep_running h, ht, hc]
  · rw [exec_clockRestored, clockRestoredStep_lost h, hc]
  · rw [exec_clockRestored, clockRestoredStep_running h]
  · rw [exec_rstPin, rstPinStep_falls h ht hp]
  · rw [exec_forceSleep, ← hq, forceSleepStep_requests hup hp hcom ht, hc]
  · rw [exec_forceSleep, ← hq, forceSleepStep_wrongKey h]
  · rw [exec_x32Check, x32CheckStep_shows ha hen]
  · rw [exec_x32Check, x32CheckStep_stopped h]

end Sys2Proof.Machine

/-! PROOFS. The stages of a start (spec 12, R265 to R286): what a step does in its own stage, and that it does nothing in
another. -/

namespace Sys2Proof.Machine

theorem exec_brewStart (x : BrewIn) (s : State) : exec (.brewStart x) s = .next (brewStartStep x s) := rfl

theorem exec_selftestDone (x : SelfTestIn) (s : State) : exec (.selftestDone x) s = .next (selftestDoneStep x s) := rfl

theorem exec_segmentHeaderCheck (x : HeadIn) (s : State) : exec (.segmentHeaderCheck x) s = .next (segmentHeaderCheckStep x s) := rfl

theorem exec_flashBlockArrive (x : BlockIn) (s : State) : exec (.flashBlockArrive x) s = .next (flashBlockArriveStep x s) := rfl

theorem exec_essentialEnable (s : State) : exec .essentialEnable s = .next (essentialEnableStep s) := rfl

theorem exec_handOver (s : State) : exec .handOver s = .next (handOverStep s) := rfl

theorem exec_bootComplete (s : State) : exec .bootComplete s = .next (bootCompleteStep s) := rfl

theorem exec_startFail (r g d p : Nat) (s : State) : exec (.startFail r g d p) s = .next (startFailStep r g d p s) := rfl

theorem exec_bootDeadline (s : State) : exec .bootDeadline s = .next (bootDeadlineStep s) := rfl

/-! ### The release and the self-test -/

theorem brewStartStep_idle {s : State} (h : s.cosy.brewRun = false ∨ s.cosy.brewStarted = true) (x : BrewIn) : brewStartStep x s = s :=
  if_pos (h.imp_left (by simp [·]))

section BrewStart
variable {s u t : State} {x : BrewIn} (hrun : s.cosy.brewRun = true) (hnew : s.cosy.brewStarted = false)
  (hu : u = { s with cosy := { s.cosy with brewStarted := true, locked := false } })
  (ht : t = ((u.setKettle { startWc := u.clk.wc }).disarm.netmRestart).readStraps x)
include hrun hnew hu ht

/-- A released die that has not started reads its straps; the boot begins unless TEST_EN is high (R265). -/
theorem brewStartStep_starts : brewStartStep x s = if x.testEn then t else t.startBoot x := by
  subst ht hu
  exact if_neg (by simp [hrun, hnew])

end BrewStart

theorem selftestDoneStep_otherStage {s : State} (h : s.kettle.stage ≠ stTest) (x : SelfTestIn) : selftestDoneStep x s = s := if_pos h

theorem selftestDoneStep_tested {s v : State} {x : SelfTestIn} (h : s.kettle.stage = stTest)
    (hv : v = (s.mapFailures x).clearMemories.applyLedger.wr uKettle F.kettle_STATUS_SELFTEST_RAN 1) :
    selftestDoneStep x s = ((v.wr uSaucer F.saucer_ST_STATUS_RAN 1).wr uCosy F.cosy_SAUCER_RET_REPAIR_PENDING 0).begin := by
  subst hv
  exact if_neg (not_not_intro h)

/-! ### Headers -/

section Manifest
variable {s : State} {x : HeadIn} (h : s.kettle.stage = stManifest)
include h

theorem segmentHeaderCheckStep_manifestFails (hr : s.manifestReason x ≠ 0) :
    segmentHeaderCheckStep x s = s.segmentFail (s.manifestReason x) 0 0 0 := (if_pos h).trans (if_pos hr)

theorem segmentHeaderCheckStep_manifestPasses (hr : s.manifestReason x = 0) :
    segmentHeaderCheckStep x s =
      ((s.setKettle { s.kettle with manifest := be32 x.header 0x0C, parts := partsOf x.table }).setPhaseOf 2).setStage stEssHead :=
  (if_pos h).trans (if_neg (not_not_intro hr))

end Manifest

section EssentialHeader
variable {s : State} {x : HeadIn} (h : s.kettle.stage = stEssHead)
include h

theorem segmentHeaderCheckStep_essentialFails (hr : s.headReason 1 x ≠ 0) :
    segmentHeaderCheckStep x s = s.segmentFail (s.headReason 1 x) 1 0 15 :=
  (if_neg (h ▸ by decide)).trans ((if_pos h).trans (if_pos hr))

theorem segmentHeaderCheckStep_essentialBarred (hr : s.headReason 1 x = 0) (hv : s.versionOk (be32 x.header 0x10) = false) :
    segmentHeaderCheckStep x s = s.segmentFail 7 1 0 0 :=
  (if_neg (h ▸ by decide)).trans ((if_pos h).trans ((if_neg (not_not_intro hr)).trans (if_pos (by simp [hv]))))

end EssentialHeader

/-- No header is due during the self-test. -/
theorem segmentHeaderCheckStep_test {s : State} (h : s.kettle.stage = stTest) (x : HeadIn) : segmentHeaderCheckStep x s = s :=
  (if_neg (h ▸ by decide)).trans ((if_neg (h ▸ by decide)).trans ((if_neg (h ▸ by decide)).trans (if_neg (h ▸ by decide))))

/-! ### Blocks -/

/-- No block is due during the self-test. -/
theorem flashBlockArriveStep_test {s : State} (h : s.kettle.stage = stTest) (x : BlockIn) : flashBlockArriveStep x s = s :=
  if_pos (h ▸ by decide)

section EssentialBlock
variable {s : State} {x : BlockIn} (h : s.kettle.stage = stEssBody)
include h

theorem flashBlockArriveStep_wrongLength (hl : x.data.length ≠ min 65536 (s.kettle.bodyLen - 65536 * s.kettle.next)) :
    flashBlockArriveStep x s = s.segmentFail 6 1 s.kettle.next 15 := by
  unfold flashBlockArriveStep
  dsimp only
  rw [if_neg (fun k => k.1 h), if_pos (.inl hl), if_pos h]

/-- A good block whose sections load: the body ends with its last block (R270, R272). -/
theorem flashBlockArriveStep_loads {t u : State} (hl : x.data.length = min 65536 (s.kettle.bodyLen - 65536 * s.kettle.next))
    (hd : s.kettle.digests[s.kettle.next]? = some (beNat (sha256 x.data)))
    (ht : t = s.setKettle { s.kettle with buf := s.kettle.buf ++ x.data, next := s.kettle.next + 1 })
    (hu : t.loadSections true (t.kettle.buf.length + 1) = (true, u)) :
    flashBlockArriveStep x s = if u.kettle.next = u.kettle.digests.length then u.bodyEnd x else u := by
  unfold flashBlockArriveStep
  dsimp only
  rw [if_neg (fun k => k.1 h), if_neg (not_or.2 ⟨not_not_intro hl, not_not_intro hd⟩), if_pos h, ← ht, beq_self_eq_true, hu]
  rfl

end EssentialBlock

/-! ### The essential phase, the hand-over and boot complete -/

theorem essentialEnableStep_due {s t : State} (h : s.kettle.stage = stEssDone) (ht : t = s.enableEssential.enableGuards) :
    essentialEnableStep s =
      ((t.wr uKettle F.kettle_TIME_ESS_US (t.sinceStart % 2 ^ 32)).setPhaseOf 3).setStage stPriHead := by
  subst ht
  exact if_pos h

theorem essentialEnableStep_otherStage {s : State} (h : s.kettle.stage ≠ stEssDone) : essentialEnableStep s = s := if_neg h

theorem State.handOverDue_iff (s : State) : s.handOverDue = true ↔
    s.atBoundary = true ∧ s.kettle.timeReady = true ∧ (s.flag uTriad F.triad_TRIAD_STATUS_READY = true ∨ s.triadMode = mdNone) := by
  unfold State.handOverDue
  simp only [Bool.and_eq_true, Bool.or_eq_true, beq_iff_eq, and_assoc]

theorem handOverStep_due {s t u : State} (h : s.kettle.stage = stPriDone) (hdue : s.handOverDue = true)
    (ht : t = (s.genSwap 0x18).commitAll.fullMicrocode) (hu : u = (t.applyEnables (fun _ => true)).switchProgram) :
    handOverStep s = (u.setKettle { u.kettle with lanes := true }).setStage stHanded := by
  subst hu ht
  exact if_neg (not_or.2 ⟨not_not_intro h, by simp [hdue]⟩)

theorem handOverStep_waits {s : State} (h : s.kettle.stage ≠ stPriDone ∨ s.handOverDue = false) : handOverStep s = s :=
  if_pos (h.imp_right (by simp [·]))

theorem bootCompleteStep_due {s t u v : State} (h : s.kettle.stage = stHanded) (hlanes : s.kettle.lanes = true)
    (ht : t = (s.imageHeld.wr uKettle F.kettle_STATUS_COMPLETE 1).setPhaseOf 6)
    (hu : u = (t.wr uKettle F.kettle_TIME_DONE_US (t.sinceStart % 2 ^ 32)).event uKettle)
    (hv : v = (u.wr uCosy F.cosy_BOOT_RET_ATTEMPTS 0).wr uCosy F.cosy_BOOT_RET_DEADLINE_RUN 0) :
    bootCompleteStep s = (v.endTrial.toPower pwActive).setStage stComplete := by
  subst hv hu ht
  exact if_neg (not_or.2 ⟨not_not_intro h, by simp [hlanes]⟩)

theorem bootCompleteStep_waits {s : State} (h : s.kettle.stage ≠ stHanded ∨ s.kettle.lanes = false) : bootCompleteStep s = s :=
  if_pos (h.imp_right (by simp [·]))

/-! ### Failed starts -/

theorem startFailStep_noReason {r : Nat} (h : r = 0 ∨ 8 < r) (g d p : Nat) (s : State) : startFailStep r g d p s = s := if_pos h

theorem startFailStep_loading {r : Nat} {s : State} (h1 : 1 ≤ r) (h8 : r ≤ 8) (hlo : stManifest ≤ s.kettle.stage)
    (hhi : s.kettle.stage ≤ stHanded) (g d p : Nat) : startFailStep r g d p s = s.segmentFail r g d p :=
  (if_neg (by omega)).trans (if_pos (.inl ⟨hlo, hhi⟩))

theorem bootDeadlineStep_running {s : State} (h : s.flag uCosy F.cosy_BOOT_RET_DEADLINE_RUN = true) :
    bootDeadlineStep s = s.failStart 9 0 0 15 := if_pos h

theorem bootDeadlineStep_stopped {s : State} (h : s.flag uCosy F.cosy_BOOT_RET_DEADLINE_RUN = false) : bootDeadlineStep s = s :=
  if_neg (ne_true_of_eq_false h)

/-- Settles O54: what each command does in the stage that awaits it, and that it does nothing in another. -/
theorem startOfTheDevice : Obligations.StartOfTheDevice := by
  unfold Obligations.StartOfTheDevice
  refine fun s => ⟨fun x h => ?_, fun x c t hrun hnew hc u hu ht => ⟨fun htest => ?_, fun htest => ?_⟩, fun x h => ?_, fun x v h hv => ?_,
    fun x h => ⟨fun hr => ?_, fun k hr hk => ?_⟩, fun x h => ⟨fun hr => ?_, fun hr hv => ?_⟩, fun x k hk h hl => ?_,
    fun x k t u hk h hl hd ht hu => ⟨fun hlast => ?_, fun hmore => ?_⟩, fun x h => ⟨?_, fun y => ?_⟩, fun t h ht => ?_, fun h => ?_,
    s.handOverDue_iff, fun t u k h hdue ht hu hk => ?_, fun h => ?_, fun t u v h hlanes ht hu hv => ?_, fun h => ?_,
    fun r g d p h => ?_, fun r g d p h1 h8 hlo hhi => ?_, fun h => ?_, fun h => ?_⟩
  · rw [exec_brewStart, brewStartStep_idle h]
  · rw [exec_brewStart, brewStartStep_starts hrun hnew (hc ▸ hu) ht, if_pos htest]
  · rw [exec_brewStart, brewStartStep_starts hrun hnew (hc ▸ hu) ht, if_neg (ne_true_of_eq_false htest)]
  · rw [exec_selftestDone, selftestDoneStep_otherStage h]
  · rw [exec_selftestDone, selftestDoneStep_tested h hv]
  · rw [exec_segmentHeaderCheck, segmentHeaderCheckStep_manifestFails h hr]
  · rw [exec_segmentHeaderCheck, segmentHeaderCheckStep_manifestPasses h hr, hk]
  · rw [exec_segmentHeaderCheck, segmentHeaderCheckStep_essentialFails h hr]
  · rw [exec_segmentHeaderCheck, segmentHeaderCheckStep_essentialBarred h hr hv]
  · subst hk
    rw [exec_flashBlockArrive, flashBlockArriveStep_wrongLength h hl]
  · subst hk
    rw [exec_flashBlockArrive, flashBlockArriveStep_loads h hl hd ht hu, if_pos hlast]
  · subst hk
    rw [exec_flashBlockArrive, flashBlockArriveStep_loads h hl hd ht hu, if_neg hmore]
  · rw [exec_flashBlockArrive, flashBlockArriveStep_test h]
  · rw [exec_segmentHeaderCheck, segmentHeaderCheckStep_test h]
  · rw [exec_essentialEnable, essentialEnableStep_due h ht]
  · rw [exec_essentialEnable, essentialEnableStep_otherStage h]
  · rw [exec_handOver, handOverStep_due h hdue ht hu, hk]
  · rw [exec_handOver, handOverStep_waits h]
  · rw [exec_bootComplete, bootCompleteStep_due h hlanes ht hu hv]
  · rw [exec_bootComplete, bootCompleteStep_waits h]
  · rw [exec_startFail, startFailStep_noReason h]
  · rw [exec_startFail, startFailStep_loading h1 h8 hlo hhi]
  · rw [exec_bootDeadline, bootDeadlineStep_running h]
  · rw [exec_bootDeadline, bootDeadlineStep_stopped h]

end Sys2Proof.Machine

/-! PROOFS. The commands of the update service and the activation (spec 12, R271 and R285 to R292). -/

namespace Sys2Proof.Machine

theorem exec_keyRevoke (key slot m : Nat) (s : State) :
    exec (.keyRevoke key slot m) s = .next (s.command uKettle m revokeAddr (keyRevokeRun key slot m)) := rfl

theorem exec_retry (key m : Nat) (s : State) : exec (.retry key m) s = .next (s.command uKettle m retryAddr (retryRun key)) := rfl

theorem exec_updArm (key m : Nat) (s : State) : exec (.updArm key m) s = .next (s.command uKettle m updCmdAddr (updArmRun key)) := rfl

theorem exec_updCancel (key m : Nat) (s : State) :
    exec (.updCancel key m) s = .next (s.command uKettle m updCmdAddr (updCancelRun key)) := rfl

theorem exec_activationFire (s : State) : exec .activationFire s = .next (activationFireStep s) := rfl

theorem exec_activationRestart (s : State) : exec .activationRestart s = .next (activationRestartStep s) := rfl

theorem exec_activationCancel (s : State) : exec .activationCancel s = .next (activationCancelStep s) := rfl

/-! ### Revocation and retry -/

/-- With the right key and a slot, what the slot is decides (R271). -/
theorem keyRevokeRun_slot {slot : Nat} (h : slot < 3) (m : Nat) (s : State) :
    keyRevokeRun 0x6B3D slot m s = if s.revokeBarred slot then s.refuse m revokeAddr
      else if s.otp.revoked.contains slot then s else { s with otp := { s.otp with revoked := s.otp.revoked ++ [slot] } } :=
  if_neg (by omega)

theorem keyRevokeRun_ignored {key slot : Nat} (h : key ≠ 0x6B3D ∨ 3 ≤ slot) (m : Nat) (s : State) : keyRevokeRun key slot m s = s :=
  if_pos h

theorem retryRun_key (s : State) : retryRun 0x3C81 s = s.wr uCosy F.cosy_BOOT_RET_ATTEMPTS 0 := if_pos rfl

theorem retryRun_wrongKey {key : Nat} (h : key ≠ 0x3C81) (s : State) : retryRun key s = s := if_neg h

/-! ### The activation -/

theorem updArmRun_cause {key : Nat} {s : State} (h : s.armCause key ≠ 0) : updArmRun key s = s.slotResult 4 0 (s.armCause key) 15 :=
  if_pos h

theorem updArmRun_arms {key : Nat} {s : State} (h : s.armCause key = 0) (hu : s.updState < 2) :
    updArmRun key s = ({ s with
      kettle := { s.kettle with armedAt := s.updTime, armedTick := s.rd uTick F.tick_COUNT_COUNT } } : State).setUpdState 1 :=
  (if_neg (not_not_intro h)).trans (if_neg (Nat.not_le.2 hu))

theorem updArmRun_fired {key : Nat} {s : State} (h : s.armCause key = 0) (hu : 2 ≤ s.updState) : updArmRun key s = s :=
  (if_neg (not_not_intro h)).trans (if_pos hu)

theorem updCancelRun_key (s : State) : updCancelRun 0x9E12 s = s.cancelActivation 5 := if_neg (not_not_intro rfl)

theorem updCancelRun_wrongKey {key : Nat} (h : key ≠ 0x9E12) (s : State) : updCancelRun key s = s.slotResult 4 0 1 15 := if_pos h

theorem activationFireStep_due {s : State} (h : s.activationDue = true) :
    activationFireStep s = if s.safe then s.cancelActivation 8 else s.setUpdState 2 := if_pos h

theorem activationFireStep_waits {s : State} (h : s.activationDue = false) : activationFireStep s = s := if_neg (ne_true_of_eq_false h)

/-- An activation that has fired restarts the die as a trial; in Fallback mode the attempts are cleared first (R285, R292). -/
theorem activationRestartStep_fired {s : State} (h : s.updState = 2) :
    activationRestartStep s =
      ((if s.fallback then s.wr uCosy F.cosy_BOOT_RET_ATTEMPTS 0 else s).brewRestart 6).wr uCosy F.cosy_SLOT_RET_TRIAL 1 := if_pos h

theorem activationRestartStep_notFired {s : State} (h : s.updState ≠ 2) : activationRestartStep s = s := if_neg h

theorem activationCancelStep_committed {s : State} (h : s.cosy.committed = true) : activationCancelStep s = s.cancelActivation 7 :=
  if_pos h

theorem activationCancelStep_nothing {s : State} (h : s.cosy.committed = false) (hs : s.safe = false) : activationCancelStep s = s :=
  (if_neg (ne_true_of_eq_false h)).trans (if_neg fun k => ne_true_of_eq_false hs k.2)

/-- Settles O55: the commands run where the boot registers take writes (`State.command_ok`), and then as their keys and the state of the
activation decide. -/
theorem updateCommands : Obligations.UpdateCommands := by
  unfold Obligations.UpdateCommands
  intro s m htakes
  simp only [exec_keyRevoke, exec_retry, exec_updArm, exec_updCancel, State.command_ok htakes, exec_activationFire,
    exec_activationRestart, exec_activationCancel]
  refine ⟨fun slot hslot => ⟨fun hb => ?_, fun hb hr => ?_, fun o hb hr ho => ?_⟩, fun key slot h => ?_, ?_, fun key h => ?_,
    fun key h => ?_, fun key k h hu hk => ?_, fun key h hu => ?_, ?_, fun key h => ?_, fun hdue hs => ?_, fun hdue hs => ?_, fun h => ?_,
    fun h hf => ?_, fun h hf => ?_, fun h => ?_, fun h => ?_, fun h hs => ?_⟩
  · rw [keyRevokeRun_slot hslot, if_pos hb]
  · rw [keyRevokeRun_slot hslot, if_neg (ne_true_of_eq_false hb), if_pos hr]
  · rw [keyRevokeRun_slot hslot, if_neg (ne_true_of_eq_false hb), if_neg (ne_true_of_eq_false hr), ho]
  · rw [keyRevokeRun_ignored h]
  · rw [retryRun_key]
  · rw [retryRun_wrongKey h]
  · rw [updArmRun_cause h]
  · rw [updArmRun_arms h hu, hk]
  · rw [updArmRun_fired h hu]
  · rw [updCancelRun_key]
  · rw [updCancelRun_wrongKey h]
  · rw [activationFireStep_due hdue, if_neg (ne_true_of_eq_false hs)]
  · rw [activationFireStep_due hdue, if_pos hs]
  · rw [activationFireStep_waits h]
  · rw [activationRestartStep_fired h, if_neg (ne_true_of_eq_false hf)]
  · rw [activationRestartStep_fired h, if_pos hf]
  · rw [activationRestartStep_notFired h]
  · rw [activationCancelStep_committed h]
  · rw [activationCancelStep_nothing h hs]

end Sys2Proof.Machine

/-! PROOFS. The triad's transactions, events and digests and its mailboxes (spec 14, R304 to R316). -/

namespace Sys2Proof.Machine

theorem exec_triadTransaction (t : TriadTx) (s : State) : exec (.triadTransaction t) s = .next (triadTransactionStep t s) := rfl

theorem exec_triadEventLatch (ev c : Nat) (s : State) : exec (.triadEventLatch ev c) s = .next (triadEventLatchStep ev c s) := rfl

theorem exec_agreeOfferExpiry (ev : Nat) (s : State) : exec (.agreeOfferExpiry ev) s = .next (agreeOfferExpiryStep ev s) := rfl

theorem exec_digestCompare (a b c : Nat) (s : State) : exec (.digestCompare a b c) s = .next (digestCompareStep a b c s) := rfl

theorem exec_resyncDone (a b c cy : Nat) (s : State) : exec (.resyncDone a b c cy) s = .next (resyncDoneStep a b c cy s) := rfl

theorem exec_debugHalt (s : State) : exec .debugHalt s = .next (debugHaltStep s) := rfl

theorem exec_mailboxDoorbell (b m : Nat) (s : State) :
    exec (.mailboxDoorbell b m) s = .next (s.command uTriad m (mbCtrlAddr b) (mailboxDoorbellRun b m)) := rfl

theorem exec_mailboxAck (b m : Nat) (s : State) :
    exec (.mailboxAck b m) s = .next (s.command uTriad m (mbCtrlAddr b) (mailboxAckRun b m)) := rfl

theorem exec_mailboxResponse (b st : Nat) (w : List Nat) (s : State) :
    exec (.mailboxResponse b st w) s = .next (mailboxResponseStep b st w s) := rfl

/-! ### Transactions -/

section Transaction
variable {s u : State} {t : TriadTx}

/-- A transaction that may leave is done as the master that the vote names (R305, R310). -/
theorem triadTransactionStep_done {m : Nat} (h : s.triadRuns = true ∨ s.triadUp = true ∧ writeBack t.access = true)
    (hv : s.vote t = (some m, u)) : triadTransactionStep t s = u.triadAccess m t.access := by
  unfold triadTransactionStep
  rw [if_pos h, hv]

theorem triadTransactionStep_stopped (h : s.triadRuns = true ∨ s.triadUp = true ∧ writeBack t.access = true)
    (hv : s.vote t = (none, u)) : triadTransactionStep t s = u := by
  unfold triadTransactionStep
  rw [if_pos h, hv]

theorem triadTransactionStep_nothing (hr : s.triadRuns = false) (h : s.triadUp = false ∨ writeBack t.access = false) :
    triadTransactionStep t s = s := by
  refine if_neg ?_
  rintro (hruns | ⟨hup, hwb⟩)
  · exact ne_true_of_eq_false hr hruns
  · rcases h with h | h
    · exact ne_true_of_eq_false h hup
    · exact ne_true_of_eq_false h hwb

end Transaction

/-! ### Events -/

section EventLatch
variable {s : State} (hup : s.triadUp = true)
include hup

theorem triadEventLatchStep_bypass (h : s.triadMode = mdBypass) (ev c : Nat) :
    triadEventLatchStep ev c s = s.deliver [(ev, c % 8)] := (if_pos hup).trans (if_pos h)

variable (hm : s.triadMode ≠ mdBypass) {q : State} {ev c mask : Nat} (hq : q = agreeOfferExpiryStep ev s)
include hm hq

/-- No running core latches an event that none has offered. -/
theorem triadEventLatchStep_none (hnew : q.triad.latched.find? (fun e => e.1 == ev) = none)
    (hmask : mask = maskOf (q.running.filter (fun n => bitOf c n || false))) (hlen : (bitsOf 3 mask).length = 0) :
    triadEventLatchStep ev c s = q := by
  unfold triadEventLatchStep
  rw [if_pos hup, if_neg hm]
  simp only [← hq, hnew, ← hmask, hlen]

/-- One core offers its latch to the others for four exchanges (R307). -/
theorem triadEventLatchStep_one (hnew : q.triad.latched.find? (fun e => e.1 == ev) = none)
    (hmask : mask = maskOf (q.running.filter (fun n => bitOf c n || false))) (hlen : (bitsOf 3 mask).length = 1) :
    triadEventLatchStep ev c s = q.setTriad { q.triad with latched := q.triad.latched ++ [(ev, mask, 4)] } := by
  unfold triadEventLatchStep
  rw [if_pos hup, if_neg hm]
  simp only [← hq, hnew, ← hmask, hlen]

/-- Two cores that latch together agree the event. -/
theorem triadEventLatchStep_two (hnew : q.triad.latched.find? (fun e => e.1 == ev) = none)
    (hmask : mask = maskOf (q.running.filter (fun n => bitOf c n || false))) (hlen : (bitsOf 3 mask).length = 2) :
    triadEventLatchStep ev c s = q.agree ev mask false := by
  unfold triadEventLatchStep
  rw [if_pos hup, if_neg hm]
  simp only [← hq, hnew, ← hmask, hlen, Option.isSome_none]

/-- An event that a core has offered: with it a second core agrees it, late (R308). -/
theorem triadEventLatchStep_offered {e : Nat × Nat × Nat} (hold : q.triad.latched.find? (fun e => e.1 == ev) = some e)
    (hmask : mask = maskOf (q.running.filter (fun n => bitOf c n || bitOf e.2.1 n))) (htwo : (bitsOf 3 mask).length = 2) :
    triadEventLatchStep ev c s = q.agree ev mask true := by
  unfold triadEventLatchStep
  rw [if_pos hup, if_neg hm]
  simp only [← hq, hold, ← hmask, htwo, Option.isSome_some]

end EventLatch

theorem agreeOfferExpiryStep_offered {s : State} {ev : Nat} {e : Nat × Nat × Nat}
    (h : s.triad.latched.find? (fun e => e.1 == ev) = some e) :
    agreeOfferExpiryStep ev s = if e.2.2 = 0 then
      ((s.setTriad { s.triad with latched := s.triad.latched.filter (fun y => y.1 != ev) }).sat uTriad F.triad_AGREE_MASKED).check
        uTriad 5 true { addr := ev } else s := by
  unfold agreeOfferExpiryStep
  rw [h]

/-! ### Digests and debug -/

theorem digestCompareStep_runs {s : State} (hr : s.triadRuns = true) (hm : s.triadMode ≠ mdBypass) (a b c : Nat) :
    digestCompareStep a b c s = s.compareDigests a b c none := if_pos ⟨hr, hm⟩

theorem digestCompareStep_stopped {s : State} (hr : s.triadRuns = false) (a b c : Nat) : digestCompareStep a b c s = s :=
  if_neg fun h => ne_true_of_eq_false hr h.1

theorem resyncDoneStep_minority {s : State} {n : Nat} (hn : s.triad.minority = some n) (hen : s.enabled uTriad = true)
    (hheld : s.triadHeld = false) (a b c cy : Nat) :
    resyncDoneStep a b c cy s = (s.wr uTriad F.triad_RESYNC_TIME cy).compareDigests a b c (some n) := by
  unfold resyncDoneStep
  rw [hn]
  exact if_pos ⟨hen, by simp [hheld]⟩

theorem resyncDoneStep_none {s : State} (h : s.triad.minority = none) (a b c cy : Nat) : resyncDoneStep a b c cy s = s := by
  unfold resyncDoneStep
  rw [h]

theorem debugHaltStep_open {s : State} (hrun : s.cosy.brewRun = true) (hopen : s.debugOpen = true)
    (hm : s.triadMode = mdTriple ∨ s.triadMode = mdReduced ∨ s.triadMode = mdSplit) :
    debugHaltStep s = ((s.setMode mdBypass).wr uTriad F.triad_TRIAD_STATUS_DEBUG_SPLIT 1).check uTriad 8 true :=
  if_pos ⟨hrun, hopen, hm⟩

theorem debugHaltStep_closed {s : State} (h : s.debugOpen = false) : debugHaltStep s = s :=
  if_neg fun k => ne_true_of_eq_false h k.2.1

/-! ### Mailboxes -/

section Mailbox
variable {s : State} {b m : Nat} (hb : b < 4)
include hb

theorem mailboxDoorbellRun_refused (h : m ≠ mbOwner b ∨ s.mbState b ≠ 0) : mailboxDoorbellRun b m s = s.refuse m (mbCtrlAddr b) :=
  (if_neg (Nat.not_le.2 hb)).trans (if_pos h)

/-- An idle mailbox copies the request of its owner (R315). -/
theorem mailboxDoorbellRun_copies {t u : State} (hm : m = mbOwner b) (hidle : s.mbState b = 0)
    (ht : t = s.wr uTriad F.triad_MB_STATUS_STATE 1 b)
    (hu : u = t.setTriad { s.triad with requests := s.triad.requests ++
      [(b, (List.range (min 127 (nbits (s.rd uTriad F.triad_MB_REQ_DATA b 0) 0 8) + 1)).map
        (fun k => s.rd uTriad F.triad_MB_REQ_DATA b k))] })
    (hheld : u.triadHeld = false) (hmode : u.triadMode ≠ mdNone) : mailboxDoorbellRun b m s = u := by
  subst ht hu
  exact (if_neg (Nat.not_le.2 hb)).trans ((if_neg (not_or.2 ⟨not_not_intro hm, not_not_intro hidle⟩)).trans
    (if_neg (not_or.2 ⟨ne_true_of_eq_false hheld, hmode⟩)))

theorem mailboxAckRun_refused (h : m ≠ mbOwner b) : mailboxAckRun b m s = s.refuse m (mbCtrlAddr b) :=
  (if_neg (Nat.not_le.2 hb)).trans (if_pos h)

theorem mailboxAckRun_owner (h : m = mbOwner b) :
    mailboxAckRun b m s = if s.mbState b = 2 then s.wr uTriad F.triad_MB_STATUS_STATE 0 b else s :=
  (if_neg (Nat.not_le.2 hb)).trans (if_neg (not_not_intro h))

end Mailbox

theorem mailboxResponseStep_notInLine {s : State} {b : Nat} (h : s.triad.served = [] ∨ ∃ q l, s.triad.served = q :: l ∧ q ≠ b)
    (st : Nat) (w : List Nat) : mailboxResponseStep b st w s = s := by
  unfold mailboxResponseStep
  rcases h with h | ⟨q, l, h, hq⟩
  · rw [h]
  · rw [h]
    exact if_pos (.inl hq)

/-- The request first in line is answered: the response, the service's work if it was done, and the end of the request (R316). -/
theorem mailboxResponseStep_answers {s t : State} {b st svc r : Nat} {w l v rsp : List Nat} (hl : s.triad.served = b :: l)
    (hrun : s.triadRuns = true) (hsvc : svc = nbits (s.mbHead b) 16 16)
    (hr : r = if serviceKnown svc = false then 1 else if s.serviceBarred b svc = true then 3 else st)
    (hv : v = if r = 0 then (w.map (· % 2 ^ 32)).take 63 else [])
    (hrsp : rsp = (r % 65536 * 65536 + nbits (s.mbHead b) 8 8 * 256 + v.length) :: v)
    (ht : t = (List.range rsp.length).foldl (fun s k => s.wr uTriad F.triad_MB_RSP_DATA (rsp.getD k 0) b k) s) :
    mailboxResponseStep b st w s = (if r = 0 then t.serviceDone b svc else t).mbDone b := by
  have hr' : (if (!serviceKnown svc) = true then 1 else if s.serviceBarred b svc = true then 3 else st) = r := by
    simp only [Bool.not_eq_true', hr]
  unfold mailboxResponseStep
  simp only [hl]
  rw [if_neg (by simp [hrun]), ← hsvc, hr', ← hv, ← hrsp, ← ht]

/-- Settles O56: the vote, the latches, the digests and the mailboxes, each by the lemma of its case. -/
theorem triadAndMailboxes : Obligations.TriadAndMailboxes := by
  unfold Obligations.TriadAndMailboxes
  refine fun s => ⟨fun t m u h hv => ?_, fun t u h hv => ?_, fun hr t h => ?_, fun hup ev c q x hq hx => ⟨fun hm => ?_,
      fun hm hnew mask hmask => ⟨fun hlen => ?_, fun hlen => ?_, fun hlen => ?_⟩, fun hm e hold mask hmask htwo => ?_⟩,
    fun l x hx => ?_, fun ev e x h hx => ⟨fun he => ?_, fun he => ?_⟩,
    fun a b c => ⟨fun hr hm => ?_, fun hr => ?_, fun n cy hn hen hheld => ?_, fun cy h => ?_⟩, fun hrun hopen hm => ?_, fun h => ?_,
    fun b m hb htakes => ⟨fun h => ?_, fun t x hm hidle ht hx u hu hheld hmode => ?_, fun h => ?_, fun h hst => ?_, fun h hst => ?_⟩,
    fun b st w h => ?_, fun b st w l svc r v rsp t hl hrun hsvc hr hv hrsp ht => ?_⟩
  · rw [exec_triadTransaction, triadTransactionStep_done h hv]
  · rw [exec_triadTransaction, triadTransactionStep_stopped h hv]
  · rw [exec_triadTransaction, triadTransactionStep_nothing hr h]
  · rw [exec_triadEventLatch, triadEventLatchStep_bypass hup hm]
  · rw [exec_triadEventLatch, triadEventLatchStep_none hup hm hq (hx ▸ hnew) hmask hlen]
  · rw [exec_triadEventLatch, triadEventLatchStep_one hup hm hq (hx ▸ hnew) hmask hlen, hx]
  · rw [exec_triadEventLatch, triadEventLatchStep_two hup hm hq (hx ▸ hnew) hmask hlen]
  · rw [exec_triadEventLatch, triadEventLatchStep_offered hup hm hq (hx ▸ hold) hmask htwo]
  · rw [State.deliver, hx]
  · rw [exec_agreeOfferExpiry, agreeOfferExpiryStep_offered h, if_pos he, hx]
  · rw [exec_agreeOfferExpiry, agreeOfferExpiryStep_offered h, if_neg he]
  · rw [exec_digestCompare, digestCompareStep_runs hr hm]
  · rw [exec_digestCompare, digestCompareStep_stopped hr]
  · rw [exec_resyncDone, resyncDoneStep_minority hn hen hheld]
  · rw [exec_resyncDone, resyncDoneStep_none h]
  · rw [exec_debugHalt, debugHaltStep_open hrun hopen hm]
  · rw [exec_debugHalt, debugHaltStep_closed h]
  · rw [exec_mailboxDoorbell, State.command_ok htakes, mailboxDoorbellRun_refused hb h]
  · subst hx
    rw [exec_mailboxDoorbell, State.command_ok htakes, mailboxDoorbellRun_copies hb hm hidle ht hu hheld hmode]
  · rw [exec_mailboxAck, State.command_ok htakes, mailboxAckRun_refused hb h]
  · rw [exec_mailboxAck, State.command_ok htakes, mailboxAckRun_owner hb h, if_pos hst]
  · rw [exec_mailboxAck, State.command_ok htakes, mailboxAckRun_owner hb h, if_neg hst]
  · rw [exec_mailboxResponse, mailboxResponseStep_notInLine h]
  · rw [exec_mailboxResponse, mailboxResponseStep_answers hl hrun hsvc hr hv hrsp ht]

end Sys2Proof.Machine

/-! PROOFS. The Saucer's own boundaries, its ladder and the restarts (spec 15, R319 to R329, and R407). -/

namespace Sys2Proof.Machine

theorem exec_saucerBoundary (work : Option Nat) (s : State) : exec (.saucerBoundary work) s = .next (saucerBoundaryStep work s) := rfl

theorem exec_saucerReport (s : State) : exec .saucerReport s = .next (saucerReportStep s) := rfl

theorem exec_safeStateEntry (s : State) : exec .safeStateEntry s = .next (safeStateEntryStep s) := rfl

theorem exec_saucerRestart (s : State) : exec .saucerRestart s = .next (saucerRestartStep s) := rfl

theorem exec_episodeEnd (key seq m : Nat) (s : State) :
    exec (.episodeEnd key seq m) s = .next (s.command uSaucer m endAddr (episodeEndRun key seq m)) := rfl

theorem exec_cosyGraceTimeout (s : State) : exec .cosyGraceTimeout s = .next (cosyGraceTimeoutStep s) := rfl

theorem exec_tickMessageTimeout (s : State) : exec .tickMessageTimeout s = .next (tickMessageTimeoutStep s) := rfl

/-! ### The Saucer's own boundary -/

theorem saucerBoundaryStep_ticked {s : State} (h : s.enabled uTick = true) (work : Option Nat) : saucerBoundaryStep work s = s :=
  if_pos (by rw [h, Bool.true_or])

/-- Settles O18: the boundary is the Saucer's own exactly while TICK does not count as enabled (R407). -/
theorem saucerOwnBoundary : Obligations.SaucerOwnBoundary := by
  unfold Obligations.SaucerOwnBoundary
  refine fun s work => ⟨fun htick hreset => congrArg Host.Outcome.next (if_neg ?_), fun htick => ?_⟩
  · rw [htick, hreset]
    exact Bool.false_ne_true
  · rw [exec_saucerBoundary, saucerBoundaryStep_ticked htick]

/-! ### Reports -/

theorem saucerReportStep_held {s : State} (h : s.cosy.brewRun = false) : saucerReportStep s = s := if_pos (by simp [h])

theorem saucerReportStep_none {s : State} (h : nextReport s.reports = none) : saucerReportStep s = s := by
  unfold saucerReportStep
  rw [h]
  exact ite_self s

/-- The report next in line is taken out, and each of its errors is handled (R318, R319). -/
theorem saucerReportStep_takes {s : State} {r : Report} (hrun : s.cosy.brewRun = true) (hr : nextReport s.reports = some r) :
    saucerReportStep s = iter (fun s => s.takeChecked r) r.count
      { s with reports := s.reports.filter (fun q => !(q.unit == r.unit && q.det == r.det)) } := by
  unfold saucerReportStep
  rw [hr]
  exact if_neg (by simp [hrun])

/-- Without an upset every stored word is good. -/
theorem State.codeOf_noUpsets {s : State} (h : s.upsets = []) (mem idx : Nat) : s.codeOf mem idx = .good := by
  unfold State.codeOf
  rw [h]
  rfl

theorem State.takeChecked_noUpsets {s : State} (h : s.upsets = []) (r : Report) : s.takeChecked r = s.takeError r := by
  have hgood : (s.itemsRead r).filter (fun x => s.codeOf x.1 x.2 != .good) = [] :=
    List.filter_eq_nil_iff.2 fun x _ => by simp [State.codeOf_noUpsets h]
  unfold State.takeChecked
  simp only [hgood, List.foldl_nil, List.isEmpty_nil, if_true]

/-! ### The ladder -/

theorem safeStateEntryStep_enters {s : State} (hrun : s.cosy.brewRun = true) (hopen : s.episodeOpen = true) (hstep : s.episodeStep < 2)
    (hgrace : s.saucer.grace ≤ s.graceCount) : safeStateEntryStep s = s.stepSafe := if_pos ⟨hrun, hopen, hstep, hgrace⟩

theorem safeStateEntryStep_waits {s : State} (h : s.episodeOpen = false ∨ 2 ≤ s.episodeStep ∨ s.graceCount < s.saucer.grace) :
    safeStateEntryStep s = s := by
  refine if_neg ?_
  rintro ⟨-, hopen, hstep, hgrace⟩
  simp only [hopen, Bool.true_eq_false, false_or] at h
  omega

theorem saucerRestartStep_restarts {s : State} (hrun : s.cosy.brewRun = true) (hopen : s.episodeOpen = true)
    (hgrace : 2 * s.saucer.grace ≤ s.graceCount) (hup : s.flag uUlis F.ulis_ULIS_STATUS_UP = true) :
    saucerRestartStep s = (s.wr uSaucer F.saucer_EPISODE_STEP 3).saucerRestart false (s.rd uSaucer F.saucer_REC_INFO_SOURCE 0)
      (s.rd uSaucer F.saucer_REC_INFO_DETECTOR 0) := if_pos ⟨hrun, hopen, hgrace, hup⟩

theorem saucerRestartStep_waits {s : State} (h : s.graceCount < 2 * s.saucer.grace ∨ s.flag uUlis F.ulis_ULIS_STATUS_UP = false) :
    saucerRestartStep s = s := by
  refine if_neg ?_
  rintro ⟨-, -, hgrace, hup⟩
  rcases h with h | h
  · omega
  · exact ne_true_of_eq_false h hup

theorem State.tellCosy_down {s : State} (h : s.flag uUlis F.ulis_ULIS_STATUS_UP = false) : s.tellCosy = s := if_neg (ne_true_of_eq_false h)

/-! ### The end of an episode -/

theorem episodeEndRun_otherMaster {m : Nat} (h1 : m ≠ 1) (h8 : m ≠ 8) (h16 : m ≠ 16) (key seq : Nat) (s : State) :
    episodeEndRun key seq m s = s.refuse m endAddr := if_pos ⟨h1, h8, h16⟩

section EpisodeEnd
variable {m : Nat} (hm : m = 1 ∨ m = 8 ∨ m = 16)
include hm

theorem episodeEndRun_wrongKey {key : Nat} (h : key ≠ 0xC1E4) (seq : Nat) (s : State) : episodeEndRun key seq m s = s :=
  (if_neg (by omega)).trans (if_pos h)

/-- With the right key, the episode and its sequence number decide, and for the triad HOST_ONLY (R322, R323). -/
theorem episodeEndRun_key (seq : Nat) (s : State) :
    episodeEndRun 0xC1E4 seq m s = if !s.episodeOpen then s.wr uSaucer F.saucer_EPISODE_END_STATUS 3
      else if seq % 256 ≠ s.rd uSaucer F.saucer_EPISODE_SEQ then
        (s.wr uSaucer F.saucer_EPISODE_END_STATUS 1).sat uSaucer F.saucer_END_REFUSED
      else if m = 16 ∧ s.flag uSaucer F.saucer_EPISODE_HOST_ONLY then
        ((s.wr uSaucer F.saucer_EPISODE_END_STATUS 2).sat uSaucer F.saucer_END_REFUSED).refuse m endAddr
      else s.endEpisode :=
  (if_neg (by omega)).trans (if_neg (not_not_intro rfl))

end EpisodeEnd

/-! ### The Cosy die by itself -/

theorem cosyGraceTimeoutStep_restarts {s : State} (hrun : s.cosy.brewRun = true) (hsafe : s.cosy.sawSafe = true)
    (hmsgs : s.grace + 16 ≤ s.cosy.graceMsgs) :
    cosyGraceTimeoutStep s = s.saucerRestart true s.cosy.lastSource s.cosy.lastDet := if_pos ⟨hrun, hsafe, hmsgs⟩

theorem cosyGraceTimeoutStep_notSafe {s : State} (h : s.cosy.sawSafe = false) : cosyGraceTimeoutStep s = s :=
  if_neg fun k => ne_true_of_eq_false h k.2.1

theorem tickMessageTimeoutStep_restarts {s : State} (hrun : s.cosy.brewRun = true) (hopen : s.cosy.sawOpen = true)
    (hlate : 655360000000 ≤ (s.clk.wc + 2 ^ 80 - s.cosy.tickAt) % 2 ^ 80) :
    tickMessageTimeoutStep s = s.saucerRestart true s.cosy.lastSource s.cosy.lastDet := if_pos ⟨hrun, hopen, hlate⟩

theorem tickMessageTimeoutStep_waits {s : State}
    (h : s.cosy.sawOpen = false ∨ (s.clk.wc + 2 ^ 80 - s.cosy.tickAt) % 2 ^ 80 < 655360000000) : tickMessageTimeoutStep s = s := by
  refine if_neg ?_
  rintro ⟨-, hopen, hlate⟩
  rcases h with h | h
  · exact ne_true_of_eq_false h hopen
  · exact absurd hlate (Nat.not_le.2 h)

/-- Settles O57: each rung of the ladder by the lemma of its case; the end of an episode by `episodeEndRun_key`. -/
theorem saucerLadder : Obligations.SaucerLadder := by
  unfold Obligations.SaucerLadder
  refine fun s => ⟨fun h => ?_, fun h => ?_, fun r t hrun hr ht => ?_, fun r h => State.takeChecked_noUpsets h r,
    fun hrun hopen hstep hgrace => ?_, fun h => ?_, fun hrun hopen hgrace hup => ?_, fun h => ?_,
    fun m htakes => ⟨fun h1 h8 h16 key seq => ?_, fun hm key seq => ⟨fun h => ?_, fun hclosed => ?_, fun hopen hseq => ?_,
      fun hopen hseq htriad hhost => ?_, fun hopen hseq hmay t ht => ?_⟩⟩,
    State.tellCosy_down, fun hrun hsafe hmsgs => ?_, fun h => ?_, fun hrun hopen hlate => ?_, fun h => ?_⟩
  · rw [exec_saucerReport, saucerReportStep_held h]
  · rw [exec_saucerReport, saucerReportStep_none h]
  · rw [exec_saucerReport, saucerReportStep_takes hrun hr, ht]
  · rw [exec_safeStateEntry, safeStateEntryStep_enters hrun hopen hstep hgrace]
  · rw [exec_safeStateEntry, safeStateEntryStep_waits h]
  · rw [exec_saucerRestart, saucerRestartStep_restarts hrun hopen hgrace hup]
  · rw [exec_saucerRestart, saucerRestartStep_waits h]
  · rw [exec_episodeEnd, State.command_ok htakes, episodeEndRun_otherMaster h1 h8 h16]
  · rw [exec_episodeEnd, State.command_ok htakes, episodeEndRun_wrongKey hm h]
  · rw [exec_episodeEnd, State.command_ok htakes, episodeEndRun_key hm, if_pos (by simp [hclosed])]
  · rw [exec_episodeEnd, State.command_ok htakes, episodeEndRun_key hm, if_neg (by simp [hopen]), if_pos hseq]
  · rw [exec_episodeEnd, State.command_ok htakes, episodeEndRun_key hm, if_neg (by simp [hopen]), if_neg (not_not_intro hseq),
      if_pos ⟨htriad, hhost⟩]
  · rw [exec_episodeEnd, State.command_ok htakes, episodeEndRun_key hm, if_neg (by simp [hopen]), if_neg (not_not_intro hseq),
      if_neg (fun k => hmay.elim (· k.1) (ne_true_of_eq_false · k.2)), ht, State.endEpisode]
  · rw [exec_cosyGraceTimeout, cosyGraceTimeoutStep_restarts hrun hsafe hmsgs]
  · rw [exec_cosyGraceTimeout, cosyGraceTimeoutStep_notSafe h]
  · rw [exec_tickMessageTimeout, tickMessageTimeoutStep_restarts hrun hopen hlate]
  · rw [exec_tickMessageTimeout, tickMessageTimeoutStep_waits h]

end Sys2Proof.Machine

/-! PROOFS. The key commands and the jobs of the crypto service (spec 16, R342 to R350). -/

namespace Sys2Proof.Machine

theorem exec_keyWrite (slot m : Nat) (s : State) : exec (.keyWrite slot m) s = .next (s.keyCommand m (keyWriteRun slot)) := rfl

theorem exec_keyErase (slot m : Nat) (s : State) : exec (.keyErase slot m) s = .next (s.keyCommand m (keyEraseRun slot)) := rfl

theorem exec_keyEraseAll (m : Nat) (s : State) : exec (.keyEraseAll m) s = .next (s.keyCommand m keyEraseAllRun) := rfl

theorem exec_jobSubmit (r t m : Nat) (s : State) :
    exec (.jobSubmit r t m) s = .next (s.command uCrypt m (ringTailAddr r) (jobSubmitRun r t m)) := rfl

theorem exec_keyFetch (s : State) : exec .keyFetch s = .next (keyFetchStep s) := rfl

/-- The operation that a command of the crypto service completes: its number in Table 16.5 and what it does. -/
theorem exec_jobs (s : State) :
    exec .gcmEnc s = .next (s.runJob 1 jobGcmEnc) ∧ exec .gcmDec s = .next (s.runJob 2 jobGcmDec) ∧
    exec .cmacGen s = .next (s.runJob 3 (jobCmac false)) ∧ exec .cmacVer s = .next (s.runJob 4 (jobCmac true)) ∧
    exec .hmacGen s = .next (s.runJob 5 (jobHmac false)) ∧ exec .hmacVer s = .next (s.runJob 6 (jobHmac true)) ∧
    exec .sha256 s = .next (s.runJob 7 jobSha) ∧ exec .ecdsaVer s = .next (s.runJob 8 jobEcdsa) ∧
    exec .kdf s = .next (s.runJob 9 jobKdf) ∧ exec .random s = .next (s.runJob 10 jobRandom) ∧
    exec .genKey s = .next (s.runJob 11 jobGenKey) ∧ exec .loadBlob s = .next (s.runJob 12 jobLoadBlob) ∧
    exec .wrapSlot s = .next (s.runJob 13 jobWrap) ∧ exec .importKey s = .next (s.runJob 14 jobImport) :=
  ⟨rfl, rfl, rfl, rfl, rfl, rfl, rfl, rfl, rfl, rfl, rfl, rfl, rfl, rfl⟩

/-! ### Key commands -/

section KeyCommand
variable {s : State} {m : Nat} (htakes : s.takes uCaddy m = true) (run : Nat → State → State)
include htakes

theorem State.keyCommand_noSet (h : keySet m = none) : s.keyCommand m run = s.refuse m keyCmdAddr := by
  unfold State.keyCommand
  rw [State.command_ok htakes, h]

variable {set : Nat} (hset : keySet m = some set)
include hset

/-- A key command of a master with a register set (R342, R359). -/
theorem State.keyCommand_set :
    s.keyCommand m run = if s.sec.busySets.contains set then s.refuse m keyCmdAddr
      else if !s.keyOps then s.draw.keyDone set (1 + s.drawn 2)
      else if s.alarmActive then s.keyDone set 2
      else (run set s).keyBusy set := by
  unfold State.keyCommand
  rw [State.command_ok htakes, hset]

theorem State.keyCommand_busy (h : s.sec.busySets.contains set = true) : s.keyCommand m run = s.refuse m keyCmdAddr :=
  (State.keyCommand_set htakes run hset).trans (if_pos h)

variable (hfree : s.sec.busySets.contains set = false) (hops : s.keyOps = true)
include hfree hops

theorem State.keyCommand_alarm (h : s.alarmActive = true) : s.keyCommand m run = s.keyDone set 2 := by
  rw [State.keyCommand_set htakes run hset, hfree, hops, h]
  rfl

theorem State.keyCommand_runs (h : s.alarmActive = false) : s.keyCommand m run = (run set s).keyBusy set := by
  rw [State.keyCommand_set htakes run hset, hfree, hops, h]
  rfl

end KeyCommand

theorem keyWriteRun_badArg {s : State} {set : Nat} (h : 128 ≤ s.keyReg set 8) (slot : Nat) :
    keyWriteRun slot set s = s.keyDone set 1 := if_pos h

theorem keyWriteRun_fills {s : State} {set : Nat} (h : s.keyReg set 8 < 128) (slot : Nat) :
    keyWriteRun slot set s = (s.fillSlot (slot % 256) (s.keyDataKey set (s.keyReg set 8)) (s.keyReg set 8) 0 0).keyDone set 0 :=
  if_neg (Nat.not_le.2 h)

/-! ### Jobs -/

theorem jobSubmitRun_refused {r : Nat} (hr : r < 4) {t m : Nat} {s : State} (h : ringOwner r m = false ∨ t % 16 = s.ringHead r) :
    jobSubmitRun r t m s = s.refuse m (ringTailAddr r) := (if_neg (Nat.not_le.2 hr)).trans (if_pos (h.imp_left (by simp [·])))

theorem jobSubmitRun_owner {r : Nat} (hr : r < 4) {t m : Nat} {s : State} (ho : ringOwner r m = true) (ht : t % 16 ≠ s.ringHead r) :
    jobSubmitRun r t m s = ((s.wr uCrypt F.crypt_RING_CTRL_TAIL t r).takeJob).skipBadOps 64 :=
  (if_neg (Nat.not_le.2 hr)).trans (if_neg (by simp [ho, ht]))

theorem State.runJob_none {s : State} (h : s.sec.running = none) (op : Nat) (f : State → Nat → Desc → JobResult × State) :
    s.runJob op f = s := by
  unfold State.runJob
  rw [h]

section RunJob
variable {s : State} {r op : Nat} {d : Desc} {f : State → Nat → Desc → JobResult × State} (hr : s.sec.running = some r)
  (hd : d = s.desc r (s.ringHead r)) (hen : s.enabled uCrypt = true) (hop : d.op = op)
include hr hd hen hop

/-- Arguments that break a rule end the job with BAD_ARG (R350). -/
theorem State.runJob_badArg (ha : d.argsOk = false) : s.runJob op f = (s.endJob r jobBadArg 0).skipBadOps 64 := by
  have hmine : ¬ (d.op ≠ op ∨ (!s.enabled uCrypt) = true) := by simp [hop, hen]
  unfold State.runJob
  rw [hr]
  dsimp only
  rw [← hd, if_neg hmine, ha]
  simp only [Bool.not_false, if_true, List.foldl_nil]

/-- Otherwise the operation's own result is written, and ends the job. -/
theorem State.runJob_result (ha : d.argsOk = true) (hops : s.keyOps = true) (hal : s.alarmActive = false) {x : JobResult} {t : State}
    (hf : f s r d = (x, t)) :
    s.runJob op f = ((x.writes.foldl (fun s w => s.putData r w.1 w.2) t).endJob r x.status x.out).skipBadOps 64 := by
  have hmine : ¬ (d.op ≠ op ∨ (!s.enabled uCrypt) = true) := by simp [hop, hen]
  unfold State.runJob
  rw [hr]
  dsimp only
  rw [← hd, if_neg hmine, ha, hops, hal, hf]
  simp only [Bool.not_true, Bool.false_eq_true, if_false, false_and]

end RunJob

/-! ### The fetch of a CANsec channel -/

theorem keyFetchStep_none {s : State} (h : s.sec.fetches = []) : keyFetchStep s = s := by
  unfold keyFetchStep
  rw [h]

/-- The transmit channel of a CAN unit loads its key, or drops it where the sequencer refuses (R355). -/
theorem keyFetchStep_transmit {s t q : State} {n slot : Nat} {l : List Nat} {k : Option KeySlot}
    (hl : s.sec.fetches = (1024 + 8 * n + 4) :: l) (ht : t = s.setSec { s.sec with fetches := l })
    (hslot : slot = t.rd (uCan n) F.can_CS_CFG_TX_KEY_SLOT)
    (hk : t.fetchKey 0 slot attrEncrypt useCansec (some (t.flag (uCan n) F.can_CS_CFG_LEN256)) = (k, q)) :
    keyFetchStep s = k.elim (q.dropEngineKey (1024 + 8 * n + 4)) (fun k => q.setEngineKey (1024 + 8 * n + 4) k.key) := by
  have hn : (1024 + 8 * n + 4 - 1024) / 8 = n := by omega
  have hc : (1024 + 8 * n + 4 - 1024) % 8 = 4 := by omega
  unfold keyFetchStep
  rw [hl]
  dsimp only
  rw [hn, hc, if_pos rfl, if_pos rfl, ← ht, ← hslot, hk]
  cases k <;> rfl

/-- Settles O58: a key command runs its own way once the set and the alarm allow it (`State.keyCommand_runs`), and a command of the
crypto service completes the running job of its operation (`State.runJob_result`). -/
theorem keysAndJobs : Obligations.KeysAndJobs := by
  unfold Obligations.KeysAndJobs
  intro s
  obtain ⟨hgcmEnc, hgcmDec, hcmacGen, hcmacVer, hhmacGen, hhmacVer, hsha, hecdsa, hkdf, hrandom, hgenKey, hloadBlob, hwrap,
    himport⟩ := exec_jobs s
  refine ⟨fun m set slot htakes hset hbusy => ⟨?_, ?_, ?_⟩,
    fun m set slot htakes hset hfree hops => ⟨fun hal => ⟨?_, ?_, ?_⟩, fun hal x hx => ⟨fun h => ?_, fun h => ?_, ?_, ?_⟩⟩,
    fun m slot htakes hset => ⟨?_, ?_, ?_⟩, fun r t m hr htakes => ⟨fun ho ht => ?_, fun h => ?_⟩, fun h => ⟨?_, ?_, ?_⟩,
    fun r d hr hd hen => ⟨fun ha => ⟨fun hop => ?_, fun hop => ?_⟩, fun ha hops hal x t u hu =>
      ⟨fun hop hf => ?_, fun hop hf => ?_, fun hop hf => ?_, fun hop hf => ?_, fun hop hf => ?_, fun hop hf => ?_, fun hop hf => ?_,
        fun hop hf => ?_, fun hop hf => ?_, fun hop hf => ?_, fun hop hf => ?_, fun hop hf => ?_, fun hop hf => ?_, fun hop => ?_⟩⟩,
    fun h => ?_, fun n c l x t slot k q hn hc hx hl ht hslot hk => ?_⟩
  · rw [exec_keyWrite, State.keyCommand_busy htakes _ hset hbusy]
  · rw [exec_keyErase, State.keyCommand_busy htakes _ hset hbusy]
  · rw [exec_keyEraseAll, State.keyCommand_busy htakes _ hset hbusy]
  · rw [exec_keyWrite, State.keyCommand_alarm htakes _ hset hfree hops hal]
  · rw [exec_keyErase, State.keyCommand_alarm htakes _ hset hfree hops hal]
  · rw [exec_keyEraseAll, State.keyCommand_alarm htakes _ hset hfree hops hal]
  · rw [exec_keyWrite, State.keyCommand_runs htakes _ hset hfree hops hal, keyWriteRun_badArg h]
  · rw [exec_keyWrite, State.keyCommand_runs htakes _ hset hfree hops hal, keyWriteRun_fills h]
  · rw [exec_keyErase, State.keyCommand_runs htakes _ hset hfree hops hal, keyEraseRun, hx]
  · rw [exec_keyEraseAll, State.keyCommand_runs htakes _ hset hfree hops hal, keyEraseAllRun, hx]
  · rw [exec_keyWrite, State.keyCommand_noSet htakes _ hset]
  · rw [exec_keyErase, State.keyCommand_noSet htakes _ hset]
  · rw [exec_keyEraseAll, State.keyCommand_noSet htakes _ hset]
  · rw [exec_jobSubmit, State.command_ok htakes, jobSubmitRun_owner hr ho ht]
  · rw [exec_jobSubmit, State.command_ok htakes, jobSubmitRun_refused hr h]
  · rw [hgcmEnc, State.runJob_none h]
  · rw [hsha, State.runJob_none h]
  · rw [himport, State.runJob_none h]
  · rw [hgcmEnc, State.runJob_badArg hr hd hen hop ha]
  · rw [hsha, State.runJob_badArg hr hd hen hop ha]
  · rw [hgcmEnc, State.runJob_result hr hd hen hop ha hops hal hf, hu]
  · rw [hgcmDec, State.runJob_result hr hd hen hop ha hops hal hf, hu]
  · rw [hcmacGen, State.runJob_result hr hd hen hop ha hops hal hf, hu]
  · rw [hcmacVer, State.runJob_result hr hd hen hop ha hops hal hf, hu]
  · rw [hhmacGen, State.runJob_result hr hd hen hop ha hops hal hf, hu]
  · rw [hhmacVer, State.runJob_result hr hd hen hop ha hops hal hf, hu]
  · rw [hecdsa, State.runJob_result hr hd hen hop ha hops hal hf, hu]
  · rw [hkdf, State.runJob_result hr hd hen hop ha hops hal hf, hu]
  · rw [hrandom, State.runJob_result hr hd hen hop ha hops hal hf, hu]
  · rw [hgenKey, State.runJob_result hr hd hen hop ha hops hal hf, hu]
  · rw [hloadBlob, State.runJob_result hr hd hen hop ha hops hal hf, hu]
  · rw [hwrap, State.runJob_result hr hd hen hop ha hops hal hf, hu]
  · rw [himport, State.runJob_result hr hd hen hop ha hops hal hf, hu]
  · rw [hsha, State.runJob_result hr hd hen hop ha hops hal (f := jobSha) rfl]
    rfl
  · rw [exec_keyFetch, keyFetchStep_none h]
  · subst hc hx
    rw [exec_keyFetch, keyFetchStep_transmit hl ht hslot hk]
    cases k <;> rfl

end Sys2Proof.Machine

/-! PROOFS. MACsec associations, the random source, alarms, the life cycle and debug authentication (spec 16, R353 to
R364). -/

namespace Sys2Proof.Machine

theorem exec_saInstall (p : Nat) (rx : Option Nat) (an slot m : Nat) (s : State) :
    exec (.saInstall p rx an slot m) s = .next (s.command (uMac p) m (saCtrlAddr p rx an) (saInstallRun p rx an slot m)) := rfl

theorem exec_saRetire (p : Nat) (rx : Option Nat) (an m : Nat) (s : State) :
    exec (.saRetire p rx an m) s = .next (s.command (uMac p) m (saCtrlAddr p rx an) (saRetireRun p rx an)) := rfl

theorem exec_drbgReseed (ok : Bool) (s : State) : exec (.drbgReseed ok) s = .next (drbgReseedStep ok s) := rfl

theorem exec_alarm (src : Nat) (s : State) : exec (.alarm src) s = .next (alarmStep src s) := rfl

theorem exec_alarmClear (key pr m : Nat) (s : State) :
    exec (.alarmClear key pr m) s = .next (s.command uCaddy m alarmClearAddr (alarmClearRun key pr m)) := rfl

theorem exec_tamperUnpowered (s : State) : exec .tamperUnpowered s = .next (tamperUnpoweredStep s) := rfl

theorem exec_advance (key m : Nat) (s : State) : exec (.advance key m) s = .next (s.lcCommand key m State.advanceOk advanceRun) := rfl

theorem exec_progSign (key i m : Nat) (s : State) :
    exec (.progSign key i m) s = .next (s.lcCommand key m (fun s => s.progSignOk i) (progSignRun i)) := rfl

theorem exec_progFb (key m : Nat) (s : State) : exec (.progFb key m) s = .next (s.lcCommand key m State.progFbOk progFbRun) := rfl

theorem exec_progDbg (key m : Nat) (s : State) : exec (.progDbg key m) s = .next (s.lcCommand key m State.progDbgOk progDbgRun) := rfl

theorem exec_dbgAuth (x y r g : Nat) (s : State) : exec (.dbgAuth x y r g) s = .next (dbgAuthStep x y r g s) := rfl

/-! ### Associations -/

section Association
variable {p an : Nat} {rx : Option Nat} (hok : saOk p rx an = true) {s : State}
include hok

theorem saRetireRun_ok : saRetireRun p rx an s = (s.setSaValid p rx an 0).dropEngineKey (saKeyNo p rx an) := if_pos hok

variable {t : State} {slot m : Nat} (ht : t = s.setSaSlot p rx an slot)
include ht

theorem saInstallRun_valid (hv : t.saValid p rx an = true) : saInstallRun p rx an slot m s = t.refuse m (saCtrlAddr p rx an) := by
  unfold saInstallRun
  rw [hok, if_pos rfl, ← ht]
  simp only [hv, Bool.not_true, Bool.false_eq_true, if_false, if_true]

variable (hv : t.saValid p rx an = false) {k : Option KeySlot} {q : State}
  (hk : t.fetchKey 0 (t.saSlot p rx an) (if rx.isNone then attrEncrypt else attrDecrypt) useMacsec (some (t.longKey p)) = (k, q))
include hv hk

theorem saInstallRun_noKey (hn : k = none) : saInstallRun p rx an slot m s = q := by
  unfold saInstallRun
  rw [hok, if_pos rfl, ← ht]
  simp only [hv, hk, hn, Bool.not_true, Bool.false_eq_true, if_false]

/-- The association takes its key and its salt; a transmit one starts at PN 1 (R353). -/
theorem saInstallRun_key {c : KeySlot} (hc : k = some c) {v : State}
    (hv' : v = ((q.setEngineKey (saKeyNo p rx an) c.key).takeSalt (saKeyNo p rx an) (q.saSalt p rx an)).setSaValid p rx an 1) :
    saInstallRun p rx an slot m s = if rx.isNone then (v.wr (uMac p) F.mac_TXSA_PN_HI 0 an).wr (uMac p) F.mac_TXSA_PN_LO 1 an else v := by
  unfold saInstallRun
  rw [hok, if_pos rfl, ← ht, hv']
  simp only [hv, hk, hc, Bool.not_true, Bool.false_eq_true, if_false]

end Association

/-! ### The random source and the alarms -/

theorem drbgReseedStep_fails (s : State) :
    drbgReseedStep false s = ((s.check uCrypt 1 true).sat uCrypt F.crypt_ENTROPY_FAIL_COUNT).setSec
      { ((s.check uCrypt 1 true).sat uCrypt F.crypt_ENTROPY_FAIL_COUNT).sec with entropyBad := true } := if_pos rfl

theorem drbgReseedStep_due {s : State} (harmed : s.armed uCrypt 1 = false) (hal : s.alarmActive = false)
    (hdue : s.sec.entropyBad = true ∨ s.sec.drbg = none) : drbgReseedStep true s = s.reseed := by
  have hdue' : s.sec.entropyBad = true ∨ s.sec.drbg.isNone = true ∨ 1024 ≤ s.sec.drbg.getD 0 :=
    hdue.imp_right fun h => .inl (Option.isNone_iff_eq_none.2 h)
  exact (if_neg (by simp [harmed])).trans ((if_neg (ne_true_of_eq_false hal)).trans (if_pos hdue'))

theorem alarmStep_end (src : Nat) (s : State) : alarmStep (8 + src) s = s.alarmEnd src :=
  (if_pos (Nat.le_add_right 8 src)).trans (by rw [Nat.add_sub_cancel_left])

theorem State.alarmEnd_present {s : State} {src : Nat} (h : bitOf (s.rd uCaddy F.caddy_ALARM_STATUS_PRESENT) src = true) :
    s.alarmEnd src = s.wr uCaddy F.caddy_ALARM_STATUS_PRESENT (s.rd uCaddy F.caddy_ALARM_STATUS_PRESENT - 2 ^ src) := if_pos h

theorem State.alarmEnd_absent {s : State} {src : Nat} (h : bitOf (s.rd uCaddy F.caddy_ALARM_STATUS_PRESENT) src = false) :
    s.alarmEnd src = s := if_neg (ne_true_of_eq_false h)

/-- A source other than the tamper pin acts on a running Brew die alone (R358). -/
theorem alarmStep_source {src : Nat} (h5 : src < 5) (h0 : src ≠ 0) {s : State} (hp : 3 ≤ s.cosy.power) :
    alarmStep src s = if s.cosy.brewRun then s.raiseAlarm src else s := by
  unfold alarmStep
  rw [if_neg (by omega), if_pos ⟨h5, hp⟩, if_neg h0]

theorem tamperUnpoweredStep_unpowered {s : State} (h : s.cosy.power = 1 ∨ s.cosy.power = 2) :
    tamperUnpoweredStep s = (s.wr uCosy F.cosy_TAMPER_RET_SEEN 1).sat uCosy F.cosy_TAMPER_RET_COUNT := if_neg (by omega)

theorem tamperUnpoweredStep_other {s : State} (h : s.cosy.power = 0 ∨ 3 ≤ s.cosy.power) : tamperUnpoweredStep s = s := if_pos h

section AlarmClear
variable {s t : State} {key pr m : Nat} (ht : t = s.wr uCaddy F.caddy_ALARM_STATUS_PRESENT pr)
include ht

theorem alarmClearRun_clears (hkey : key = 0xA17E) (hset : (keySet m).isSome = true) (hpr : pr % 32 = 0) :
    alarmClearRun key pr m s = (t.wr uCaddy F.caddy_ALARM_STATUS_ACTIVE 0).deriveKeys.reseed := by
  subst ht
  exact if_pos ⟨hkey, hset, hpr⟩

theorem alarmClearRun_refused (h : key ≠ 0xA17E ∨ (keySet m).isSome = false ∨ pr % 32 ≠ 0) :
    alarmClearRun key pr m s = t.wr uCaddy F.caddy_ALARM_STATUS_CLEAR_REFUSED 1 := by
  subst ht
  refine if_neg ?_
  rintro ⟨hkey, hset, hpr⟩
  simp [hkey, hset, hpr] at h

end AlarmClear

/-! ### The life cycle -/

section LifeCycle
variable {s : State} {m : Nat} (htakes : s.takes uCaddy m = true) (ok : State → Bool) (run : State → State)
include htakes

theorem State.lcCommand_busy (h : s.flag uCaddy F.caddy_LC_CMD_BUSY = true) (key : Nat) :
    s.lcCommand key m ok run = s.refuse m lcCmdAddr := by
  unfold State.lcCommand
  rw [State.command_ok htakes]
  exact if_pos h

variable (hfree : s.flag uCaddy F.caddy_LC_CMD_BUSY = false)
include hfree

theorem State.lcCommand_free (key : Nat) :
    s.lcCommand key m ok run = if ok s ∧ !s.safe ∧ key = 0xC7C ∧ (keySet m).isSome then
      ((run s).wr uCaddy F.caddy_LC_CMD_STATUS 0).wr uCaddy F.caddy_LC_CMD_BUSY 1
    else s.wr uCaddy F.caddy_LC_CMD_STATUS 1 := by
  unfold State.lcCommand
  rw [State.command_ok htakes]
  exact if_neg (ne_true_of_eq_false hfree)

theorem State.lcCommand_runs {ok : State → Bool} (hok : ok s = true) (hsafe : s.safe = false) (hset : (keySet m).isSome = true) :
    s.lcCommand 0xC7C m ok run = ((run s).wr uCaddy F.caddy_LC_CMD_STATUS 0).wr uCaddy F.caddy_LC_CMD_BUSY 1 :=
  (State.lcCommand_free htakes ok run hfree _).trans (if_pos ⟨hok, by simp [hsafe], rfl, hset⟩)

theorem State.lcCommand_refused {key : Nat} (h : key ≠ 0xC7C ∨ s.safe = true) :
    s.lcCommand key m ok run = s.wr uCaddy F.caddy_LC_CMD_STATUS 1 := by
  refine (State.lcCommand_free htakes ok run hfree key).trans (if_neg ?_)
  rintro ⟨-, hsafe, hkey, -⟩
  simp [hkey] at h
  simp [h] at hsafe

end LifeCycle

/-! ### Debug authentication -/

theorem dbgAuthStep_nothing {s : State} (h : s.dbg ≠ 0 ∨ s.cosy.brewStarted = false ∨ s.sec.challenge = none) (x y r g : Nat) :
    dbgAuthStep x y r g s = s := by
  unfold dbgAuthStep
  cases hch : s.sec.challenge with
  | none => rfl
  | some ch =>
    refine if_neg ?_
    rintro ⟨hstarted, hdbg, -⟩
    simp [hstarted, hdbg, hch] at h

/-- The right key and signature open debug, after an erasure (R364). -/
theorem dbgAuthStep_opens {s : State} {x y r g ch : Nat} (hch : s.sec.challenge = some ch) (hstarted : s.cosy.brewStarted = true)
    (hdbg : s.dbg = 0) (hlc : s.lc = 2 ∨ s.lc = 3) (hfails : s.rd uCaddy F.caddy_LC_STATUS_AUTH_FAILS < 3)
    (hhash : s.otp.dbgHash = some (beNat (sha256 (beBytes 32 x ++ beBytes 32 y))))
    (hsig : ecdsaOk (beNat (sha256 (beBytes 32 ch ++ beBytes 16 s.otp.uid ++ [BitVec.ofNat 8 s.lc]))) x y r g = true) :
    dbgAuthStep x y r g s = ((s.wr uCaddy F.caddy_LC_STATUS_DBG 1).erase).deriveWrap := by
  unfold dbgAuthStep
  rw [hch]
  dsimp only
  rw [if_pos ⟨hstarted, hdbg, hlc, hfails⟩, if_pos ⟨hhash, hsig⟩]

/-- Settles O59: the associations, the random source, the alarms, the life cycle and debug, each by the lemma of its case. -/
theorem associationsAlarmsLifeCycle : Obligations.AssociationsAlarmsLifeCycle := by
  unfold Obligations.AssociationsAlarmsLifeCycle
  refine fun s => ⟨fun p rx an slot m t hok htakes ht => ⟨fun hv => ?_, fun hv k q hk => ⟨fun hn => ?_, fun c u v hc hu hv' =>
      ⟨fun hrx => ?_, fun hrx => ?_⟩⟩⟩, fun p rx an m hok htakes => ?_, fun t x ht hx => ?_, fun harmed hal x hx hdue => ?_,
    fun src _ => ⟨fun h => ?_, fun h => ?_⟩, fun src h5 h0 hp => ⟨fun h => ?_, fun h => ?_⟩, fun h => ?_, fun h => ?_,
    fun m htakes key pr t ht => ⟨fun hkey hset hpr => ?_, fun h => ?_⟩,
    fun m htakes hbusy key => ⟨?_, ?_, ?_, fun i => ?_⟩,
    fun m o htakes hfree ho => ⟨fun hsafe hset => ⟨fun hok => ?_, fun i hok => ?_, fun hok => ?_, fun hok => ?_⟩,
      fun key h => ⟨?_, ?_, ?_, fun i => ?_⟩⟩,
    fun x y r g h => ?_, fun x y r g ch hch hstarted hdbg hlc hfails hhash hsig => ?_⟩
  · rw [exec_saInstall, State.command_ok htakes, saInstallRun_valid hok ht hv]
  · rw [exec_saInstall, State.command_ok htakes, saInstallRun_noKey hok ht hv hk hn]
  · rw [exec_saInstall, State.command_ok htakes, saInstallRun_key hok ht hv hk hc (hu ▸ hv'), if_pos hrx]
  · rw [exec_saInstall, State.command_ok htakes, saInstallRun_key hok ht hv hk hc (hu ▸ hv'), if_neg (ne_true_of_eq_false hrx)]
  · rw [exec_saRetire, State.command_ok htakes, saRetireRun_ok hok]
  · rw [exec_drbgReseed, drbgReseedStep_fails, ← ht, hx]
  · rw [exec_drbgReseed, drbgReseedStep_due harmed hal (hx ▸ hdue)]
  · rw [exec_alarm, alarmStep_end, State.alarmEnd_present h]
  · rw [exec_alarm, alarmStep_end, State.alarmEnd_absent h]
  · rw [exec_alarm, alarmStep_source h5 h0 hp, if_pos h]
  · rw [exec_alarm, alarmStep_source h5 h0 hp, if_neg (ne_true_of_eq_false h)]
  · rw [exec_tamperUnpowered, tamperUnpoweredStep_unpowered h]
  · rw [exec_tamperUnpowered, tamperUnpoweredStep_other h]
  · rw [exec_alarmClear, State.command_ok htakes, alarmClearRun_clears ht hkey hset hpr]
  · rw [exec_alarmClear, State.command_ok htakes, alarmClearRun_refused ht h]
  · rw [exec_advance, State.lcCommand_busy htakes _ _ hbusy]
  · rw [exec_progFb, State.lcCommand_busy htakes _ _ hbusy]
  · rw [exec_progDbg, State.lcCommand_busy htakes _ _ hbusy]
  · rw [exec_progSign, State.lcCommand_busy htakes _ _ hbusy]
  · rw [exec_advance, State.lcCommand_runs htakes _ hfree hok hsafe hset, advanceRun, ho]
  · rw [exec_progSign, State.lcCommand_runs htakes _ hfree hok hsafe hset, progSignRun, ho]
  · rw [exec_progFb, State.lcCommand_runs htakes _ hfree hok hsafe hset, progFbRun, ho]
  · rw [exec_progDbg, State.lcCommand_runs htakes _ hfree hok hsafe hset, progDbgRun, ho]
  · rw [exec_advance, State.lcCommand_refused htakes _ _ hfree h]
  · rw [exec_progFb, State.lcCommand_refused htakes _ _ hfree h]
  · rw [exec_progDbg, State.lcCommand_refused htakes _ _ hfree h]
  · rw [exec_progSign, State.lcCommand_refused htakes _ _ hfree h]
  · rw [exec_dbgAuth, dbgAuthStep_nothing h]
  · rw [exec_dbgAuth, dbgAuthStep_opens hch hstarted hdbg hlc hfails hhash hsig]

end Sys2Proof.Machine

/-! PROOFS. INT_EOI and the signalling of an MSI-X vector (spec 17, R375, and R406). -/

namespace Sys2Proof.Machine

/-! ### Interrupts -/

theorem exec_intEoi (m : Nat) (s : State) : exec (.intEoi m) s = .next (s.command uSys m (baseOf uSys + 0x190) fun s => s.intEoi) := rfl

/-- INT_EOI of an active output. -/
theorem State.intEoi_active {s : State} (h : s.irqOut F.sys_INT_MASK_PF0_MASK = true) : s.intEoi = s.signal 0 32 := if_pos h

/-- INT_EOI of an output that is not active. -/
theorem State.intEoi_inactive {s : State} (h : s.irqOut F.sys_INT_MASK_PF0_MASK = false) : s.intEoi = s :=
  if_neg (ne_true_of_eq_false h)

/-- A vector that MSI-X does not carry, or that is pending, is not signalled again. -/
theorem State.signal_idle {s : State} {f v : Nat} (h : bitOf s.host.msixEn f = false ∨ s.msixPending f v = true) : s.signal f v = s :=
  if_pos (by simpa using h)

/-- A vector whose message may leave sends it. -/
theorem State.signal_open {s : State} {f v : Nat} (he : bitOf s.host.msixEn f = true) (hp : s.msixPending f v = false)
    (ho : s.msixOpen f v = true) : s.signal f v = { s with host := { s.host with msix := s.host.msix ++
      [⟨f, v, s.msixWord f v 1 * 2 ^ 32 + s.msixWord f v 0, s.msixWord f v 2⟩] } } :=
  (if_neg (by simp [he, hp])).trans (if_pos ho)

/-- A vector whose message may not leave waits with its pending bit. -/
theorem State.signal_shut {s : State} {f v : Nat} (he : bitOf s.host.msixEn f = true) (hp : s.msixPending f v = false)
    (ho : s.msixOpen f v = false) : s.signal f v = s.orBit (uFn f) F.fn_MSIX_PBA_W (v % 32) (v / 32) :=
  (if_neg (by simp [he, hp])).trans (if_neg (ne_true_of_eq_false ho))

/-- Settles O23: the branches of INT_EOI and of the signalling of a vector. -/
theorem interruptVectors : Obligations.InterruptVectors := by
  unfold Obligations.InterruptVectors
  refine fun s m f v ht => ⟨fun h => ?_, fun h => ?_, State.signal_idle, State.signal_open, State.signal_shut⟩
  · rw [exec_intEoi, State.command_ok ht, State.intEoi_active h]
  · rw [exec_intEoi, State.command_ok ht, State.intEoi_inactive h]

end Sys2Proof.Machine

/-! PROOFS. The host ports: PCIe requests and rings, resets and the link, the management SPI and the Ulis link (spec 17, R369
to R394). -/

namespace Sys2Proof.Machine

theorem exec_pcieMemoryRequest (fn bar off : Nat) (w : Bool) (dws : List PcieDw) (s : State) :
    exec (.pcieMemoryRequest fn bar off w dws) s = .next (pcieMemoryRequestStep fn bar off w dws s) := rfl

theorem exec_txDescriptor (len : Nat) (fr : List Byte) (s : State) :
    exec (.txDescriptor len fr) s = .next (txDescriptorStep len fr s) := rfl

theorem exec_rxDelivery (b : List (Nat × Nat)) (s : State) : exec (.rxDelivery b) s = .next (rxDeliveryStep b s) := rfl

theorem exec_functionLevelReset (f : Nat) (s : State) : exec (.functionLevelReset f) s = .next (functionLevelResetStep f s) := rfl

theorem exec_pciePerst (s : State) : exec .pciePerst s = .next (pciePerstStep s) := rfl

theorem exec_pcieLinkChange (up : Bool) (sp w : Nat) (s : State) :
    exec (.pcieLinkChange up sp w) s = .next (pcieLinkChangeStep up sp w s) := rfl

theorem exec_pcieConfigWrite (f : Nat) (b e : Bool) (c : PcieCfg) (s : State) :
    exec (.pcieConfigWrite f b e c) s = .next (pcieConfigWriteStep f b e c s) := rfl

theorem exec_mspiNop (s : State) : exec .mspiNop s = .next s.mspiBegin := rfl

theorem exec_mspiWrite (a : Nat) (v : Word) (crc : Nat) (s : State) : exec (.mspiWrite a v crc) s = .next (mspiWriteStep a v crc s) := rfl

theorem exec_mspiRead (a crc : Nat) (s : State) : exec (.mspiRead a crc) s = .next (mspiReadStep a crc s) := rfl

theorem exec_mspiFrameError (k : Nat) (s : State) : exec (.mspiFrameError k) s = .next (s.mspiBegin.mspiRefused (k == 1)) := rfl

theorem exec_mspiAbandon (a : Nat) (s : State) : exec (.mspiAbandon a) s = .next (mspiAbandonStep a s) := rfl

theorem exec_ulisPacketRetry (again : Bool) (s : State) : exec (.ulisPacketRetry again) s = .next (ulisPacketRetryStep again s) := rfl

theorem exec_ulisLinkDown (s : State) : exec .ulisLinkDown s = .next s.ulisDown := rfl

theorem exec_ulisLinkUp (s : State) : exec .ulisLinkUp s = .next (ulisLinkUpStep s) := rfl

theorem exec_ulisAuthExchange (ok : Bool) (s : State) : exec (.ulisAuthExchange ok) s = .next (ulisAuthExchangeStep ok s) := rfl

/-! ### PCIe requests and rings -/

theorem State.fnServed_iff {s : State} {f : Nat} :
    s.fnServed f = true ↔ (s.fnCfg f).d3hot = false ∧ (f = 0 ∨ (s.fnCfg 0).vfEnable = true ∧ f ≤ (s.fnCfg 0).numVfs) := by
  simp [State.fnServed]

/-- The state in which a memory request is done: with an empty completion, unless an earlier request still waits. -/
def State.completionAnew (s : State) : State :=
  if s.host.reads.any (fun r => r.dest == .pcie) then s else s.setHost { s.host with completion := [] }

theorem pcieMemoryRequestStep_served {s : State} {f bar off : Nat} {w : Bool} {dws : List PcieDw} (h : s.completionAnew.fnServed f = true) :
    pcieMemoryRequestStep f bar off w dws s = s.completionAnew.pcieDws f bar off w dws := if_pos h

theorem pcieMemoryRequestStep_unserved {s : State} {f bar off : Nat} {w : Bool} {dws : List PcieDw}
    (h : s.completionAnew.fnServed f = false) : pcieMemoryRequestStep f bar off w dws s = s.completionAnew :=
  if_neg (ne_true_of_eq_false h)

/-- The place, in round robin, of the next transmit ring that may be served. -/
def State.txPick (s : State) : Option Nat :=
  (List.range 80).find? (fun i => s.txReady ((s.host.txNext + i) % 80 / 16) ((s.host.txNext + i) % 80 % 16))

theorem txDescriptorStep_none {s : State} {len : Nat} {fr : List Byte} (h : s.txPick = none) : txDescriptorStep len fr s = s := by
  unfold txDescriptorStep
  rw [show List.find? _ _ = none from h]

/-- A descriptor of a length that Ethernet knows is offered to port 14. -/
theorem txDescriptorStep_good {s t w : State} {len i k : Nat} {fr : List Byte} (h : s.txPick = some i) (hk : k = (s.host.txNext + i) % 80)
    (ht : t = s.setHost { s.host with txNext := (k + 1) % 80 }) (hlen : ¬(len < 60 ∨ 9212 < len))
    (hw : w = t.offer 14 { inPort := 14, inSub := k / 16, tc := s.rd (uFn (k / 16)) F.fn_RING_CFG_TC (k % 16), ts := t.wcNs % 2 ^ 32 }
      (fr ++ fcsBytes fr false)) :
    txDescriptorStep len fr s = (((w.inc (uFn (k / 16)) F.fn_TX_FRAMES).dmaWrite (s.descAddr (k / 16) (k % 16) + 12)
      (le32 (2 ^ 31))).fnAdvance (k / 16) (k % 16)).signal (k / 16) (16 + k % 16) := by
  unfold txDescriptorStep
  rw [show List.find? _ _ = some i from h]
  subst hk ht hw
  exact if_neg hlen

/-- A descriptor of another length is marked bad. -/
theorem txDescriptorStep_bad {s t : State} {len i k : Nat} {fr : List Byte} (h : s.txPick = some i) (hk : k = (s.host.txNext + i) % 80)
    (ht : t = s.setHost { s.host with txNext := (k + 1) % 80 }) (hlen : len < 60 ∨ 9212 < len) :
    txDescriptorStep len fr s = (((t.dmaWrite (s.descAddr (k / 16) (k % 16) + 12) (le32 (2 ^ 30))).sat (uFn (k / 16))
      F.fn_TX_BAD_DESC).fnAdvance (k / 16) (k % 16)).event (uFn (k / 16)) := by
  unfold txDescriptorStep
  rw [show List.find? _ _ = some i from h]
  subst hk ht
  exact if_pos hlen

/-- The oldest copy that port 14 has read. -/
def State.hostCopy (s : State) : Option (Nat × Delivered) := findIdx1 (fun (d : Delivered) => d.port == 14) s.fab.delivered 0

theorem rxDeliveryStep_none {s : State} {b : List (Nat × Nat)} (h : s.hostCopy = none) : rxDeliveryStep b s = s := by
  unfold rxDeliveryStep
  rw [show findIdx1 _ _ _ = none from h]

theorem rxDeliveryStep_safe {s : State} {b : List (Nat × Nat)} (hs : s.safe = true) : rxDeliveryStep b s = s := by
  unfold rxDeliveryStep
  split
  · rfl
  · exact if_pos hs

theorem rxDeliveryStep_some {s t : State} {b : List (Nat × Nat)} {i : Nat} {d : Delivered} (h : s.hostCopy = some (i, d))
    (hs : s.safe = false) (ht : t = { s with fab := { s.fab with delivered := s.fab.delivered.eraseIdx i } }) :
    rxDeliveryStep b s = ((List.range 5).filter (bitOf d.copy.subH)).foldl (fun t f => t.rxTo d f (b.getD f (0, 0))) t := by
  unfold rxDeliveryStep
  rw [show findIdx1 _ _ _ = some (i, d) from h]
  subst ht
  exact if_neg (ne_true_of_eq_false hs)

/-! ### Function resets, the link and the configuration space -/

theorem functionLevelResetStep_lt {s t : State} {f : Nat} (hf : f < 5) (ht : t = if f = 0 then s.vfsEnd else s) :
    functionLevelResetStep f s = (t.fnConfig f false false {}).unitReset (uFn f) := by
  subst ht
  exact if_pos hf

theorem pcieConfigWriteStep_lt {s t : State} {f : Nat} {b e : Bool} {c : PcieCfg} (hf : f < 5)
    (ht : t = if f = 0 ∧ c.vfEnable = false then s.vfsEnd else s) : pcieConfigWriteStep f b e c s = (t.fnConfig f b e c).msixFlush f := by
  subst ht
  refine (if_pos hf).trans ?_
  simp only [Bool.not_eq_true']

theorem State.vfsEnd_disabled {s : State} (h : (s.fnCfg 0).vfEnable = false) : s.vfsEnd = s := if_neg (ne_true_of_eq_false h)

/-! ### The management SPI -/

theorem State.mspiRefused_crc (s : State) :
    s.mspiRefused true = (s.sat uMspi F.mspi_CRC_ERR).setHost { (s.sat uMspi F.mspi_CRC_ERR).host with mspiErr := true } := rfl

theorem State.mspiRefused_frame (s : State) :
    s.mspiRefused false = (s.sat uMspi F.mspi_FRAME_ERR).setHost { (s.sat uMspi F.mspi_FRAME_ERR).host with mspiErr := true } := rfl

theorem mspiWriteStep_good {s u : State} {a crc : Nat} {v : Word} (hc : crc = crc8 ([0x02#8] ++ beBytes 4 a ++ beBytes 4 v.toNat))
    (hu : u = s.mspiBegin.shiftOut (List.replicate 8 0#8)) :
    mspiWriteStep a v crc s = if u.mspiBusy then u.mspiRefused false else u.regWrite 8 a v := by
  subst hu
  exact if_pos hc

theorem mspiWriteStep_bad {s u : State} {a crc : Nat} {v : Word} (hc : crc ≠ crc8 ([0x02#8] ++ beBytes 4 a ++ beBytes 4 v.toNat))
    (hu : u = s.mspiBegin.shiftOut (List.replicate 8 0#8)) : mspiWriteStep a v crc s = u.mspiRefused true := by
  subst hu
  exact if_neg hc

theorem mspiReadStep_good {s u : State} {a crc : Nat} (hc : crc = crc8 ([0x0B#8] ++ beBytes 4 a))
    (hu : u = s.mspiBegin.shiftOut (List.replicate 4 0#8)) :
    mspiReadStep a crc s = if u.mspiBusy then u.mspiRefused false else u.askRead 8 a true .mspi := by
  subst hu
  exact if_pos hc

theorem mspiAbandonStep_busy {s : State} {a : Nat} (h : s.mspiBegin.mspiBusy = true) :
    mspiAbandonStep a s = s.mspiBegin.mspiRefused false := if_pos h

theorem mspiAbandonStep_free {s u : State} {a : Nat} (h : s.mspiBegin.mspiBusy = false) (hu : u = s.mspiBegin.askRead 8 a true .lost) :
    mspiAbandonStep a s = (u.setHost { u.host with mspiErr := true }).sat uMspi F.mspi_ABANDONED := by
  subst hu
  exact if_neg (ne_true_of_eq_false h)

/-- The response of a read shifts out behind the pending bytes, with its CRC. -/
theorem State.answer_mspi (s : State) (v : Word) (r : List Byte) (hr : r = [0xD2#8] ++ beBytes 4 v.toNat) :
    s.answer .mspi v = { (s.shiftOut r).shiftOut (beBytes 1 (crc8 r)) with readData := v } := by
  subst hr
  rfl

/-! ### The Ulis link -/

theorem ulisPacketRetryStep_up {s : State} {again : Bool} (h : s.flag uUlis F.ulis_ULIS_STATUS_UP = true) {n : Nat} {t : State}
    (hn : n = if again then s.host.ulisFails + 1 else 1) (ht : t = (s.inc uUlis F.ulis_RETRIES).setHost { s.host with ulisFails := n }) :
    ulisPacketRetryStep again s = if 16 ≤ n then t.ulisDown else t := by
  subst ht hn
  exact if_pos h

theorem ulisPacketRetryStep_down {s : State} {again : Bool} (h : s.flag uUlis F.ulis_ULIS_STATUS_UP = false) :
    ulisPacketRetryStep again s = s := if_neg (ne_true_of_eq_false h)

theorem State.ulisDown_down {s : State} (h : s.flag uUlis F.ulis_ULIS_STATUS_UP = false) : s.ulisDown = s := if_neg (ne_true_of_eq_false h)

theorem State.ulisDown_up {s t : State} (h : s.flag uUlis F.ulis_ULIS_STATUS_UP = true)
    (ht : t = ((s.wr uUlis F.ulis_ULIS_STATUS_UP 0).inc uUlis F.ulis_LINK_DOWNS).inc uUlis F.ulis_FLUSHES) :
    s.ulisDown = (((s.host.posted.foldl (fun s p => (s.refuse p.master p.addr).lastErrOf s p.master p.transfer)
      (t.setHost { t.host with posted := [], ulisFails := 0 })).flushReads (fun r => cosyAddr r.addr)).check uUlis 0 true) := by
  subst ht
  exact if_pos h

theorem ulisLinkUpStep_started {s : State} (h : s.cosy.brewStarted = true) :
    ulisLinkUpStep s = (s.wr uUlis F.ulis_ULIS_STATUS_UP 1).tellCosy := if_pos h

theorem ulisLinkUpStep_held {s : State} (h : s.cosy.brewStarted = false) : ulisLinkUpStep s = s := if_neg (ne_true_of_eq_false h)

theorem ulisAuthExchangeStep_noSecret {s : State} {ok : Bool} (h : s.otp.linkSecret.isNone = true) : ulisAuthExchangeStep ok s = s :=
  if_pos (.inl h)

theorem ulisAuthExchangeStep_linked {s : State} {ok : Bool} (hk : s.otp.linkSecret.isNone = false)
    (hu : s.flag uUlis F.ulis_ULIS_STATUS_UP = true) :
    ulisAuthExchangeStep ok s = if ok then (s.wr uUlis F.ulis_ULIS_STATUS_AUTH 1).alarmEnd 3
      else (((s.wr uUlis F.ulis_ULIS_STATUS_AUTH 0).sat uUlis F.ulis_AUTH_FAIL).ulisDown).raiseAlarm 3 :=
  if_neg (by simp [hk, hu])

/-! ### The obligation -/

/-- What an MSPI transfer does, from the state in which its status word has been shifted out. -/
theorem mspiTransfers (s t : State) (hb : s.mspiBegin = t) :
      exec .mspiNop s = .next t ∧
      (∀ a v crc u, crc = crc8 ([0x02#8] ++ beBytes 4 a ++ beBytes 4 v.toNat) → u = t.shiftOut (List.replicate 8 0#8) →
        (u.mspiBusy = false → exec (.mspiWrite a v crc) s = .next (u.regWrite 8 a v)) ∧
        (u.mspiBusy = true → exec (.mspiWrite a v crc) s = .next (u.mspiRefused false))) ∧
      (∀ a v crc u y, crc ≠ crc8 ([0x02#8] ++ beBytes 4 a ++ beBytes 4 v.toNat) →
        u = (t.shiftOut (List.replicate 8 0#8)).sat uMspi F.mspi_CRC_ERR → y = u.host →
        exec (.mspiWrite a v crc) s = .next (u.setHost { y with mspiErr := true })) ∧
      (∀ a crc u, crc = crc8 ([0x0B#8] ++ beBytes 4 a) → u = t.shiftOut (List.replicate 4 0#8) →
        (u.mspiBusy = false → exec (.mspiRead a crc) s = .next (u.askRead 8 a true .mspi)) ∧
        (u.mspiBusy = true → exec (.mspiRead a crc) s = .next (u.mspiRefused false))) ∧
      (∀ v r, r = [0xD2#8] ++ beBytes 4 v.toNat →
        s.answer .mspi v = { (s.shiftOut r).shiftOut (beBytes 1 (crc8 r)) with readData := v }) ∧
      (∀ u y, u = t.sat uMspi F.mspi_CRC_ERR → y = u.host →
        exec (.mspiFrameError 1) s = .next (u.setHost { y with mspiErr := true })) ∧
      (∀ kind u y, kind ≠ 1 → u = t.sat uMspi F.mspi_FRAME_ERR → y = u.host →
        exec (.mspiFrameError kind) s = .next (u.setHost { y with mspiErr := true })) ∧
      (∀ a u y, t.mspiBusy = false → u = t.askRead 8 a true .lost → y = u.host →
        exec (.mspiAbandon a) s = .next ((u.setHost { y with mspiErr := true }).sat uMspi F.mspi_ABANDONED)) ∧
      (∀ a, t.mspiBusy = true → exec (.mspiAbandon a) s = .next (t.mspiRefused false)) := by
  subst hb
  refine ⟨exec_mspiNop s, fun a v crc u hc hu => ⟨fun h => ?_, fun h => ?_⟩, fun a v crc u y hc hu hy => ?_,
    fun a crc u hc hu => ⟨fun h => ?_, fun h => ?_⟩, fun v r => State.answer_mspi s v r, fun u y hu hy => ?_, fun kind u y hk hu hy => ?_,
    fun a u y h hu hy => ?_, fun a h => ?_⟩
  · rw [exec_mspiWrite, mspiWriteStep_good hc hu, h, if_neg Bool.false_ne_true]
  · rw [exec_mspiWrite, mspiWriteStep_good hc hu, if_pos h]
  · rw [exec_mspiWrite, mspiWriteStep_bad hc rfl, State.mspiRefused_crc, ← hu, hy]
  · rw [exec_mspiRead, mspiReadStep_good hc hu, h, if_neg Bool.false_ne_true]
  · rw [exec_mspiRead, mspiReadStep_good hc hu, if_pos h]
  · rw [exec_mspiFrameError, beq_self_eq_true, State.mspiRefused_crc, ← hu, hy]
  · rw [exec_mspiFrameError, beq_eq_false_iff_ne.2 hk, State.mspiRefused_frame, ← hu, hy]
  · rw [exec_mspiAbandon, mspiAbandonStep_free h hu, hy]
  · rw [exec_mspiAbandon, mspiAbandonStep_busy h]

/-- Settles O60: the branches of each command of the host ports. -/
theorem hostPorts : Obligations.HostPorts := by
  unfold Obligations.HostPorts
  refine fun s => ⟨fun fn bar off w dws x t hx ht => ?_, fun fn => State.fnServed_iff, fun len fr h => ?_,
    fun len fr i k x t h hk hx ht => ⟨fun w hlo hhi hw => ?_, fun hlen => ?_⟩, fun b h => ?_,
    fun b i d f t h hf ht => ⟨fun hs => ?_, fun hs => ?_⟩, fun f t hf ht => ?_, fun f b e c t hf ht => ?_, State.vfsEnd_disabled,
    exec_pciePerst s, fun sp w => ⟨exec_pcieLinkChange .., exec_pcieLinkChange ..⟩, fun t w x hw hx ht => ?_,
    fun hup again n t x ht hx hn => ⟨fun h => ?_, fun h => ?_⟩, fun h => ⟨fun again => ?_, ?_⟩, fun hup x t hx ht y hy => ?_,
    fun h => ?_, fun h => ?_, fun hk hup => ⟨?_, ?_⟩, fun ok h => ?_⟩
  · obtain rfl : t = s.completionAnew := by rw [ht, hx, State.completionAnew]
    exact ⟨fun h => by rw [exec_pcieMemoryRequest, pcieMemoryRequestStep_served h],
      fun h => by rw [exec_pcieMemoryRequest, pcieMemoryRequestStep_unserved h]⟩
  · rw [exec_txDescriptor, txDescriptorStep_none h]
  · subst hx
    rw [exec_txDescriptor, txDescriptorStep_good h hk ht (not_or.2 ⟨Nat.not_lt.2 hlo, Nat.not_lt.2 hhi⟩) hw]
  · subst hx
    rw [exec_txDescriptor, txDescriptorStep_bad h hk ht hlen]
  · rw [exec_rxDelivery, rxDeliveryStep_none h]
  · rw [exec_rxDelivery, rxDeliveryStep_safe hs]
  · subst hf
    rw [exec_rxDelivery, rxDeliveryStep_some h hs ht]
  · rw [exec_functionLevelReset, functionLevelResetStep_lt hf ht]
  · rw [exec_pcieConfigWrite, pcieConfigWriteStep_lt hf ht]
  · subst hw hx
    exact mspiTransfers s t ht.symm
  · subst ht hx
    rw [exec_ulisPacketRetry, ulisPacketRetryStep_up hup hn rfl, if_pos h]
  · subst ht hx
    rw [exec_ulisPacketRetry, ulisPacketRetryStep_up hup hn rfl, if_neg (Nat.not_le.2 h)]
  · rw [exec_ulisPacketRetry, ulisPacketRetryStep_down h]
  · rw [exec_ulisLinkDown, State.ulisDown_down h]
  · rw [exec_ulisLinkDown, State.ulisDown_up hup ht, hx, hy]
  · rw [exec_ulisLinkUp, ulisLinkUpStep_started h]
  · rw [exec_ulisLinkUp, ulisLinkUpStep_held h]
  · rw [exec_ulisAuthExchange, ulisAuthExchangeStep_linked hk hup, if_pos rfl]
  · rw [exec_ulisAuthExchange, ulisAuthExchangeStep_linked hk hup, if_neg Bool.false_ne_true]
  · rw [exec_ulisAuthExchange, ulisAuthExchangeStep_noSecret h]

end Sys2Proof.Machine

/-! PROOFS. The reset of a simple leaf (R399): its registers, the writes staged for it and its own typed state. -/

namespace Sys2Proof.Machine

/-! ### The reset of a simple leaf -/

/-- The kinds of the leaves whose reset touches, beside their registers, only their own typed state. -/
def simpleKinds : List UKind := [.spout, .mspi, .sent, .flx, .t1s, .lin, .tsio]

/-- Looking up an entry after a filter on the keys. -/
theorem smGet_filter_key {α : Type} (d : Nat → α) (p : Nat → Bool) (l : List (Nat × α)) (k : Nat) :
    smGet d (l.filter (fun e => p e.1)) k = if p k then smGet d l k else d k := by
  induction l with
  | nil => exact (ite_self _).symm
  | cons e t ih =>
    by_cases hp : p e.1 = true
    · rw [List.filter_cons_of_pos (by exact hp), smGet, smGet, ih]
      by_cases he : e.1 = k
      · rw [if_pos he, if_pos he, if_pos (he ▸ hp)]
      · rw [if_neg he, if_neg he]
    · rw [List.filter_cons_of_neg (by exact hp), ih, smGet]
      by_cases he : e.1 = k
      · rw [if_neg (he ▸ hp), if_neg (he ▸ hp)]
      · rw [if_neg he]

/-- Addresses that stay through a reset lie in the block that the infusers share. -/
theorem sharedGw_of_ownerWord {a : Nat} (h : ownerWord a = true) : sharedGw a = true := by
  unfold ownerWord at h
  unfold sharedGw
  simp only [Bool.and_eq_true, decide_eq_true_eq] at h ⊢
  omega

theorem sharedGw_of_sharedImage {a : Nat} (h : sharedImage a = true) : sharedGw a = true := by
  unfold sharedImage at h
  rcases Bool.or_eq_true_iff.1 h with h | h <;> rw [beq_iff_eq.1 h] <;> decide

/-- Outside the gateway's group a window holds none of the addresses that stay. -/
theorem inUnit_private {u a : Nat} (hu : u ≠ uGwGrp) (h : inUnit u a = true) : ownerWord a = false ∧ sharedImage a = false := by
  have hs : sharedGw a = false := by
    rw [Bool.eq_false_iff]
    intro hs
    unfold inUnit at h
    rw [if_pos hs] at h
    exact hu (beq_iff_eq.1 h)
  exact ⟨Bool.eq_false_iff.2 fun ho => by simp [sharedGw_of_ownerWord ho] at hs,
    Bool.eq_false_iff.2 fun hi => by simp [sharedGw_of_sharedImage hi] at hs⟩

/-- What `resetRegs` does to a unit that keeps no field. -/
theorem State.resetRegs_noKept (s : State) {u : UnitNo} (h : keptFields u = []) :
    s.resetRegs u = { s with
      regs := s.regs.filter (fun e => !inUnit u e.1 || ownerWord e.1 || sharedImage e.1)
      staged := s.staged.filter (fun e => e.unit != u)
      jobs := s.jobs.filter (fun e => e.1 != u) } := by
  unfold State.resetRegs
  rw [h]
  rfl

/-- A unit's registers read their reset values after its reset, the others as before. -/
theorem State.word_resetRegs (s : State) {u : UnitNo} (hu : u ≠ uGwGrp) (hk : keptFields u = []) (a : Nat) :
    (s.resetRegs u).word a = if inUnit u (canonAddr a) then regReset (canonAddr a) else s.word a := by
  rw [State.resetRegs_noKept s hk]
  refine (smGet_filter_key regReset (fun k => !inUnit u k || ownerWord k || sharedImage k) s.regs (canonAddr a)).trans ?_
  by_cases h : inUnit u (canonAddr a) = true
  · obtain ⟨ho, hi⟩ := inUnit_private hu h
    simp [h, ho, hi]
  · simp [h, State.word]

/-- A simple leaf keeps no field through its reset. -/
theorem keptFields_simple {u : UnitNo} (h : kindOf u ∈ simpleKinds) : keptFields u = [] := by
  unfold simpleKinds at h
  unfold keptFields
  split <;> simp_all

/-- The typed state that the reset of a simple leaf touches. -/
theorem State.resetTyped_simple (s : State) {u : UnitNo} (h : kindOf u ∈ simpleKinds) :
    ∃ sp err ed ti, s.resetTyped u = { s with spout := sp, host := { s.host with mspiErr := err }, edge := ed, time := ti } := by
  simp only [simpleKinds, List.mem_cons, List.not_mem_nil, or_false] at h
  unfold State.resetTyped
  rcases h with h | h | h | h | h | h | h <;> rw [h] <;> exact ⟨_, _, _, _, rfl⟩

/-- A unit without children is reset alone (R399). -/
theorem State.unitReset_leaf (s : State) {u : UnitNo} (hu : u ≠ uSys) (hc : u ≠ uCosy) (h : subtree u = [u]) :
    s.unitReset u = s.resetOne u := by
  unfold State.unitReset
  rw [if_neg hu, if_neg hc, h]
  rfl

/-- With no read waiting nothing crosses into a simple leaf, and its registers and typed state are reset. -/
theorem State.resetOne_simple (s : State) {u : UnitNo} (hr : s.host.reads = []) (h : kindOf u ∈ simpleKinds) {t : State}
    (ht : t = (s.resetRegs u).resetTyped u) :
    s.resetOne u = { t with resetPs := t.resetPs.filter (fun e => e.1 != u) ++ [(u, 64 * cyclePs u)] } := by
  have hul : u ≠ uUlis := fun e => by rw [e] at h; revert h; decide
  have hnm : u ≠ uNetm := fun e => by rw [e] at h; revert h; decide
  have hfb : u ≠ uFab := fun e => by rw [e] at h; revert h; decide
  subst ht
  unfold State.resetOne
  simp only [State.flushReads_none s _ hr, if_neg hul, if_neg hnm, if_neg hfb]

/-- Settles O15: the filter of the register file (`State.word_resetRegs`) and the typed state of a simple leaf. -/
theorem unitResetHolds64Cycles : Obligations.UnitResetHolds64Cycles := by
  unfold Obligations.UnitResetHolds64Cycles
  refine fun s u m ht hc => ⟨fun hu => ?_, fun hr hsub hu hkind => ?_⟩
  · rw [exec_unitReset, State.unitWrite_ok ht hc, State.unitReset, if_pos hu]
  · have hg : u ≠ uGwGrp := fun e => by rw [e] at hkind; revert hkind; decide
    have hk : keptFields u = [] := keptFields_simple hkind
    have hregs := s.resetRegs_noKept hk
    obtain ⟨sp, err, ed, ti, htyped⟩ := (s.resetRegs u).resetTyped_simple hkind
    refine ⟨_, by rw [exec_unitReset, State.unitWrite_ok ht hc, State.unitReset_leaf s hu hc hsub,
      s.resetOne_simple hr hkind htyped.symm], fun a => ?_, ?_, ?_, ?_, ?_⟩
    · exact s.word_resetRegs hg hk a
    all_goals rw [hregs]

end Sys2Proof.Machine

/-! PROOFS. FENCE_READ: the count of its refusals that a master reads and clears (R381, R382). -/

namespace Sys2Proof.Machine

/-! ### The fence registers -/

/-- The fence counts that a master reads of its own refusals: PF0's in PCIE, those of the VFs and that of MSPI (R381). -/
def fenceCounts : List (UnitNo × Fld) :=
  [(uPcie, F.pcie_FENCE_COUNT), (uMspi, F.mspi_FENCE_COUNT), (uFn 1, F.fn_FN_FENCE_COUNT), (uFn 2, F.fn_FN_FENCE_COUNT),
   (uFn 3, F.fn_FN_FENCE_COUNT), (uFn 4, F.fn_FN_FENCE_COUNT)]

/-- A fence register as the map gives it: a count of 16 bits that a read clears. -/
def fenceFound (u : UnitNo) (c : Fld) : Found := ⟨u, ⟨c.off, 1, 0x1000000, 1, 0x1000000, .all, [⟨15, 0, .rc, 0⟩]⟩, c.off⟩

section FenceRegister
variable {u : UnitNo} {c : Fld} (hf : (u, c) ∈ fenceCounts)
include hf

theorem findReg_fence : findReg (fldAddr u c 0 0) = some (fenceFound u c) :=
  (by decide : ∀ e ∈ fenceCounts, findReg (fldAddr e.1 e.2 0 0) = some (fenceFound e.1 e.2)) (u, c) hf

theorem fence_addr : fldAddr u c 0 0 % 4 = 0 ∧ fldAddr u c 0 0 < 2 ^ 32 ∧ cosyAddr (fldAddr u c 0 0) = false :=
  (by decide : ∀ e ∈ fenceCounts, fldAddr e.1 e.2 0 0 % 4 = 0 ∧ fldAddr e.1 e.2 0 0 < 2 ^ 32 ∧
    cosyAddr (fldAddr e.1 e.2 0 0) = false) (u, c) hf

theorem fence_unit : kindOf u ∈ [UKind.pcie, .mspi, .fn] ∧ kindOf u ∉ [UKind.mac, .tick] :=
  (by decide : ∀ e ∈ fenceCounts, kindOf e.1 ∈ [UKind.pcie, .mspi, .fn] ∧ kindOf e.1 ∉ [UKind.mac, .tick]) (u, c) hf

theorem fence_apart_inject : apart u c 0 0 u F.unit_INJECT 0 0 = true :=
  (by decide : ∀ e ∈ fenceCounts, apart e.1 e.2 0 0 e.1 F.unit_INJECT 0 0 = true) (u, c) hf

/-- Where the count stands in its register. -/
theorem fence_place : c.lsb = 0 ∧ c.width = 16 ∧ fldAddr u c 0 0 = baseOf u + c.off ∧ 0x40 ≤ c.off ∧ lackedMask (fenceFound u c) = 0 :=
  (by decide : ∀ e ∈ fenceCounts, e.2.lsb = 0 ∧ e.2.width = 16 ∧ fldAddr e.1 e.2 0 0 = baseOf e.1 + e.2.off ∧ 0x40 ≤ e.2.off ∧
    lackedMask (fenceFound e.1 e.2) = 0) (u, c) hf

theorem ownedBy_fence (m : Nat) : ownedBy m (fenceFound u c) = true := by
  have hu := (fence_unit hf).1
  unfold ownedBy fenceFound
  dsimp only
  split <;> simp_all

/-- A VF is not function 0, whose fence PCIE holds. -/
theorem fence_notPf0 (h : kindOf u = .fn) : instOf u ≠ 0 :=
  (by decide : ∀ e ∈ fenceCounts, kindOf e.1 = .fn → instOf e.1 ≠ 0) (u, c) hf h

/-- The count is stored as it is shown, not derived. -/
theorem State.derivedWord_fence (s : State) (m : Nat) (w : Word) : s.derivedWord m u c.off w = w := by
  have hu := (fence_unit hf).1
  have ho : c.off = 0x100 ∨ c.off = 0x104 :=
    (by decide : ∀ e ∈ fenceCounts, e.2.off = 0x100 ∨ e.2.off = 0x104) (u, c) hf
  have h0 := fence_notPf0 hf
  unfold State.derivedWord
  rcases ho with ho | ho <;> rw [ho] <;> dsimp only <;> split <;> simp_all

theorem State.readFound_fence (s : State) (m : Nat) : s.readFound m (fenceFound u c) = s.plainRead m (fenceFound u c) := by
  have hu := (fence_unit hf).1
  have h0 := fence_notPf0 hf
  unfold State.readFound fenceFound
  dsimp only
  split <;> simp_all

/-- The value read of a fence register holds the count. -/
theorem State.shown_fence (s : State) (m : Nat) : getBits (s.shown m (fenceFound u c)) 0 16 = s.rd u c := by
  obtain ⟨hlsb, hwidth, haddr, hoff, hmask⟩ := fence_place hf
  have hshown : s.shown m (fenceFound u c) = shownBits (fenceFound u c).row.fields (s.word (fldAddr u c 0 0)) := by
    refine (if_neg (Nat.not_lt.2 hoff)).trans ?_
    change without (s.derivedWord m u c.off (shownBits _ (s.word (baseOf u + c.off)))) _ = _
    rw [State.derivedWord_fence hf, hmask, ← haddr]
    exact BitVec.and_allOnes
  rw [hshown, State.rd, hlsb, hwidth]
  exact (getBits_setBits_self 0#32 0 16 _ (by decide)).trans (Nat.mod_eq_of_lt (getBits_lt _ 0 16))

/-- Reading a fence register clears its count. -/
theorem State.clearRc_fence (s : State) : s.clearRc (fenceFound u c) = s.wr u c 0 := by
  obtain ⟨hlsb, hwidth, haddr, -, -⟩ := fence_place hf
  have hcleared : s.cleared u c.off = 0 := by
    have hu := (fence_unit hf).1
    unfold State.cleared
    simp only [List.mem_cons, List.not_mem_nil, or_false] at hu
    rcases hu with hu | hu | hu <;> simp [hu]
  have hstep : s.clearRc (fenceFound u c) =
      s.setWord (baseOf u + c.off) (setBits (s.word (baseOf u + c.off)) 0 16 (s.cleared u c.off)) := rfl
  rw [hstep, hcleared, State.wr, haddr, hlsb, hwidth]

/-- The count is not where injections are armed. -/
theorem State.armed_wr_fence (s : State) (d : Nat) : (s.wr u c 0).armed u d = s.armed u d := by
  unfold State.armed
  rw [State.rd_wr_apart _ _ _ _ _ _ _ _ _ _ (fence_apart_inject hf)]

/-- With no injection armed, an access of a unit leaves it as it is. -/
theorem State.accessSeen_fence (s : State) (m a k : Nat) (ha : isLeaf u = true → s.armed u 31 = false) :
    (s.wr u c 0).accessSeen m a k u = s.wr u c 0 := by
  unfold State.accessSeen
  split
  case isTrue h => rw [State.check_unarmed _ _ _ _ _ ((s.armed_wr_fence hf 31).trans (ha h))]; rfl
  case isFalse => rfl

/-- What a read of its own fence register shows a master, and what it leaves. -/
theorem State.regReadTo_fence {s : State} {m : Nat} (hd : s.debugBarred m = false) (hv : s.vfBarred m = false)
    (hw : s.readWaits s.host.reads m (fldAddr u c 0 0) = false) (hr : s.resetting u = false)
    (ha : isLeaf u = true → s.armed u 31 = false) :
    s.regReadTo m (fldAddr u c 0 0) = { s.wr u c 0 with readData := s.shown m (fenceFound u c) } := by
  obtain ⟨h4, hlt, hcosy⟩ := fence_addr hf
  have hread : s.readAt m (fldAddr u c 0 0) = (s.shown m (fenceFound u c), s.wr u c 0) := by
    unfold State.readAt
    simp only [findReg_fence hf, ownedBy_fence hf, show s.resetting (fenceFound u c).unit = false from hr, s.readFound_fence hf,
      State.plainRead, State.latchHigh_other s (fenceFound u c) (fence_unit hf).2, s.clearRc_fence hf,
      Bool.not_true, Bool.false_eq_true, if_false]
    exact congrArg _ (s.accessSeen_fence hf _ _ _ ha)
  rw [State.regReadTo_now hd h4 hlt hv hcosy hw, hread]

/-- What a read of its own fence register does, in the words of the obligation. -/
theorem State.fenceRead_spec {s : State} {m : Nat} (hd : s.debugBarred m = false) (hv : s.vfBarred m = false)
    (hw : s.readWaits s.host.reads m (fldAddr u c 0 0) = false) (hr : s.resetting u = false)
    (ha : isLeaf u = true → s.armed u 31 = false) (hx : exec (.fenceRead m) s = .next (s.regReadTo m (fldAddr u c 0 0))) :
    ∃ t, exec (.fenceRead m) s = .next t ∧ getBits t.readData 0 16 = s.rd u c ∧ t.rd u c = 0 ∧
      OnlyRegs { s with readData := t.readData } t [fldAddr u c 0 0] := by
  obtain ⟨hlsb, hwidth, -, -, -⟩ := fence_place hf
  refine ⟨_, by rw [hx, State.regReadTo_fence hf hd hv hw hr ha], s.shown_fence hf m, ?_, ?_⟩
  · exact (State.rd_wr_self s u c 0 0 0 (by rw [hlsb, hwidth]; decide)).trans (Nat.zero_mod _)
  · exact OnlyRegs.wr { s with readData := s.shown m (fenceFound u c) } u c 0 0 0

end FenceRegister

theorem exec_fenceRead_pf0 (s : State) : exec (.fenceRead 1) s = .next (s.regReadTo 1 (fldAddr uPcie F.pcie_FENCE_COUNT 0 0)) := rfl

theorem exec_fenceRead_mspi (s : State) : exec (.fenceRead 8) s = .next (s.regReadTo 8 (fldAddr uMspi F.mspi_FENCE_COUNT 0 0)) := rfl

theorem exec_fenceRead_vf (s : State) {n : Nat} (h1 : 1 ≤ n) (h4 : n ≤ 4) :
    exec (.fenceRead (n + 1)) s = .next (s.regReadTo (n + 1) (fldAddr (uFn n) F.fn_FN_FENCE_COUNT 0 0)) :=
  (if_neg (by omega)).trans (if_pos ⟨by omega, by omega⟩)

/-- The fences of the four VFs are among the fence registers. -/
theorem mem_fenceCounts_vf {n : Nat} (h1 : 1 ≤ n) (h4 : n ≤ 4) : (uFn n, F.fn_FN_FENCE_COUNT) ∈ fenceCounts := by
  obtain rfl | rfl | rfl | rfl : n = 1 ∨ n = 2 ∨ n = 3 ∨ n = 4 := by omega
  all_goals decide

/-- Settles O22: `State.fenceRead_spec` for each of the fence registers. -/
theorem fenceReadsItsRefusals : Obligations.FenceReadsItsRefusals := by
  unfold Obligations.FenceReadsItsRefusals
  exact fun s => ⟨fun hd hv hw hr => State.fenceRead_spec (by decide) hd hv hw hr (fun h => absurd h (by decide)) (exec_fenceRead_pf0 s),
    fun hd hv hw hr ha => State.fenceRead_spec (by decide) hd hv hw hr (fun _ => ha) (exec_fenceRead_mspi s),
    fun n h1 h4 hd hv hw hr ha => State.fenceRead_spec (mem_fenceCounts_vf h1 h4) hd hv hw hr (fun _ => ha) (exec_fenceRead_vf s h1 h4)⟩

end Sys2Proof.Machine
